-- ==== Sys2Proof/Config.lean ====
section
/-! DEFINITION. What the spec leaves open: constants and functions with no body. Nothing can evaluate them, so a
statement that is proved holds for every value of them. -/

namespace Sys2Proof.Config

/-- How many cycles pass in a step (log entry 4). -/
opaque elapsed : Nat → Nat
/-- The read-buffer set of a sector (05 R139 gives no set index; log entry 7). -/
opaque rbSet : Nat → Nat
/-- Which entry a full translation cache drops (07 R178 gives no replacement rule; log entry 5). -/
opaque tlbVictim : Nat → Nat
/-- The words of a noise source (03 R91). -/
opaque noise : Nat → BitVec 64
/-- Bytes of a layout private to the native revision (20 R436, R440, 22 R477). -/
opaque privateByte : Nat → Nat → BitVec 8
/-- The private half of the identity key pair, less 1, and the secret number, less 1, that a signature of a digest uses (24 R497). -/
opaque identitySecret : Nat
opaque signSecret : List (BitVec 8) → Nat
/-- A byte of the mesh-count dump (22 R461, R462): the counts depend on timing. -/
opaque meshCount : Nat → Nat → BitVec 64
/-- The cycles that a network interface takes to decode a compressed chunk (22 R465): no rule gives them. -/
opaque decodeCycles : List (BitVec 8) → Nat
/-- A value the spec leaves open: a fresh one for each reading of a rising counter. -/
opaque freeWord : Nat → BitVec 64

/-- The certificate chain in module flash (24 R497). -/
opaque certChain : List (BitVec 8)

/-- Decgor's P-256 public key, held in boot ROM (24 R492). -/
opaque decgorKey : List (BitVec 8)

/-- The thermal thresholds that a record's TRIM sets for a core (19 R421): TRIM is private (24 R492), and sets THOT above TCOOL. -/
opaque tcool : Nat → Nat → Nat
opaque thotAbove : Nat → Nat → Nat
def thot (trim core : Nat) : Nat := tcool trim core + 1 + thotAbove trim core
/-- What a core's sensor reads in a thermal interval that ends in a cycle (19 R421). -/
opaque reading : Nat → Nat → Nat

/-- The fixed function of a core map that places the groups of a deterministic kernel, and its fixed latency (19 R423, 21 R452). -/
opaque detPlace : Nat → Nat → Nat → Nat
opaque detLatency : Nat → Nat
/-- For how many rotations a reply that arrives late freezes a deterministic kernel (19 R423; log entry 97). -/
opaque detLate : Nat → Nat

end Sys2Proof.Config
end

