-- ==== Sys2Proof/Machine/Bits.lean ====
section
/-! DEFINITION. Bit fields, sign extension and byte order on natural numbers and words. -/

namespace Sys2Proof

/-- Bits lo + n - 1 down to lo of w. -/
def fld (w lo n : Nat) : Nat := w / 2 ^ lo % 2 ^ n

/-- Bit i of w. -/
def bit (w i : Nat) : Bool := w / 2 ^ i % 2 == 1

/-- The natural number of a flag. -/
def b2n (b : Bool) : Nat := if b then 1 else 0

/-- w with bits lo + n - 1 down to lo replaced by v. -/
def setFld (w lo n v : Nat) : Nat := w - fld w lo n * 2 ^ lo + v % 2 ^ n * 2 ^ lo

/-- The two's complement value of the low n bits of w (n at least 1). -/
def sgn (n w : Nat) : Int :=
  if w % 2 ^ n < 2 ^ (n - 1) then ((w % 2 ^ n : Nat) : Int) else ((w % 2 ^ n : Nat) : Int) - (2 ^ n : Nat)

/-- The n-bit two's complement pattern of an integer. -/
def unsgn (n : Nat) (v : Int) : Nat := (v % ((2 ^ n : Nat) : Int)).toNat

/-- Little-endian value of bytes (R34). -/
def leNat : List Byte → Nat
  | [] => 0
  | b :: bs => b.toNat + 256 * leNat bs

/-- The n little-endian bytes of a number (R34). -/
def leBytes : Nat → Nat → List Byte
  | 0, _ => []
  | n + 1, v => BitVec.ofNat 8 v :: leBytes n (v / 256)

/-- 0, 1, ..., n - 1. -/
def upto (n : Nat) : List Nat := List.range n

/-- Quotient rounded up. -/
def cdiv (a b : Nat) : Nat := (a + b - 1) / b

/-- The word of a natural number. -/
def w64 (n : Nat) : Word := BitVec.ofNat 64 n

/-- n little-endian bytes of a record from byte lo on. -/
def recLE (r : List Byte) (lo n : Nat) : Nat := leNat ((r.drop lo).take n)

end Sys2Proof
end

