-- ==== Sys2Proof/Machine/Map.lean ====
section
/-! DEFINITION. Sparse tables as lists of key and value pairs, keys rising. -/

namespace Sys2Proof.Machine
open Sys2Proof

/-- A sparse table; a key that is not listed has the reader's default value. -/
abbrev Table (α : Type) := List (Nat × α)

def tget {α : Type} (d : α) : Table α → Nat → α
  | [], _ => d
  | (k, v) :: m, i => if i = k then v else tget d m i

def tget? {α : Type} : Table α → Nat → Option α
  | [], _ => none
  | (k, v) :: m, i => if i = k then some v else tget? m i

/-- Set the value at a key, keeping the keys in order. -/
def tput {α : Type} : Table α → Nat → α → Table α
  | [], i, x => [(i, x)]
  | (k, v) :: m, i, x =>
    if i = k then (i, x) :: m else if i < k then (i, x) :: (k, v) :: m else (k, v) :: tput m i x

/-- Remove a key. -/
def tdel {α : Type} (m : Table α) (i : Nat) : Table α := m.filter fun p => p.1 != i

def tkeys {α : Type} (m : Table α) : List Nat := m.map (·.1)

/-- The lowest natural number from lo on, of at most n candidates, that satisfies a test. -/
def firstFrom : Nat → Nat → (Nat → Bool) → Option Nat
  | 0, _, _ => none
  | n + 1, lo, p => if p lo then some lo else firstFrom n (lo + 1) p

/-- Replace the element at a position. -/
def lset {α : Type} : List α → Nat → α → List α
  | [], _, _ => []
  | _ :: l, 0, x => x :: l
  | y :: l, i + 1, x => y :: lset l i x

/-- Remove the element at a position. -/
def ldel {α : Type} : List α → Nat → List α
  | [], _ => []
  | _ :: l, 0 => l
  | y :: l, i + 1 => y :: ldel l i

end Sys2Proof.Machine
end

