-- ==== Sys2Proof/Machine/Num.lean ====
section
/-! DEFINITION. Numbers, rounding, conversions, MX scales, the grid and the counter generator (03 R66 to R90). -/

namespace Sys2Proof.Machine
open Sys2Proof

/-- An exact value: NaN, an infinity, or a sign and a magnitude num / den with den not 0 (03 R76). A zero keeps its sign. -/
inductive Val where
  | nan
  | inf (neg : Bool)
  | fin (neg : Bool) (num den : Nat)
  deriving DecidableEq, Repr

def Val.isNan : Val → Bool
  | .nan => true
  | _ => false

def Val.isZero : Val → Bool
  | .fin _ n _ => n == 0
  | _ => false

def Val.isNeg : Val → Bool
  | .nan => false
  | .inf s => s
  | .fin s _ _ => s

/-- The value of an integer. -/
def Val.ofInt (v : Int) : Val := .fin (v < 0) v.natAbs 1

/-- The magnitude n times 2 to the e. -/
def Val.ofScaled (neg : Bool) (n : Nat) (e : Int) : Val :=
  if 0 ≤ e then .fin neg (n * 2 ^ e.toNat) 1 else .fin neg n (2 ^ (-e).toNat)

/-- A value times a power of two; exact. -/
def Val.scale (v : Val) (e : Int) : Val :=
  match v with
  | .fin s n d => if 0 ≤ e then .fin s (n * 2 ^ e.toNat) d else .fin s n (d * 2 ^ (-e).toNat)
  | v => v

def Val.neg : Val → Val
  | .nan => .nan
  | .inf s => .inf !s
  | .fin s n d => .fin (!s) n d

def Val.abs : Val → Val
  | .nan => .nan
  | .inf _ => .inf false
  | .fin _ n d => .fin false n d

/-- The integer numerator over the denominator. -/
def signed (neg : Bool) (n : Nat) : Int := if neg then -(n : Int) else n

/-- Exact sum by IEEE 754: an exact zero sum of opposite signs is +0 under RNE (05 R128, R129). -/
def Val.add : Val → Val → Val
  | .nan, _ => .nan
  | _, .nan => .nan
  | .inf a, .inf b => if a = b then .inf a else .nan
  | .inf a, _ => .inf a
  | _, .inf b => .inf b
  | .fin a n d, .fin b m e =>
    let v : Int := signed a (n * e) + signed b (m * d)
    if v = 0 then .fin (a && b) 0 1 else .fin (v < 0) v.natAbs (d * e)

def Val.mul : Val → Val → Val
  | .nan, _ => .nan
  | _, .nan => .nan
  | .inf a, .inf b => .inf (a != b)
  | .inf a, .fin b m _ => if m = 0 then .nan else .inf (a != b)
  | .fin a n _, .inf b => if n = 0 then .nan else .inf (a != b)
  | .fin a n d, .fin b m e => .fin (a != b) (n * m) (d * e)

/-- Exact quotient; 0 / 0 and inf / inf give NaN, x / 0 an infinity (05 R129). -/
def Val.div : Val → Val → Val
  | .nan, _ => .nan
  | _, .nan => .nan
  | .inf _, .inf _ => .nan
  | .inf a, .fin b _ _ => .inf (a != b)
  | .fin a _ _, .inf b => .fin (a != b) 0 1
  | .fin a n d, .fin b m e =>
    if m = 0 then (if n = 0 then .nan else .inf (a != b)) else .fin (a != b) (n * e) (d * m)

/-- Strict order of values that are not NaN; -0 equals +0. -/
def Val.lt : Val → Val → Bool
  | .nan, _ => false
  | _, .nan => false
  | .inf a, .inf b => a && !b
  | .inf a, _ => a
  | _, .inf b => !b
  | .fin a n d, .fin b m e => decide (signed a (n * e) < signed b (m * d))

def Val.eq : Val → Val → Bool
  | .nan, _ => false
  | _, .nan => false
  | .inf a, .inf b => a == b
  | .inf _, _ => false
  | _, .inf _ => false
  | .fin a n d, .fin b m e => decide (signed a (n * e) = signed b (m * d))

/-- Integer square root, bit by bit from bit b - 1. -/
def isqrtFrom : Nat → Nat → Nat → Nat
  | 0, r, _ => r
  | b + 1, r, n => isqrtFrom b (if (r + 2 ^ b) * (r + 2 ^ b) ≤ n then r + 2 ^ b else r) n

def isqrt (n : Nat) : Nat := isqrtFrom (Nat.log2 n / 2 + 1) 0 n

/-- Square root of n / d to at least 64 significant bits: exact where it is, otherwise a value strictly between
the two neighbours at that precision, which every rounding to a shorter format treats as the root itself. -/
def sqrtMag (n d : Nat) : Nat × Nat :=
  if n = 0 then (0, 1) else
  let k := 96 + Nat.log2 d
  let s := isqrt (n * 4 ^ k / d)
  if s * s * d = n * 4 ^ k then (s, 2 ^ k) else (2 * s + 1, 2 ^ (k + 1))

/-- Square root (05 R129). -/
def Val.sqrt : Val → Val
  | .nan => .nan
  | .inf s => if s then .nan else .inf false
  | .fin s n d =>
    if n = 0 then .fin s 0 1 else if s then .nan
    else let r := sqrtMag n d; .fin false r.1 r.2

/-- 1 / sqrt (09 R221): +0 gives +inf, -0 gives -inf. -/
def Val.rsqrt : Val → Val
  | .nan => .nan
  | .inf s => if s then .nan else .fin false 0 1
  | .fin s n d =>
    if n = 0 then .inf s else if s then .nan
    else let r := sqrtMag d n; .fin false r.1 r.2

/-- Precision of the exponential, in bits. -/
def expBits : Nat := 224

/-- The product of 2^(2^-k) over the bits k = j, j + 1, ... of a fraction f / 2^expBits, held to expBits bits;
c is 2^(2^-(j-1)) to the same precision. -/
def exp2Frac : Nat → Nat → Nat → Nat → Nat
  | 0, _, _, acc => acc
  | fuel + 1, f, c, acc =>
    let c' := isqrt (c * 2 ^ expBits)
    exp2Frac fuel (f * 2 % 2 ^ expBits) c'
      (if f * 2 / 2 ^ expBits = 1 then acc * c' / 2 ^ expBits else acc)

/-- 2^a (09 R221): a power of two where a is an integer, otherwise a value strictly inside the interval that the
computed digits give. -/
def Val.exp2 : Val → Val
  | .nan => .nan
  | .inf s => if s then .fin false 0 1 else .inf false
  | .fin s n d =>
    let t : Int := signed s n
    let e : Int := t / (d : Int)
    let r : Nat := (t % (d : Int)).toNat
    let ec : Int := if e < -400 then -400 else if 400 < e then 400 else e
    if r = 0 then .ofScaled false 1 ec
    else
      let m := exp2Frac expBits (r * 2 ^ expBits / d) (2 * 2 ^ expBits) (2 ^ expBits)
      .ofScaled false (2 * m + 1) (ec - (expBits : Int) - 1)

/-- Digits of log2 of y / 2^256 for y from 2^256 up to 2^257, by repeated squaring. -/
def log2Digits : Nat → Nat → Nat → Nat
  | 0, _, acc => acc
  | fuel + 1, y, acc =>
    let q := y * y / 2 ^ 256
    if 2 ^ 257 ≤ q then log2Digits fuel (q / 2) (2 * acc + 1) else log2Digits fuel q (2 * acc)

/-- The exponent of the leading bit of n / d (n not 0). -/
def floorLog2 (n d : Nat) : Int :=
  let a := Nat.log2 n
  let b := Nat.log2 d
  let e : Int := (a : Int) - (b : Int)
  if b ≤ a then (if d * 2 ^ (a - b) ≤ n then e else e - 1)
  else (if d ≤ n * 2 ^ (b - a) then e else e - 1)

/-- n / (d * 2^e), rounded down, with its remainder over a denominator. -/
def divPow (n d : Nat) (e : Int) : Nat × Nat × Nat :=
  if 0 ≤ e then (n / (d * 2 ^ e.toNat), n % (d * 2 ^ e.toNat), d * 2 ^ e.toNat)
  else (n * 2 ^ (-e).toNat / d, n * 2 ^ (-e).toNat % d, d)

/-- log2 a (09 R221). -/
def Val.log2 : Val → Val
  | .nan => .nan
  | .inf s => if s then .nan else .inf false
  | .fin s n d =>
    if n = 0 then .inf true else if s then .nan else
    let e := floorLog2 n d
    let q := divPow n d (e - 256)
    if q.2.1 = 0 ∧ q.1 = 2 ^ 256 then .ofInt e
    else
      let f := log2Digits 128 q.1 0
      let v : Int := e * (2 ^ 129 : Nat) + (2 * f + 1 : Nat)
      .fin (v < 0) v.natAbs (2 ^ 129)

/-- Rounding modes (R50, 03 R74). SR carries its 32 random bits (03 R75). -/
inductive Rnd where
  | rne | rtz | rdn | rup
  | sr (u : Nat)
  deriving DecidableEq, Repr

/-- Does a magnitude whose fraction above the lower neighbour is rem / den round up? odd is whether the lower
neighbour's lowest bit is set (03 R74, R75). -/
def Rnd.up (r : Rnd) (neg odd : Bool) (rem den : Nat) : Bool :=
  if rem = 0 then false else
  match r with
  | .rne => if 2 * rem = den then odd else den < 2 * rem
  | .rtz => false
  | .rdn => neg
  | .rup => !neg
  | .sr u => 2 ^ 32 ≤ rem * 2 ^ 32 / den + u

/-- Status flags, placed as VSTAT[3:0] (09 R217): INEXACT 1, NAN_SEEN 2, SATURATED 4, SCALE_FLOOR 8. -/
def fInexact : Nat := 1
def fNan : Nat := 2
def fSat : Nat := 4
def fFloor : Nat := 8

/-- A binary floating-point format (03 R67): mantissa bits, bias, the code of the largest finite magnitude, the
code of infinity where it has one, and the canonical NaN where it has one. -/
structure FFmt where
  bits : Nat
  m : Nat
  bias : Nat
  maxCode : Nat
  infCode : Option Nat
  nanCode : Option Nat
  deriving DecidableEq, Repr

def fp32 : FFmt := ⟨32, 23, 127, 0x7F7FFFFF, some 0x7F800000, some 0x7FC00000⟩
def fp16 : FFmt := ⟨16, 10, 15, 0x7BFF, some 0x7C00, some 0x7E00⟩
def bf16 : FFmt := ⟨16, 7, 127, 0x7F7F, some 0x7F80, some 0x7FC0⟩
def e4m3 : FFmt := ⟨8, 3, 7, 0x7E, none, some 0x7F⟩
def e5m2 : FFmt := ⟨8, 2, 15, 0x7B, some 0x7C, some 0x7E⟩
def e2m3 : FFmt := ⟨6, 3, 1, 0x1F, none, none⟩
def e3m2 : FFmt := ⟨6, 2, 3, 0x1F, none, none⟩
def e2m1 : FFmt := ⟨4, 1, 1, 0x7, none, none⟩

/-- A number format: an integer, a float, or E8M0 (03 R66 to R68). -/
inductive Fmt where
  | int (bits : Nat) (sgnd : Bool)
  | flt (f : FFmt)
  | e8m0
  deriving DecidableEq, Repr

def Fmt.bits : Fmt → Nat
  | .int n _ => n
  | .flt f => f.bits
  | .e8m0 => 8

/-- The format of an ELEM code (07 R169); QA codes are unsigned integers, BYTES is U8. -/
def elemFmt (c : Nat) : Fmt :=
  match c with
  | 1 => .int 4 true | 2 => .int 4 false | 3 => .int 8 true | 4 => .int 8 false | 5 => .int 16 true
  | 6 => .int 32 true | 7 => .int 64 true | 8 => .flt fp32 | 9 => .flt fp16 | 10 => .flt bf16
  | 11 => .flt e4m3 | 12 => .flt e5m2 | 13 => .flt e2m3 | 14 => .flt e3m2 | 15 => .flt e2m1
  | 16 => .int 4 false | _ => .int 8 false

/-- Decode (03 R67, R68, R76): the exact value of a code. -/
def decodeFlt (f : FFmt) (c : Nat) : Val :=
  let neg := bit c (f.bits - 1)
  let mag := c % 2 ^ (f.bits - 1)
  if f.infCode = some mag then .inf neg
  else if f.maxCode < mag then .nan
  else
    let e := mag / 2 ^ f.m
    let umin : Int := 1 - (f.bias : Int) - (f.m : Int)
    if e = 0 then .ofScaled neg mag umin
    else .ofScaled neg (2 ^ f.m + mag % 2 ^ f.m) (umin + (e : Int) - 1)

def decodeNum (f : Fmt) (c : Nat) : Val :=
  match f with
  | .int n true => .ofInt (sgn n c)
  | .int n false => .fin false (c % 2 ^ n) 1
  | .flt f => decodeFlt f (c % 2 ^ f.bits)
  | .e8m0 => if c % 256 = 255 then .nan else .ofScaled false 1 (((c % 256 : Nat) : Int) - 127)

/-- Rounding of a magnitude to a float format of unbounded exponent range (03 R74): the code, counting on past the
largest finite one, and whether it is exact. -/
def roundFlt (f : FFmt) (r : Rnd) (neg : Bool) (n d : Nat) : Nat × Bool :=
  if n = 0 then (0, true) else
  let umin : Int := 1 - (f.bias : Int) - (f.m : Int)
  let u0 : Int := floorLog2 n d - (f.m : Int)
  let u : Int := if u0 < umin then umin else u0
  let q := divPow n d u
  let lo := (u - umin).toNat * 2 ^ f.m + q.1
  (if r.up neg (q.1 % 2 == 1) q.2.1 q.2.2 then lo + 1 else lo, q.2.1 = 0)

/-- Does an overflow give an infinity under this mode (03 R77)? -/
def Rnd.overInf (r : Rnd) (neg : Bool) : Bool :=
  match r with
  | .rne | .sr _ => true
  | .rtz => false
  | .rdn => neg
  | .rup => !neg

/-- Convert to a float format, with its flags (03 R77, R78). -/
def convertFlt (f : FFmt) (r : Rnd) (sat : Bool) (v : Val) : Nat × Nat :=
  let sgnBit (neg : Bool) := if neg then 2 ^ (f.bits - 1) else 0
  match v with
  | .nan => (f.nanCode.getD 0, fNan)
  | .inf neg =>
    match f.infCode, f.nanCode with
    | some c, _ => if sat then (sgnBit neg + f.maxCode, fSat) else (sgnBit neg + c, 0)
    | none, some c => if sat then (sgnBit neg + f.maxCode, fSat) else (c, fNan)
    | none, none => (sgnBit neg + f.maxCode, fSat)
  | .fin neg n d =>
    let q := roundFlt f r neg n d
    if q.1 ≤ f.maxCode then (sgnBit neg + q.1, if q.2 then 0 else fInexact)
    else
      match f.infCode, f.nanCode with
      | some c, _ =>
        if sat then (sgnBit neg + f.maxCode, fInexact + fSat)
        else if r.overInf neg then (sgnBit neg + c, fInexact)
        else (sgnBit neg + f.maxCode, fInexact)
      | none, some c =>
        if sat then (sgnBit neg + f.maxCode, fInexact + fSat)
        else if r.overInf neg then (c, fInexact + fNan)
        else (sgnBit neg + f.maxCode, fInexact)
      | none, none => (sgnBit neg + f.maxCode, fInexact + fSat)

/-- Convert to an integer format: rounded once, then clamped (03 R77, R78). -/
def convertInt (bits : Nat) (sgnd : Bool) (r : Rnd) (v : Val) : Nat × Nat :=
  let hi : Int := if sgnd then 2 ^ (bits - 1) - 1 else 2 ^ bits - 1
  let lo : Int := if sgnd then -(2 ^ (bits - 1)) else 0
  match v with
  | .nan => (0, fNan)
  | .inf neg => (unsgn bits (if neg then lo else hi), fSat)
  | .fin neg n d =>
    let m := if r.up neg (n / d % 2 == 1) (n % d) d then n / d + 1 else n / d
    let i := signed neg m
    if hi < i then (unsgn bits hi, fInexact + fSat)
    else if i < lo then (unsgn bits lo, fInexact + fSat)
    else (unsgn bits i, if n % d = 0 then 0 else fInexact)

/-- Convert to E8M0 (03 R77, R78). -/
def convertE8m0 (r : Rnd) (sat : Bool) (v : Val) : Nat × Nat :=
  match v with
  | .nan => (255, fNan)
  | .inf _ => (255, fNan)
  | .fin neg n d =>
    if neg ∨ n = 0 then (255, fNan + fInexact) else
    let e := floorLog2 n d
    if e < -127 then
      match r with
      | .rup | .sr _ => (0, fInexact)
      | _ => (0, fInexact + fSat)
    else
      let q := divPow n d e
      let lo : Nat := (e + 127).toNat
      let up : Bool :=
        match r with
        | .rne => if 2 * q.2.1 = q.2.2 then lo % 2 == 1 else q.2.2 < 2 * q.2.1
        | r => r.up false false q.2.1 q.2.2
      let c := if up then lo + 1 else lo
      let ix := if q.2.1 = 0 then 0 else fInexact
      if c ≤ 254 then (c, ix)
      else if sat then (254, fInexact + fSat) else (255, fInexact + fNan)

/-- Convert (03 R77): the target code and the flags (R78). -/
def convertNum (f : Fmt) (r : Rnd) (sat : Bool) (v : Val) : Nat × Nat :=
  match f with
  | .int n s => convertInt n s r v
  | .flt f => convertFlt f r sat v
  | .e8m0 => convertE8m0 r sat v

/-- A 32-bit rotation to the left. -/
def rotl32 (x n : Nat) : Nat := x * 2 ^ n % 2 ^ 32 + x / 2 ^ (32 - n)

/-- The rounds of the counter generator (03 R87). -/
def dcgRounds : Nat → Nat → Nat → Nat → Nat → Nat → Nat → Nat
  | 0, _, _, x0, x1, x2, x3 => x0 + x1 * 2 ^ 32 + x2 * 2 ^ 64 + x3 * 2 ^ 96
  | r + 1, k0, k1, x0, x1, x2, x3 =>
    let k0 := (k0 + 0x9E3779B9) % 2 ^ 32
    let k1 := (k1 + 0xBB67AE85) % 2 ^ 32
    let x0 := (x0 + k0) % 2 ^ 32
    let x2 := (x2 + k1) % 2 ^ 32
    let x0 := (x0 + x1) % 2 ^ 32
    let x3 := rotl32 (Nat.xor x3 x0) 16
    let x2 := (x2 + x3) % 2 ^ 32
    let x1 := rotl32 (Nat.xor x1 x2) 12
    dcgRounds r k0 k1 x0 x1 x2 x3

/-- DCG (03 R87): a 128-bit block. -/
def dcg (seed stream counter : Nat) : Nat :=
  dcgRounds 10 (fld seed 0 32) (fld seed 32 32) (fld counter 0 32) (fld counter 32 32) (fld stream 0 32)
    0x243F6A88

/-- The 32 random bits of one stochastic rounding (03 R75). -/
def srBits (seed stream counter : Nat) : Nat := dcg seed stream counter % 2 ^ 32

/-- A rounding code of R50 made a mode; SR draws at the given seed, stream and counter. -/
def rndOf (code seed stream counter : Nat) : Rnd :=
  match code with
  | 0 => .rne | 1 => .rtz | 2 => .rdn | 3 => .rup | _ => .sr (srBits seed stream counter)

/-- The exponent of the largest normal binade of an MX element (03 R79). -/
def mxEmax (elem : Nat) : Int :=
  match elem with
  | 11 => 8 | 12 => 15 | 13 => 2 | 14 => 4 | 15 => 2 | _ => 0

/-- The largest magnitude of a list; NaN if any is NaN (03 R79). -/
def amax : List Val → Val
  | [] => .fin false 0 1
  | v :: vs =>
    let r := amax vs
    if v.isNan || r.isNan then .nan else if r.lt v.abs then v.abs else r

/-- The value of an MX element code: MXINT8 elements are in units of 2^-6 (03 R71). -/
def mxElemVal (elem c : Nat) : Val :=
  if elem = 3 then (decodeNum (.int 8 true) c).scale (-6) else decodeNum (elemFmt elem) c

/-- An MX element under its scale byte (03 R70). -/
def mxVal (elem scale c : Nat) : Val :=
  if scale % 256 = 255 then .nan else (mxElemVal elem c).scale (((scale % 256 : Nat) : Int) - 127)

/-- The element code of a value already divided by 2^X (03 R79). -/
def mxElemCode (elem : Nat) (r : Rnd) (sat : Bool) (v : Val) : Nat × Nat :=
  if elem = 3 then convertNum (.int 8 true) r sat (v.scale 6) else convertNum (elemFmt elem) r sat v

/-- MxScale (03 R79): the scale code, the element codes and the flags; r gives the mode of element i. -/
def mxScale (xs : List Val) (elem : Nat) (r : List Rnd) (sat : Bool) : Nat × List Nat × Nat :=
  match amax xs with
  | .nan => (255, xs.map fun _ => 0, fNan)
  | .inf _ => (255, xs.map fun _ => 0, fNan)
  | .fin _ n d =>
    if n = 0 then
      (0, xs.map fun v =>
        if elem = 3 then 0 else if v.isNeg then 2 ^ ((elemFmt elem).bits - 1) else 0, 0)
    else
      let x0 : Int := floorLog2 n d - mxEmax elem
      let x1 : Int := if x0 < -127 then -127 else if 127 < x0 then 127 else x0
      let cs := (xs.zip r).map fun p => mxElemCode elem p.2 sat (p.1.scale (-x1))
      ((x1 + 127).toNat, cs.map (·.1),
        cs.foldl (fun a c => Nat.lor a c.2) (if x0 < -127 then fFloor else 0))

/-- A grid lane: g (64 bits, two's complement) and its flag: 0 normal, 1 over+, 2 over-, 3 NaN (03 R80). -/
structure Lane where
  g : Word
  flag : BitVec 2
  deriving DecidableEq, Repr

def Lane.zero : Lane := ⟨0, 0⟩

/-- GridCombine (03 R81). -/
def gridCombine (a b : BitVec 2) : BitVec 2 := a ||| b

/-- RoundToGrid (03 R83): the contribution n as a 64-bit pattern, and its flag. -/
def roundToGrid (v : Val) (d : Int) : Word × BitVec 2 :=
  match v with
  | .nan => (0, 3)
  | .inf neg => (0, if neg then 2 else 1)
  | .fin neg n m =>
    let q := divPow n m d
    let k := if Rnd.rne.up neg (q.1 % 2 == 1) q.2.1 q.2.2 then q.1 + 1 else q.1
    if 2 ^ 62 < k then (0, if neg then 2 else 1)
    else (BitVec.ofInt 64 (signed neg k), 0)

/-- Adding a contribution to a lane (03 R81, R83). -/
def Lane.add (l : Lane) (c : Word × BitVec 2) : Lane := ⟨l.g + c.1, gridCombine l.flag c.2⟩

/-- Accumulate (03 R83). -/
def Lane.accumulate (l : Lane) (v : Val) (d : Int) : Lane := l.add (roundToGrid v d)

/-- The value of a lane under its datum (03 R76, R80). -/
def Lane.val (l : Lane) (d : Int) : Val :=
  match l.flag.toNat with
  | 0 => (Val.ofInt l.g.toInt).scale d
  | 1 => .inf false
  | 2 => .inf true
  | _ => .nan

/-- The 16 bytes of a lane in memory (03 R82). -/
def Lane.bytes (l : Lane) : List Byte := leBytes 8 l.g.toNat ++ leBytes 8 l.flag.toNat

/-- The lane that 16 bytes hold (03 R82). -/
def laneOf (bs : List Byte) : Lane :=
  ⟨BitVec.ofNat 64 (leNat (bs.take 8)), BitVec.ofNat 2 (leNat ((bs.drop 8).take 1))⟩

/-- Does a code count as nonzero (03 R86)? -/
def codeNonzero (elem c : Nat) : Bool :=
  match elemFmt elem with
  | .flt f => c % 2 ^ (f.bits - 1) != 0
  | f => c % 2 ^ f.bits != 0

/-- Elements per 64-byte sector of an ELEM code (03 R73). -/
def elemsPerSector (elem : Nat) : Nat :=
  match (elemFmt elem).bits with
  | 4 => 128 | 6 => 84 | 8 => 64 | 16 => 32 | 32 => 16 | _ => 8

/-- The code of element i of a run of bytes that starts at a sector boundary (03 R73). -/
def elemAt (elem : Nat) (byteAt : Nat → Byte) (i : Nat) : Nat :=
  match (elemFmt elem).bits with
  | 4 => fld (byteAt (i / 2)).toNat (4 * (i % 2)) 4
  | 6 =>
    let sec := i / 84
    let k := i % 84
    let b := 64 * sec + 3 * (k / 4)
    fld (leNat [byteAt b, byteAt (b + 1), byteAt (b + 2)]) (6 * (k % 4)) 6
  | n => leNat ((upto (n / 8)).map fun j => byteAt (n / 8 * i + j))

/-- How many bytes n packed elements take, whole bytes, groups of 3 bytes for 6-bit elements with byte 63 of each
whole sector (03 R73). -/
def elemBytes (elem n : Nat) : Nat :=
  match (elemFmt elem).bits with
  | 4 => cdiv n 2
  | 6 => if n % 84 = 0 then 64 * (n / 84) else 64 * (n / 84) + 3 * cdiv (n % 84) 4
  | b => b / 8 * n

/-- Packing of codes into bytes (03 R73): unused bits and byte 63 of a 6-bit sector are zero. -/
def packElems (elem : Nat) (codes : List Nat) : List Byte :=
  let at' (i : Nat) : Nat := codes.getD i 0
  match (elemFmt elem).bits with
  | 4 => (upto (cdiv codes.length 2)).map fun j => BitVec.ofNat 8 (at' (2 * j) % 16 + at' (2 * j + 1) % 16 * 16)
  | 6 => (upto (elemBytes elem codes.length)).map fun j =>
      let sec := j / 64
      let k := j % 64
      if k = 63 then 0 else
      let i := 84 * sec + 4 * (k / 3)
      let w := at' i % 64 + at' (i + 1) % 64 * 2 ^ 6 + at' (i + 2) % 64 * 2 ^ 12 + at' (i + 3) % 64 * 2 ^ 18
      BitVec.ofNat 8 (w / 256 ^ (k % 3))
  | n => codes.flatMap fun c => leBytes (n / 8) c

end Sys2Proof.Machine
end

