-- ==== Sys2Proof/Syntax.lean ====
section
/-! DEFINITION. The syntax: every row of the opcode table is one constructor of Instr. -/

namespace Sys2Proof

/-- A scalar register code: 0-7 are s0-s7, 8 + N is wN (R48). -/
abbrev Reg := Fin 32
/-- A predicate bit cN (R48). -/
abbrev Pr := Fin 16
/-- A pointer p0-p7 (R49). -/
abbrev Ptr := Fin 8
/-- A plat, handle or mailbox number (R49). -/
abbrev Obj2 := Fin 4
/-- An accumulator tile a0-a15 (R49). -/
abbrev Tile := Fin 16
/-- A tree t0-t7 (R49). -/
abbrev TreeR := Fin 8
/-- A ring object (R49). -/
abbrev Ring := Fin 16

/-- The header of every instruction: close bit, guard predicate, guard inversion (R45). -/
structure Hdr where
  c : Bool
  pred : Pr
  pn : Bool
  deriving DecidableEq, Repr

/-- Scopes (R50). -/
inductive Scope where
  | strand | core | cluster | die | package | system
  deriving DecidableEq, Repr

def Scope.code : Scope → Nat
  | .strand => 0 | .core => 1 | .cluster => 2 | .die => 3 | .package => 4 | .system => 5

def Scope.ofCode : Nat → Option Scope
  | 0 => some .strand | 1 => some .core | 2 => some .cluster | 3 => some .die | 4 => some .package
  | 5 => some .system | _ => none

/-- Conditions of FCMP (R55, 05 R130). -/
inductive FCond where
  | eq | ne | lt | le | gt | ge | un | ord
  deriving DecidableEq, Repr

def FCond.code : FCond → Nat
  | .eq => 0 | .ne => 1 | .lt => 2 | .le => 3 | .gt => 4 | .ge => 5 | .un => 6 | .ord => 7

def FCond.ofCode : Nat → Option FCond
  | 0 => some .eq | 1 => some .ne | 2 => some .lt | 3 => some .le | 4 => some .gt | 5 => some .ge
  | 6 => some .un | 7 => some .ord | _ => none

/-- Conditions of CMP and CMPI (R55, 04 R111). -/
inductive ICond where
  | eq | ne | lt | ge | ltu | geu | tst | ntst
  deriving DecidableEq, Repr

def ICond.code : ICond → Nat
  | .eq => 0 | .ne => 1 | .lt => 2 | .ge => 3 | .ltu => 4 | .geu => 5 | .tst => 6 | .ntst => 7

def ICond.ofCode : Nat → Option ICond
  | 0 => some .eq | 1 => some .ne | 2 => some .lt | 3 => some .ge | 4 => some .ltu | 5 => some .geu
  | 6 => some .tst | 7 => some .ntst | _ => none

/-- CMPI has no TST and no NTST (R55). -/
def ICond.forImm : ICond → Bool
  | .tst | .ntst => false
  | _ => true

/-- Kinds of FCVT (R55): the target, then the source. -/
inductive CvtKind where
  | f32I64 | f32U64 | i64F32 | u64F32 | f32F16 | f16F32 | f32Bf16 | bf16F32 | i32F32 | u32F32
  | f32I32 | f32U32
  deriving DecidableEq, Repr

def CvtKind.code : CvtKind → Nat
  | .f32I64 => 0 | .f32U64 => 1 | .i64F32 => 2 | .u64F32 => 3 | .f32F16 => 4 | .f16F32 => 5
  | .f32Bf16 => 6 | .bf16F32 => 7 | .i32F32 => 8 | .u32F32 => 9 | .f32I32 => 10 | .f32U32 => 11

def CvtKind.ofCode : Nat → Option CvtKind
  | 0 => some .f32I64 | 1 => some .f32U64 | 2 => some .i64F32 | 3 => some .u64F32 | 4 => some .f32F16
  | 5 => some .f16F32 | 6 => some .f32Bf16 | 7 => some .bf16F32 | 8 => some .i32F32 | 9 => some .u32F32
  | 10 => some .f32I32 | 11 => some .f32U32 | _ => none

/-- Deterministic rounding of FCVT (R50). -/
inductive DRm where
  | rne | rtz | rdn | rup
  deriving DecidableEq, Repr

def DRm.code : DRm → Nat
  | .rne => 0 | .rtz => 1 | .rdn => 2 | .rup => 3

def DRm.ofCode : Nat → Option DRm
  | 0 => some .rne | 1 => some .rtz | 2 => some .rdn | 3 => some .rup | _ => none

/-- Element types of the vector formats (R50). -/
inductive ElTy where
  | f32 | bf16 | f16 | i32 | i16 | i8
  deriving DecidableEq, Repr

def ElTy.code : ElTy → Nat
  | .f32 => 0 | .bf16 => 1 | .f16 => 2 | .i32 => 3 | .i16 => 4 | .i8 => 5

def ElTy.ofCode : Nat → Option ElTy
  | 0 => some .f32 | 1 => some .bf16 | 2 => some .f16 | 3 => some .i32 | 4 => some .i16 | 5 => some .i8
  | _ => none

def ElTy.isFloat : ElTy → Bool
  | .f32 | .bf16 | .f16 => true
  | _ => false

/-- Bearings (R49). -/
inductive Bearing where
  | pe | pw | pn | ps | pf | pa
  deriving DecidableEq, Repr

def Bearing.code : Bearing → Nat
  | .pe => 0 | .pw => 1 | .pn => 2 | .ps => 3 | .pf => 4 | .pa => 5

def Bearing.ofCode : Nat → Option Bearing
  | 0 => some .pe | 1 => some .pw | 2 => some .pn | 3 => some .ps | 4 => some .pf | 5 => some .pa
  | _ => none

/-- The fields of extended words 1 and 2 (R54). -/
structure Ext where
  f0 : Reg
  f1 : Reg
  f2 : Reg
  f3 : Reg
  obj0 : Fin 16
  obj1 : Fin 16
  obj2 : Fin 16
  mark : BitVec 4
  mode : BitVec 8
  imm : BitVec 20
  deriving DecidableEq, Repr

/-- The extended instructions (R55): the body of a repetition holds only these (R114). -/
inductive ExtOp where
  | vcmp | vsel | vscale | vfill | vrand | vnzc | vchain | vcvt | vqmx | vdqmx | vqa
  | cld | cldc | cldSp | old | oldT | ocols | adrain | cgrp | cag | crs | ca2a | cbar | mseq
  deriving DecidableEq, Repr


/-- A write that another node sends to this package over Clavos (22 R456, R463 to R465): where it goes, its payload, whether
it is a release, its sender, whether the payload is RAW, whether the dictionary is reset first, the owning context, and the virtual channel: 0
carries requests (22 R461); what another carries is decoded, and is no write. -/
structure Fabric where
  pa : Nat
  bytes : List Byte
  rel : Bool
  src : Nat
  raw : Bool
  drst : Bool
  ctx : Nat
  vc : Nat
  deriving DecidableEq, Repr


/-- One constructor for each row of the opcode table: the instructions (each with its header and its operand
fields), the system-queue commands, and the events, which are the steps of the other agents. -/
inductive Instr where
  /-- ADD: Sets rd to ra plus rb, modulo 2^64. (R122) -/
  | add (h : Hdr) (rd : Reg) (ra : Reg) (rb : Reg)
  /-- SUB: Sets rd to ra minus rb, modulo 2^64. (R122) -/
  | sub (h : Hdr) (rd : Reg) (ra : Reg) (rb : Reg)
  /-- MIN: Sets rd to the signed smaller of ra and rb. (R122) -/
  | min (h : Hdr) (rd : Reg) (ra : Reg) (rb : Reg)
  /-- MINU: Sets rd to the unsigned smaller of ra and rb. (R122) -/
  | minu (h : Hdr) (rd : Reg) (ra : Reg) (rb : Reg)
  /-- AND: Sets rd to the bitwise and of ra and rb. (R122) -/
  | and (h : Hdr) (rd : Reg) (ra : Reg) (rb : Reg)
  /-- OR: Sets rd to the bitwise or of ra and rb. (R122) -/
  | or (h : Hdr) (rd : Reg) (ra : Reg) (rb : Reg)
  /-- XOR: Sets rd to the bitwise exclusive or of ra and rb. (R122) -/
  | xor (h : Hdr) (rd : Reg) (ra : Reg) (rb : Reg)
  /-- ANDN: Sets rd to ra and not rb. (R122) -/
  | andn (h : Hdr) (rd : Reg) (ra : Reg) (rb : Reg)
  /-- SHL: Shifts ra left by rb[5:0]. (R122) -/
  | shl (h : Hdr) (rd : Reg) (ra : Reg) (rb : Reg)
  /-- SHR: Shifts ra right logically by rb[5:0]. (R122) -/
  | shr (h : Hdr) (rd : Reg) (ra : Reg) (rb : Reg)
  /-- SAR: Shifts ra right arithmetically by rb[5:0]. (R122) -/
  | sar (h : Hdr) (rd : Reg) (ra : Reg) (rb : Reg)
  /-- ROL: Rotates ra left by rb[5:0]. (R122) -/
  | rol (h : Hdr) (rd : Reg) (ra : Reg) (rb : Reg)
  /-- MUL: Sets rd to the low 64 bits of ra times rb. (R122) -/
  | mul (h : Hdr) (rd : Reg) (ra : Reg) (rb : Reg)
  /-- MULH: Sets rd to the high 64 bits of the signed product. (R122) -/
  | mulh (h : Hdr) (rd : Reg) (ra : Reg) (rb : Reg)
  /-- MULHU: Sets rd to the high 64 bits of the unsigned product. (R122) -/
  | mulhu (h : Hdr) (rd : Reg) (ra : Reg) (rb : Reg)
  /-- DIV: Signed division truncating toward zero, with fixed results for zero and overflow. (R123) -/
  | div (h : Hdr) (rd : Reg) (ra : Reg) (rb : Reg)
  /-- DIVU: Unsigned division, giving all ones for a zero divisor. (R123) -/
  | divu (h : Hdr) (rd : Reg) (ra : Reg) (rb : Reg)
  /-- REM: Signed remainder with the sign of the dividend. (R123) -/
  | rem (h : Hdr) (rd : Reg) (ra : Reg) (rb : Reg)
  /-- REMU: Unsigned remainder. (R123) -/
  | remu (h : Hdr) (rd : Reg) (ra : Reg) (rb : Reg)
  /-- MAX: Sets rd to the signed larger of ra and rb. (R122) -/
  | max (h : Hdr) (rd : Reg) (ra : Reg) (rb : Reg)
  /-- MAXU: Sets rd to the unsigned larger of ra and rb. (R122) -/
  | maxu (h : Hdr) (rd : Reg) (ra : Reg) (rb : Reg)
  /-- CLZ: Counts the leading zero bits of ra. (R122) -/
  | clz (h : Hdr) (rd : Reg) (ra : Reg)
  /-- CTZ: Counts the trailing zero bits of ra. (R122) -/
  | ctz (h : Hdr) (rd : Reg) (ra : Reg)
  /-- POPC: Counts the one bits of ra. (R122) -/
  | popc (h : Hdr) (rd : Reg) (ra : Reg)
  /-- SEXT: Sign-extends the low n bits of ra into rd. (R124) -/
  | sext (h : Hdr) (rd : Reg) (ra : Reg) (n : BitVec 6)
  /-- ZEXT: Zero-extends the low n bits of ra into rd. (R124) -/
  | zext (h : Hdr) (rd : Reg) (ra : Reg) (n : BitVec 6)
  /-- BFX: Extracts a bit field of ra, with position and length taken from register rb. (R125) -/
  | bfx (h : Hdr) (rd : Reg) (ra : Reg) (rb : Reg)
  /-- BFX_LIT: Extracts a bit field of ra, with position and length taken from the literal. (R125) -/
  | bfxLit (h : Hdr) (rd : Reg) (ra : Reg) (lit : Word)
  /-- BFI: Inserts ra into a bit field of rd, with position and length taken from register rb. (R125) -/
  | bfi (h : Hdr) (rd : Reg) (ra : Reg) (rb : Reg)
  /-- BFI_LIT: Inserts ra into a bit field of rd, with position and length taken from the literal. (R125) -/
  | bfiLit (h : Hdr) (rd : Reg) (ra : Reg) (lit : Word)
  /-- ADDI: Sets rd to ra plus a signed 7-bit immediate. (R127) -/
  | addi (h : Hdr) (rd : Reg) (ra : Reg) (imm : BitVec 7)
  /-- ADDI_LIT: Sets rd to ra plus a 64-bit literal. (R127) -/
  | addiLit (h : Hdr) (rd : Reg) (ra : Reg) (lit : Word)
  /-- LI: Loads a signed 12-bit immediate into rd. (R127) -/
  | li (h : Hdr) (rd : Reg) (imm : BitVec 12)
  /-- LI_LIT: Loads a 64-bit literal into rd. (R127) -/
  | liLit (h : Hdr) (rd : Reg) (lit : Word)
  /-- SEL: Selects ra or rb into rd by the predicate bit carried in the opcode and clo. (R126) -/
  | sel (h : Hdr) (cs : Pr) (rd : Reg) (ra : Reg) (rb : Reg)
  /-- ADR: Sets rd to the base word's address plus a word offset. (R127) -/
  | adr (h : Hdr) (rd : Reg) (imm : BitVec 12)
  /-- ADR_LIT: Sets rd to the base word's address plus a literal byte offset. (R127) -/
  | adrLit (h : Hdr) (rd : Reg) (lit : Word)
  /-- FADD: FP32 addition, rounded by RNE. (R128) -/
  | fadd (h : Hdr) (rd : Reg) (ra : Reg) (rb : Reg)
  /-- FSUB: FP32 subtraction. (R128) -/
  | fsub (h : Hdr) (rd : Reg) (ra : Reg) (rb : Reg)
  /-- FMUL: FP32 multiplication. (R128) -/
  | fmul (h : Hdr) (rd : Reg) (ra : Reg) (rb : Reg)
  /-- FDIV: FP32 division. (R128) -/
  | fdiv (h : Hdr) (rd : Reg) (ra : Reg) (rb : Reg)
  /-- FMIN: FP32 minimum, treating -0 as below +0. (R129) -/
  | fmin (h : Hdr) (rd : Reg) (ra : Reg) (rb : Reg)
  /-- FMAX: FP32 maximum. (R129) -/
  | fmax (h : Hdr) (rd : Reg) (ra : Reg) (rb : Reg)
  /-- FSQRT: FP32 square root. (R128) -/
  | fsqrt (h : Hdr) (rd : Reg) (ra : Reg)
  /-- FCLASS: Writes the one-hot class mask of an FP32 value. (R131) -/
  | fclass (h : Hdr) (rd : Reg) (ra : Reg)
  /-- FFMA: Fused multiply-add ra times rb plus rd, rounded once. (R128) -/
  | ffma (h : Hdr) (rd : Reg) (ra : Reg) (rb : Reg)
  /-- FCMP: Compares two FP32 values and writes a predicate bit. (R130) -/
  | fcmp (h : Hdr) (cd : Pr) (ra : Reg) (rb : Reg) (cond : FCond)
  /-- FCVT: Converts one scalar value between integer and floating formats. (R132) -/
  | fcvt (h : Hdr) (rd : Reg) (ra : Reg) (kind : CvtKind) (rm : DRm) (sat : Bool)
  /-- BR: Branches to a word offset from the base word. (R109) -/
  | br (h : Hdr) (off : BitVec 17)
  /-- BR_LIT: Branches to a literal byte offset from the base word. (R109) -/
  | brLit (h : Hdr) (lit : Word)
  /-- CALL: Slides the register window, writes the link word and jumps to a word offset. (R106) -/
  | call (h : Hdr) (kc : BitVec 2) (off : BitVec 15)
  /-- CALL_LIT: Calls a literal byte offset from the base word. (R106) -/
  | callLit (h : Hdr) (kc : BitVec 2) (lit : Word)
  /-- JR: Jumps to the address in ra. (R109) -/
  | jr (h : Hdr) (ra : Reg)
  /-- CALLR: Calls the address in ra with a window slide. (R106) -/
  | callr (h : Hdr) (kc : BitVec 2) (ra : Reg)
  /-- RET: Returns through the link word and slides the window back. (R107) -/
  | ret (h : Hdr)
  /-- NOP: Does nothing; with the close bit it is a pure close. (R110) -/
  | nop (h : Hdr)
  /-- YIELD: Does nothing and wastes the strand's next turn. (R110) -/
  | yield (h : Hdr)
  /-- END: Closes, waits for the repetition buffer and lane claim, and empties the slot. (R110) -/
  | endStrand (h : Hdr)
  /-- WSPILL: Spills the oldest resident window registers to memory at WSP. (R108) -/
  | wspill (h : Hdr) (kc : BitVec 2)
  /-- WFILL: Fills window registers from memory below WSP, as a pending operation. (R108) -/
  | wfill (h : Hdr) (kc : BitVec 2)
  /-- CMP: Compares two registers and writes a predicate bit. (R111) -/
  | cmp (h : Hdr) (cd : Pr) (ra : Reg) (rb : Reg) (cond : ICond)
  /-- CMPI: Compares a register with a 5-bit immediate and writes a predicate bit. (R111) -/
  | cmpi (h : Hdr) (cd : Pr) (ra : Reg) (cond : ICond) (imm : BitVec 5)
  /-- CMPI_LIT: Compares a register with a 64-bit literal and writes a predicate bit. (R111) -/
  | cmpiLit (h : Hdr) (cd : Pr) (ra : Reg) (cond : ICond) (lit : Word)
  /-- PAND: Predicate and. (R112) -/
  | pand (h : Hdr) (cd : Pr) (ca : Pr) (cb : Pr)
  /-- POR: Predicate or. (R112) -/
  | por (h : Hdr) (cd : Pr) (ca : Pr) (cb : Pr)
  /-- PXOR: Predicate exclusive or. (R112) -/
  | pxor (h : Hdr) (cd : Pr) (ca : Pr) (cb : Pr)
  /-- PNOT: Predicate not. (R112) -/
  | pnot (h : Hdr) (cd : Pr) (ca : Pr)
  /-- PMOV: Predicate move. (R112) -/
  | pmov (h : Hdr) (cd : Pr) (ca : Pr)
  /-- REP: Captures a body of engine instructions for repeated issue by the sequencer. (R114) -/
  | rep (h : Hdr) (n : BitVec 3) (k : BitVec 8) (stride : BitVec 6)
  /-- LD_B: Loads a sign-extended byte. (R137) -/
  | ldB (h : Hdr) (rd : Reg) (base : Reg) (disp : BitVec 6)
  /-- LD_B_LIT: Loads a sign-extended byte at a literal displacement. (R137) -/
  | ldBLit (h : Hdr) (rd : Reg) (base : Reg) (lit : Word)
  /-- LD_BU: Loads a zero-extended byte. (R137) -/
  | ldBu (h : Hdr) (rd : Reg) (base : Reg) (disp : BitVec 6)
  /-- LD_BU_LIT: Loads a zero-extended byte at a literal displacement. (R137) -/
  | ldBuLit (h : Hdr) (rd : Reg) (base : Reg) (lit : Word)
  /-- LD_H: Loads a sign-extended halfword. (R137) -/
  | ldH (h : Hdr) (rd : Reg) (base : Reg) (disp : BitVec 6)
  /-- LD_H_LIT: Loads a sign-extended halfword at a literal displacement. (R137) -/
  | ldHLit (h : Hdr) (rd : Reg) (base : Reg) (lit : Word)
  /-- LD_HU: Loads a zero-extended halfword. (R137) -/
  | ldHu (h : Hdr) (rd : Reg) (base : Reg) (disp : BitVec 6)
  /-- LD_HU_LIT: Loads a zero-extended halfword at a literal displacement. (R137) -/
  | ldHuLit (h : Hdr) (rd : Reg) (base : Reg) (lit : Word)
  /-- LD_W: Loads a sign-extended word. (R137) -/
  | ldW (h : Hdr) (rd : Reg) (base : Reg) (disp : BitVec 6)
  /-- LD_W_LIT: Loads a sign-extended word at a literal displacement. (R137) -/
  | ldWLit (h : Hdr) (rd : Reg) (base : Reg) (lit : Word)
  /-- LD_WU: Loads a zero-extended word. (R137) -/
  | ldWu (h : Hdr) (rd : Reg) (base : Reg) (disp : BitVec 6)
  /-- LD_WU_LIT: Loads a zero-extended word at a literal displacement. (R137) -/
  | ldWuLit (h : Hdr) (rd : Reg) (base : Reg) (lit : Word)
  /-- LD_D: Loads a doubleword. (R137) -/
  | ldD (h : Hdr) (rd : Reg) (base : Reg) (disp : BitVec 6)
  /-- LD_D_LIT: Loads a doubleword at a literal displacement. (R137) -/
  | ldDLit (h : Hdr) (rd : Reg) (base : Reg) (lit : Word)
  /-- LDP: Loads 16 bytes into a register pair as two atoms. (R138) -/
  | ldp (h : Hdr) (rd : Reg) (base : Reg) (disp : BitVec 6)
  /-- LDP_LIT: Loads a register pair at a literal displacement. (R138) -/
  | ldpLit (h : Hdr) (rd : Reg) (base : Reg) (lit : Word)
  /-- ST_B: Stores a byte. (R136) -/
  | stB (h : Hdr) (rd : Reg) (base : Reg) (disp : BitVec 6)
  /-- ST_B_LIT: Stores a byte at a literal displacement. (R136) -/
  | stBLit (h : Hdr) (rd : Reg) (base : Reg) (lit : Word)
  /-- ST_H: Stores a halfword. (R136) -/
  | stH (h : Hdr) (rd : Reg) (base : Reg) (disp : BitVec 6)
  /-- ST_H_LIT: Stores a halfword at a literal displacement. (R136) -/
  | stHLit (h : Hdr) (rd : Reg) (base : Reg) (lit : Word)
  /-- ST_W: Stores a word. (R136) -/
  | stW (h : Hdr) (rd : Reg) (base : Reg) (disp : BitVec 6)
  /-- ST_W_LIT: Stores a word at a literal displacement. (R136) -/
  | stWLit (h : Hdr) (rd : Reg) (base : Reg) (lit : Word)
  /-- ST_D: Stores a doubleword. (R136) -/
  | stD (h : Hdr) (rd : Reg) (base : Reg) (disp : BitVec 6)
  /-- ST_D_LIT: Stores a doubleword at a literal displacement. (R136) -/
  | stDLit (h : Hdr) (rd : Reg) (base : Reg) (lit : Word)
  /-- STP: Stores a register pair as two 8-byte atoms. (R138) -/
  | stp (h : Hdr) (rd : Reg) (base : Reg) (disp : BitVec 6)
  /-- STP_LIT: Stores a register pair at a literal displacement. (R138) -/
  | stpLit (h : Hdr) (rd : Reg) (base : Reg) (lit : Word)
  /-- AADD_D: Atomic 8-byte add at the word's home, returning the old value. (R142) -/
  | aaddD (h : Hdr) (rd : Reg) (ra : Reg) (rb : Reg)
  /-- AAND_D: Atomic 8-byte and. (R142) -/
  | aandD (h : Hdr) (rd : Reg) (ra : Reg) (rb : Reg)
  /-- AOR_D: Atomic 8-byte or. (R142) -/
  | aorD (h : Hdr) (rd : Reg) (ra : Reg) (rb : Reg)
  /-- AXOR_D: Atomic 8-byte exclusive or. (R142) -/
  | axorD (h : Hdr) (rd : Reg) (ra : Reg) (rb : Reg)
  /-- AADD_W: Atomic 4-byte add. (R142) -/
  | aaddW (h : Hdr) (rd : Reg) (ra : Reg) (rb : Reg)
  /-- AAND_W: Atomic 4-byte and. (R142) -/
  | aandW (h : Hdr) (rd : Reg) (ra : Reg) (rb : Reg)
  /-- AOR_W: Atomic 4-byte or. (R142) -/
  | aorW (h : Hdr) (rd : Reg) (ra : Reg) (rb : Reg)
  /-- AXOR_W: Atomic 4-byte exclusive or. (R142) -/
  | axorW (h : Hdr) (rd : Reg) (ra : Reg) (rb : Reg)
  /-- AMIN_D: Atomic 8-byte signed minimum. (R142) -/
  | aminD (h : Hdr) (rd : Reg) (ra : Reg) (rb : Reg)
  /-- AMAX_D: Atomic 8-byte signed maximum. (R142) -/
  | amaxD (h : Hdr) (rd : Reg) (ra : Reg) (rb : Reg)
  /-- AXCHG_D: Atomic 8-byte exchange. (R142) -/
  | axchgD (h : Hdr) (rd : Reg) (ra : Reg) (rb : Reg)
  /-- ACAS_D: Atomic 8-byte compare and swap against rd. (R142) -/
  | acasD (h : Hdr) (rd : Reg) (ra : Reg) (rb : Reg)
  /-- AMIN_W: Atomic 4-byte signed minimum. (R142) -/
  | aminW (h : Hdr) (rd : Reg) (ra : Reg) (rb : Reg)
  /-- AMAX_W: Atomic 4-byte signed maximum. (R142) -/
  | amaxW (h : Hdr) (rd : Reg) (ra : Reg) (rb : Reg)
  /-- AXCHG_W: Atomic 4-byte exchange. (R142) -/
  | axchgW (h : Hdr) (rd : Reg) (ra : Reg) (rb : Reg)
  /-- ACAS_W: Atomic 4-byte compare and swap. (R142) -/
  | acasW (h : Hdr) (rd : Reg) (ra : Reg) (rb : Reg)
  /-- AGADD: Atomically adds a grid contribution into a 16-byte grid lane. (R143) -/
  | agadd (h : Hdr) (rd : Reg) (ra : Reg) (rb : Reg)
  /-- BIND: Binds a parcel to a sync word in the context's binding table. (R187) -/
  | bind (h : Hdr) (rd : Reg) (ra : Reg) (rb : Reg)
  /-- UNBIND: Removes a binding by index. (R187) -/
  | unbind (h : Hdr) (rd : Reg)
  /-- ACQ: Acquires a sync word at a scope, reading its value and order tag. (R196) -/
  | acq (h : Hdr) (rd : Reg) (ra : Reg) (scope : Scope)
  /-- REL: Enters a release of a sync word into the core's release queue. (R197) -/
  | rel (h : Hdr) (rd : Reg) (ra : Reg) (scope : Scope)
  /-- ACQREL: Releases and acquires a sync word in one exchange. (R198) -/
  | acqrel (h : Hdr) (rd : Reg) (ra : Reg) (scope : Scope)
  /-- WAITW: Waits until a sync word differs from a given value, then acquires it. (R199) -/
  | waitw (h : Hdr) (rd : Reg) (ra : Reg) (scope : Scope)
  /-- FENCE: Waits for the named paths' earlier operations and release work before the next issue. (R202) -/
  | fence (h : Hdr) (paths : BitVec 7) (scope : Scope)
  /-- VCLAIM: Requests a lane claim from the cluster pool. (R210) -/
  | vclaim (h : Hdr) (rd : Reg) (ra : Reg)
  /-- VRENEG: Renegotiates the strand's lane grant. (R210) -/
  | vreneg (h : Hdr) (rd : Reg) (ra : Reg)
  /-- VFREE: Releases the strand's lane claim. (R210) -/
  | vfree (h : Hdr)
  /-- PSET: Sets a pointer register's offset and stride. (R206) -/
  | pset (h : Hdr) (p : Ptr) (ra : Reg) (rb : Reg)
  /-- PGET: Reads a pointer register's view. (R206) -/
  | pget (h : Hdr) (p : Ptr) (ra : Reg)
  /-- VADD: Element-wise vector addition in scratchpad. (R221) -/
  | vadd (h : Hdr) (pd : Ptr) (pa : Ptr) (pb : Ptr) (rn : Reg) (et : ElTy)
  /-- VSUB: Element-wise vector subtraction. (R221) -/
  | vsub (h : Hdr) (pd : Ptr) (pa : Ptr) (pb : Ptr) (rn : Reg) (et : ElTy)
  /-- VMUL: Element-wise vector multiplication. (R221) -/
  | vmul (h : Hdr) (pd : Ptr) (pa : Ptr) (pb : Ptr) (rn : Reg) (et : ElTy)
  /-- VFMA: Element-wise fused multiply-add into the destination. (R221) -/
  | vfma (h : Hdr) (pd : Ptr) (pa : Ptr) (pb : Ptr) (rn : Reg) (et : ElTy)
  /-- VMIN: Element-wise minimum. (R221) -/
  | vmin (h : Hdr) (pd : Ptr) (pa : Ptr) (pb : Ptr) (rn : Reg) (et : ElTy)
  /-- VMAX: Element-wise maximum. (R221) -/
  | vmax (h : Hdr) (pd : Ptr) (pa : Ptr) (pb : Ptr) (rn : Reg) (et : ElTy)
  /-- VABS: Element-wise absolute value. (R221) -/
  | vabs (h : Hdr) (pd : Ptr) (pa : Ptr) (rn : Reg) (et : ElTy)
  /-- VNEG: Element-wise negation. (R221) -/
  | vneg (h : Hdr) (pd : Ptr) (pa : Ptr) (rn : Reg) (et : ElTy)
  /-- VEXP2: Element-wise correctly rounded 2^a. (R221) -/
  | vexp2 (h : Hdr) (pd : Ptr) (pa : Ptr) (rn : Reg) (et : ElTy)
  /-- VLOG2: Element-wise correctly rounded log2 a. (R221) -/
  | vlog2 (h : Hdr) (pd : Ptr) (pa : Ptr) (rn : Reg) (et : ElTy)
  /-- VRCP: Element-wise reciprocal. (R221) -/
  | vrcp (h : Hdr) (pd : Ptr) (pa : Ptr) (rn : Reg) (et : ElTy)
  /-- VRSQ: Element-wise reciprocal square root. (R221) -/
  | vrsq (h : Hdr) (pd : Ptr) (pa : Ptr) (rn : Reg) (et : ElTy)
  /-- VCOPY: Copies elements byte for byte. (R221) -/
  | vcopy (h : Hdr) (pd : Ptr) (pa : Ptr) (rn : Reg) (et : ElTy)
  /-- VSUM: Sums elements in the fixed pairwise order into a mailbox. (R222) -/
  | vsum (h : Hdr) (mb : Obj2) (pa : Ptr) (rn : Reg) (et : ElTy)
  /-- VMAXR: Reduces elements to their maximum into a mailbox. (R222) -/
  | vmaxr (h : Hdr) (mb : Obj2) (pa : Ptr) (rn : Reg) (et : ElTy)
  /-- VMINR: Reduces elements to their minimum into a mailbox. (R222) -/
  | vminr (h : Hdr) (mb : Obj2) (pa : Ptr) (rn : Reg) (et : ElTy)
  /-- VARGMAX: Reduces elements to the index and value of the maximum. (R222) -/
  | vargmax (h : Hdr) (mb : Obj2) (pa : Ptr) (rn : Reg) (et : ElTy)
  /-- VCMP: Writes a bitmap of element comparisons. (R225) -/
  | vcmp (h : Hdr) (e : Ext)
  /-- VSEL: Selects elements of two sources by a bitmap. (R225) -/
  | vsel (h : Hdr) (e : Ext)
  /-- VSCALE: Computes a times s plus t per element, with t from register F3. (R225) -/
  | vscale (h : Hdr) (e : Ext)
  /-- VSCALE_LIT: Computes a times s plus t per element, with t from the literal. (R225) -/
  | vscaleLit (h : Hdr) (e : Ext) (lit : Word)
  /-- VFILL: Fills elements with a value from register F3 or a mailbox. (R225) -/
  | vfill (h : Hdr) (e : Ext)
  /-- VFILL_LIT: Fills elements with a literal value. (R225) -/
  | vfillLit (h : Hdr) (e : Ext) (lit : Word)
  /-- VRAND: Fills elements with counter-generator draws, counter base in F3. (R225) -/
  | vrand (h : Hdr) (e : Ext)
  /-- VRAND_LIT: Fills elements with draws whose counter base is a literal. (R225) -/
  | vrandLit (h : Hdr) (e : Ext) (lit : Word)
  /-- VNZC: Counts nonzero elements into a mailbox and optionally writes a bitmap. (R225) -/
  | vnzc (h : Hdr) (e : Ext)
  /-- VCHAIN: Runs up to eight element-wise stages from a descriptor in one pass. (R226) -/
  | vchain (h : Hdr) (e : Ext)
  /-- VCHAIN_LIT: Runs a stage chain whose descriptor offset is a literal. (R226) -/
  | vchainLit (h : Hdr) (e : Ext) (lit : Word)
  /-- VCVT: Converts each element between formats. (R227) -/
  | vcvt (h : Hdr) (e : Ext)
  /-- VCVT_LIT: Converts elements with a literal counter base. (R227) -/
  | vcvtLit (h : Hdr) (e : Ext) (lit : Word)
  /-- VQMX: Quantises elements to an MX format with MxScale. (R228) -/
  | vqmx (h : Hdr) (e : Ext)
  /-- VQMX_LIT: Quantises to MX with a literal counter base. (R228) -/
  | vqmxLit (h : Hdr) (e : Ext) (lit : Word)
  /-- VDQMX: Dequantises MX elements under their scales. (R228) -/
  | vdqmx (h : Hdr) (e : Ext)
  /-- VQA: Quantises to or dequantises from QA4 or QA8 groups. (R229) -/
  | vqa (h : Hdr) (e : Ext)
  /-- VQA_LIT: QA conversion with a literal counter base. (R229) -/
  | vqaLit (h : Hdr) (e : Ext) (lit : Word)
  /-- ASHAPE: Gives a logical tile a shape on fresh physical tiles. (R238) -/
  | ashape (h : Hdr) (a : Tile) (rows : BitVec 8) (cc : BitVec 2)
  /-- ADATUM: Sets a tile's grid datum. (R239) -/
  | adatum (h : Hdr) (a : Tile) (d : BitVec 9)
  /-- AZERO: Zeroes a tile's lanes, checksums and flags. (R239) -/
  | azero (h : Hdr) (a : Tile)
  /-- ASTAT: Returns a tile's status word or a row of lane flags. (R240) -/
  | astat (h : Hdr) (a : Tile) (rd : Reg)
  /-- ACHK: Runs a tile's checksum checks without writing. (R259) -/
  | achk (h : Hdr) (a : Tile) (rd : Reg)
  /-- CLD: Streams a range against the resident operand and accumulates into a tile. (R250) -/
  | cld (h : Hdr) (e : Ext)
  /-- CLD_LIT: Contracting load with a literal operand row offset. (R250) -/
  | cldLit (h : Hdr) (e : Ext) (lit : Word)
  /-- CLDC: Cluster-cooperative contracting load on all 8 engines. (R254) -/
  | cldc (h : Hdr) (e : Ext)
  /-- CLDC_LIT: Cooperative contracting load with a literal row offset. (R254) -/
  | cldcLit (h : Hdr) (e : Ext) (lit : Word)
  /-- CLD_SP: Contracting load of bitmap-compressed rows through a scratchpad map. (R272) -/
  | cldSp (h : Hdr) (e : Ext)
  /-- CLD_SP_LIT: Sparse contracting load with a literal row offset. (R272) -/
  | cldSpLit (h : Hdr) (e : Ext) (lit : Word)
  /-- OLD: Loads the resident operand window from a tensor. (R244) -/
  | old (h : Hdr) (e : Ext)
  /-- OLD_LIT: Operand load with a literal row offset. (R244) -/
  | oldLit (h : Hdr) (e : Ext) (lit : Word)
  /-- OLD_T: Loads the resident operand transposed, requantising blocks. (R245) -/
  | oldT (h : Hdr) (e : Ext)
  /-- OLD_T_LIT: Transposed operand load with a literal row offset. (R245) -/
  | oldTLit (h : Hdr) (e : Ext) (lit : Word)
  /-- OCOLS: Computes the window's QA column sums for a group size. (R246) -/
  | ocols (h : Hdr) (e : Ext)
  /-- ADRAIN: Verifies a tile's checksums and writes it out in a floating or MX format. (R257) -/
  | adrain (h : Hdr) (e : Ext)
  /-- ADRAIN_LIT: Drain to an MX target with a literal scale address. (R257) -/
  | adrainLit (h : Hdr) (e : Ext) (lit : Word)
  /-- SLOTW: Writes an engine slot-table entry, effective at the next frame. (R261) -/
  | slotw (h : Hdr) (ra : Reg) (rb : Reg)
  /-- HOPEN: Opens a handle and links its plat register. (R295) -/
  | hopen (h : Hdr) (o : Obj2) (rd : Reg) (ra : Reg)
  /-- HCLOSE: Closes a handle register. (R295) -/
  | hclose (h : Hdr) (o : Obj2) (rd : Reg)
  /-- HBATCH: Takes a fresh snapshot of an open handle. (R295) -/
  | hbatch (h : Hdr) (o : Obj2) (rd : Reg)
  /-- HLIST: Returns snapshot or record values of a handle. (R298) -/
  | hlist (h : Hdr) (o : Obj2) (rd : Reg) (ra : Reg)
  /-- HATTACH: Appends a layer to a handle's list. (R296) -/
  | hattach (h : Hdr) (o : Obj2) (rd : Reg) (ra : Reg)
  /-- HDETACH: Removes a layer from a handle's list. (R296) -/
  | hdetach (h : Hdr) (o : Obj2) (rd : Reg) (ra : Reg)
  /-- HSWAP: Installs a new base for a handle. (R297) -/
  | hswap (h : Hdr) (o : Obj2) (rd : Reg) (ra : Reg)
  /-- HVERIFY: Has secure firmware verify a handle's integrity data. (R302) -/
  | hverify (h : Hdr) (o : Obj2) (rd : Reg)
  /-- HFOLD: Queues a fold job that settles a handle's layer list into a new base. (R309) -/
  | hfold (h : Hdr) (o : Obj2) (rd : Reg) (ra : Reg)
  /-- TCLR: Clears a tree and sets its length and format. (R323) -/
  | tclr (h : Hdr) (t : TreeR) (ra : Reg)
  /-- TSET: Sets one leaf mass and returns the old one. (R323) -/
  | tset (h : Hdr) (t : TreeR) (rd : Reg) (ra : Reg)
  /-- TADD: Adds a signed delta to one leaf. (R323) -/
  | tadd (h : Hdr) (t : TreeR) (rd : Reg) (ra : Reg)
  /-- TPREF: Returns a prefix sum of leaves. (R324) -/
  | tpref (h : Hdr) (t : TreeR) (rd : Reg) (ra : Reg)
  /-- TFIND: Finds the leaf at which a cumulative mass is reached. (R324) -/
  | tfind (h : Hdr) (t : TreeR) (rd : Reg) (ra : Reg)
  /-- TCUT: Sets the tree length, zeroing leaves above it. (R324) -/
  | tcut (h : Hdr) (t : TreeR) (rd : Reg) (ra : Reg)
  /-- TTOT: Returns the total, the largest leaf or the status word. (R325) -/
  | ttot (h : Hdr) (t : TreeR) (rd : Reg) (ra : Reg)
  /-- TLOAD_M32: Builds an M32 tree from scaled FP32 values in scratchpad. (R327) -/
  | tloadM32 (h : Hdr) (t : TreeR) (ra : Reg) (rb : Reg)
  /-- TLOAD_M16: Builds an M16 tree from scaled FP32 values in scratchpad. (R327) -/
  | tloadM16 (h : Hdr) (t : TreeR) (ra : Reg) (rb : Reg)
  /-- TSTORE: Writes tree leaves to scratchpad as U32 words. (R328) -/
  | tstore (h : Hdr) (t : TreeR) (ra : Reg) (rb : Reg)
  /-- PPUSH: Pushes a value on a bearing, taking a credit. (R336) -/
  | ppush (h : Hdr) (b : Bearing) (rd : Reg)
  /-- PPOP: Pops the head of an incoming port queue. (R337) -/
  | ppop (h : Hdr) (b : Bearing) (rd : Reg) (cd : Pr)
  /-- PPEEK: Reads the head of an incoming port queue without removing it. (R337) -/
  | ppeek (h : Hdr) (b : Bearing) (rd : Reg) (cd : Pr)
  /-- PCOUNT: Returns the state of a bearing. (R338) -/
  | pcount (h : Hdr) (b : Bearing) (rd : Reg)
  /-- PEOS: Sends an end token on a bearing. (R336) -/
  | peos (h : Hdr) (b : Bearing)
  /-- PCONF: Drains an incoming queue and sets a bearing's sink mode. (R339) -/
  | pconf (h : Hdr) (b : Bearing) (rd : Reg)
  /-- MBW: Writes a register into a mailbox. (R219) -/
  | mbw (h : Hdr) (mb : Obj2) (rd : Reg)
  /-- MBR: Reads and empties a mailbox once it is full. (R219) -/
  | mbr (h : Hdr) (mb : Obj2) (rd : Reg)
  /-- PLNEW: Makes a plat register from a plat record and a base. (R350) -/
  | plnew (h : Hdr) (o : Obj2) (rd : Reg) (ra : Reg)
  /-- PLSET: Sets a plat register's base or an extent. (R351) -/
  | plset (h : Hdr) (o : Obj2) (rd : Reg) (ra : Reg)
  /-- PLGET: Reads a plat register field. (R351) -/
  | plget (h : Hdr) (o : Obj2) (rd : Reg) (ra : Reg)
  /-- CPY: Enqueues a copy request, waiting while the FIFO is full. (R353) -/
  | cpy (h : Hdr) (rd : Reg) (ra : Reg)
  /-- CPYNB: Enqueues a copy request or returns BUSY. (R353) -/
  | cpynb (h : Hdr) (rd : Reg) (ra : Reg)
  /-- SWINIT: Sets a sync word's target and clears its counts. (R360) -/
  | swinit (h : Hdr) (ra : Reg) (rb : Reg)
  /-- SWWAIT: Waits until a sync word's generation differs. (R360) -/
  | swwait (h : Hdr) (ra : Reg) (rb : Reg)
  /-- RINIT: Configures a ring object. (R366) -/
  | rinit (h : Hdr) (g : Ring) (rd : Reg) (ra : Reg)
  /-- RAWAIT: Waits for a ring sequence's data or space. (R366) -/
  | rawait (h : Hdr) (g : Ring) (rd : Reg) (ra : Reg)
  /-- RREL: Releases a ring sequence. (R366) -/
  | rrel (h : Hdr) (g : Ring) (rd : Reg) (ra : Reg)
  /-- RSEQ: Returns a ring sequence's slot offset. (R366) -/
  | rseq (h : Hdr) (g : Ring) (rd : Reg) (ra : Reg)
  /-- REOS: Marks a ring slot as the end of the stream. (R366) -/
  | reos (h : Hdr) (g : Ring) (rd : Reg) (ra : Reg)
  /-- GPOST: Posts a gather descriptor to the cluster gather engine. (R368) -/
  | gpost (h : Hdr) (rd : Reg) (ra : Reg)
  /-- GWAIT: Waits for a gather's signal and frees its line. (R370) -/
  | gwait (h : Hdr) (rd : Reg) (ra : Reg)
  /-- GID: Returns a group or placement value. (R382) -/
  | gid (h : Hdr) (rd : Reg) (ra : Reg)
  /-- DQPUSH: Pushes a range at the bottom of the core's deque. (R383) -/
  | dqpush (h : Hdr) (rd : Reg) (ra : Reg)
  /-- DQPOP: Takes the bottom range of the core's deque. (R383) -/
  | dqpop (h : Hdr) (rd : Reg)
  /-- DQSPLIT: Takes a grain from the bottom range of the deque. (R383) -/
  | dqsplit (h : Hdr) (rd : Reg) (ra : Reg)
  /-- DQSTEAL: Steals the upper half of a victim deque's top range. (R384) -/
  | dqsteal (h : Hdr) (rd : Reg) (ra : Reg)
  /-- SUSPEND: Registers with the group's idle monitor until work appears or all are idle. (R385) -/
  | suspend (h : Hdr) (rd : Reg)
  /-- BTEST: Reads barrier state without waiting. (R399) -/
  | btest (h : Hdr) (rd : Reg) (ra : Reg) (rb : Reg)
  /-- STB: Stores 8 bytes into a core's scratchpad and counts them off its barrier. (R400) -/
  | stb (h : Hdr) (rd : Reg) (ra : Reg) (rb : Reg)
  /-- BINIT: Sets a barrier's expected arrivals. (R395) -/
  | binit (h : Hdr) (rd : Reg) (ra : Reg) (rb : Reg)
  /-- BEXP: Announces bytes owed to a barrier. (R396) -/
  | bexp (h : Hdr) (rd : Reg) (ra : Reg) (rb : Reg)
  /-- BARV: Arrives at a barrier without blocking. (R397) -/
  | barv (h : Hdr) (rd : Reg) (ra : Reg) (rb : Reg)
  /-- BWAIT: Waits for a barrier phase to pass, renegotiating lanes. (R398) -/
  | bwait (h : Hdr) (rd : Reg) (ra : Reg)
  /-- KSIG: Adds to a signal word as a system-scope release. (R427) -/
  | ksig (h : Hdr) (rd : Reg) (ra : Reg) (rb : Reg)
  /-- KLAUNCH: Posts a launch record to one of the context's device queues. (R428) -/
  | klaunch (h : Hdr) (rd : Reg) (ra : Reg) (rb : Reg)
  /-- KEOS: Marks the strand as having passed the end of a standing kernel. (R429) -/
  | keos (h : Hdr) (rd : Reg)
  /-- CGRP: Joins or leaves a collective group. (R469) -/
  | cgrp (h : Hdr) (e : Ext)
  /-- CAG: All-gather collective, chunk length from a register. (R471) -/
  | cag (h : Hdr) (e : Ext)
  /-- CAG_LIT: All-gather collective with a literal chunk length. (R471) -/
  | cagLit (h : Hdr) (e : Ext) (lit : Word)
  /-- CRS: Reduce-scatter collective, chunk length from a register. (R472) -/
  | crs (h : Hdr) (e : Ext)
  /-- CRS_LIT: Reduce-scatter collective with a literal chunk length. (R472) -/
  | crsLit (h : Hdr) (e : Ext) (lit : Word)
  /-- CA2A: All-to-all collective, chunk length from a register. (R471) -/
  | ca2a (h : Hdr) (e : Ext)
  /-- CA2A_LIT: All-to-all collective with a literal chunk length. (R471) -/
  | ca2aLit (h : Hdr) (e : Ext) (lit : Word)
  /-- CBAR: Barrier collective over a group. (R471) -/
  | cbar (h : Hdr) (e : Ext)
  /-- CWAIT: Waits for a collective line's result and frees it. (R474) -/
  | cwait (h : Hdr) (rd : Reg) (ra : Reg)
  /-- CTEST: Reads a collective line's state without waiting. (R474) -/
  | ctest (h : Hdr) (rd : Reg) (ra : Reg)
  /-- RSEED: Sets the strand's DSEED. (R90) -/
  | rseed (h : Hdr) (ra : Reg)
  /-- RGEN: Draws 64 bits from the counter generator. (R90) -/
  | rgen (h : Hdr) (rd : Reg) (ra : Reg) (rb : Reg)
  /-- RNOISE: Requests a conditioned word from the cluster noise source. (R91) -/
  | rnoise (h : Hdr) (rd : Reg)
  /-- RLOG: Sets the context's noise-log mode and returns the previous one. (R92) -/
  | rlog (h : Hdr) (rd : Reg) (ra : Reg)
  /-- MSEQ: Expands an attention mask into a list of key blocks. (R278) -/
  | mseq (h : Hdr) (e : Ext)
  /-- MSEQ_LIT: Attention block list with a literal query block index. (R278) -/
  | mseqLit (h : Hdr) (e : Ext) (lit : Word)
  /-- TRAP: Raises TRAP_INSN with the given number. (R486) -/
  | trap (h : Hdr) (imm : BitVec 8)
  /-- ERET: Returns from a trap, continuing a held operation or resuming. (R485) -/
  | eret (h : Hdr)
  /-- ERET_AB: Returns from a trap abandoning the held operation or faulting instruction. (R485) -/
  | eretAb (h : Hdr)
  /-- CSRR: Reads a system register. (R487) -/
  | csrr (h : Hdr) (rd : Reg) (imm : BitVec 8)
  /-- CSRW: Writes a system register that has no row of its own. (R487) -/
  | csrw (h : Hdr) (rd : Reg) (imm : BitVec 8)
  /-- CSRS: Sets bits of a system register. (R487) -/
  | csrs (h : Hdr) (rd : Reg) (imm : BitVec 8)
  /-- CSRC: Clears bits of a system register. (R487) -/
  | csrc (h : Hdr) (rd : Reg) (imm : BitVec 8)
  /-- WCALL: Asks the world's firmware to perform a service. (R488) -/
  | wcall (h : Hdr) (rd : Reg) (imm : BitVec 8)
  /-- SLEEP: Waits until CYCLE reaches a value. (R489) -/
  | sleep (h : Hdr) (rd : Reg)
  /-- CONTW: Writes the strand's continuation record and leaves its slot reserved. (R445) -/
  | contw (h : Hdr) (rd : Reg)
  /-- CONTR: Restores a CONTW-saved strand of the group from a record. (R446) -/
  | contr (h : Hdr) (rd : Reg) (slot : Fin 16)
  /-- SHOOT: CSRW of SHOOT starts a shootdown of the context's cached leaves. (R180) -/
  | shoot (h : Hdr) (rd : Reg)
  /-- SLICE_WRITE: CSRW of SLICE opens or closes a restartable slice, writing a checkpoint. (R260) -/
  | sliceWrite (h : Hdr) (rd : Reg)
  /-- CREATE: System-queue command that creates a context from a control block. (R430) -/
  | create
  /-- DESTROY: System-queue command that tears a context down. (R434) -/
  | destroy
  /-- QOPEN: System-queue command that opens a launch queue. (R447) -/
  | qopen
  /-- QCLOSE: System-queue command that closes a launch queue. (R447) -/
  | qclose
  /-- LINKUP: System-queue command that starts training a Clavos port. (R459) -/
  | linkup
  /-- LINKFENCE: System-queue command that fences a Clavos port. (R459) -/
  | linkfence
  /-- LINKDOWN: System-queue command that takes a Clavos port down. (R459) -/
  | linkdown
  /-- SETTVEC: System-queue command that installs a context's trap vector table. (R482) -/
  | settvec
  /-- DBGSET: System-queue command that installs breakpoints, watchpoints and sampling. (R501) -/
  | dbgset
  /-- DSTOP: System-queue command for a precise stop of a strand. (R503) -/
  | dstop
  /-- DRESUME: System-queue command that resumes a stopped strand. (R500) -/
  | dresume
  /-- TRCSET: System-queue command that selects package-wide trace. (R500) -/
  | trcset
  /-- LOADOBJ: System-queue command that loads a code object into a context. (R65) -/
  | loadobj
  /-- FINALISED_CACHE_DROP: The firmware cache drops a finalised text entry. (R63) -/
  | finalisedCacheDrop (ix : Nat)
  /-- POWER_UP: Power-up runs bring-up through its phases to READY or FAILED. (R498) -/
  | powerUp (flash : List (BitVec 8)) (pop : List Nat) (ident : Bool) (fw : List (List (BitVec 8))) (train : Bool)
  /-- PENDING_RETURN: A pending-class operation returns and writes its destinations. (R98) -/
  | pendingReturn (uid : Nat) (id : Nat)
  /-- REP_ITERATION_ISSUE: The repetition sequencer issues the next body instruction to its engine. (R115) -/
  | repIterationIssue (uid : Nat)
  /-- THERMAL_INTERVAL: At each thermal interval a core reads its temperature and takes a step. (R421) -/
  | thermalInterval (core : Nat) (temp : Nat)
  /-- THERMAL_DISPLACEMENT: A closed strand is recorded and restored on a cooler core of its cluster. (R118) -/
  | thermalDisplacement (uid : Nat)
  /-- NOISE_WORD_DELIVERY: The noise source delivers one word to the next waiting request. (R91) -/
  | noiseWordDelivery (cl : Nat)
  /-- NOISE_HEALTH_FAIL: The noise source's health test fails and service stops. (R91) -/
  | noiseHealthFail (cl : Nat)
  /-- NOISE_HEALTH_PASS: The health test passes again and service resumes. (R91) -/
  | noiseHealthPass (cl : Nat)
  /-- STORE_AT_HOME: A write arrives at its home and is performed, discarded or diverted. (R136) -/
  | storeAtHome (ix : Nat) (m : Fabric)
  /-- READ_AT_HOME: A read reaches its home and the reply is sent. (R139) -/
  | readAtHome (uid : Nat) (id : Nat)
  /-- ATOMIC_AT_HOME: An atomic is performed indivisibly at its home. (R142) -/
  | atomicAtHome (uid : Nat) (id : Nat)
  /-- PAGE_WALK: A die walker completes a page-table walk for a TLB miss. (R162) -/
  | pageWalk (core : Nat) (ctx : Nat) (va : Nat)
  /-- SLICE_SCRUB: A memory slice scrubs its stack in the background. (R159) -/
  | sliceScrub (slice : Nat) (fixed : Nat) (bad : List Nat)
  /-- ACCESS_COUNT_FLUSH: A TLB's gathered access counts reach the leaf's slice and add into ACNT. (R174) -/
  | accessCountFlush (who : Nat) (ctx : Nat) (va : Nat)
  /-- HOT_PAGE_RECORD: A hot-page record reaches the notification ring's home and is written. (R177) -/
  | hotPageRecord (ix : Nat)
  /-- WB_RETRANSLATE: A write waiting on write-block translates again after 4,096 cycles. (R181) -/
  | wbRetranslate (who : Nat) (ctx : Nat) (va : Nat)
  /-- RELEASE_PERFORM: The core's release queue performs a release, writing word and tag. (R197) -/
  | releasePerform (core : Nat)
  /-- ACQ_AT_HOME: An acquire reads its word and tag at the home. (R196) -/
  | acqAtHome (uid : Nat) (id : Nat)
  /-- ACQREL_EXCHANGE: An ACQREL exchange is performed at the home. (R198) -/
  | acqrelExchange (core : Nat)
  /-- WAITW_REGISTER: A WAITW registers a watch at the word's home. (R199) -/
  | waitwRegister (uid : Nat) (id : Nat)
  /-- WATCH_POLL: A WAITW without a watch rereads its word every 1,024 cycles. (R199) -/
  | watchPoll (uid : Nat) (id : Nat)
  /-- SCOPE_MISS_HANDLE: A core's release handler widens a release on a scope-miss message. (R194) -/
  | scopeMissHandle (core : Nat)
  /-- BIND_PROPAGATE: A BIND or UNBIND reaches another core's binding table. (R188) -/
  | bindPropagate (src : Nat) (dst : Nat)
  /-- PROBE_ECHO: A slice group or port echoes a release-work probe. (R193) -/
  | probeEcho (core : Nat) (isPort : Bool) (ix : Nat)
  /-- LANE_GRANT: The lane pool grants lanes to the oldest waiting request. (R210) -/
  | laneGrant (cl : Nat)
  /-- VECTOR_PERFORM: The vector side performs the next queued instruction of a strand. (R214) -/
  | vectorPerform (uid : Nat)
  /-- ENGINE_OP_PERFORM: The contracting engine performs an accepted tile or operand operation. (R235) -/
  | engineOpPerform (core : Nat) (ctx : Nat) (seq : Nat)
  /-- SECTOR_REQUEST: The engine requests the next sector of a load. (R250) -/
  | sectorRequest (core : Nat) (ctx : Nat) (seq : Nat)
  /-- SECTOR_REPLY: A sector reply arrives and is accumulated and marked. (R250) -/
  | sectorReply (core : Nat) (ctx : Nat) (seq : Nat) (t : Nat)
  /-- TRAVERSE_RESERVATION: An OLD chain reservation reaches a member's network interface. (R247) -/
  | traverseReservation (core : Nat) (ctx : Nat) (seq : Nat)
  /-- TRAVERSE_DATA: Traverse data reaches a member, is stored and forwarded. (R247) -/
  | traverseData (core : Nat) (ctx : Nat) (seq : Nat)
  /-- SLOT_FRAME_BOUNDARY: At a slot-table frame boundary written entries take effect. (R261) -/
  | slotFrameBoundary (core : Nat)
  /-- SLICE_RERUN: The command processor reruns a restartable slice after TILE_CHECK. (R260) -/
  | sliceRerun (core : Nat) (ctx : Nat) (seq : Nat)
  /-- HANDLE_HOME_PERFORM: A handle record's home slice performs a handle instruction. (R280) -/
  | handleHomePerform (uid : Nat) (id : Nat)
  /-- HANDLE_SCRUB: The home slice re-hashes one shard every HSCRUB interval. (R300) -/
  | handleScrub (ctx : Nat) (va : Nat) (shard : Nat)
  /-- FOLD_JOB_START: The fold engine starts its next queued job. (R310) -/
  | foldJobStart (die : Nat)
  /-- FOLD_COMMIT: After every write is performed the fold commits at the record's home. (R311) -/
  | foldCommit (die : Nat)
  /-- FOLD_FAIL: A fault fails a fold job and writes FRES. (R312) -/
  | foldFail (die : Nat)
  /-- TREE_UNIT_PERFORM: The tree unit performs the next queued tree operation. (R320) -/
  | treeUnitPerform (core : Nat) (ctx : Nat)
  /-- PORT_VALUE_LAND: A pushed value or end token lands in its target queue. (R332) -/
  | portValueLand (ix : Nat)
  /-- PORT_CREDIT_RETURN: A credit returns to a pusher's bearing. (R333) -/
  | portCreditReturn (ix : Nat)
  /-- PORT_CLOSED_NOTICE: A CLOSED notice sets CLOSED on a bearing. (R340) -/
  | portClosedNotice (uid : Nat) (b : Nat)
  /-- PORT_DEADLOCK: The group's stall counter reaches LIMIT and delivers PORT_DEADLOCK. (R343) -/
  | portDeadlock (kern : Nat) (grp : Nat)
  /-- COPY_START: A copy engine takes a request from a core's FIFO and performs it. (R354) -/
  | copyStart (core : Nat) (e : Nat)
  /-- COPY_ERROR: A copy ends in error and posts an error record. (R356) -/
  | copyError (e : Nat)
  /-- COPY_COMPLETE: A copy's Complete() message reaches its core and counts or marks. (R355) -/
  | copyComplete (e : Nat)
  /-- GATHER_PERFORM: The gather engine performs a descriptor and signals its line. (R369) -/
  | gatherPerform (cl : Nat)
  /-- GROUP_PLACEMENT: The command processor places a group at its start time. (R419) -/
  | groupPlacement (kern : Nat) (grp : Nat)
  /-- DEQUE_UNIT_PERFORM: A deque unit performs the next deque operation. (R380) -/
  | dequeUnitPerform (uid : Nat) (id : Nat)
  /-- IDLE_MONITOR_TEST: A deque change notification reaches the group's idle monitor. (R385) -/
  | idleMonitorTest (kern : Nat) (grp : Nat) (uid : Nat) (ix : Nat)
  /-- BARRIER_UNIT_PERFORM: A barrier unit performs a barrier operation. (R393) -/
  | barrierUnitPerform (uid : Nat) (id : Nat)
  /-- BARRIER_POLL: A BWAIT without a watch rereads the phase every 1,024 cycles. (R398) -/
  | barrierPoll (uid : Nat) (id : Nat)
  /-- QUEUE_TAKE: The command processor takes a posted launch record. (R450) -/
  | queueTake (ctx : Nat) (qn : Nat)
  /-- OVERRUN: A group exceeds its budget and its kernel is aborted. (R415) -/
  | overrun (kern : Nat) (grp : Nat)
  /-- KERNEL_COMPLETION: A closing kernel's release work ends and its completion record is written. (R417) -/
  | kernelCompletion (kern : Nat)
  /-- TRANSFORM_RUN: A transform node runs on a fold or copy engine. (R454) -/
  | transformRun (kern : Nat)
  /-- MESH_INTERRUPT: A mesh interrupt starts pre-emption of a core. (R437) -/
  | meshInterrupt (core : Nat)
  /-- SAVE_COMPLETE: The core's save set is written and the core is released. (R437) -/
  | saveComplete (core : Nat)
  /-- RESTORE: A pre-empted core's save set is reloaded. (R441) -/
  | restore (core : Nat)
  /-- REDELIVERY: One diverted spill-queue entry is redelivered. (R441) -/
  | redelivery (ctx : Nat) (core : Nat)
  /-- SPILL_RETRY: A message refused by a full spill queue is retried. (R440) -/
  | spillRetry (ctx : Nat)
  /-- PORT_TRAINING_END: Port training ends after 2^24 cycles in UP, NARROWED or DOWN. (R458) -/
  | portTrainingEnd (port : Nat) (lanes : Nat) (peer : Nat)
  /-- LANE_FAILURE: A lane of a Clavos port fails in service. (R458) -/
  | laneFailure (port : Nat) (working : Nat)
  /-- MESSAGE_DISCARD: A message waiting for an unreachable node is discarded after 2^20 cycles. (R460) -/
  | messageDiscard (wr : Bool) (uid : Nat) (id : Nat)
  /-- MESH_COUNT_DUMP: Every 2^20 cycles the router counts are dumped. (R462) -/
  | meshCountDump
  /-- COLLECTIVE_RESERVATION: A collective chunk's reservation reaches a member's interface. (R473) -/
  | collectiveReservation (id : Nat) (flow : Nat)
  /-- COLLECTIVE_CHUNK: Collective data reaches a member, is written and forwarded. (R473) -/
  | collectiveChunk (id : Nat) (flow : Nat) (sec : Nat)
  /-- REDUCTION_COMBINE: A router combines a reduction partial with an arriving child. (R472) -/
  | reductionCombine (id : Nat) (chunk : Nat) (sec : Nat) (level : Nat) (ix : Nat)
  /-- REDUCTION_PARTIAL_SPILL: A partial waiting 65,536 cycles is spilled to a record. (R477) -/
  | reductionPartialSpill (id : Nat) (chunk : Nat) (sec : Nat) (level : Nat) (ix : Nat)
  /-- SAMPLE: A core takes a trace sample every SAMP cycles. (R505) -/
  | sample (core : Nat)
  /-- TRACE_PUSHBACK: The capture unit pushes back and stops the trace lanes. (R507) -/
  | tracePushback
  /-- FLIT_REPLAY: A flit on a Clavos port is corrected or replayed, counting into CERR or RPLY, and the 4,096th replay between two dumps fences the port. (R458) -/
  | flitReplay (port : Nat) (corrected : Bool)
  /-- POWER_REMOVAL: Power is removed from the package, ending FAILED or any running state and discarding all on-die state. (R498) -/
  | powerRemoval
  /-- PROMISE_MISSED: A kernel's Tprom, a standing kernel's completion bound, or a core's resumption bound passes unmet and PROMISE_BROKEN is reported. (R416) -/
  | promiseMissed (which : Nat) (id : Nat)
  /-- TRACE_PUSHBACK_RELEASE: The capture unit stops pushing back, the lanes resume and a GAP record carrying the drop count enters each affected FIFO. (R507) -/
  | tracePushbackRelease
  /-- WINDOW_END: A group's reserved window ends and the slot-table entries written for the context for that window are cleared. (R419) -/
  | windowEnd (kern : Nat) (grp : Nat)
  deriving DecidableEq, Repr

end Sys2Proof
end

