-- ==== Sys2Proof/Machine/State.lean ====
section
/-! DEFINITION. The state of the machine as plain data, and the state after reset. -/

namespace Sys2Proof.Machine
open Sys2Proof

/-- Reasons the machine stops with a fault: there are none. Every cause of the spec is a trap, a completion or a
report, and so a next state; nothing in the spec stops the whole package. -/
inductive Fault where
  deriving DecidableEq, Repr

/-- Reasons the model gives no meaning. -/
inductive Refusal where
  /-- raised by an arm of exec whose instruction has no meaning yet (safe) -/
  | notModelled (mnemonic : String)
  deriving DecidableEq, Repr

/-- A cause as it is raised: code and SUB (23 R480), the address, ACC and FETCH (23 R481), and the REP position (04 R116). -/
structure Cause where
  code : Nat
  sub : Nat := 0
  addr : Nat := 0
  acc : Nat := 0
  fetch : Bool := false
  iter : Nat := 0
  bidx : Nat := 0
  deriving DecidableEq, Repr

/-- Something that has a pending bit: s, a physical window register, a predicate bit, a handle or a plat register (04 R98, R104, R113). -/
inductive Loc where
  | s (i : Nat) | phys (i : Nat) | pred (i : Nat) | hreg (i : Nat) | qreg (i : Nat)
  deriving DecidableEq, Repr

/-- What a parked strand waits for (04 R93). -/
inductive Wake where
  | close | portReady | mailbox | wordChanged | barrier | ring | resource
  deriving DecidableEq, Repr

/-- How a saved strand was saved (04 R93). -/
inductive SaveKind where
  | displaced | preempted | contw (addr : Nat)
  deriving DecidableEq, Repr

/-- The state of the slot as its strand sees it (04 R93); ended is EMPTY: the slot holds the strand no longer. -/
inductive StrandSt where
  | ready
  | parked (w : Wake)
  | stopped (was : Option Wake)
  | saved (k : SaveKind) (was : Option Wake) (stop : Bool)
  | ended
  deriving DecidableEq, Repr

/-- Memory paths (08 R200); w is no path: waits that reach no memory. -/
inductive Path where
  | s | v | k | x | g | n | p | w
  deriving DecidableEq, Repr

/-- Atomic operations (05 R142). -/
inductive AOp where
  | add | and | or | xor | min | max | xchg | cas
  deriving DecidableEq, Repr

/-- Handle instructions (12 R293), tree instructions (14 R322), deque instructions (17 R381), barrier operations (18 R392). -/
inductive HOp where
  | hopen | hclose | hbatch | hlist | hattach | hdetach | hswap | hverify | hfold
  deriving DecidableEq, Repr
inductive TOp where
  | tclr | tset | tadd | tpref | tfind | tcut | ttot | tload16 | tload32 | tstore
  deriving DecidableEq, Repr
inductive DOp where
  | push | pop | split | steal
  deriving DecidableEq, Repr
inductive BOp where
  | binit | bexp | barv | bwait | btest | stb
  deriving DecidableEq, Repr
/-- Collective operations (22 R468). -/
inductive COp where
  | ag | rs (type op : Nat) | a2a | bar
  deriving DecidableEq, Repr

/-- What an outstanding operation does (04 R97); the operands are those read at issue. -/
inductive OpKind where
  /-- a mapped load of n bytes at va, sign-extended or not, one or two words (05 R136) -/
  | load (va n : Nat) (sx pair : Bool)
  | atomic (o : AOp) (va n b e : Nat)
  | agadd (va g flag : Nat)
  | acq (va : Nat) (sc : Scope)
  | acqrel (va v : Nat) (sc : Scope)
  | waitw (va e : Nat) (sc : Scope)
  | wfill (va n : Nat)
  | rep
  | rnoise
  /-- an engine operation already accepted (it has returned), whose late fault a close delivers -/
  | engine
  | vector
  | claim
  | mbr (m : Nat)
  | tree (o : TOp) (t a b : Nat)
  | deque (o : DOp) (a : Nat)
  | suspend
  | barrier (o : BOp) (a b c : Nat)
  /-- the record's address, and the second operand -/
  | handle (o : HOp) (h a b : Nat)
  | plnew (q a b : Nat)
  | pop (b : Nat)
  | peek (b : Nat)
  | swwait (a b : Nat)
  | rawait (g a : Nat)
  | gpost (line : Nat) (desc : List Byte)
  | gwait (line : Nat)
  | cpy
  | ksig (va a : Nat)
  | klaunch (va q : Nat)
  | keos
  | cgrp (g list n : Nat)
  | coll (line : Nat)
  | cwait (line : Nat)
  | contr (va slot : Nat)
  | wcall (n a : Nat)
  | sleep (until_ : Nat)
  | shoot (v : Nat)
  deriving DecidableEq, Repr

/-- Where an outstanding operation stands: sent and not back; done, its results waiting to return; late, returned
at acceptance but not yet performed (10 R236); faulted and waiting for its close; held, delivered to a handler
(04 R102). -/
inductive Phase where
  | sent | done | late | faulted | held
  deriving DecidableEq, Repr

/-- An outstanding pending-class operation (04 R97 to R102). -/
structure Op where
  id : Nat
  kind : OpKind
  path : Path
  tpc : Nat
  len : Nat
  dests : List Loc
  phase : Phase := .sent
  res : List Word := []
  cause : Cause := ⟨0, 0, 0, 0, false, 0, 0⟩
  /-- an operation is held for ERET (23 R481); a vector poison holds nothing (09 R216) -/
  holds : Bool := true
  /-- the operation belongs to a close that a trap has interrupted -/
  outer : Bool := false
  /-- progress of the operation: done bytes, registered watches and the like -/
  prog : Nat := 0
  /-- the step in which it was issued -/
  seq : Nat := 0
  /-- an instruction of a repetition: the operation of its REP, its iteration and its body index (04 R116) -/
  child : Option (Nat × Nat × Nat) := none
  /-- parcels that were bound to its word at issue (08 R188); of a SHOOT, the leaves that it has dropped (07 R180) -/
  parcels : List (Nat × Nat) := []
  /-- CPROG registers of a held load (11 R263) -/
  cprogb : Nat := 0
  cprogm : Nat := 0
  /-- words of an LDP or a WFILL already read (05 R138) -/
  got : List Word := []
  /-- an HFOLD has reserved its entry of the fold queue (13 R309) -/
  resv : Bool := false
  /-- it was issued at supervisor privilege (23 R479) -/
  sup : Bool := false
  deriving DecidableEq, Repr

/-- A captured body instruction of a repetition (04 R114). -/
structure BodyInstr where
  op : ExtOp
  e : Ext
  lit : Option Word
  addr : Nat
  len : Nat
  on : Bool
  deriving DecidableEq, Repr

/-- The repetition buffer of a slot (04 R114 to R116): the position is the next iteration and body index; register codes
are those of the window at the capture. -/
structure Rep where
  cwp : Nat
  body : List BodyInstr
  k : Nat
  stride : Int
  iter : Nat
  idx : Nat
  opId : Nat
  /-- nothing further issues until ERET: an iteration's instruction has faulted -/
  stopped : Bool := false
  deriving DecidableEq, Repr

/-- A pointer p0-p7 (09 R205). -/
structure Pointer where
  off : Nat
  str : Nat
  deriving DecidableEq, Repr

/-- A mailbox (09 R218). -/
structure Mailbox where
  full : Bool
  v : Word
  deriving DecidableEq, Repr

/-- A renegotiation that waits (09 R210): its operation, the A and M it carries (0 keeps them), the step of its issue, and
the step in which it joined the pool's arrival order as a growth request. -/
structure Reneg where
  opId : Nat
  ask : Nat
  min : Nat
  seq : Nat
  order : Nat
  deriving DecidableEq, Repr

/-- A lane claim (09 R208 to R211): its place in the pool's arrival order, the asked count, minimum and grant (0 while
ungranted), the VCLAIM's operation, waiting renegotiations, the VFREE that has ended it, the lanes of the grant by the step from which
instructions run on them (the latest first), and lanes it has given up that go back when the instructions issued from the first step and
before the second have finished. -/
structure Claim where
  id : Nat
  ask : Nat
  min : Nat
  grant : Nat
  opId : Nat
  rens : List Reneg
  freed : Option Nat
  segs : List (Nat × Nat)
  owed : List (Nat × Nat × Nat)
  deriving DecidableEq, Repr

/-- A vector instruction in the strand's queue (09 R212), with what it read at issue: the major opcode and selector or the
extended operation, the count, the operand offsets (destination, a, b, and mask), the mailbox, the scalar operands, the
seed, the chain stages, every operand's offset and bytes, its claim, and its place for a fault. -/
structure VecOp where
  op : Nat := 0
  ext : Option ExtOp := none
  et : Nat := 0
  mode : Nat := 0
  imm : Nat := 0
  n : Nat := 0
  pd : Nat := 0
  pa : Nat := 0
  pb : Nat := 0
  pm : Nat := 0
  mb : Nat := 0
  x : Nat := 0
  y : Nat := 0
  seed : Nat := 0
  chain : List Nat := []
  spans : List (Nat × Nat) := []
  cid : Nat := 0
  seq : Nat := 0
  opId : Nat := 0
  tpc : Nat := 0
  len : Nat := 0
  iter : Nat := 0
  bidx : Nat := 0
  deriving DecidableEq, Repr

/-- What a vector instruction has still to do once it has computed (09 R214 to R216): its writes by 8-byte atoms (08 R203), the words that
become poisoned, flags, a mailbox value, and whether it met poison. -/
structure VecOut where
  left : List (Nat × List Byte)
  taint : List Nat
  flags : Nat
  mb : Option Word
  bad : Bool
  deriving DecidableEq, Repr

/-- A plat register (16 R347). -/
structure Plat where
  valid : Bool
  record : List Byte
  raddr : Nat
  base : Nat
  ext : List Nat
  linked : Bool
  deriving DecidableEq, Repr

/-- A handle register (12 R290). -/
structure Handle where
  op : Bool
  raddr : Nat
  plat : Nat
  base : Nat
  gen : Nat
  nl : Nat
  ids : List Nat
  /-- where the record lay when the register was opened (12 R303) -/
  rpa : Nat
  deriving DecidableEq, Repr

/-- A port queue of one bearing (15 R333): 65-bit entries, an end token has its top bit set. -/
structure Port where
  q : List (Bool × Word)
  credit : Nat
  sink : Bool
  closed : Bool
  deriving DecidableEq, Repr

/-- A gather event line (16 R368, R370): free, armed, or complete with its result. -/
structure GLine where
  st : Nat
  res : Word
  deriving DecidableEq, Repr

/-- A collective line (22 R470, R474). -/
structure CLine where
  st : Nat
  coll : Nat
  res : Word
  deriving DecidableEq, Repr

/-- The trap registers and what a trap records beside them (23 R481, R485). -/
structure TrapRegs where
  tpc : Word
  tcause : Word
  taddr : Word
  tres : Word
  intrap : Bool
  ppriv : Bool
  /-- length of the trapped instruction (23 R485) -/
  tlen : Nat
  /-- the trapped close was that of END -/
  tend : Bool
  /-- id of the operation held for ERET -/
  held : Nat
  deriving DecidableEq, Repr

/-- A strand, and what its slot holds for it (04 R93 to R119, 09, 15, 16, 12, 23). -/
structure Strand where
  ctx : Nat
  kern : Nat
  grp : Nat
  index : Nat
  lcore : Nat
  lslot : Nat
  pcore : Nat
  pslot : Nat
  st : StrandSt
  sup : Bool
  pc : Nat
  sregs : Table Word
  phys : Table Word
  cwp : Nat
  wres : Nat
  /-- c15-c1 in bits 15 to 1; bit 0 is zero here and reads as 1 (04 R113) -/
  pword : Nat
  wsp : Word
  dseed : Word
  pend : List Loc
  ops : List Op
  nextOp : Nat
  /-- close in progress: its resume point, and whether it is END's -/
  close : Option (Nat × Bool)
  /-- END has closed and waits for the repetition buffer and the claim (04 R110) -/
  ending : Bool
  yielded : Bool
  rep : Option Rep
  vflags : Nat
  mblost : Bool
  engaged : Bool
  outside : Bool
  ptrs : Table Pointer
  mboxes : Table Mailbox
  claims : List Claim
  vq : List VecOp
  /-- the instruction at the head has computed, and this is still to be done -/
  vout : Option VecOut
  plats : Table Plat
  handles : Table Handle
  glines : Table GLine
  clines : Table CLine
  ports : Table Port
  /-- the port the strand waits at, for the deadlock rule (15 R343) -/
  portWait : Option Nat
  slice : Option Nat
  cprogb : Word
  cprogm : Word
  trap : TrapRegs
  /-- breakpoint suppressed for one replay, and the watchpoint suppressed (23 R483) -/
  noBreak : Bool
  noWatch : Option Nat
  noiseSeq : Nat
  passedEnd : Bool
  /-- a stop waits for the strand's next turn or its restore; it came from a watchpoint -/
  stopWaits : Bool
  stopDbg : Bool
  /-- chosen for thermal displacement: it issues no further pending-class instruction (04 R119) -/
  displacing : Bool
  /-- a drain of its restartable slice has failed its check: it issues nothing until the slice is rerun (10 R260) -/
  rerunWaits : Bool
  /-- the first cycle in which it may take a turn: the one after its last turn (00 R5), or after it was woken (04 R94) -/
  turn : Nat
  deriving DecidableEq, Repr

/-- A binding of a context (08 R186): word, parcel base and length. -/
structure Binding where
  word : Nat
  base : Nat
  len : Nat
  deriving DecidableEq, Repr

/-- A change of a binding table on its way to other cores (08 R188): the index, what it now holds, and the cores that
have not applied it yet. -/
structure BindMsg where
  ctx : Nat
  idx : Nat
  b : Option Binding
  cores : List Nat
  seq : Nat
  deriving DecidableEq, Repr

/-- A port value or an end token on its way (15 R332, R336): from a strand's bearing to a strand's queue; a credit on
its way back has its own list. -/
structure PortMsg where
  src : Nat
  bearing : Nat
  dst : Nat
  into : Nat
  tok : Bool
  v : Word
  deriving DecidableEq, Repr

/-- A line of the read buffer (05 R139): its set, tag (context and virtual sector address) and bytes. -/
structure RBLine where
  ctx : Nat
  va : Nat
  bytes : List Byte
  /-- what the line held before a store of a strand, for that strand's earlier loads not yet performed (05 R140) -/
  early : List ((Nat × Nat) × List Byte) := []
  deriving DecidableEq, Repr

/-- An entry of a translation cache (07 R178): the cache, the context, the page's virtual base and size, the leaf's
physical address and its two words, and the accesses gathered (07 R174). -/
structure TlbEntry where
  who : Nat
  ctx : Nat
  va : Nat
  size : Nat
  epa : Nat
  w0 : Nat
  w1 : Nat
  cnt : Nat
  deriving DecidableEq, Repr

/-- A copy taken by an engine or waiting in a FIFO (16 R352 to R356), as it stood at issue. -/
structure Copy where
  id : Nat
  uid : Nat
  core : Nat
  kern : Nat
  grp : Nat
  ctx : Nat
  nb : Bool
  req : List Word
  engine : Option Nat
  /-- destination lines whose in-flight bits it set -/
  lines : List Nat
  moved : Nat
  slot : Nat
  /-- the handle record of a digest check, and the bytes hashed -/
  hva : Nat
  hash : List Byte
  /-- the error that ends it: code and first failed byte (16 R356) -/
  err : Option (Nat × Nat)
  /-- source bytes read and not yet written -/
  buf : List Byte := []
  deriving DecidableEq, Repr

/-- A write on its way to its home (05 R136): by which strand and core, the path, where, and what. -/
structure MemWrite where
  uid : Nat
  core : Nat
  ctx : Nat
  path : Path
  va : Nat
  pa : Nat
  bytes : List Byte
  /-- the barrier and the core of an STB, whose count goes with the write (18 R400) -/
  stb : Option (Nat × Nat)
  /-- the step in which it was issued, and whether it has passed its cluster's request hub (08 R192) -/
  seq : Nat
  hub : Bool
  /-- the order tag that goes with the write of a release (08 R197) -/
  tag : Option Nat := none
  /-- the copy that makes it (16 R356) -/
  copy : Option Copy := none
  /-- a watchpoint stops its strand once it is performed (25 R502) -/
  stop : Bool := false
  deriving DecidableEq, Repr

/-- What a release-queue entry does when its work is done (08 R197, R198, 19 R427, R428). -/
inductive RelKind where
  | rel (v : Nat)
  | acqrel (opId : Nat)
  | ksig (opId : Nat)
  | klaunch (opId : Nat)
  deriving DecidableEq, Repr

/-- An entry of a core's release queue (08 R197). -/
structure Rel where
  uid : Nat
  ctx : Nat
  va : Nat
  pa : Nat
  sc : Scope
  kind : RelKind
  seq : Nat
  /-- the page of its word was write-blocked when it was translated: it has issued against no leaf (07 R180, R181) -/
  wb : Bool := false
  /-- the privilege of its issue (23 R479), and whether a watchpoint stops its strand once it is performed (25 R502) -/
  sup : Bool := false
  stop : Bool := false
  deriving DecidableEq, Repr

/-- A watch at a home (08 R199): the waiting operation, the word and the value it must differ from. -/
structure Watch where
  uid : Nat
  opId : Nat
  pa : Nat
  e : Nat
  /-- false when all 64 watches of the home were in use: the word is polled instead -/
  placed : Bool
  deriving DecidableEq, Repr

/-- A scope-miss message to a release handler (08 R194). -/
structure ScopeMiss where
  ctx : Nat
  core : Nat
  pa : Nat
  sc : Scope
  deriving DecidableEq, Repr

/-- A partition of a context on a core (10 R230, 19 R419). -/
structure Partn where
  tiles : List Nat
  ob : Nat
  ow : Nat
  trees : List Nat
  bb : Nat
  nb : Nat
  sb : Nat
  sz : Nat
  rb : Nat
  rn : Nat
  deriving DecidableEq, Repr

/-- Placement of a context on a core (20 R435). -/
inductive PlaceSt where
  | none | placed | saving | saved | restoring
  deriving DecidableEq, Repr

/-- States of a logical tile (10 R232). -/
inductive TileSt where
  | unshaped | live | draining | drained | held
  deriving DecidableEq, Repr

/-- A logical tile (10 R231, R232, R240). -/
structure LTile where
  st : TileSt
  was : TileSt
  rows : Nat
  cols : Nat
  phys : List Nat
  datum : Int
  chkfail : Bool
  part : Bool
  dflags : Nat
  deriving DecidableEq, Repr

/-- A physical tile (10 R231, R252): lanes by row * 64 + column, the checksum column (by row) and the checksum row
(by column), and whether it is drained (06 R151). -/
structure PTile where
  lanes : Table Lane
  rowSum : Table Lane
  colSum : Table Lane
  drained : Bool
  deriving DecidableEq, Repr

/-- The format of the resident operand (10 R241). -/
structure RFmt where
  elem : Nat
  block : Bool
  deriving DecidableEq, Repr

/-- What an entry of the engine queue does (10 R234, 11 R272, R276), with what it read at issue. -/
inductive EngKind where
  | ashape (a rows cols : Nat)
  | adatum (a : Nat) (d : Int)
  | azero (a : Nat)
  | astat (a v : Nat)
  | achk (a : Nat)
  | cld (a o : Nat) (coop : Bool)
  | cldSp (a map o : Nat)
  | old (o : Nat) (chain : Option Nat)
  | oldT (o rm : Nat) (sat : Bool) (stream seed : Nat) (chain : Option Nat)
  | ocols (g : Nat)
  | adrain (a tgt rm : Nat) (sat : Bool) (stream scale seed : Nat)
  | mseq (list par qb cap : Nat)
  /-- a member's part of a chained OLD or OLD.T of another core (10 R247) -/
  | member (core seq : Nat)
  /-- another engine's part of a cooperative load of this cluster (10 R254) -/
  | coop (core seq a o : Nat)
  deriving DecidableEq, Repr

/-- A sector that has been requested (11 R264): its number, its address, where it lies, and its page. -/
structure Flight where
  t : Nat
  va : Nat
  pa : Nat
  page : Nat
  size : Nat
  cad : Nat
  /-- where its bytes beyond the page's end lie, for a base that is no multiple of 64 (10 R242, 16 R348) -/
  more : Option Nat
  /-- the descriptor that decodes it: w0, w1 and the upper half (07 R173) -/
  desc : Nat × Nat × Nat
  deriving DecidableEq, Repr

/-- An entry of an engine's queue or one of its running streams (10 R234, R250). -/
structure EngOp where
  seq : Nat
  uid : Nat
  ctx : Nat
  opId : Nat
  tpc : Nat
  len : Nat
  kind : EngKind
  plat : Plat
  /-- the snapshot that the linked plat carries, and its handle register (12 R286, R291) -/
  snap : Handle
  hnum : Nat
  org : Nat
  /-- checks made, the stream runs -/
  started : Bool
  /-- held at a fault: 0 no, 1 at its checks, 2 in mid-range -/
  heldAt : Nat
  /-- sectors accumulated, and sectors requested with no reply yet (11 R263 to R265) -/
  marks : List Nat
  flight : List Flight
  /-- sectors whose reply carried a fault, with the cause -/
  bad : List (Nat × Cause)
  /-- element codes or scales staged for a transposed or chained load, and rows drained -/
  buf : Table Nat
  row : Nat
  /-- physical tiles bound when it was accepted -/
  phys : List Nat
  /-- chain members still to reserve, and still to receive the data -/
  toReserve : List Nat
  toSend : List Nat
  /-- elements per sector and widened delivery, fixed at the checks (07 R173, 12 R287) -/
  per : Nat
  wide : Bool
  /-- the flags of a drain or of a transposed block load so far -/
  flags : Nat
  /-- what a drain has still to write of its row (08 R203) -/
  out : List (Nat × List Byte)
  /-- the map line in hand, and the words of the map record read so far (11 R275) -/
  line : Option (Nat × List Byte)
  words : List Nat
  /-- accumulated sectors of a transposed block load whose blocks are not whole yet (10 R245) -/
  kept : List Nat
  deriving DecidableEq, Repr

/-- A tree register (14 R319). -/
structure TreeReg where
  len : Nat
  m16 : Bool
  leaves : Table Word
  neg : Bool
  sat : Bool
  inexact : Bool
  deriving DecidableEq, Repr

/-- A barrier (18 R389). -/
structure Barrier where
  phase : Nat
  expc : Nat
  arr : Nat
  ovf : Bool
  pendB : Nat
  deriving DecidableEq, Repr

/-- A ring object (16 R362). -/
structure RingSt where
  base : Nat
  lsz : Nat
  ln : Nat
  wp : Nat
  rp : Nat
  full : Nat
  done : Nat
  eosv : Bool
  eosq : Nat
  ovf : Bool
  deriving DecidableEq, Repr

/-- What a context holds on a core: its partition and everything private to it there. -/
structure Part where
  ctx : Nat
  core : Nat
  st : PlaceSt
  partn : Partn
  tiles : Table LTile
  rf : Option RFmt
  ostore : Table Byte
  oscale : Table Byte
  /-- hidden column sums: valid for G rows a group, each an exact numerator over 2^300 (10 R246) -/
  osumG : Option Nat
  osum : Table Val
  eq : List EngOp
  streams : List EngOp
  trees : Table TreeReg
  /-- the tree unit's queue: strand, operation, and the step of its arrival (14 R320) -/
  tq : List (Nat × Nat × Nat)
  barriers : Table Barrier
  rings : Table RingSt
  deque : List Nat
  deqGrp : Option Nat
  /-- the cycle of the context's placement on the core (25 R505) -/
  since : Nat
  /-- the cycle of its last sample (25 R505), and whether its missed resumption has been reported (20 R442) -/
  sampled : Nat
  late : Bool
  /-- its physical tiles and its poisoned scratchpad words while it is saved (20 R436) -/
  kept : Table PTile
  keptBad : List Nat
  deriving DecidableEq, Repr

/-- What a core holds for all its contexts. -/
structure CoreSt where
  ptiles : Table PTile
  stab : Table Nat
  stabNew : Table Nat
  rbuf : List RBLine
  relq : List Rel
  touchS : Nat
  touchP : Nat
  echoS : Nat
  echoP : Nat
  binds : Table (Table Binding)
  bindOwed : List BindMsg
  misses : List ScopeMiss
  /-- atomics issued before this step have passed the cluster's request hub (08 R193) -/
  hubSeq : Nat
  inflight : List Nat
  disabled : Nat
  frozen : Nat
  temp : Nat
  checks : List Nat
  nextSeq : Nat
  /-- the context whose work the engine took last (10 R261) -/
  engTurn : Nat
  /-- when the interrupt of its pre-emption arrived (20 R437), and the cycle of its last thermal step (19 R421) -/
  since : Nat
  thermAt : Nat
  deriving DecidableEq, Repr

/-- A fold job (13 R305 to R313): 0 QUEUED, 1 RUNNING, 2 COMMITTING; a finished job leaves the queue. Its record and its request block
are virtual addresses. -/
structure FoldJob where
  die : Nat
  ctx : Nat
  record : Nat
  snap : Handle
  req : Nat
  dest : Nat
  digt : Nat
  st : Nat
  nsec : Nat
  fgen : Nat
  fail : Option Cause
  /-- the plat record that the home read -/
  plat : List Byte
  /-- what is still to be written of the sector or the digest in hand, by 8-byte atoms at physical addresses (08 R203), and the
  virtual address of that sector or digest -/
  out : List (Nat × List Byte)
  outVA : Nat
  /-- bytes of the new region, and digests written -/
  img : List Byte
  ndig : Nat
  deriving DecidableEq, Repr

/-- A gather in a cluster's engine queue (16 R368, R369). -/
structure Gather where
  cluster : Nat
  uid : Nat
  line : Nat
  core : Nat
  ctx : Nat
  kern : Nat
  grp : Nat
  desc : List Byte
  lines : List Nat
  pos : Nat
  noor : Nat
  mask : List Nat
  /-- the index of the row in hand, once read; its bytes, read so far or, once it is whole, still to be written -/
  idx : Option Nat := none
  row : List Byte := []
  whole : Bool := false
  /-- the code with which it ends, while its status mask is still to be written (16 R369) -/
  fin : Option Nat := none
  deriving DecidableEq, Repr

/-- States of a group and of a kernel (17 R375, 19 R406). -/
inductive GroupSt where
  | pending | resident | ended
  deriving DecidableEq, Repr
inductive KernSt where
  | submitted | refused | admitted | running | closing | complete | aborted
  deriving DecidableEq, Repr

/-- A group of a kernel's grid (17 R373 to R379, 19 R411 to R413). -/
structure Group where
  num : Nat
  st : GroupSt
  cores : List Nat
  start : Nat
  window : Nat
  cyc : Nat
  bytes : Nat
  thermal : Nat
  /-- port-deadlock counter (15 R343) -/
  stall : Nat
  /-- strands registered with the idle monitor (17 R385) -/
  idle : List Nat
  /-- changes of deques on their way to the monitor (strand, core, an entry is held), and the cores whose deque it knows to
  hold an entry -/
  notes : List (Nat × Nat × Bool)
  view : List Nat
  /-- what admission reserved: slot numbers, and the partition on each core if the context has none there by then -/
  slots : List Nat
  plan : List (Nat × Partn)
  /-- slot-table entries written for its window, by core (19 R419) -/
  ents : List (Nat × Nat)
  /-- a busy run is in progress (19 R411), and the cycle in which its placement began (19 R412, R420) -/
  busy : Bool
  began : Option Nat
  deriving DecidableEq, Repr

/-- What a transform has still to write (21 R454): the code of an element with the scale of its block, or plain bytes; whether it is the first
of its sector, and whether it completes one that the transform writes whole. -/
inductive XOut where
  | code (e c : Nat) (scale : Option Nat) (first whole : Bool)
  | bytes (va : Nat) (bs : List Byte) (first : Bool)
  deriving DecidableEq, Repr

/-- A kernel (19 R404 to R417) or a transform (21 R454). -/
structure Kernel where
  ctx : Nat
  st : KernSt
  xform : Nat
  kaddr : Nat
  kind : Nat
  span : Nat
  strands : Nat
  cost : List Byte
  g : Nat
  argv : Nat
  argn : Nat
  adma : Nat
  cmpa : Nat
  siga : Nat
  sigv : Nat
  tprom : Nat
  left : Nat
  gfail : Nat
  cause : Nat
  eosLeft : Nat
  eosStart : Option Nat
  par : Nat
  groups : List Group
  /-- its promise was missed and has been reported (19 R416) -/
  late : Bool
  /-- the status of a completion record that waits for a write-blocked page (07 R181), and whether its completion signal is still to be
  sent (21 R453) -/
  owes : Option Nat
  sigOwed : Bool
  /-- cycles of a deterministic kernel's common sequence, the one of its last sweep, events of that sweep still to come, cycles for which a
  late reply still freezes it, and its place among the values that the spec leaves open (19 R423, R424) -/
  detCyc : Nat
  swept : Nat
  todo : List Instr
  hold : Nat
  detFree : Nat
  /-- a running transform (21 R454): its control block and plat record, rows or digests computed, sectors packed, and what it has still to
  write of them -/
  xblk : List Byte
  xpos : Nat
  xsoff : Nat
  xout : List XOut
  deriving DecidableEq, Repr

/-- A kernel of a loaded object: its text address, group kind, span, strands, NOISE bit and scratchpad image (02 R62, R63). -/
structure LoadedKernel where
  addr : Nat
  bytes : Nat
  kind : Nat
  span : Nat
  strands : Nat
  noise : Bool
  image : List Byte
  deriving DecidableEq, Repr

/-- A collective group of a context (22 R466, R467): 0 FREE, 1 FORMING, 2 ACTIVE, 3 LEAVING; the listed entries by
rank, the ranks that have joined and left, and each member's next sequence number. -/
structure CollGroup where
  st : Nat
  members : List Nat
  joined : List Nat
  left : List Nat
  seqs : Table Nat
  deriving DecidableEq, Repr

/-- A member's part of a collective in progress (22 R470 to R474). -/
structure CollMember where
  rank : Nat
  uid : Nat
  line : Nat
  src : Nat
  dst : Nat
  /-- the node of a member that is not in this package (22 R466) -/
  away : Option Nat
  deriving DecidableEq, Repr

/-- What a member on another node does (22 R466): it joins a group under a list, leaves it, issues a collective, or makes one abort. -/
inductive Peer where
  | join (g : Nat) (list : List Nat) (rank : Nat)
  | leave (g rank : Nat)
  | coll (g rank : Nat) (op : COp) (len : Nat)
  | abort (id why cause rank : Nat)
  deriving DecidableEq, Repr

/-- A reduction partial (22 R472, R477): its chunk and sector, its place in the tree, its bytes, since when it waits, and
the spill record that holds it. -/
structure RPart where
  chunk : Nat
  sec : Nat
  level : Nat
  ix : Nat
  bytes : List Byte
  since : Nat
  spill : Option Nat
  deriving DecidableEq, Repr

/-- A sector on its way along a traverse (22 R473): its flow, its number, its bytes and the ranks still to receive it. -/
structure CSector where
  flow : Nat
  sec : Nat
  bytes : List Byte
  todo : List Nat
  /-- bytes that the first of them has (08 R203) -/
  got : Nat := 0
  deriving DecidableEq, Repr

/-- A collective in progress (22 R470 to R475): n members, L bytes a chunk. -/
structure Coll where
  id : Nat
  ctx : Nat
  g : Nat
  seq : Nat
  op : COp
  len : Nat
  n : Nat
  members : List CollMember
  /-- members reserved along each flow's traverse -/
  resv : Table Nat
  moving : List CSector
  parts : List RPart
  /-- sectors that every receiver has, by flow and number -/
  done : List (Nat × Nat)
  /-- WHY, CAUSE and FRANK of an abort -/
  abort : Option (Nat × Nat × Nat)
  deriving DecidableEq, Repr

/-- A breakpoint (lg 2, no kinds) or a watchpoint (25 R501). -/
structure DbgPoint where
  en : Bool
  stop : Bool
  base : Nat
  lg : Nat
  rd : Bool
  wr : Bool
  deriving DecidableEq, Repr

/-- States of a context (20 R431). -/
inductive CtxSt where
  | free | built | active | teardown
  deriving DecidableEq, Repr

/-- An entry of a context's spill queue (20 R440), as the model holds it. -/
inductive Spill where
  | write (w : MemWrite)
  | mem (uid opId : Nat)
  | unit (uid opId : Nat)
  | port (uid bearing : Nat) (what : Nat) (v : Word)
  /-- the completion of a copy, and its error code (16 R355) -/
  | complete (c : Copy) (err : Nat)
  /-- the signal of a gather, and the lines that it ends (16 R370) -/
  | signal (uid line : Nat) (res : Word) (lines : List Nat)
  /-- the reply of an outstanding operation (20 R438) -/
  | reply (uid opId : Nat)
  | miss (m : ScopeMiss)
  /-- the data of a traverse for a member (10 R247) -/
  | old (e : EngOp)
  deriving DecidableEq, Repr

/-- A context (20 R430, R431). Registers are held as system software reads them. -/
structure Ctx where
  st : CtxSt
  secure : Bool
  ptroot : Nat
  cadb : Nat
  lwin : Nat
  bwin : Nat
  layb : Nat
  layn : Nat
  nqb : Nat
  nqn : Nat
  nqth : Nat
  xerb : Nat
  xern : Nat
  pstall : Nat
  hscrub : Nat
  nlogb : Nat
  nlogn : Nat
  nlogi : Nat
  nlogMode : Nat
  nlogLoss : Bool
  nlogExhaust : Bool
  seed : Word
  saveb : Nat
  spqb : Nat
  spqn : Nat
  spqSeq : Nat
  rbound : Nat
  wspb : Nat
  wsplg : Nat
  argb : Nat
  arglg : Nat
  args : List (Nat × Nat)
  binds : Table Binding
  /-- the vector table, and whether one has been installed (23 R482) -/
  tvec : Nat
  tvecSet : Bool
  rspb : Nat
  rspn : Nat
  /-- open launch queues by number: the address of the control block (21 R447, R448) -/
  queues : Table Nat
  /-- records posted to device queues by KLAUNCH, by queue number (21 R449) -/
  posted : Table Nat
  loaded : List LoadedKernel
  colls : Table CollGroup
  samp : Nat
  breaks : Table DbgPoint
  watches : Table DbgPoint
  spill : List (Nat × Spill)
  refused : List (Nat × Spill)
  deriving DecidableEq, Repr

/-- States of a Clavos port (22 R457, R458). -/
inductive ClavosSt where
  | down | training | up | narrowed | fenced
  deriving DecidableEq, Repr

structure Clavos where
  st : ClavosSt
  lanes : Nat
  peer : Nat
  chg : Nat
  cerr : Nat
  rply : Nat
  /-- replays since the last mesh count dump (22 R458) -/
  recent : Nat
  /-- the cycle of its last change of state -/
  since : Nat
  deriving DecidableEq, Repr

/-- A move of the device: a turn of a strand, or a step of another agent; or an act that no row of the opcode table has: a node writes
its own memory (06 R146), or an ECC word takes an error, correctable or not (06 R159; log entry 20). -/
inductive Move where
  | issue (uid : Nat)
  | event (i : Instr)
  | node (pa : Nat) (bytes : List Byte)
  | upset (pa : Nat) (fixed : Bool)
  | guard (on : Bool)
  /-- nothing but time passes -/
  | idle
  | lineError (core ctx va : Nat)
  | residue (core ctx a : Nat)
  /-- a message of a member of a collective group on another node arrives (22 R466) -/
  | peer (ctx : Nat) (p : Peer)
  deriving DecidableEq, Repr, Inhabited

/-- The machine. -/
structure State where
  phase : Nat
  failCode : Nat
  cycle : Nat
  cur : Nat
  mem : List Host.Cell
  poison : List Nat
  tags : Table Nat
  ecc : Table Nat
  /-- reads that met an uncorrectable or poisoned word, by address and cycle (06 R159) -/
  eccLog : List (Nat × Nat)
  strands : Table Strand
  nextUid : Nat
  cores : Table CoreSt
  parts : Table Part
  ctxs : Table Ctx
  kernels : Table Kernel
  nextKern : Nat
  tlb : List TlbEntry
  /-- gathered access counts on their way to the slice of their leaf: cache, context, page, leaf address, count (07 R174) -/
  counts : List (Nat × Nat × Nat × Nat × Nat)
  /-- descriptors that the engines hold, by core, context and index (07 R173) -/
  descs : Table (Nat × Nat × Nat)
  /-- hot-page records on their way to a ring: context, leaf address, count (07 R177) -/
  hot : List (Nat × Nat × Nat)
  writes : List MemWrite
  pushes : List PortMsg
  credits : List (Nat × Nat)
  watches : List Watch
  noiseBad : Table Bool
  noiseWait : Table (List (Nat × Nat))
  folds : List FoldJob
  /-- by address of a handle record: the shard that its home checks next, and the cycle of the last check (12 R300) -/
  scrubs : Table (Nat × Nat)
  copies : List Copy
  nextCopy : Nat
  /-- the core that a die's copy engines visit next (16 R354) -/
  copyTurn : Table Nat
  gathers : List Gather
  colls : List Coll
  nextColl : Nat
  clavos : Table Clavos
  meshDump : Nat
  /-- messages found waiting for a fabric port (22 R460): their world, which they are (a write or an operation, its strand or its engine, its
  number), and since when -/
  unreach : List (Bool × (Bool × Nat × Nat) × Nat)
  /-- decompression dictionaries by sending node and virtual channel, newest byte last (22 R463) -/
  dicts : Table (List Byte)
  guardLog : List (List Byte)
  /-- secure firmware has selected GUARDED mode; streams that the watchdog has cut off, as the dictionaries are numbered (22 R465) -/
  guardSel : Bool
  cutOff : List Nat
  textCache : List (List Byte × List Bool)
  config : List Byte
  /-- SHA-256 of the running firmware (24 R497) -/
  fwHash : List Byte
  populated : Table Nat
  trcSel : Nat
  traces : Table (List (List Byte))
  traceDrop : Table Nat
  pushback : Bool
  /-- the FIFO that feeds the trace lanes next (25 R507) -/
  traceTurn : Nat
  free : Nat
  tick : Nat
  /-- steps taken: it orders what was issued in different steps (MODEL) -/
  steps : Nat
  agenda : List Move
  deriving DecidableEq, Repr

/-- A core at power-up (log entry 1). -/
def CoreSt.init : CoreSt :=
  { ptiles := [], stab := [], stabNew := [], rbuf := [], relq := [], touchS := 0, touchP := 0, echoS := 0,
    echoP := 0, binds := [], bindOwed := [], misses := [], hubSeq := 0, inflight := [], disabled := 0, frozen := 0,
    temp := 0, checks := [], nextSeq := 0, engTurn := 0, since := 0, thermAt := 0 }

/-- A context number not in use. -/
def Ctx.init : Ctx :=
  { st := .free, secure := false, ptroot := 0, cadb := 0, lwin := 0, bwin := 0, layb := 0, layn := 0, nqb := 0,
    nqn := 0, nqth := 256, xerb := 0, xern := 0, pstall := 2 ^ 20, hscrub := 0, nlogb := 0, nlogn := 0, nlogi := 0,
    nlogMode := 0, nlogLoss := false, nlogExhaust := false, seed := 0, saveb := 0, spqb := 0, spqn := 0, spqSeq := 0,
    rbound := 0, wspb := 0, wsplg := 0, argb := 0, arglg := 0, args := [], binds := [], tvec := 0, tvecSet := false, rspb := 0, rspn := 0,
    queues := [], posted := [], loaded := [], colls := [], samp := 0, breaks := [], watches := [], spill := [], refused := [] }

def LTile.init : LTile :=
  { st := .unshaped, was := .unshaped, rows := 0, cols := 0, phys := [], datum := 0, chkfail := false, part := false,
    dflags := 0 }
def PTile.init : PTile := { lanes := [], rowSum := [], colSum := [], drained := false }
def TreeReg.init : TreeReg := { len := 0, m16 := false, leaves := [], neg := false, sat := false, inexact := false }
def Barrier.init : Barrier := { phase := 0, expc := 0, arr := 0, ovf := false, pendB := 0 }
def RingSt.init : RingSt :=
  { base := 0, lsz := 6, ln := 0, wp := 0, rp := 0, full := 0, done := 0, eosv := false, eosq := 0, ovf := false }

/-- No partition: what a core holds for a context that is not placed there. -/
def Partn.init : Partn :=
  { tiles := [], ob := 0, ow := 0, trees := [], bb := 0, nb := 0, sb := 0, sz := 0, rb := 0, rn := 0 }
def Part.init (ctx core : Nat) : Part :=
  { ctx := ctx, core := core, st := .none, partn := Partn.init, tiles := [], rf := none, ostore := [], oscale := [],
    osumG := none, osum := [], eq := [], streams := [], trees := [], tq := [], barriers := [], rings := [],
    deque := [], deqGrp := none, since := 0, sampled := 0, late := false, kept := [], keptBad := [] }

def Pointer.init : Pointer := ⟨0, 0⟩
def Mailbox.init : Mailbox := ⟨false, 0⟩
def Plat.init : Plat := ⟨false, [], 0, 0, [], false⟩
def Handle.init : Handle := ⟨false, 0, 0, 0, 0, 0, [], 0⟩
def Port.init : Port := ⟨[], 8, false, false⟩
def TrapRegs.init : TrapRegs := ⟨0, 0, 0, 0, false, false, 0, false, 0⟩

/-- A slot's strand with every register zero (04 R95; log entry 1 for a slot that holds none). -/
def Strand.init : Strand :=
  { ctx := 0, kern := 0, grp := 0, index := 0, lcore := 0, lslot := 0, pcore := 0, pslot := 0, st := .ended,
    sup := false, pc := 0, sregs := [], phys := [], cwp := 0, wres := 0, pword := 0, wsp := 0, dseed := 0, pend := [],
    ops := [], nextOp := 0, close := none, ending := false, yielded := false, rep := none, vflags := 0,
    mblost := false, engaged := false, outside := false, ptrs := [], mboxes := [], claims := [], vq := [], vout := none,
    plats := [], handles := [], glines := [], clines := [], ports := [], portWait := none, slice := none, cprogb := 0,
    cprogm := 0, trap := TrapRegs.init, noBreak := false, noWatch := none, noiseSeq := 0, passedEnd := false,
    stopWaits := false, stopDbg := false, displacing := false, rerunWaits := false, turn := 0 }

def Kernel.init : Kernel :=
  { ctx := 0, st := .submitted, xform := 0, kaddr := 0, kind := 0, span := 0, strands := 0, cost := [], g := 0,
    argv := 0, argn := 0, adma := 0, cmpa := 0, siga := 0, sigv := 0, tprom := 0, left := 0, gfail := 0xFFFFFFFF,
    cause := 0, eosLeft := 0, eosStart := none, par := 0, groups := [], late := false, owes := none, sigOwed := false, detCyc := 0, swept := 0, todo := [], hold := 0, detFree := 0,
    xblk := [], xpos := 0, xsoff := 0, xout := [] }

def Clavos.init : Clavos := ⟨.down, 0, 0xFFFF, 0, 0, 0, 0, 0⟩

/-- The machine right after power-up: bring-up has not begun (24 R498), no context, strand or partition exists, every
order tag reads NONE (08 R185), every slot-table entry is unowned (10 R261) and trace selection is 0 (25 R500). -/
def State.reset : State :=
  { phase := 0, failCode := 0, cycle := 0, cur := 0, mem := [], poison := [], tags := [], ecc := [], eccLog := [], strands := [],
    nextUid := 0, cores := [], parts := [], ctxs := [], kernels := [], nextKern := 0, tlb := [], counts := [], descs := [], hot := [], writes := [], pushes := [], credits := [],
    watches := [], noiseBad := [], noiseWait := [], folds := [], scrubs := [], copies := [], nextCopy := 0, copyTurn := [],
    gathers := [], colls := [], nextColl := 0, clavos := [], meshDump := 0, unreach := [], dicts := [], guardLog := [], guardSel := false, cutOff := [], textCache := [],
    config := [], fwHash := [], populated := [], trcSel := 0, traces := [],
    traceDrop := [], pushback := false, traceTurn := 0, free := 0, tick := 0, steps := 0, agenda := [] }

end Sys2Proof.Machine
end

