-- ==== Sys2Proof/Machine/Mem.lean ====
section
/-! DEFINITION. Memory bytes, the physical layout, worlds, the contents of on-chip windows, and translation (06, 07, 24). -/

namespace Sys2Proof.Machine
open Sys2Proof

/-- What an unlisted address reads as (log entry 6). -/
def memDefault : Byte := 0

/-- One byte of memory. -/
def memGet (m : List Host.Cell) (a : Nat) : Byte := tget memDefault m a

/-- Write one byte, keeping the canonical form. -/
def memSet (m : List Host.Cell) (a : Nat) (b : Byte) : List Host.Cell :=
  if b = memDefault then tdel m a else tput m a b

/-- The canonical form: addresses strictly rising, no entry equal to what an unlisted address reads as. -/
abbrev Memory.wf (m : List Host.Cell) : Prop :=
  m.Pairwise (fun x y => x.1 < y.1) ∧ ∀ c ∈ m, c.2 ≠ memDefault

/-- Write bytes from an address on. -/
def memPut (m : List Host.Cell) : Nat → List Byte → List Host.Cell
  | _, [] => m
  | a, b :: bs => memPut (memSet m a b) (a + 1) bs

def readBytes (s : State) (a n : Nat) : List Byte := (upto n).map fun i => memGet s.mem (a + i)
def readLE (s : State) (a n : Nat) : Nat := leNat (readBytes s a n)

/-- Consecutive bytes as the aligned parts of at most 8 bytes that are each single-copy atomic (08 R203). -/
def atomsFrom : Nat → Nat → List Byte → List (Nat × List Byte)
  | 0, _, _ => []
  | fuel + 1, a, bs =>
    if bs.isEmpty then []
    else (a, bs.take (8 - a % 8)) :: atomsFrom fuel (a + (8 - a % 8)) (bs.drop (8 - a % 8))
def atomsOf (a : Nat) (bs : List Byte) : List (Nat × List Byte) := atomsFrom bs.length a bs

/-- Cores and clusters (00 R3, R510, 06 R149). -/
def coreRow (n : Nat) : Nat := n / 32
def coreCol (n : Nat) : Nat := n % 32
def coreDie (n : Nat) : Nat := 2 * (coreRow n / 8) + coreCol n / 16
def coreCluster (n : Nat) : Nat := 16 * coreDie n + 4 * (coreRow n % 8 / 2) + coreCol n % 16 / 4
/-- Position of a core in its cluster's 2 x 4 block (17 R374). -/
def corePos (n : Nat) : Nat := 4 * (coreRow n % 2) + coreCol n % 4
/-- The core at a position of a cluster. -/
def clusterCore (c p : Nat) : Nat :=
  let die := c / 16
  let ix := c % 16
  32 * (8 * (die / 2) + 2 * (ix / 4) + p / 4) + 16 * (die % 2) + 4 * (ix % 4) + p % 4
def clusterCores (c : Nat) : List Nat := (upto 8).map (clusterCore c)

/-- Where a physical address lies (06 R146). -/
inductive Home where
  | first
  | window (core off : Nat)
  | port (i off : Nat)
  | host
  | hole
  deriving DecidableEq, Repr

def winBase : Nat := 0x8000000000
def winSize : Nat := 0x400000

def homeOf (s : State) (pa : Nat) : Home :=
  if pa < 2 ^ 39 then .first
  else if pa < winBase + 512 * winSize then .window ((pa - winBase) / winSize) ((pa - winBase) % winSize)
  else if pa < 0x200000000000 then .hole
  else if pa < 0x400000000000 then
    let i := (pa - 0x200000000000) / 2 ^ 42
    let off := (pa - 0x200000000000) % 2 ^ 42
    if off < tget 0 s.populated i then .port i off else .hole
  else if pa < 0x8000000000000 then .hole
  else if pa < 0x10000000000000 then .host
  else .hole

/-- The slice or target an address is served by: slices 0-1023, ports 1024-1031, host 1032, cores from 2048 on (06 R148, 08 R192). -/
def homeId (s : State) (pa : Nat) : Nat :=
  match homeOf s pa with
  | .first => fld pa 8 10
  | .port i _ => 1024 + i
  | .window c _ => 2048 + c
  | .host => 1032
  | .hole => 1033

/-- Bytes of the configuration record (24 R492). -/
def cfgLE (s : State) (off n : Nat) : Nat := leNat ((s.config.drop off).take n)
def cfgBit (s : State) (i : Nat) : Bool := bit (cfgLE s (0x4C0 + i / 8) 1) (i % 8)

/-- Does a granule range of the record cover an address, and in which world (24 R494)? -/
def rangeWorld (s : State) (pa : Nat) : Nat → Option Bool
  | 0 => none
  | n + 1 =>
    let e := 0x7C0 + 16 * n
    let base := cfgLE s e 8
    if base ≤ pa ∧ pa < base + cfgLE s (e + 8) 4 * 2 ^ 21 then some (cfgLE s (e + 12) 1 == 1)
    else rangeWorld s pa n

/-- The world of the granule that holds an address: true is secure (24 R494). -/
def granuleSecure (s : State) (pa : Nat) : Bool :=
  match homeOf s pa with
  | .window c _ => cfgBit s c
  | _ => (rangeWorld s pa (cfgLE s 10 2)).getD false

/-- Tables of the state. -/
def State.strand (s : State) (u : Nat) : Strand := tget Strand.init s.strands u
def State.setStrand (s : State) (u : Nat) (t : Strand) : State := { s with strands := tput s.strands u t }
def State.core (s : State) (c : Nat) : CoreSt := tget CoreSt.init s.cores c
def State.setCore (s : State) (c : Nat) (k : CoreSt) : State := { s with cores := tput s.cores c k }
def partKey (core ctx : Nat) : Nat := core * 4096 + ctx
def State.part (s : State) (core ctx : Nat) : Part := tget (Part.init ctx core) s.parts (partKey core ctx)
def State.setPart (s : State) (core ctx : Nat) (p : Part) : State := { s with parts := tput s.parts (partKey core ctx) p }
def State.ctx (s : State) (c : Nat) : Ctx := tget Ctx.init s.ctxs c
def State.setCtx (s : State) (c : Nat) (x : Ctx) : State := { s with ctxs := tput s.ctxs c x }
def State.kern (s : State) (k : Nat) : Kernel := tget Kernel.init s.kernels k
def State.setKern (s : State) (k : Nat) (x : Kernel) : State := { s with kernels := tput s.kernels k x }

/-- The strand in, or for which CONTW reserves, a physical slot (04 R93). -/
def inSlot (t : Strand) (core k : Nat) : Bool :=
  t.pcore == core && t.pslot == k &&
  match t.st with
  | .ready | .parked _ | .stopped _ => true
  | .saved (.contw _) _ _ => true
  | _ => false

def findStrand (core k : Nat) : Table Strand → Option Nat
  | [] => none
  | (u, t) :: m => if inSlot t core k then some u else findStrand core k m

def State.slotStrand (s : State) (core k : Nat) : Option Nat := findStrand core k s.strands

/-- PWORD, WSTAT as words (04 R105, R113). -/
def Strand.pw (t : Strand) : Nat := t.pword / 2 * 2 % 65536
def Strand.wstat (t : Strand) : Nat := t.cwp * 256 + t.wres

/-- An 8-byte word of the register-file view (06 R154). -/
def regFileWord (t : Strand) (i : Nat) : Nat :=
  if i < 96 then (tget (0 : Word) t.phys i).toNat
  else if i < 104 then (if i = 96 then 0 else (tget (0 : Word) t.sregs (i - 96)).toNat)
  else if i < 112 then 0
  else if i = 112 then t.pc
  else if i = 113 then t.wsp.toNat
  else if i = 114 then t.pw + 1
  else if i = 115 then t.dseed.toNat
  else if i = 116 then t.wstat
  else 0

/-- The byte of a little-endian word. -/
def byteOf (w i : Nat) : Byte := BitVec.ofNat 8 (w / 256 ^ i)

/-- The 16 bytes of a barrier in its window (18 R389, R390). -/
def barrierWord (b : Barrier) (hi : Bool) : Nat :=
  if hi then b.expc % 2 ^ 12 * 2 ^ 16 + b2n b.ovf * 2 ^ 28 + b.arr % 2 ^ 12 * 2 ^ 32 + b.phase % 2 ^ 16 * 2 ^ 48
  else b.pendB % 2 ^ 36

/-- The 16 bytes of a ring view (16 R363). -/
def ringWord (r : RingSt) (hi : Bool) : Nat :=
  if hi then r.eosq % 2 ^ 32 + b2n r.eosv * 2 ^ 32 + b2n r.ovf * 2 ^ 33 else r.wp % 2 ^ 32 + r.rp % 2 ^ 32 * 2 ^ 32

/-- Regions of an on-chip window (06 R150). -/
inductive Region where
  | spad (off : Nat) | ostore (off : Nat) | accum (tile off : Nat) | regs (slot off : Nat)
  | barrier (j off : Nat) | ring (r off : Nat) | reserved | unpopulated
  deriving DecidableEq, Repr

def regionOf (off : Nat) : Region :=
  if off < 0x60000 then .spad off
  else if off < 0x100000 then .unpopulated
  else if off < 0x140000 then .ostore (off - 0x100000)
  else if off < 0x200000 then .unpopulated
  else if off < 0x280000 then .accum ((off - 0x200000) / 0x10000) ((off - 0x200000) % 0x10000)
  else if off < 0x300000 then .unpopulated
  else if off < 0x310000 then .regs ((off - 0x300000) / 0x1000) ((off - 0x300000) % 0x1000)
  else if off < 0x380000 then .unpopulated
  else if off < 0x381000 then .barrier ((off - 0x380000) / 16) ((off - 0x380000) % 16)
  else if off < 0x390000 then .reserved
  else if off < 0x3F0000 then .unpopulated
  else if off < 0x3F0100 then .ring ((off - 0x3F0000) / 16) ((off - 0x3F0000) % 16)
  else .reserved

/-- Physical tiles bound to the context's logical tiles on a core. -/
def Part.bound (p : Part) : List Nat := p.tiles.flatMap fun t => t.2.phys

/-- May the context reach a byte of a core's window (06 R153)? The answer is the cause code of a refusal. -/
def winCheck (s : State) (ctx core off : Nat) (wr : Bool) : Option Nat :=
  let p := s.part core ctx
  let held := p.st != .none
  match regionOf off with
  | .unpopulated => some 7
  | .spad o => if held && p.partn.sb ≤ o && o < p.partn.sb + p.partn.sz then none else some 8
  | .ostore o => if held && !wr && p.partn.ob ≤ o && o < p.partn.ob + p.partn.ow then none else some 8
  | .accum j _ =>
    if held && !wr && p.partn.tiles.contains j && (tget PTile.init (s.core core).ptiles j).drained then none else some 8
  | .regs k _ =>
    match s.slotStrand core k with
    | some u => if (s.strand u).ctx == ctx then none else some 8
    | none => some 8
  | .barrier j _ => if held && !wr && p.partn.bb ≤ j && j < p.partn.bb + p.partn.nb then none else some 8
  | .ring r _ => if held && !wr && p.partn.rb ≤ r && r < p.partn.rb + p.partn.rn then none else some 8
  | .reserved => if held && !wr then none else some 8

/-- Does an address of a core's SRAM belong to a partition: its scratchpad, its operand window, its physical tiles (10 R230)? -/
def inPartn (core : Nat) (p : Partn) (a : Nat) : Bool :=
  let w := winBase + core * winSize
  let hit (lo n : Nat) : Bool := decide (w + lo ≤ a) && decide (a < w + lo + n)
  hit p.sb p.sz || hit (0x100000 + p.ob) p.ow || p.tiles.any fun j => hit (0x200000 + j * 0x10000) 0x10000

/-- Is a context pre-empted on a core (20 R435)? -/
def Part.off (p : Part) : Bool := match p.st with | .saving | .saved | .restoring => true | _ => false
def State.anyOff (s : State) (core : Nat) : Bool := s.parts.any fun p => p.2.core == core && p.2.off
/-- Has a context no partition on a core where one of its strands runs, displaced there (19 R421)? -/
def State.guest (s : State) (core ctx : Nat) : Bool :=
  (s.part core ctx).st == .none && s.strands.any fun t => t.2.ctx == ctx && t.2.pcore == core && t.2.st != .ended
/-- A core that is pre-empted is so for the strands that have been displaced to it too (20 R437). -/
def State.off (s : State) (core ctx : Nat) : Bool := (s.part core ctx).off || s.guest core ctx && s.anyOff core

/-- A byte of a core's window as a context reads it (06 R150, R151, R154). -/
def winByte (s : State) (ctx core off : Nat) : Byte :=
  let p := s.part core ctx
  match regionOf off with
  | .spad _ => memGet s.mem (winBase + core * winSize + off)
  | .ostore o => tget 0 p.ostore (o - p.partn.ob)
  | .accum j o =>
    byteOf (tget Lane.zero (tget PTile.init (s.core core).ptiles j).lanes (o / 512 * 64 + o % 512 / 8)).g.toNat (o % 8)
  | .regs k o =>
    match s.slotStrand core k with
    | some u => byteOf (regFileWord (s.strand u) (o / 8)) (o % 8)
    | none => 0
  | .barrier j o => byteOf (barrierWord (tget Barrier.init p.barriers (j - p.partn.bb)) (8 ≤ o)) (o % 8)
  | .ring r o => byteOf (ringWord (tget RingSt.init p.rings (r - p.partn.rb)) (8 ≤ o)) (o % 8)
  | _ => 0

/-- The ECC word that holds a byte (06 R159): 8 bytes on chip, 64 bytes elsewhere. -/
def eccWord (pa : Nat) : Nat :=
  if winBase ≤ pa ∧ pa < winBase + 512 * winSize then pa / 8 * 8 else pa / 64 * 64
def eccLen (pa : Nat) : Nat := if winBase ≤ pa ∧ pa < winBase + 512 * winSize then 8 else 64

def isPoisoned (s : State) (pa n : Nat) : Bool :=
  s.poison.any fun w => decide (w < pa + n) && decide (pa < w + eccLen w)

/-- A read performed at its home (06 R151, R153, R159): the bytes, or the cause code. -/
def homeRead (s : State) (ctx pa n : Nat) : Except Nat (List Byte) :=
  match homeOf s pa with
  | .hole => .error 7
  | .window c off =>
    match winCheck s ctx c off false with
    | some k => .error k
    | none => if isPoisoned s pa n then .error 10 else .ok ((upto n).map fun i => winByte s ctx c (off + i))
  | _ => if isPoisoned s pa n then .error 10 else .ok (readBytes s pa n)

/-- Poison after a write of n bytes at pa: a word that is wholly covered becomes clean (06 R160). -/
def poisonAfter (ps : List Nat) (pa n : Nat) : List Nat :=
  ps.filter fun w => !(decide (pa ≤ w) && decide (w + eccLen w ≤ pa + n))

/-- A write of memory bytes performed at their home, before any watch is tested (06 R160). -/
def rawWrite (s : State) (pa : Nat) (bs : List Byte) : State :=
  { s with mem := memPut s.mem pa bs, poison := poisonAfter s.poison pa bs.length }

/-- The last atom of a write that covers a whole ECC word stores fresh check bits for it (06 R160, 08 R203). -/
def cleanWord (s : State) (pa : Nat) : State := { s with poison := s.poison.filter (· != eccWord pa) }

/-- Accesses that translation is asked for (07 R167). -/
inductive Acc where
  | read | write | both | fetch
  deriving DecidableEq, Repr

/-- ACC of TCAUSE (23 R481). -/
def Acc.code : Acc → Nat
  | .read => 1 | .write => 2 | .both => 3 | .fetch => 0

/-- The fields of a leaf entry (07 R163). -/
structure Leaf where
  va : Nat
  size : Nat
  epa : Nat
  w0 : Nat
  w1 : Nat
  deriving DecidableEq, Repr

def Leaf.psn (l : Leaf) : Bool := bit l.w0 16
def Leaf.wb (l : Leaf) : Bool := bit l.w0 15
def Leaf.ce (l : Leaf) : Bool := bit l.w0 14
def Leaf.cad (l : Leaf) : Nat := fld l.w0 8 6
def Leaf.world (l : Leaf) : Bool := bit l.w0 7
def Leaf.x (l : Leaf) : Bool := bit l.w0 6
def Leaf.w (l : Leaf) : Bool := bit l.w0 5
def Leaf.r (l : Leaf) : Bool := bit l.w0 4
def Leaf.tier (l : Leaf) : Nat := fld l.w1 36 2
def Leaf.base (l : Leaf) : Nat := fld l.w1 0 36 * 2 ^ 16

/-- Node bytes, index and leaf bytes of a level (07 R162). -/
def nodeBytes (lv : Nat) : Nat := match lv with | 0 => 2 ^ 17 | 1 => 2 ^ 17 | 2 => 2 ^ 13 | _ => 2 ^ 9
def levelIndex (lv va : Nat) : Nat :=
  match lv with | 0 => fld va 43 13 | 1 => fld va 30 13 | 2 => fld va 21 9 | _ => fld va 16 5
def leafBytes (lv : Nat) : Nat := match lv with | 0 => 0 | 1 => 2 ^ 30 | 2 => 2 ^ 21 | _ => 2 ^ 16
def leafCode (lv : Nat) : Nat := match lv with | 1 => 2 | 2 => 1 | _ => 0

/-- Does a page lie in one range of R146 with no hole (06 R147), and which TIER is that range (07 R163)? -/
def pageTier (s : State) (pa size : Nat) : Option Nat :=
  match homeOf s pa, homeOf s (pa + size - 1) with
  | .first, .first => some 0
  | .port _ _, .port _ _ => some 1
  | .host, .host => some 2
  | .window _ o, .window _ _ =>
    if size = 2 ^ 16 ∧ regionOf o ≠ .unpopulated then some 3 else none
  | _, _ => none

/-- The range of an address whatever lies there: its TIER, if it is no hole of the map itself (06 R146). -/
def rangeTier (pa : Nat) : Option Nat :=
  if pa < 2 ^ 39 then some 0
  else if pa < winBase + 512 * winSize then some 3
  else if 0x200000000000 ≤ pa ∧ pa < 0x400000000000 then some 1
  else if 0x8000000000000 ≤ pa ∧ pa < 0x10000000000000 then some 2
  else none

/-- The answer of a walk that has read a poisoned word (06 R159); no walk result code of R164 is that high. -/
def walkPoison : Nat := 10

/-- The answer of a walk whose next node lies in a granule of the other world (24 R496). -/
def walkWorld : Nat := 9

/-- A page-table walk of a context of world sec from a node at a level (07 R162 to R164): the leaf, or the walk result code; a poisoned
entry is POISON at its reader (06 R159), and one in the other world is WORLD (24 R496). -/
def walkFrom (s : State) (sec : Bool) (va : Nat) : Nat → Nat → Nat → Except Nat Leaf
  | 0, _, _ => .error 1
  | fuel + 1, lv, node =>
    let epa := node + 16 * levelIndex lv va
    let w0 := readLE s epa 8
    let w1 := readLE s (epa + 8) 8
    if granuleSecure s epa != sec then .error walkWorld
    else if isPoisoned s epa 16 then .error walkPoison else
    match w0 % 4 with
    | 0 => .error 0
    | 1 =>
      let next := fld w1 0 48 * 16
      if lv = 3 ∨ w0 / 2 ^ 17 ≠ 0 ∨ fld w0 2 2 ≠ 0 ∨ w1 / 2 ^ 48 ≠ 0 ∨ 2 ^ 39 ≤ next ∨
          next % nodeBytes (lv + 1) ≠ 0 then .error 1
      else walkFrom s sec va fuel (lv + 1) next
    | 2 =>
      let l : Leaf := ⟨va / leafBytes lv * leafBytes lv, leafBytes lv, epa, w0, w1⟩
      if lv = 0 ∨ fld w0 2 2 ≠ leafCode lv ∨ w0 / 2 ^ 17 ≠ 0 ∨ fld w1 39 13 ≠ 0 ∨ l.base % l.size ≠ 0 then .error 1
      else
        match rangeTier l.base with
        | none => .error 2
        | some t =>
          if t ≠ l.tier then .error 1
          else if (pageTier s l.base l.size).isSome then .ok l else .error 2
    | _ => .error 1

def walk (s : State) (ctx va : Nat) : Except Nat Leaf := walkFrom s (s.ctx ctx).secure va 4 0 ((s.ctx ctx).ptroot)

/-- The entries that a walk reads, in order (07 R162): their addresses. -/
def walkPath (s : State) (va : Nat) : Nat → Nat → Nat → List Nat
  | 0, _, _ => []
  | fuel + 1, lv, node =>
    let epa := node + 16 * levelIndex lv va
    epa :: if readLE s epa 8 % 4 = 1 ∧ isPoisoned s epa 16 = false then walkPath s va fuel (lv + 1) (fld (readLE s (epa + 8) 8) 0 48 * 16) else []

/-- Translation caches (07 R178): a core's own, its cluster's second level, a copy engine's, a fold engine's. -/
def tlbCore (c : Nat) : Nat := c
def tlbCluster (c : Nat) : Nat := 512 + coreCluster c
def tlbGather (cl : Nat) : Nat := 512 + cl
def tlbCopy (e : Nat) : Nat := 1024 + e
def tlbFold (d : Nat) : Nat := 2048 + d

def tlbCap (who : Nat) : Nat := if who < 512 then 256 else if who < 1024 then 4096 else 64

def tlbHit (s : State) (who ctx va : Nat) : Option Leaf :=
  (s.tlb.find? fun e => e.who == who && e.ctx == ctx && decide (e.va ≤ va) && decide (va < e.va + e.size)).map
    fun e => ⟨e.va, e.size, e.epa, e.w0, e.w1⟩

/-- What an entry has gathered, as it is sent to its leaf. -/
def TlbEntry.gathered (e : TlbEntry) : Nat × Nat × Nat × Nat × Nat := (e.who, e.ctx, e.va, e.epa, e.cnt)

/-- Entries leave a cache; what they have gathered is sent to their leaves (07 R174). -/
def tlbDrop (s : State) (p : TlbEntry → Bool) : State :=
  { s with tlb := s.tlb.filter fun e => !p e
           counts := s.counts ++ ((s.tlb.filter fun e => p e && e.cnt != 0).map TlbEntry.gathered) }

/-- Put a leaf into a cache, dropping an entry of a full one. -/
def tlbFill (s : State) (who ctx : Nat) (l : Leaf) : State :=
  let mine := s.tlb.filter fun e => e.who == who
  let s :=
    if mine.length < tlbCap who then s
    else
      match mine[Config.tlbVictim s.tick % mine.length]? with
      | some v => tlbDrop s (· == v)
      | none => s
  { s with tlb := ⟨who, ctx, l.va, l.size, l.epa, l.w0, l.w1, 0⟩ :: s.tlb }

/-- Does an entry count an access of a cache to an address (07 R174)? -/
def TlbEntry.counts (e : TlbEntry) (who ctx va : Nat) : Bool :=
  e.who == who && e.ctx == ctx && decide (e.va ≤ va) && decide (va < e.va + e.size) && bit e.w0 14 &&
    (fld e.w1 36 2 == 1 || fld e.w1 36 2 == 2)

/-- A cached entry with counting enabled gathers n sectors; where that would take it past 16, what it has gathered is sent
first (07 R174). -/
def gatherCount (s : State) (who ctx va n : Nat) : State :=
  { s with tlb := s.tlb.map fun e => if e.counts who ctx va then { e with cnt := if 16 < e.cnt + n then n else e.cnt + n } else e
           counts := s.counts ++ ((s.tlb.filter fun e => e.counts who ctx va && decide (0 < e.cnt) && decide (16 < e.cnt + n)).map TlbEntry.gathered) }

/-- The home logs a read that met an uncorrectable or poisoned word (06 R159). -/
def logBad (s : State) (pa : Nat) : State := { s with eccLog := s.eccLog ++ [(pa, s.cycle)] }

/-- The home of a page-table entry logs a walk that found it poisoned (06 R159). -/
def logWalk (s : State) (ctx va : Nat) (r : Except Nat Leaf) : State :=
  match r with
  | .error k => if k = walkPoison then ((walkPath s va 4 0 (s.ctx ctx).ptroot).getLast?.map (logBad s)).getD s else s
  | .ok _ => s

/-- The leaf that an access uses (07 R178, R179): from the cache, from the second level, or from a walk. -/
def findLeaf (s : State) (who : Nat) (lvl2 : Option Nat) (ctx va : Nat) : State × Except Nat Leaf :=
  match tlbHit s who ctx va with
  | some l => (s, .ok l)
  | none =>
    match lvl2.bind fun w => tlbHit s w ctx va with
    | some l => (tlbFill s who ctx l, .ok l)
    | none =>
      match walk s ctx va with
      | .error e => (logWalk s ctx va (.error e), .error e)
      | .ok l =>
        let s := match lvl2 with | some w => tlbFill s w ctx l | none => s
        (tlbFill s who ctx l, .ok l)

/-- A translated access: physical address, write-block, and the leaf. -/
structure Xl where
  pa : Nat
  wb : Bool
  leaf : Leaf
  deriving DecidableEq, Repr

/-- The checks of R167 in the order of R483, for one address and an access of a context; sup is supervisor
privilege (23 R479). -/
def checkLeaf (s : State) (ctx va : Nat) (acc : Acc) (sup : Bool) (r : Except Nat Leaf) : Except Cause Xl :=
  let err (code sub : Nat) : Except Cause Xl :=
    .error { code := code, sub := sub, addr := va, acc := acc.code, fetch := acc == .fetch }
  if 2 ^ 56 ≤ va then err 7 0 else
  match r with
  | .error k => if k = walkPoison then err 10 0 else if k = walkWorld then err 9 0 else err 7 k
  | .ok l =>
    let pa := l.base + (va - l.va)
    let wok := l.w || (sup && l.r && !l.x)
    if l.world != (s.ctx ctx).secure || granuleSecure s pa != (s.ctx ctx).secure then err 9 0
    else if (match acc with
        | .read => l.r | .write => wok | .both => l.r && wok | .fetch => l.x) = false then err 8 0
    else if l.psn then err 10 0
    else .ok ⟨pa, l.wb, l⟩

/-- Translation for an access of a core: fills its caches (07 R178). -/
def xlate (s : State) (core ctx va : Nat) (acc : Acc) (sup : Bool) : State × Except Cause Xl :=
  let r := findLeaf s (tlbCore core) (some (tlbCluster core)) ctx va
  (r.1, checkLeaf r.1 ctx va acc sup r.2)

/-- Translation for an engine with its own cache, or for the command processor, which walks each time. -/
def xlateBy (s : State) (who : Option Nat) (ctx va : Nat) (acc : Acc) (sup : Bool) : State × Except Cause Xl :=
  match who with
  | some w => let r := findLeaf s w none ctx va; (r.1, checkLeaf r.1 ctx va acc sup r.2)
  | none => (logWalk s ctx va (walk s ctx va), checkLeaf s ctx va acc sup (walk s ctx va))

/-- A slot-table frame begins: the entries written since the last take effect together (10 R261). -/
def CoreSt.newFrame (k : CoreSt) : CoreSt :=
  { k with stab := k.stabNew.foldl (fun m e => tput m e.1 e.2) k.stab, stabNew := [] }

/-- Does a core stand still in a frozen rotation (19 R421; log entry 62): the first of every eight are frozen? -/
def frozenNow (s : State) (core : Nat) : Bool := decide (s.cycle % 128 < 16 * (s.core core).frozen)

/-- Fields of a kernel's cost record (19 R410). -/
def Kernel.costLE (k : Kernel) (off n : Nat) : Nat := recLE k.cost off n
def Kernel.flag (k : Kernel) (i : Nat) : Bool := bit (k.costLE 24 1) i
def Kernel.restart (k : Kernel) : Bool := k.flag 0
def Kernel.det (k : Kernel) : Bool := k.flag 1
def Kernel.standing (k : Kernel) : Bool := k.flag 2
def Kernel.usesDeques (k : Kernel) : Bool := k.flag 3
def Kernel.coords (k : Kernel) : Nat := k.costLE 20 4
def Kernel.width (k : Kernel) : Nat := k.costLE 16 4
def Kernel.slices (k : Kernel) : Nat := cdiv k.coords (max 1 k.width)

/-- Cores of a kernel's resident groups. -/
def Kernel.coresNow (k : Kernel) : List Nat := ((k.groups.filter fun g => g.st == .resident).flatMap (·.cores)).eraseDups

/-- A deterministic kernel's cores run one common sequence of cycles from the placement of its first group on (19 R423). -/
def Kernel.lockstep (k : Kernel) : Bool := k.det && (k.st == .running || k.st == .closing)

/-- A strand of a kernel is stopped (25 R503). -/
def kernStopped (s : State) (kid : Nat) : Bool :=
  s.strands.any fun q => q.2.kern == kid && (match q.2.st with | .stopped _ => true | _ => false)

/-- Does the common sequence of a deterministic kernel stand still: a late reply, thermal control or a stop freezes all its cores, or it is
pre-empted (19 R423, 25 R503)? -/
def detStill (s : State) (kid : Nat) : Bool :=
  let k := s.kern kid
  k.lockstep && (k.hold != 0 || kernStopped s kid || k.coresNow.any fun c => frozenNow s c || s.off c k.ctx)

/-- The cycle by which a strand's slot is offered issue: the package's (00 R5), or that of its kernel's common sequence (19 R423). -/
def slotClock (s : State) (t : Strand) : Nat :=
  let k := s.kern t.kern
  if k.lockstep then k.detCyc else s.cycle

end Sys2Proof.Machine
end

