-- ==== Sys2Proof/Machine/Flags.lean ====
section
/-! DEFINITION. The status flags: how each kind of operation sets them (03 R78, 09 R217, 06 R155). -/

namespace Sys2Proof.Machine
open Sys2Proof

/-- Sticky flags are joined by or; none is cleared (03 R78). -/
def Strand.addFlags (t : Strand) (f : Nat) : Strand := { t with vflags := Nat.lor t.vflags (f % 16) }

/-- The claim that a strand holds: its newest, unless a VFREE has ended it (09 R210). -/
def Strand.held (t : Strand) : Option Claim := t.claims.getLast?.filter fun c => c.freed.isNone

/-- VSTAT (09 R217): flags, MBLOST, MBF and GRANT. -/
def Strand.vstat (t : Strand) : Nat :=
  let mbf (m : Nat) : Nat := b2n (tget Mailbox.init t.mboxes m).full * 2 ^ (5 + m)
  t.vflags % 16 + b2n t.mblost * 2 ^ 4 + mbf 0 + mbf 1 + mbf 2 + mbf 3 + (match t.held with | some c => c.grant | none => 0) % 512 * 2 ^ 16

/-- A write of VSTAT changes only bits [4:0] (09 R217). -/
def Strand.setVstat (t : Strand) (w : Nat) : Strand := { t with vflags := w % 16, mblost := bit w 4 }

/-- MSTAT (06 R155). -/
def Strand.mstat (t : Strand) : Nat := b2n t.engaged + 2 * b2n t.outside
def Strand.setMstat (t : Strand) (w : Nat) : Strand := { t with engaged := bit w 0, outside := bit w 1 }

/-- Word 21 of the hardware frame (09 R217). -/
def Strand.frameStat (t : Strand) : Nat :=
  t.vflags % 16 + b2n t.mblost * 2 ^ 4 + b2n t.engaged * 2 ^ 32 + b2n t.outside * 2 ^ 33
def Strand.setFrameStat (t : Strand) (w : Nat) : Strand :=
  { t with vflags := w % 16, mblost := bit w 4, engaged := bit w 32, outside := bit w 33 }

/-- Result and flags of one FP32 operation: rounded once by RNE (05 R128). A NaN result that comes from no NaN, and any
NaN input, sets NAN_SEEN (03 R78). -/
def fpResult (v : Val) : Nat × Nat := convertFlt fp32 .rne false v

/-- Decode an FP32 operand: bits [31:0] of the register (05 R120). -/
def fpOf (w : Word) : Val := decodeFlt fp32 (w.toNat % 2 ^ 32)

/-- FMIN and FMAX (05 R129): one NaN gives the other operand, two give the canonical NaN, -0 is below +0. -/
def fpPick (f : FFmt) (isMax : Bool) (a b : Nat) : Nat × Nat :=
  let va := decodeFlt f a
  let vb := decodeFlt f b
  let nan := f.nanCode.getD 0
  if va.isNan && vb.isNan then (nan, fNan)
  else if va.isNan then (b, fNan)
  else if vb.isNan then (a, fNan)
  else
    let less := va.lt vb || (va.eq vb && va.isNeg && !vb.isNeg)
    ((if less != isMax then a else b), 0)

end Sys2Proof.Machine
end

