-- ==== Sys2Proof/Machine/Ops.lean ====
section
/-! DEFINITION. The shared operations: registers, writes at homes with their tags and watches, reports, the end of
kernels and groups, taking a trap and returning from it, the close, and the issue of an instruction. -/

namespace Sys2Proof.Machine
open Sys2Proof

abbrev Outcome := Host.Outcome State Fault Refusal

/-- Update one strand. -/
def State.modStrand (s : State) (u : Nat) (f : Strand → Strand) : State := s.setStrand u (f (s.strand u))
def State.modCore (s : State) (c : Nat) (f : CoreSt → CoreSt) : State := s.setCore c (f (s.core c))
def State.modPart (s : State) (core ctx : Nat) (f : Part → Part) : State := s.setPart core ctx (f (s.part core ctx))
def State.mapParts (s : State) (f : Part → Part) : State := { s with parts := s.parts.map fun p => (p.1, f p.2) }
def State.modCtx (s : State) (c : Nat) (f : Ctx → Ctx) : State := s.setCtx c (f (s.ctx c))
def State.modKern (s : State) (k : Nat) (f : Kernel → Kernel) : State := s.setKern k (f (s.kern k))

/-- The location of a register code; s0 has none (02 R48, 04 R104). -/
def Strand.loc (t : Strand) (r : Reg) : Option Loc :=
  if r.val = 0 then none
  else if r.val < 8 then some (.s r.val)
  else some (.phys ((t.cwp + (r.val - 8)) % 96))

/-- A predicate bit's location; c0 has none. -/
def predLoc (p : Nat) : Option Loc := if p = 0 then none else some (.pred p)

/-- Read and write a location. A write of s0 or c0 does not arise: they have no location (02 R48). -/
def Strand.getLoc (t : Strand) : Loc → Word
  | .s i => tget 0 t.sregs i
  | .phys i => tget 0 t.phys i
  | .pred i => if bit t.pword i then 1 else 0
  | _ => 0

def Strand.setLoc (t : Strand) (l : Loc) (v : Word) : Strand :=
  match l with
  | .s i => { t with sregs := tput t.sregs i v }
  | .phys i => { t with phys := tput t.phys i v }
  | .pred i => { t with pword := setFld t.pword i 1 (v.toNat % 2) }
  | _ => t

/-- Read a register: s0 reads zero (02 R48). -/
def Strand.reg (t : Strand) (r : Reg) : Word :=
  match t.loc r with
  | some l => t.getLoc l
  | none => 0

/-- Write a register: a write of s0 is discarded (02 R48). -/
def Strand.setReg (t : Strand) (r : Reg) (v : Word) : Strand :=
  match t.loc r with
  | some l => t.setLoc l v
  | none => t

/-- Read a predicate bit: c0 reads 1 (04 R112). -/
def Strand.predBit (t : Strand) (p : Pr) : Bool := if p.val = 0 then true else bit t.pword p.val

def Strand.setPred (t : Strand) (p : Pr) (b : Bool) : Strand :=
  if p.val = 0 then t else { t with pword := setFld t.pword p.val 1 (b2n b) }

def Strand.isPending (t : Strand) (l : Loc) : Bool := t.pend.contains l

/-- Add locations to the pending set (04 R98). -/
def addPend (ps : List Loc) (ls : List Loc) : List Loc := ls.foldl (fun a l => if a.contains l then a else l :: a) ps

/-- Order tags (08 R185): SCOPE in [15:13], PARTY in [12:3]; NONE where nothing was released. -/
def tagNone : Nat := 7 * 2 ^ 13
def tagOf (s : State) (pa : Nat) : Nat := tget tagNone s.tags (pa / 64)
def mkTag (sc : Scope) (party : Nat) : Nat := sc.code * 2 ^ 13 + party * 8
def cpParty : Nat := 1022
def setTag (s : State) (pa tag : Nat) : State := { s with tags := tput s.tags (pa / 64) tag }

/-- Is party b inside scope x of party a (08 R192)? Parties are cores, 1022 the command processor, 1023 a fabric node. -/
def inScope (x : Scope) (a b : Nat) : Bool :=
  match x with
  | .strand | .core => a == b
  | .cluster => if a < 512 && b < 512 then coreCluster a == coreCluster b else a == b
  | .die => if a < 512 && b < 512 then coreDie a == coreDie b else a == b
  | .package => (a < 1023 && b < 1023) || a == b
  | .system => true

/-- The smallest scope that holds both parties (08 R194). -/
def jointScope (a b : Nat) : Scope :=
  if inScope .core a b then .core else if inScope .cluster a b then .cluster else if inScope .die a b then .die
  else if inScope .package a b then .package else .system

/-- Miss (08 R194): c15 of an acquire by party b at scope y of a word with this tag. -/
def tagMiss (tag b : Nat) (y : Scope) : Bool :=
  match Scope.ofCode (fld tag 13 3) with
  | none => false
  | some x => !(inScope x (fld tag 3 10) b && inScope y b (fld tag 3 10))

/-- Read-buffer lines of a core that lie in a parcel end at an acquire of CLUSTER scope or wider (08 R195). -/
def invalidateParcels (k : CoreSt) (ctx : Nat) (ps : List (Nat × Nat)) (sc : Scope) : CoreSt :=
  if sc.code < 2 then k else
  { k with rbuf := k.rbuf.filter fun l =>
      !(l.ctx == ctx && ps.any fun p => decide (l.va < p.1 + p.2) && decide (p.1 < l.va + 64)) }

/-- A value that the spec leaves open: nothing constrains it, and every reading takes a fresh one. -/
def State.openWord (s : State) : State × Word := ({ s with free := s.free + 1 }, Config.freeWord s.free)

/-- Set an outstanding operation. -/
def Strand.setOp (t : Strand) (o : Op) : Strand := { t with ops := t.ops.map fun x => if x.id = o.id then o else x }
def Strand.findOp (t : Strand) (id : Nat) : Option Op := t.ops.find? fun o => o.id == id
def State.op (s : State) (u id : Nat) : Option Op := (s.strand u).findOp id
def State.setOp (s : State) (u : Nat) (o : Op) : State := s.modStrand u (·.setOp o)

/-- Is this word 0 of the completion record of a kernel that is COMPLETE (19 R417, R418)? -/
def completionAt (s : State) (pa v : Nat) : Bool :=
  v % 2 ^ 16 == 1 && s.kernels.any fun k => k.2.st == .complete &&
    (match walk s k.2.ctx k.2.cmpa with | .ok l => l.base + (k.2.cmpa - l.va) == pa | .error _ => false)

/-- The acquire part of ACQ, ACQREL and WAITW at the home (08 R196, R198, R199): the value and c15 are the results,
lines of the bound parcels end, and every line of the context where the word says that a kernel is complete (19 R418; log entry 99), and an acquirer outside the releaser's scope sends a scope miss (R194). -/
def acqDone (s : State) (u : Nat) (o : Op) (pa v tag : Nat) (sc : Scope) : State :=
  let t := s.strand u
  let miss := tagMiss tag t.pcore sc
  let s := s.modCore t.pcore fun k => invalidateParcels k t.ctx o.parcels sc
  let s := if !miss && sc == .system && completionAt s pa v then
    s.modCore t.pcore fun k => { k with rbuf := k.rbuf.filter fun l => l.ctx != t.ctx } else s
  let a := fld tag 3 10
  let s :=
    if miss && a < 512 && (match Scope.ofCode (fld tag 13 3) with | some x => !inScope x a t.pcore | none => false) &&
        ((s.core a).misses.length < 16 || s.off a t.ctx) then
      s.modCore a fun k => { k with misses := k.misses ++ [⟨t.ctx, a, pa, jointScope a t.pcore⟩] }
    else s
  let res := if o.dests.length = 2 then [w64 v, w64 (b2n miss)] else [w64 (b2n miss)]
  s.setOp u { o with phase := .done, res := res }

/-- Test the watches on the words that a write of n bytes at pa touches (08 R199). -/
def fireWatches (s : State) (pa n : Nat) : State :=
  s.watches.foldl (fun s w =>
    if w.pa < pa + n ∧ pa < w.pa + 8 ∧ w.placed = true ∧ readLE s w.pa 8 ≠ w.e then
      match s.op w.uid w.opId with
      | some o =>
        (match o.kind with
        | .waitw _ _ sc =>
          { acqDone s w.uid o w.pa (readLE s w.pa 8) (tagOf s w.pa) sc with watches := s.watches.filter fun x => x != w }
        | _ => s)
      | none => { s with watches := s.watches.filter fun x => x != w }
    else s) s

/-- A write performed at a home that holds memory bytes (06 R160, 08 R199). -/
def homeWrite (s : State) (pa : Nat) (bs : List Byte) : State := fireWatches (rawWrite s pa bs) pa bs.length

/-- A word written with its order tag, indivisibly (08 R185, R197). -/
def releaseWrite (s : State) (pa v tag : Nat) : State :=
  fireWatches (setTag (rawWrite s pa (leBytes 8 v)) pa tag) pa 8

/-- A record posted to a ring of n records of m bytes, its index words after it (07 R176, R177, 23 R491). -/
def ringPost (s : State) (base n m : Nat) (bs : List Byte) : State :=
  if n = 0 then s else
  let w := readLE s (base + m * n) 8
  let r := readLE s (base + m * n + 8) 8
  if n ≤ (w % 2 ^ 32 + 2 ^ 32 - r % 2 ^ 32) % 2 ^ 32 then
    homeWrite s (base + m * n) (leBytes 8 (w % 2 ^ 63 + 2 ^ 63))
  else
    releaseWrite (homeWrite s (base + m * (w % 2 ^ 32 % n)) bs) (base + m * n)
      (w / 2 ^ 32 * 2 ^ 32 + (w + 1) % 2 ^ 32) (mkTag .system cpParty)

/-- A report to system software (23 R491): kind, context, code, slot, core, address. -/
def report (s : State) (kind ctx code slot core addr : Nat) : State :=
  ringPost s (cfgLE s (0x5C0 + 8) 8) (cfgLE s (0x5C0 + 16) 2) 32
    (leBytes 8 s.cycle ++ leBytes 8 addr ++ leBytes 2 core ++ leBytes 1 slot ++ leBytes 1 code ++ leBytes 2 ctx ++
      leBytes 2 kind ++ leBytes 8 0)

/-- A write of the command processor through a context's page table, as a supervisor store (19 R405, R417); none
where an 8-byte word does not translate. -/
def cpWrite (s : State) (ctx : Nat) : Nat → List (List Byte) → Option State
  | _, [] => some s
  | va, w :: ws =>
    match checkLeaf s ctx va .write true (walk s ctx va) with
    | .error _ => none
    | .ok x =>
      match homeOf s x.pa with
      | .window c off =>
        if (winCheck s ctx c off true).isSome then none else cpWrite (homeWrite s x.pa w) ctx (va + w.length) ws
      | _ => cpWrite (homeWrite s x.pa w) ctx (va + w.length) ws

/-- Does a write of n bytes by the command processor wait for a write-blocked page (07 R181)? -/
def cpHeld (s : State) (ctx va n : Nat) : Bool :=
  (upto (cdiv n 8)).any fun i => match checkLeaf s ctx (va + 8 * i) .write true (walk s ctx (va + 8 * i)) with
    | .ok x => x.wb
    | .error _ => false

/-- A release write of one word by the command processor. -/
def cpRelease (s : State) (ctx va v : Nat) : Option State :=
  match checkLeaf s ctx va .write true (walk s ctx va) with
  | .error _ => none
  | .ok x => some (releaseWrite s x.pa v (mkTag .system cpParty))

/-- A read by the command processor through a context's page table. -/
def cpRead (s : State) (ctx va n : Nat) : Option Nat :=
  match checkLeaf s ctx va .read true (walk s ctx va) with
  | .error _ => none
  | .ok x => (match homeRead s ctx x.pa n with | .ok b => some (leNat b) | .error _ => none)

/-- The completion record (19 R417): word 0 last; unwritable, it is reported (KIND 8), and a write-blocked page makes it wait (07 R181). -/
def writeCompletion (s : State) (kid status : Nat) : State :=
  let k := s.kern kid
  let w0 := status + k.cause * 2 ^ 16 + k.gfail * 2 ^ 32
  if cpHeld s k.ctx k.cmpa 32 then s.modKern kid fun k => { k with owes := some status } else
  let s := s.modKern kid fun k => { k with owes := none }
  match cpWrite s k.ctx (k.cmpa + 8) [leBytes 8 k.tprom, leBytes 8 s.cycle, leBytes 8 k.left] with
  | none => report s 8 k.ctx 33 0xFF 0xFFFF k.cmpa
  | some s' =>
    match cpRelease s' k.ctx k.cmpa w0 with
    | none => report s 8 k.ctx 33 0xFF 0xFFFF k.cmpa
    | some s'' => s''

/-- Groups of any kernel of a context that are resident on a core. -/
def ctxOnCore (s : State) (ctx core : Nat) : Bool :=
  s.kernels.any fun k => k.2.ctx == ctx && k.2.groups.any fun g => g.st == .resident && g.cores.contains core

/-- Release the partition of a context on the cores that none of its groups holds any more (19 R419, 20 R435). -/
def releaseParts (s : State) (ctx : Nat) (cores : List Nat) : State :=
  cores.foldl (fun s c =>
    if ctxOnCore s ctx c then s
    else { s with parts := tput s.parts (partKey c ctx) (Part.init ctx c) }) s

/-- Coordinates left in a deque (17 R387). -/
def dequeLeft (p : Part) : Nat := (p.deque.map fun e => e / 2 ^ 32 - e % 2 ^ 32).foldl (· + ·) 0

/-- A context that commands, code objects and launches can name: BUILT or ACTIVE (20 R431). -/
def Ctx.live (x : Ctx) : Bool := x.st == .built || x.st == .active

/-- A context whose last kernel has ended falls back to BUILT (20 R431). -/
def settleCtx (s : State) (c : Nat) : State :=
  if (s.ctx c).st == .active &&
      !(s.kernels.any fun k => k.2.ctx == c && (k.2.st == .admitted || k.2.st == .running || k.2.st == .closing)) then
    s.modCtx c fun x => { x with st := .built }
  else s

/-- A strand leaves its slot (04 R94): its claim goes back to the pool, its watches and its close are gone, and what it
has outstanding completes without writing a register. -/
def evict (s : State) (u : Nat) : State :=
  let s := { s with watches := s.watches.filter fun w => w.uid != u }
  s.modStrand u fun t => { t with st := .ended, claims := [], close := none, ending := false, vq := [], vout := none, rep := none }

/-- End a group: its deques are emptied into LEFT, its partitions released, its number of resident strands is none
(17 R375, R387). -/
def endGroup (s : State) (kid gnum : Nat) : State :=
  let k := s.kern kid
  match k.groups.find? fun g => g.num == gnum with
  | none => s
  | some g =>
    let lost := (g.cores.map fun c => let p := s.part c k.ctx; if p.deqGrp == some (kid * 2 ^ 32 + gnum) then dequeLeft p else 0).foldl (· + ·) 0
    let s := g.cores.foldl (fun s c => s.modPart c k.ctx fun p =>
      if p.deqGrp == some (kid * 2 ^ 32 + gnum) then { p with deque := [], deqGrp := none } else p) s
    let s := s.modKern kid fun k =>
      { k with left := (k.left + lost) % 2 ^ 64,
               groups := k.groups.map fun x => if x.num == gnum then { x with st := .ended, idle := [] } else x }
    releaseParts s k.ctx g.cores

/-- The slot-table entries written for a group's window are cleared (19 R419). -/
def clearEnts (s : State) (kid gnum : Nat) : State :=
  let k := s.kern kid
  match k.groups.find? fun g => g.num == gnum with
  | none => s
  | some g =>
    let s := g.ents.foldl (fun s e => s.modCore e.1 fun c =>
      if tget 0 c.stab e.2 = k.ctx + 2 ^ 15 then { c with stab := tdel c.stab e.2 } else c) s
    s.modKern kid fun k => { k with groups := k.groups.map fun x => if x.num = gnum then { x with ents := [] } else x }

/-- Strands of a kernel that still hold a slot or a record. -/
def kernStrands (s : State) (kid : Nat) : List Nat :=
  (s.strands.filter fun t => t.2.kern == kid && t.2.st != .ended).map (·.1)

/-- The kernel is ended as R415 ends it: ABORTED, its strands leave their slots, copies still in the FIFOs are
dropped, and the completion record names the cause and the group (19 R415, R417, 23 R482). -/
def abortKernel (s : State) (kid cause gnum : Nat) : State :=
  let k := s.kern kid
  let us := kernStrands s kid
  let s := us.foldl evict s
  let s := { s with copies := s.copies.filter fun c => !(c.engine.isNone && c.kern == kid) }
  let s := k.groups.foldl (fun s g => clearEnts (if g.st == .ended then s else endGroup s kid g.num) kid g.num) s
  let s := s.modKern kid fun k => { k with st := .aborted, cause := cause, gfail := gnum }
  let s := if k.argn = 0 then s else s.modCtx k.ctx fun x => { x with args := x.args.filter fun a => a.1 != k.argv }
  settleCtx (writeCompletion s kid 2) k.ctx

/-- The word at TVEC + 8 * code, read at supervisor privilege; none if the context has no table or the read faults (23 R482). -/
def vector (s : State) (t : Strand) (code : Nat) : Option Nat :=
  if (s.ctx t.ctx).tvecSet then cpRead s t.ctx ((s.ctx t.ctx).tvec + 8 * code) 8 else none

/-- TCAUSE (23 R481). -/
def tcause (c : Cause) (atClose held : Bool) : Nat :=
  c.code + c.sub % 256 * 2 ^ 8 + b2n atClose * 2 ^ 16 + b2n held * 2 ^ 17 + c.acc % 4 * 2 ^ 18 + b2n c.fetch * 2 ^ 20 +
    c.iter % 256 * 2 ^ 32 + c.bidx % 8 * 2 ^ 40

/-- The 16 bytes of a trace record (25 R506). -/
def traceBytes (cycle core slot typ data : Nat) : List Byte :=
  leBytes 8 (typ + core * 2 ^ 11 + slot * 2 ^ 20 + cycle % 2 ^ 40 * 2 ^ 24) ++ leBytes 8 data

/-- A trace record of a core (25 R506, R507): selected, from a core of the non-secure world, into its die's FIFO;
dropped and counted when the FIFO is full; after drops a GAP record goes first. -/
def traceRec (s : State) (core slot typ sel data : Nat) : State :=
  let die := coreDie core
  let fifo := tget [] s.traces die
  let drop := tget 0 s.traceDrop die
  let one (core slot typ data : Nat) : List Byte := traceBytes s.cycle core slot typ data
  if !bit s.trcSel 0 || !bit s.trcSel sel || cfgBit s core then s
  else if 4096 ≤ fifo.length + (if drop = 0 then 0 else 1) then
    { s with traceDrop := tput s.traceDrop die (min (drop + 1) (2 ^ 64 - 1)) }
  else
    { s with traces := tput s.traces die (fifo ++ (if drop = 0 then [] else [one 0 0 15 drop]) ++ [one core slot typ data])
             traceDrop := tput s.traceDrop die 0 }

/-- What a delivery says beside its cause. -/
structure Delivery where
  cause : Cause
  tpc : Nat
  tlen : Nat
  tres : Nat
  atClose : Bool
  held : Option Nat
  cprogb : Nat
  cprogm : Nat
  deriving DecidableEq, Repr

/-- Taking a trap (23 R482): unhandled, it ends the strand's kernel; handled, the trap registers are written, the
privilege rises and the PC is the vector's word. -/
def takeTrap (s : State) (u : Nat) (d : Delivery) : State :=
  let t := s.strand u
  let v := vector s t d.cause.code
  if t.trap.intrap || v == none || v == some 0 then abortKernel s t.kern d.cause.code t.grp
  else
    (traceRec s t.pcore t.pslot 2 2 (d.cause.code + d.tpc % 2 ^ 56 * 2 ^ 8)).setStrand u
      { t with
        st := .ready
        turn := slotClock s t + 1
        noBreak := false
        sup := true
        pc := v.getD 0
        cprogb := w64 d.cprogb
        cprogm := w64 d.cprogm
        close := none
        trap := { tpc := w64 d.tpc, tcause := w64 (tcause d.cause d.atClose d.held.isSome), taddr := w64 d.cause.addr,
                  tres := w64 d.tres, intrap := true, ppriv := t.sup, tlen := d.tlen,
                  tend := (match t.close with | some c => c.2 | none => false),
                  held := d.held.getD 0 } }

/-- A precise trap at the instruction at pc (23 R481): TRES is TPC, or the next instruction for TRAP. -/
def trapAt (s : State) (u pc len : Nat) (c : Cause) : State :=
  takeTrap s u ⟨c, pc, len, if c.code = 14 then pc + len else pc, false, none, 0, 0⟩

/-- Does a watchpoint match an access of n bytes at va (25 R502)? The lowest-numbered one; those up to the one that the access has reported
are suppressed, since each match is reported once (23 R483). -/
def watchHit (s : State) (ctx : Nat) (skip : Option Nat) (va n : Nat) (acc : Acc) (stop : Bool) : Option Nat :=
  let rd := acc == .read || acc == .both
  let wr := acc == .write || acc == .both
  ((s.ctx ctx).watches.find? fun w =>
    w.2.en && w.2.stop == stop && (rd && w.2.rd || wr && w.2.wr) && decide (w.2.base < va + n) &&
      decide (va < w.2.base + 2 ^ w.2.lg) && (match skip with | some k => decide (k < w.1) | none => true)).map (·.1)

/-- Operations that a close still waits for (04 R100): those sent or done but not returned, and not of an interrupted
outer close. -/
def Op.waits (o : Op) : Bool := !o.outer && (o.phase == .sent || o.phase == .done)

/-- The first operation, in issue order, whose fault the close delivers (04 R102). -/
def firstFault (t : Strand) : Option Op := t.ops.find? fun o => !o.outer && o.phase == .faulted

/-- Destinations that stay pending when a close completes: those of operations still held or of an interrupted close
(04 R102, log entry 12). -/
def keptPend (t : Strand) : List Loc :=
  (t.ops.filter fun o => o.phase != .late).flatMap fun o => o.dests

/-- Does an unreturned engine operation of the strand carry the snapshot of a handle register, and pass a test (12 R291)? -/
def snapshotInUse (s : State) (u h : Nat) (p : Op → Bool) : Bool :=
  s.parts.any fun q => (q.2.eq ++ q.2.streams).any fun e =>
    e.uid == u && e.snap.op && e.hnum == h && (match s.op u e.opId with | some o => o.phase != .late && p o | none => false)

/-- An HBATCH or HCLOSE that waits for a load whose fault this close delivers: the close does not wait for it (12 R291). -/
def behindFault (s : State) (u : Nat) (o : Op) : Bool :=
  match o.kind with
  | .handle .hbatch h _ _ | .handle .hclose h _ _ => snapshotInUse s u h fun x => x.phase == .faulted && !x.outer
  | _ => false

/-- Delivery of an operation's cause at a close: the operation is held unless nothing of it can be, and all that the close
still waits for belongs to the interrupted close (04 R102, 23 R481). -/
def deliver (s : State) (u : Nat) (o : Op) (resume : Nat) : State :=
  let t := s.strand u
  let mark (x : Op) : Op :=
    if x.id = o.id then { x with phase := .held, outer := true, cause := o.cause } else { x with outer := true }
  let t' := { t with ops := (t.ops.map mark).filter fun x => !(x.id == o.id && !o.holds) }
  takeTrap (s.setStrand u t') u
    ⟨o.cause, o.tpc, o.len, resume, true, if o.holds then some o.id else none, o.cprogb, o.cprogm⟩

/-- What a parked strand's close waits for, by its kind (04 R93, 09 R219): the earliest wait of its own that is among what it waits
for; otherwise the close itself (log entry 102). -/
def closeWake (t : Strand) : Wake :=
  ((t.ops.filter Op.waits).findSome? fun o =>
    match o.kind with
    | .mbr _ => some .mailbox
    | .pop _ | .peek _ => some .portReady
    | .waitw _ _ _ | .swwait _ _ => some .wordChanged
    | .barrier .bwait _ _ _ => some .barrier
    | .rawait _ _ => some .ring
    | _ => none).getD .close

/-- A strand has woken from a wait for input: a standing group that had all its strands parked starts a busy run, which counts from
one (19 R411, R412). -/
def wakeRun (s : State) (t : Strand) : State :=
  if t.st = .parked .ring ∨ t.st = .parked .portReady ∨ t.st = .parked .wordChanged then
    s.modKern t.kern fun k => { k with groups := k.groups.map fun g =>
      if g.num = t.grp ∧ g.busy = false then { g with busy := true, cyc := 1, bytes := 0 } else g }
  else s

/-- A wake condition holds: the strand is ready for every later turn (04 R94). -/
def Strand.wakes (t : Strand) (now : Nat) : Strand := { t with st := .ready, turn := now + 1 }

/-- A close that has nothing left to wait for either delivers its earliest fault or completes (04 R100, R102); no trap reaches a strand whose
slice is to be rerun (10 R260). -/
def closeCheck (s : State) (u : Nat) : State :=
  let t := s.strand u
  match t.close with
  | none => s
  | some (resume, isEnd) =>
    match t.st with
    | .stopped _ | .saved _ _ _ | .ended => s
    | _ =>
      if t.rerunWaits then s
      else if t.ops.any fun o => o.waits && !behindFault s u o then s.setStrand u { t with st := .parked (closeWake t) }
      else
        match firstFault t with
        | some o => deliver (wakeRun s t) u o resume
        | none =>
          (wakeRun s t).setStrand u
            { t with pend := t.pend.filter fun l => (keptPend t).contains l
                     close := none
                     ending := t.ending || isEnd
                     st := .ready
                     turn := slotClock s t + 1
                     pc := resume }

/-- A close acts (04 R100): the strand parks until its operations have returned; with none it completes at once. An ERET
that itself closes may do so inside a close of END's. -/
def closeAt (s : State) (u resume : Nat) (isEnd : Bool) : State :=
  closeCheck (s.modStrand u fun t =>
    { t with close := some (resume, isEnd || (match t.close with | some c => c.2 | none => false)), st := .parked .close }) u

/-- What an effect answers: a next state, a precise cause, or a wait in which the turn is wasted (04 R101). -/
inductive Eff where
  | ok (s : State)
  | trap (c : Cause)
  /-- a cause whose home logs it (06 R159): the state with the log -/
  | trapIn (s : State) (c : Cause)
  | wait (s : State)

/-- What an effect is given: the state with the PC already past the instruction, the strand, the instruction's
address and length, and the watchpoint that its replay does not match (23 R483). -/
structure Exe where
  s : State
  u : Nat
  t : Strand
  pc : Nat
  len : Nat
  skip : Option Nat

/-- Operand registers and predicate bits that the issue checks. -/
inductive Ref where
  | r (r : Reg) | p (p : Pr) | l (l : Loc)
  deriving DecidableEq, Repr

def Strand.refPending (t : Strand) : Ref → Bool
  | .r r => match t.loc r with | some l => t.isPending l | none => false
  | .p p => match predLoc p.val with | some l => t.isPending l | none => false
  | .l l => t.isPending l

/-- How an instruction is issued: its length, whether it is pending-class, whether it needs supervisor privilege, and the
operands that raise CLOSURE when pending. -/
structure Form where
  len : Nat
  pendingClass : Bool := false
  priv : Bool := false
  refs : List Ref := []
  /-- END closes whatever its close bit says (04 R110) -/
  ends : Bool := false
  /-- an ERET that goes back into the close that a trap has interrupted: its own close is that one (04 R102, 23 R485) -/
  reenters : Bool := false

/-- Outstanding operations (04 R101): sent and not yet returned; a REP counts as one. -/
def Strand.outstanding (t : Strand) : Nat := (t.ops.filter fun o => o.child.isNone && (o.phase == .sent || o.phase == .done)).length

/-- The strand as an instruction at its PC leaves it before its own effect: past the instruction, READY. -/
def Strand.past (t : Strand) (len : Nat) : Strand :=
  { t with pc := (t.pc + len) % 2 ^ 64, st := .ready, noBreak := false, noWatch := none, portWait := none }

/-- Does the strand still hold its slot for issue? A strand that CONTW has saved closes with nothing pending (20 R445). -/
def Strand.stays (t : Strand) : Bool := match t.st with | .saved _ _ _ | .ended => false | _ => true

/-- The close of an instruction after its effect (04 R100, R110). -/
def closing (h : Hdr) (f : Form) (u : Nat) (s : State) : State :=
  if (h.c || f.ends) && !f.reenters && (s.strand u).stays then closeAt s u (s.strand u).pc f.ends else s

/-- The strand waits for a resource, or for a credit of a port (15 R336): it tries the same instruction again at a later
turn (04 R101), and what its replay does not match stays suppressed (23 R483). -/
def waitAt (s : State) (u pc : Nat) (skip : Option Nat) (brk : Bool) : State :=
  s.modStrand u fun t =>
    { t with pc := pc, st := .parked (if t.portWait.isSome then .portReady else .resource), noWatch := skip, noBreak := brk }

/-- The issue of an instruction (02 R47, R59, 04 R99 to R101): a pending guard raises CLOSURE; a guard that is off
skips the instruction but not its close; then PRIV, CLOSURE, the limit of 32, the entry's own causes and effect, and the
close. -/
def issue (h : Hdr) (f : Form) (eff : Exe → Eff) (s : State) : Outcome :=
  let u := s.cur
  let t := s.strand u
  let t' := t.past f.len
  if t.refPending (.p h.pred) then .next (trapAt s u t.pc f.len { code := 2 })
  else if t.predBit h.pred == h.pn then
    .next (if h.c then closeAt (s.setStrand u t') u t'.pc false else s.setStrand u t')
  else if f.priv && !t.sup then .next (trapAt s u t.pc f.len { code := 3 })
  else if f.refs.any t.refPending then .next (trapAt s u t.pc f.len { code := 2 })
  else if f.pendingClass && decide (32 ≤ t.outstanding) then .next (waitAt s u t.pc t.noWatch t.noBreak)
  else
    match eff ⟨s.setStrand u t', u, t', t.pc, f.len, t.noWatch⟩ with
    | .ok s' => .next (closing h f u s')
    | .trap c => .next (trapAt s u t.pc f.len c)
    | .trapIn s' c => .next (trapAt (s'.setStrand u t) u t.pc f.len c)
    | .wait s' => .next (waitAt s' u t.pc t.noWatch t.noBreak)

/-- Answer with the strand changed. -/
def Exe.upd (x : Exe) (t : Strand) : Eff := .ok (x.s.setStrand x.u t)

/-- Send a pending-class operation: its destinations become pending (04 R98). -/
def Strand.send (t : Strand) (kind : OpKind) (path : Path) (pc len seq : Nat) (dests : List Loc) : Strand :=
  { t with
    ops := t.ops ++ [{ id := t.nextOp, kind := kind, path := path, tpc := pc, len := len, dests := dests, seq := seq, sup := t.sup }]
    nextOp := t.nextOp + 1
    pend := addPend t.pend dests }

/-- The same, with the parcels bound to its word (08 R188). -/
def Strand.sendBound (t : Strand) (kind : OpKind) (pc len seq : Nat) (dests : List Loc) (ps : List (Nat × Nat)) : Strand :=
  { t with
    ops := t.ops ++ [{ id := t.nextOp, kind := kind, path := .s, tpc := pc, len := len, dests := dests, seq := seq,
                       parcels := ps, sup := t.sup }]
    nextOp := t.nextOp + 1
    pend := addPend t.pend dests }

/-- The destination list of a register; s0 gives none, and the operation still counts (04 R98). -/
def Strand.dest (t : Strand) (r : Reg) : List Loc := match t.loc r with | some l => [l] | none => []

def Exe.send (x : Exe) (kind : OpKind) (path : Path) (dests : List Loc) : Eff :=
  x.upd (x.t.send kind path x.pc x.len x.s.steps dests)

/-- Write the results of an operation to its destinations; they stay pending until a close (04 R98). -/
def Strand.writeDests (t : Strand) : List Loc → List Word → Strand
  | l :: ls, v :: vs => (t.setLoc l v).writeDests ls vs
  | _, _ => t

/-- An operation returns: its results are written, and a strand waiting for a resource may try again (04 R98, R101). -/
def opReturn (s : State) (u : Nat) (o : Op) : State :=
  let t := s.strand u
  let t := { t.writeDests o.dests o.res with ops := t.ops.filter fun x => x.id != o.id }
  closeCheck (s.setStrand u (if t.st == .parked .resource then t.wakes (slotClock s t) else t)) u

/-- The sequencer issues nothing further once an instruction of its body has faulted; the REP is held with it (04 R116). -/
def stopRep (t : Strand) (id : Nat) : Strand :=
  { t with rep := t.rep.map fun r => if r.opId = id then { r with stopped := true } else r
           ops := t.ops.map fun o => if o.id = id then { o with phase := .held } else o }

/-- An operation faults and waits for its close (04 R102); one of a repetition names its iteration and stops the
sequencer (04 R116). -/
def opFault (s : State) (u : Nat) (o : Op) (c : Cause) : State :=
  closeCheck (match o.child with
    | none => s.setOp u { o with phase := .faulted, cause := c }
    | some k =>
      (s.setOp u { o with phase := .faulted, cause := { c with iter := k.2.1, bidx := k.2.2 } }).modStrand u
        fun t => stopRep t k.1) u

/-- An operation is done: its results wait for its return. -/
def opDone (s : State) (u : Nat) (o : Op) (res : List Word) : State := s.setOp u { o with phase := .done, res := res }

/-- The touched masks record a write of path S or of a drain (06 R158); a probe that echoed before it is stale. -/
def touch (s : State) (core pa : Nat) : State :=
  match homeOf s pa with
  | .first => s.modCore core fun k =>
      { k with touchS := Nat.lor k.touchS (2 ^ fld pa 12 6), echoS := setFld k.echoS (fld pa 12 6) 1 0 }
  | .port i _ => s.modCore core fun k => { k with touchP := Nat.lor k.touchP (2 ^ i), echoP := setFld k.echoP i 1 0 }
  | .host => s.modCore core fun k => { k with touchP := Nat.lor k.touchP (2 ^ 8), echoP := setFld k.echoP 8 1 0 }
  | _ => s

/-- Is the release work of a scope done for a core (08 R193)? Its writes are in the store path at once, and pass the hub
with the release; from DIE on every probe has echoed and no store of the core to a window is on its way, or refused by a
spill queue (08 R204); at SYSTEM the fabric has acknowledged too. -/
def releaseWorkDone (s : State) (core : Nat) (sc : Scope) : Bool :=
  let k := s.core core
  let ports := if sc.code = 5 then k.touchP else k.touchP % 2 ^ 8
  if sc.code < 3 then true
  else
    Nat.land k.touchS k.echoS == k.touchS && Nat.land ports k.echoP == ports &&
    !(s.writes.any fun w => w.core == core && (match homeOf s w.pa with | .window _ _ => true | _ => false)) &&
    !(s.ctxs.any fun x => x.2.refused.any fun e => match e.2 with | .write w => w.core == core && w.path == .s | _ => false)

/-- The releaser's stores and atomics have passed the request hub (08 R193). -/
def passHub (s : State) (core : Nat) : State :=
  { s.modCore core fun k => { k with hubSeq := s.steps } with
    writes := s.writes.map fun w => if w.core = core then { w with hub := true } else w }

/-- The parcels bound to a word in a core's copy of the context's table (08 R188). -/
def parcelsOf (s : State) (core ctx word : Nat) : List (Nat × Nat) :=
  ((tget [] (s.core core).binds ctx).filter fun b => b.2.word == word).map fun b => (b.2.base, b.2.len)

end Sys2Proof.Machine
end

