-- ==== Sys2Proof/WellFormed.lean ====
section
/-! DEFINITION. Well-formed instructions: the field limits that make a word ILLEGAL by R56. -/

namespace Sys2Proof

/-- A register pair starts at an even code (R48). -/
def even (r : Reg) : Bool := r.val % 2 == 0

/-- Four consecutive registers start at w0 to w20 (R48). -/
def quad (r : Reg) : Bool := 8 ≤ r.val && r.val ≤ 28

/-- A datum is -160 to 96 (R51). -/
def datumOk (d : BitVec 9) : Bool := -160 ≤ d.toInt && d.toInt ≤ 96

/-- The literal of BFX and BFI sets no bit but [5:0] and [13:8] (R52). -/
def bfLit (lit : Word) : Bool := lit.toNat / 2 ^ 14 == 0 && lit.toNat / 2 ^ 6 % 4 == 0

/-- The fields an extended instruction uses: F0, F1, F2, F3, OBJ0, OBJ1, OBJ2. -/
structure ExtUse where
  f0 : Bool
  f1 : Bool
  f2 : Bool
  f3 : Bool
  o0 : Bool
  o1 : Bool
  o2 : Bool
  deriving DecidableEq, Repr

/-- A field that is not used is zero, its MK bit too (R54). Under a literal F3 is zero. -/
def ExtUse.ok (u : ExtUse) (lit : Bool) (e : Ext) : Bool :=
  (u.f0 || e.f0.val == 0) && (u.f1 || e.f1.val == 0) && (u.f2 || e.f2.val == 0) &&
  (if lit then u.f3 && e.f3.val == 0 else u.f3 || e.f3.val == 0) &&
  (u.o0 || e.obj0.val == 0) && (u.o1 || e.obj1.val == 0) && (u.o2 || e.obj2.val == 0) &&
  (u.f0 || !e.mark.getLsbD 3) && (u.f1 || !e.mark.getLsbD 2) && (u.o0 || !e.mark.getLsbD 1) &&
  (u.o1 || !e.mark.getLsbD 0)

/-- ELEM codes of VCVT (R227): I4, U4, I8, U8, I16, I32 and the float formats. -/
def cvtElem (c : Nat) : Bool := (1 ≤ c && c ≤ 6) || (8 ≤ c && c ≤ 15)

/-- FP32, FP16 or BF16. -/
def wideElem (c : Nat) : Bool := 8 ≤ c && c ≤ 10

/-- MX targets: I8 and the narrow floats (R228, R256). -/
def mxElem (c : Nat) : Bool := c == 3 || (11 ≤ c && c ≤ 15)

def qaElem (c : Nat) : Bool := c == 16 || c == 17

/-- The element type held in three bits of MODE, where it must be one of the six. -/
def etOk (c : Nat) : Bool := c ≤ 5
def etFloat (c : Nat) : Bool := c ≤ 2

/-- The field rules of each extended instruction: R224 to R229, R243, R248, R256, R272, R276, R468. -/
def extWf (o : ExtOp) (lit : Bool) (e : Ext) : Bool :=
  let md := e.mode.toNat
  let im := e.imm.toNat
  let ptr (c : Fin 16) : Bool := c.val < 8
  let four (c : Fin 16) : Bool := c.val < 4
  let src := im % 32
  let tgt := im / 32 % 32
  match o with
  | .vcmp => (ExtUse.mk true false false false true true true).ok lit e && ptr e.obj0 && ptr e.obj1 &&
      ptr e.obj2 && etOk (md / 8 % 8) && md / 64 == 0 && (md % 8 < 6 || etFloat (md / 8 % 8)) && im == 0
  | .vsel => (ExtUse.mk true false false false true true true).ok lit e && ptr e.obj0 && ptr e.obj1 &&
      ptr e.obj2 && etOk (md / 8 % 8) && md / 64 == 0 && im == 0
  | .vscale => (ExtUse.mk true true false true true true (md / 64 != 0)).ok lit e && ptr e.obj0 &&
      ptr e.obj1 && four e.obj2 && etFloat (md % 8) && md / 8 % 8 == 0 && md / 64 != 3 && im == 0
  | .vfill => (ExtUse.mk true false false true true false (md / 64 == 1)).ok lit e && ptr e.obj0 &&
      four e.obj2 && etOk (md % 8) && md / 8 % 8 == 0 && md / 128 == 0 && im == 0
  | .vrand => (ExtUse.mk true false false true true false false).ok lit e && ptr e.obj0 &&
      (md % 8 == 0 || md % 8 == 3) && md / 8 == 0
  | .vnzc => (ExtUse.mk true false false false (md / 32 == 1) true true).ok lit e && ptr e.obj0 &&
      ptr e.obj1 && four e.obj2 && md % 32 < 16 && md / 64 == 0 && im == 0
  | .vchain => (ExtUse.mk true false false true true true true).ok lit e && ptr e.obj0 && ptr e.obj1 &&
      ptr e.obj2 && 1 ≤ md % 16 && md % 16 ≤ 8 && etFloat (md / 16 % 8) && md / 128 == 0 && im == 0
  | .vcvt => (ExtUse.mk true false false true true true false).ok lit e && ptr e.obj0 && ptr e.obj1 &&
      md % 8 < 5 && md / 16 == 0 && cvtElem src && cvtElem tgt
  | .vqmx => (ExtUse.mk true false false true true true true).ok lit e && ptr e.obj0 && ptr e.obj1 &&
      ptr e.obj2 && md % 8 < 5 && md / 16 == 0 && wideElem src && mxElem tgt
  | .vdqmx => (ExtUse.mk true false false false true true true).ok lit e && ptr e.obj0 && ptr e.obj1 &&
      ptr e.obj2 && md % 8 < 4 && md / 16 == 0 && mxElem src && wideElem tgt && im / 1024 == 0
  | .vqa => (ExtUse.mk true false false true true true true).ok lit e && ptr e.obj0 && ptr e.obj1 &&
      ptr e.obj2 && md % 8 < 5 && md / 128 == 0 && md / 32 % 4 != 3 &&
      (if md / 16 % 2 == 0 then wideElem src && qaElem tgt else qaElem src && wideElem tgt)
  | .cld | .cldc => (ExtUse.mk true false false true true true false).ok lit e && four e.obj1 && md == 0 &&
      im == 0
  | .cldSp => (ExtUse.mk true false false true true true false).ok lit e && four e.obj1 && md == 0 &&
      im == 0
  | .old => (ExtUse.mk true (md / 16 == 1) false true true false false).ok lit e && four e.obj0 &&
      md % 16 == 0 && md / 32 == 0 && im == 0
  | .oldT => (ExtUse.mk true (md / 16 == 1) false true true false false).ok lit e && four e.obj0 &&
      md % 8 < 5 && md / 32 == 0 && im % 1024 == 0
  | .ocols => (ExtUse.mk false false false false false false false).ok lit e && md % 32 == 0 &&
      md / 32 % 4 != 3 && md / 128 == 0 && im == 0
  | .adrain => (ExtUse.mk true false false (mxElem src) true true false).ok lit e && four e.obj1 &&
      md % 8 < 5 && md / 16 == 0 && (mxElem src || wideElem src) && im / 32 % 32 == 0
  | .mseq => (ExtUse.mk true true true true false false false).ok lit e && md == 0 && 1 ≤ im && im ≤ 4096
  | .cgrp => (ExtUse.mk true true true false false false false).ok lit e && e.mark == 0 && md == 0 &&
      im / 256 == 0
  | .cag | .ca2a => (ExtUse.mk true true true true false false false).ok lit e && e.mark == 0 && md == 0 &&
      im / 256 == 0
  | .crs => (ExtUse.mk true true true true false false false).ok lit e && e.mark == 0 && md % 8 < 5 &&
      md / 8 % 4 != 3 && md / 32 == 0 && (md % 8 != 0 || md / 8 % 4 == 0) && im / 256 == 0
  | .cbar => (ExtUse.mk true false false false false false false).ok lit e && e.mark == 0 && md == 0 &&
      im / 256 == 0


/-- The limits of R48 to R54 and of the entries that the word alone decides: a word whose fields break one raises ILLEGAL (R56). -/
def Instr.wf (i : Instr) : Bool :=
  match i with
  | .add _ _ _ _ => true
  | .sub _ _ _ _ => true
  | .min _ _ _ _ => true
  | .minu _ _ _ _ => true
  | .and _ _ _ _ => true
  | .or _ _ _ _ => true
  | .xor _ _ _ _ => true
  | .andn _ _ _ _ => true
  | .shl _ _ _ _ => true
  | .shr _ _ _ _ => true
  | .sar _ _ _ _ => true
  | .rol _ _ _ _ => true
  | .mul _ _ _ _ => true
  | .mulh _ _ _ _ => true
  | .mulhu _ _ _ _ => true
  | .div _ _ _ _ => true
  | .divu _ _ _ _ => true
  | .rem _ _ _ _ => true
  | .remu _ _ _ _ => true
  | .max _ _ _ _ => true
  | .maxu _ _ _ _ => true
  | .clz _ _ _ => true
  | .ctz _ _ _ => true
  | .popc _ _ _ => true
  | .sext _ _ _ _ => true
  | .zext _ _ _ _ => true
  | .bfx _ _ _ _ => true
  | .bfxLit _ _ _ lit => bfLit lit
  | .bfi _ _ _ _ => true
  | .bfiLit _ _ _ lit => bfLit lit
  | .addi _ _ _ _ => true
  | .addiLit _ _ _ _ => true
  | .li _ _ _ => true
  | .liLit _ _ _ => true
  | .sel _ _ _ _ _ => true
  | .adr _ _ _ => true
  | .adrLit _ _ _ => true
  | .fadd _ _ _ _ => true
  | .fsub _ _ _ _ => true
  | .fmul _ _ _ _ => true
  | .fdiv _ _ _ _ => true
  | .fmin _ _ _ _ => true
  | .fmax _ _ _ _ => true
  | .fsqrt _ _ _ => true
  | .fclass _ _ _ => true
  | .ffma _ _ _ _ => true
  | .fcmp _ _ _ _ _ => true
  | .fcvt _ _ _ _ _ _ => true
  | .br _ _ => true
  | .brLit _ _ => true
  | .call _ _ _ => true
  | .callLit _ _ _ => true
  | .jr _ _ => true
  | .callr _ _ _ => true
  | .ret _ => true
  | .nop _ => true
  | .yield _ => true
  | .endStrand _ => true
  | .wspill _ _ => true
  | .wfill _ _ => true
  | .cmp _ _ _ _ _ => true
  | .cmpi _ _ _ cond _ => cond.forImm
  | .cmpiLit _ _ _ cond _ => cond.forImm
  | .pand _ _ _ _ => true
  | .por _ _ _ _ => true
  | .pxor _ _ _ _ => true
  | .pnot _ _ _ => true
  | .pmov _ _ _ => true
  | .rep _ _ _ _ => true
  | .ldB _ _ _ _ => true
  | .ldBLit _ _ _ _ => true
  | .ldBu _ _ _ _ => true
  | .ldBuLit _ _ _ _ => true
  | .ldH _ _ _ _ => true
  | .ldHLit _ _ _ _ => true
  | .ldHu _ _ _ _ => true
  | .ldHuLit _ _ _ _ => true
  | .ldW _ _ _ _ => true
  | .ldWLit _ _ _ _ => true
  | .ldWu _ _ _ _ => true
  | .ldWuLit _ _ _ _ => true
  | .ldD _ _ _ _ => true
  | .ldDLit _ _ _ _ => true
  | .ldp _ rd _ _ => even rd
  | .ldpLit _ rd _ _ => even rd
  | .stB _ _ _ _ => true
  | .stBLit _ _ _ _ => true
  | .stH _ _ _ _ => true
  | .stHLit _ _ _ _ => true
  | .stW _ _ _ _ => true
  | .stWLit _ _ _ _ => true
  | .stD _ _ _ _ => true
  | .stDLit _ _ _ _ => true
  | .stp _ rd _ _ => even rd
  | .stpLit _ rd _ _ => even rd
  | .aaddD _ _ _ _ => true
  | .aandD _ _ _ _ => true
  | .aorD _ _ _ _ => true
  | .axorD _ _ _ _ => true
  | .aaddW _ _ _ _ => true
  | .aandW _ _ _ _ => true
  | .aorW _ _ _ _ => true
  | .axorW _ _ _ _ => true
  | .aminD _ _ _ _ => true
  | .amaxD _ _ _ _ => true
  | .axchgD _ _ _ _ => true
  | .acasD _ _ _ _ => true
  | .aminW _ _ _ _ => true
  | .amaxW _ _ _ _ => true
  | .axchgW _ _ _ _ => true
  | .acasW _ _ _ _ => true
  | .agadd _ _ _ _ => true
  | .bind _ _ _ _ => true
  | .unbind _ _ => true
  | .acq _ _ _ _ => true
  | .rel _ _ _ _ => true
  | .acqrel _ _ _ _ => true
  | .waitw _ _ _ _ => true
  | .fence _ paths _ => paths != 0
  | .vclaim _ _ _ => true
  | .vreneg _ _ _ => true
  | .vfree _ => true
  | .pset _ _ _ _ => true
  | .pget _ _ _ => true
  | .vadd _ _ _ _ _ _ => true
  | .vsub _ _ _ _ _ _ => true
  | .vmul _ _ _ _ _ _ => true
  | .vfma _ _ _ _ _ _ => true
  | .vmin _ _ _ _ _ _ => true
  | .vmax _ _ _ _ _ _ => true
  | .vabs _ _ _ _ _ => true
  | .vneg _ _ _ _ _ => true
  | .vexp2 _ _ _ _ et => et.isFloat
  | .vlog2 _ _ _ _ et => et.isFloat
  | .vrcp _ _ _ _ et => et.isFloat
  | .vrsq _ _ _ _ et => et.isFloat
  | .vcopy _ _ _ _ _ => true
  | .vsum _ _ _ _ _ => true
  | .vmaxr _ _ _ _ _ => true
  | .vminr _ _ _ _ _ => true
  | .vargmax _ _ _ _ _ => true
  | .vcmp _ e => extWf .vcmp false e
  | .vsel _ e => extWf .vsel false e
  | .vscale _ e => extWf .vscale false e
  | .vscaleLit _ e _ => extWf .vscale true e
  | .vfill _ e => extWf .vfill false e
  | .vfillLit _ e _ => extWf .vfill true e
  | .vrand _ e => extWf .vrand false e
  | .vrandLit _ e _ => extWf .vrand true e
  | .vnzc _ e => extWf .vnzc false e
  | .vchain _ e => extWf .vchain false e
  | .vchainLit _ e _ => extWf .vchain true e
  | .vcvt _ e => extWf .vcvt false e
  | .vcvtLit _ e _ => extWf .vcvt true e
  | .vqmx _ e => extWf .vqmx false e
  | .vqmxLit _ e _ => extWf .vqmx true e
  | .vdqmx _ e => extWf .vdqmx false e
  | .vqa _ e => extWf .vqa false e
  | .vqaLit _ e _ => extWf .vqa true e
  | .ashape _ _ _ _ => true
  | .adatum _ _ d => datumOk d
  | .azero _ _ => true
  | .astat _ _ _ => true
  | .achk _ _ _ => true
  | .cld _ e => extWf .cld false e
  | .cldLit _ e _ => extWf .cld true e
  | .cldc _ e => extWf .cldc false e
  | .cldcLit _ e _ => extWf .cldc true e
  | .cldSp _ e => extWf .cldSp false e
  | .cldSpLit _ e _ => extWf .cldSp true e
  | .old _ e => extWf .old false e
  | .oldLit _ e _ => extWf .old true e
  | .oldT _ e => extWf .oldT false e
  | .oldTLit _ e _ => extWf .oldT true e
  | .ocols _ e => extWf .ocols false e
  | .adrain _ e => extWf .adrain false e
  | .adrainLit _ e _ => extWf .adrain true e
  | .slotw _ _ _ => true
  | .hopen _ _ _ _ => true
  | .hclose _ _ _ => true
  | .hbatch _ _ _ => true
  | .hlist _ _ _ _ => true
  | .hattach _ _ _ _ => true
  | .hdetach _ _ _ _ => true
  | .hswap _ _ _ _ => true
  | .hverify _ _ _ => true
  | .hfold _ _ _ _ => true
  | .tclr _ _ _ => true
  | .tset _ _ _ _ => true
  | .tadd _ _ _ _ => true
  | .tpref _ _ _ _ => true
  | .tfind _ _ _ _ => true
  | .tcut _ _ _ _ => true
  | .ttot _ _ _ _ => true
  | .tloadM32 _ _ _ _ => true
  | .tloadM16 _ _ _ _ => true
  | .tstore _ _ _ _ => true
  | .ppush _ _ _ => true
  | .ppop _ _ _ _ => true
  | .ppeek _ _ _ _ => true
  | .pcount _ _ _ => true
  | .peos _ _ => true
  | .pconf _ _ _ => true
  | .mbw _ _ _ => true
  | .mbr _ _ _ => true
  | .plnew _ _ _ _ => true
  | .plset _ _ _ _ => true
  | .plget _ _ _ _ => true
  | .cpy _ _ ra => quad ra
  | .cpynb _ _ ra => quad ra
  | .swinit _ _ _ => true
  | .swwait _ _ _ => true
  | .rinit _ _ _ _ => true
  | .rawait _ _ _ _ => true
  | .rrel _ _ _ _ => true
  | .rseq _ _ _ _ => true
  | .reos _ _ _ _ => true
  | .gpost _ _ _ => true
  | .gwait _ _ _ => true
  | .gid _ _ _ => true
  | .dqpush _ _ _ => true
  | .dqpop _ _ => true
  | .dqsplit _ _ _ => true
  | .dqsteal _ _ _ => true
  | .suspend _ _ => true
  | .btest _ _ _ _ => true
  | .stb _ _ _ _ => true
  | .binit _ _ _ _ => true
  | .bexp _ _ _ _ => true
  | .barv _ _ _ _ => true
  | .bwait _ _ _ => true
  | .ksig _ _ _ _ => true
  | .klaunch _ _ _ _ => true
  | .keos _ _ => true
  | .cgrp _ e => extWf .cgrp false e
  | .cag _ e => extWf .cag false e
  | .cagLit _ e _ => extWf .cag true e
  | .crs _ e => extWf .crs false e
  | .crsLit _ e _ => extWf .crs true e
  | .ca2a _ e => extWf .ca2a false e
  | .ca2aLit _ e _ => extWf .ca2a true e
  | .cbar _ e => extWf .cbar false e
  | .cwait _ _ _ => true
  | .ctest _ _ _ => true
  | .rseed _ _ => true
  | .rgen _ _ _ _ => true
  | .rnoise _ _ => true
  | .rlog _ _ _ => true
  | .mseq _ e => extWf .mseq false e
  | .mseqLit _ e _ => extWf .mseq true e
  | .trap _ _ => true
  | .eret _ => true
  | .eretAb _ => true
  | .csrr _ _ _ => true
  | .csrw _ _ imm => imm != 0x25 && imm != 0x0C
  | .csrs _ _ _ => true
  | .csrc _ _ _ => true
  | .wcall _ _ _ => true
  | .sleep _ _ => true
  | .contw _ _ => true
  | .contr _ _ _ => true
  | .shoot _ _ => true
  | .sliceWrite _ _ => true
  | .create => true
  | .destroy => true
  | .qopen => true
  | .qclose => true
  | .linkup => true
  | .linkfence => true
  | .linkdown => true
  | .settvec => true
  | .dbgset => true
  | .dstop => true
  | .dresume => true
  | .trcset => true
  | .loadobj => true
  | .finalisedCacheDrop _ => true
  | .powerUp _ _ _ _ _ => true
  | .pendingReturn _ _ => true
  | .repIterationIssue _ => true
  | .thermalInterval _ _ => true
  | .thermalDisplacement _ => true
  | .noiseWordDelivery _ => true
  | .noiseHealthFail _ => true
  | .noiseHealthPass _ => true
  | .storeAtHome _ _ => true
  | .readAtHome _ _ => true
  | .atomicAtHome _ _ => true
  | .pageWalk _ _ _ => true
  | .sliceScrub _ _ _ => true
  | .accessCountFlush _ _ _ => true
  | .hotPageRecord _ => true
  | .wbRetranslate _ _ _ => true
  | .releasePerform _ => true
  | .acqAtHome _ _ => true
  | .acqrelExchange _ => true
  | .waitwRegister _ _ => true
  | .watchPoll _ _ => true
  | .scopeMissHandle _ => true
  | .bindPropagate _ _ => true
  | .probeEcho _ _ _ => true
  | .laneGrant _ => true
  | .vectorPerform _ => true
  | .engineOpPerform _ _ _ => true
  | .sectorRequest _ _ _ => true
  | .sectorReply _ _ _ _ => true
  | .traverseReservation _ _ _ => true
  | .traverseData _ _ _ => true
  | .slotFrameBoundary _ => true
  | .sliceRerun _ _ _ => true
  | .handleHomePerform _ _ => true
  | .handleScrub _ _ _ => true
  | .foldJobStart _ => true
  | .foldCommit _ => true
  | .foldFail _ => true
  | .treeUnitPerform _ _ => true
  | .portValueLand _ => true
  | .portCreditReturn _ => true
  | .portClosedNotice _ _ => true
  | .portDeadlock _ _ => true
  | .copyStart _ _ => true
  | .copyError _ => true
  | .copyComplete _ => true
  | .gatherPerform _ => true
  | .groupPlacement _ _ => true
  | .dequeUnitPerform _ _ => true
  | .idleMonitorTest _ _ _ _ => true
  | .barrierUnitPerform _ _ => true
  | .barrierPoll _ _ => true
  | .queueTake _ _ => true
  | .overrun _ _ => true
  | .kernelCompletion _ => true
  | .transformRun _ => true
  | .meshInterrupt _ => true
  | .saveComplete _ => true
  | .restore _ => true
  | .redelivery _ _ => true
  | .spillRetry _ => true
  | .portTrainingEnd _ _ _ => true
  | .laneFailure _ _ => true
  | .messageDiscard _ _ _ => true
  | .meshCountDump => true
  | .collectiveReservation _ _ => true
  | .collectiveChunk _ _ _ => true
  | .reductionCombine _ _ _ _ _ => true
  | .reductionPartialSpill _ _ _ _ _ => true
  | .sample _ => true
  | .tracePushback => true
  | .flitReplay _ _ => true
  | .powerRemoval => true
  | .promiseMissed _ _ => true
  | .tracePushbackRelease => true
  | .windowEnd _ _ => true

end Sys2Proof
end

