-- ==== Sys2Proof/Machine/Desc.lean ====
section
/-! DEFINITION. Reading through a context's translation, format descriptors (07 R168 to R171), plat records (16 R346,
R348) and the strand's own scratchpad. -/

namespace Sys2Proof.Machine
open Sys2Proof

/-- The pieces of a byte range, cut where a 64-byte sector ends. -/
def pieces : Nat → Nat → Nat → List (Nat × Nat)
  | 0, _, _ => []
  | fuel + 1, a, n =>
    if n = 0 then [] else
    let k := min n (64 - a % 64)
    (a, k) :: pieces fuel (a + k) (n - k)

/-- The 64-byte pieces of the n bytes at a. -/
def sectorPieces (a n : Nat) : List (Nat × Nat) := pieces (n / 64 + 2) a n

/-- Bytes read through a context's page table by an agent of its world, each piece at its home; none where a piece
does not translate or does not read. -/
def readVA (s : State) (ctx : Nat) : List (Nat × Nat) → Except Cause (List Byte)
  | [] => .ok []
  | p :: ps =>
    match checkLeaf s ctx p.1 .read true (walk s ctx p.1) with
    | .error c => .error c
    | .ok x =>
      match homeRead s ctx x.pa p.2 with
      | .error k => .error { code := k, addr := p.1, acc := 1 }
      | .ok b => (match readVA s ctx ps with | .ok bs => .ok (b ++ bs) | .error c => .error c)

/-- The home of the piece that a read through a context's page table found poisoned logs it, or the home of the entry of its walk (06
R159). -/
def logVA (s : State) (ctx : Nat) : List (Nat × Nat) → State
  | [] => s
  | p :: ps =>
    match checkLeaf s ctx p.1 .read true (walk s ctx p.1) with
    | .error _ => logWalk s ctx p.1 (walk s ctx p.1)
    | .ok x =>
      match homeRead s ctx x.pa p.2 with
      | .error k => if k = 10 then logBad s x.pa else s
      | .ok _ => logVA s ctx ps

/-- Physical address of offset o of a context's scratchpad partition on a core (06 R152). -/
def spadPA (s : State) (core ctx o : Nat) : Nat := winBase + core * winSize + (s.part core ctx).partn.sb + o

/-- Size of that partition (06 R152). -/
def spadSize (s : State) (core ctx : Nat) : Nat := (s.part core ctx).partn.sz

/-- Bytes of the scratchpad, and whether one of them reads poisoned. -/
def spadRead (s : State) (core ctx o n : Nat) : List Byte := readBytes s (spadPA s core ctx o) n
def spadPoisoned (s : State) (core ctx o n : Nat) : Bool := isPoisoned s (spadPA s core ctx o) n

/-- The core, home of its scratchpad, logs a read there that met an uncorrectable or poisoned word (06 R159). -/
def logSpad (s : State) (core ctx o : Nat) : State := logBad s (spadPA s core ctx o)
def spadLE (s : State) (core ctx o n : Nat) : Nat := leNat (spadRead s core ctx o n)

/-- Is a line of the range in flight (06 R157)? Lines are named by physical address / 64. -/
def spadBusy (s : State) (core ctx o n : Nat) : Bool :=
  let a := spadPA s core ctx o
  n != 0 && ((s.core core).inflight.any fun l => decide (a / 64 ≤ l) && decide (l ≤ (a + n - 1) / 64))

/-- A write into the scratchpad, performed at once. -/
def spadWrite (s : State) (core ctx o : Nat) (bs : List Byte) : State := homeWrite s (spadPA s core ctx o) bs

/-- Where an address lies in the local window (05 R135): its offset within the 512 KiB. -/
def localOff (s : State) (ctx va : Nat) : Option Nat :=
  if (s.ctx ctx).lwin ≤ va ∧ va < (s.ctx ctx).lwin + 2 ^ 19 then some (va - (s.ctx ctx).lwin) else none

/-- A format descriptor (07 R169). -/
structure Desc where
  w0 : Nat
  w1 : Nat
  hi : Nat
  deriving DecidableEq, Repr

def Desc.elem (d : Desc) : Nat := fld d.w0 0 5
def Desc.block (d : Desc) : Nat := fld d.w0 8 8
def Desc.group (d : Desc) : Nat := fld d.w0 16 8
def Desc.zp (d : Desc) : Nat := fld d.w0 24 8
def Desc.eps (d : Desc) : Nat := fld d.w0 32 8
def Desc.bmp (d : Desc) : Bool := bit d.w0 40
def Desc.shv (d : Desc) : Bool := bit d.w0 41
def Desc.shoff (d : Desc) : Nat := d.w1
def Desc.qa (d : Desc) : Bool := d.elem == 16 || d.elem == 17
def Desc.bits (d : Desc) : Nat := (elemFmt d.elem).bits

/-- Elements per sector; a descriptor with EPS 0 counts as R73 does (log entry 13). -/
def Desc.per (d : Desc) : Nat := if d.eps = 0 then elemsPerSector d.elem else d.eps

/-- A valid descriptor (07 R170). -/
def Desc.valid (d : Desc) : Bool :=
  d.hi == 0 && fld d.w0 42 22 == 0 && fld d.w0 5 3 == 0 && d.elem ≤ 17 && (d.block == 0 || d.block == 32 && mxElem d.elem) &&
  (if d.qa then (d.group == 32 || d.group == 64 || d.group == 128) && d.zp == (if d.elem = 16 then 4 else 8)
   else d.group == 0) &&
  d.shv == (d.block == 32 || d.qa) && (!d.shv || d.shoff != 0) && d.shoff % 64 == 0 &&
  (if d.bmp then 1 ≤ d.eps && d.eps ≤ elemsPerSector d.elem else d.eps == elemsPerSector d.elem)

/-- The descriptor at a cadastre index of a context (07 R168): index 0 is plain bytes, whatever lies there. -/
def readDesc (s : State) (ctx cad : Nat) : Desc :=
  let a := (s.ctx ctx).cadb + 32 * cad
  if cad = 0 then ⟨0, 0, 0⟩ else ⟨readLE s a 8, readLE s (a + 8) 8, readLE s (a + 16) 16⟩

/-- Does a cadastre entry read poisoned? -/
def descPoisoned (s : State) (ctx cad : Nat) : Bool := cad != 0 && isPoisoned s ((s.ctx ctx).cadb + 32 * cad) 32

/-- Fields of a plat record (16 R346). -/
def platBox (r : List Byte) (d : Nat) : Nat := recLE r (36 + 4 * d) 4
def platStr (r : List Byte) (d : Nat) : Nat := recLE r (16 + 4 * d) 4
def platRank (r : List Byte) : Nat := recLE r 6 1
def platCad (r : List Byte) : Nat := recLE r 5 1

/-- A record that meets R346. -/
def platRecOk (r : List Byte) : Bool :=
  recLE r 0 4 == 0x31544C50 && recLE r 4 1 == 0 && recLE r 7 9 == 0 && recLE r 56 8 == 0 && platCad r < 64 &&
  1 ≤ platRank r && platRank r ≤ 5 &&
  (upto 5).all fun d => if d < platRank r then platBox r d != 0 else platBox r d == 1 && platStr r d == 0

/-- The strides of a plat-aligned record (16 R348). -/
def platStridesOk (f : Desc) (r : List Byte) : Bool :=
  ((f.bits != 6 && f.block == 0 && f.group == 0 && !f.bmp) || platStr r 0 == 1) &&
  [1, 2, 3, 4].all fun d => platStr r d % f.per == 0

/-- A plat-aligned base (16 R348). -/
def platBaseOk (cad : Nat) (f : Desc) (base : Nat) : Bool :=
  if cad = 0 ∨ f.block ≠ 0 ∨ f.group ≠ 0 ∨ f.bmp = true ∨ f.bits = 4 ∨ f.bits = 6 then base % 64 == 0
  else base % (f.bits / 8) == 0

/-- The first reason a plat is refused (16 R350): 2 malformed record, 1 strides, 0 base. -/
def platReason (s : State) (ctx : Nat) (r : List Byte) (base : Nat) : Option Nat :=
  if !platRecOk r then some 2
  else
    let f := readDesc s ctx (platCad r)
    if !platStridesOk f r then some 1 else if !platBaseOk (platCad r) f base then some 0 else none

/-- The CAD a plat register reads as (16 R347). -/
def Plat.cad (p : Plat) : Nat := if p.valid then platCad p.record else 0
def Plat.box (p : Plat) (d : Nat) : Nat := if p.valid then platBox p.record d else 0
def Plat.str (p : Plat) (d : Nat) : Nat := if p.valid then platStr p.record d else 0

/-- Is the plat record one that a handle's base may have (12 R281)? -/
def handlePlatOk (s : State) (ctx : Nat) (r : List Byte) : Bool :=
  let f := readDesc s ctx (platCad r)
  platRecOk r && f.valid && !f.bmp && ([1, 2, 3, 4, 9, 10, 11, 12, 13, 14, 15].contains f.elem)

/-- Element offset of the region's end and its sectors (13 R308): the bytes from BASE on that hold the tensor, then
as far as the last block goes; for formats whose blocks fill whole sectors nothing is added. -/
def regionSectors (f : Desc) (l0 l1 s1 base : Nat) : Nat :=
  let n := cdiv ((l1 - 1) * s1 + l0) f.per
  if f.block = 0 then n
  else
    -- the last block met, numbered from the page base (03 R70): BASE lies some sectors into its page
    let first := base % 2 ^ 16 / 64 * f.per
    let last := first + n * f.per - 1
    cdiv ((last / 32 + 1) * 32) f.per - first / f.per

end Sys2Proof.Machine
end

