-- ==== Sys2Proof/Machine/Operands.lean ====
section
/-! DEFINITION. The operand forms: what an instruction reads, where its result goes, and its length. -/

namespace Sys2Proof.Machine
open Sys2Proof

/-- Lengths in bytes (02 R46): base word; base word and literal, or an extended form; an extended form and literal. -/
def lenShort : Nat := 4
def lenLit : Nat := 12
def lenExt : Nat := 12
def lenExtLit : Nat := 20

/-- Sign-extended immediates (05 R127). -/
def immW {n : Nat} (v : BitVec n) : Word := v.signExtend 64

/-- The address of a transfer or of ADR: the base word's address plus 4 times a signed word offset (02 R53). -/
def wordTarget {n : Nat} (pc : Nat) (off : BitVec n) : Nat := (pc + 4 * (immW off).toNat) % 2 ^ 64

/-- The same from a literal byte offset (02 R53). -/
def byteTarget (pc : Nat) (lit : Word) : Nat := (pc + lit.toNat) % 2 ^ 64

/-- A turn-settled instruction that reads registers and writes one (05 R120, 02 R48). -/
def regOp (h : Hdr) (len : Nat) (rd : Reg) (srcs : List Reg) (f : Strand → Word) : State → Outcome :=
  issue h { len := len, refs := .r rd :: srcs.map .r } fun x => x.upd (x.t.setReg rd (f x.t))

/-- A turn-settled floating-point instruction: its result is zero-extended and its flags are joined to the strand's
(05 R120, R128). -/
def fpOp (h : Hdr) (rd : Reg) (srcs : List Reg) (f : Strand → Nat × Nat) : State → Outcome :=
  issue h { len := lenShort, refs := .r rd :: srcs.map .r } fun x =>
    let r := f x.t
    x.upd ((x.t.addFlags r.2).setReg rd (w64 r.1))

/-- A turn-settled instruction that writes a predicate bit, with flags (04 R111, R112, 05 R130). -/
def predOp (h : Hdr) (len : Nat) (cd : Pr) (refs : List Ref) (f : Strand → Bool × Nat) : State → Outcome :=
  issue h { len := len, refs := .p cd :: refs } fun x =>
    let r := f x.t
    x.upd ((x.t.addFlags r.2).setPred cd r.1)

/-- A control transfer to a target that must be word-aligned (02 R53). -/
def jump (x : Exe) (target : Nat) (t : Strand) : Eff :=
  if target % 4 ≠ 0 then .trap { code := 6, addr := target } else x.upd { t with pc := target }

end Sys2Proof.Machine
end

