-- ==== Sys2Proof/Machine/Access.lean ====
section
/-! DEFINITION. A strand's accesses on path S: where an address lies, the store path, the read buffer and the budget
(05 R133 to R140, 06 R158, 19 R412). -/

namespace Sys2Proof.Machine
open Sys2Proof

/-- Where an access goes: its own scratchpad, or a physical address by translation; and whether its page is
write-blocked. -/
structure Site where
  pa : Nat
  loc : Bool
  wb : Bool
  deriving DecidableEq, Repr

/-- Is a byte of a window read only for stores (06 R150, R151)? -/
def roRegion (off : Nat) : Bool :=
  match regionOf off with
  | .ostore _ | .accum _ _ | .barrier _ _ | .ring _ _ | .reserved => true
  | _ => false

/-- A cause that the checks of a leaf give: PAGE_PERM of what may not be reached there comes before the POISON of a poisoned page (23 R483). -/
def permFirst (s : State) (t : Strand) (va : Nat) (acc : Acc) (forbidden : Nat → Bool) (c : Cause) : Cause :=
  if c.code ≠ 10 then c
  else
    match (findLeaf s (tlbCore t.pcore) (some (tlbCluster t.pcore)) t.ctx va).2 with
    | .ok l => if forbidden (l.base + (va - l.va)) then { c with code := 8 } else c
    | .error _ => c

/-- Is an address in a region of a window that takes no store (06 R150)? -/
def readOnlyAt (s : State) (pa : Nat) : Bool := match homeOf s pa with | .window _ off => roRegion off | _ => false

/-- The site of n bytes at va for a strand (05 R135, R136): the local window's partition, its gap, or a translated
page; a store to a read-only region of a window raises PAGE_PERM (06 R150). -/
def siteOf (s : State) (t : Strand) (va n : Nat) (acc : Acc) : State × Except Cause Site :=
  match localOff s t.ctx va with
  | some o =>
    if spadSize s t.lcore t.ctx < o + n then (s, .error { code := 7, sub := 3, addr := va, acc := acc.code })
    else (s, .ok ⟨spadPA s t.lcore t.ctx o, true, false⟩)
  | none =>
    let r := xlate s t.pcore t.ctx va acc t.sup
    match r.2 with
    | .error c => (r.1, .error (permFirst r.1 t va acc (fun pa => acc == .write && readOnlyAt r.1 pa) c))
    | .ok x =>
      match homeOf r.1 x.pa with
      | .window _ off =>
        if acc == .write && roRegion off then (r.1, .error { code := 8, addr := va, acc := acc.code })
        else (r.1, .ok ⟨x.pa, false, x.wb⟩)
      | _ => (r.1, .ok ⟨x.pa, false, x.wb⟩)

/-- The sites of several pieces, all found before any is reached. -/
def sitesOf (s : State) (t : Strand) (acc : Acc) : List (Nat × Nat) → State × Except Cause (List Site)
  | [] => (s, .ok [])
  | p :: ps =>
    let r := siteOf s t p.1 p.2 acc
    match r.2 with
    | .error c => (r.1, .error c)
    | .ok w =>
      let q := sitesOf r.1 t acc ps
      (q.1, match q.2 with | .ok ws => .ok (w :: ws) | .error c => .error c)

/-- Cores of a strand's group (19 R412). -/
def groupOf (s : State) (t : Strand) : Option Group := (s.kern t.kern).groups.find? fun g => g.num == t.grp

/-- Count the sectors of an access against its group's byte bound, unless its home is one of the group's own cores
(19 R412). -/
def charge (s : State) (kern grp pa n : Nat) : State :=
  let k := s.kern kern
  let inOwn (g : Group) : Bool := match homeOf s pa with | .window c _ => g.cores.contains c | _ => false
  s.setKern kern { k with groups := k.groups.map fun g =>
    if g.num = grp ∧ inOwn g = false ∧ g.busy = true then { g with bytes := g.bytes + 64 * (sectorPieces pa n).length } else g }

/-- What an access of a strand leaves behind besides its data: the counts of 07 R174 and 19 R412. -/
def noteAccess (s : State) (t : Strand) (va pa n : Nat) : State :=
  charge (gatherCount s (tlbCore t.pcore) t.ctx va (sectorPieces pa n).length) t.kern t.grp pa n

/-- The bytes that an operation on path S reads or writes, by virtual address. -/
def OpKind.range : OpKind → Option (Nat × Nat)
  | .load va n _ _ => some (va, n)
  | .atomic _ va n _ _ => some (va, n)
  | .agadd va _ _ => some (va, 16)
  | .acq va _ | .acqrel va _ _ | .waitw va _ _ => some (va, 8)
  | .wfill va n => some (va, 8 * n)
  | .ksig va _ => some (va, 8)
  | .plnew _ _ va => some (va, 64)
  | .handle _ _ va _ => some (va, 64)
  | .tree .tload32 _ va b | .tree .tload16 _ va b | .tree .tstore _ va b => some (va, 4 * (b % 2 ^ 11))
  | _ => none

/-- Has this strand an earlier access, sent and not performed, to overlapping bytes (05 R140)? A WAITW that has tested its
word once has taken its place. -/
def earlierOp (s : State) (u va n seq : Nat) : Bool :=
  (s.strand u).ops.any fun o =>
    o.phase == .sent && decide (o.seq < seq) && !(s.watches.any fun w => w.uid == u && w.opId == o.id) &&
      (match o.kind.range with | some r => decide (r.1 < va + n) && decide (va < r.1 + r.2) | none => false)

/-- Where a TLOAD or TSTORE reads or writes its strand's scratchpad (14 R327): offset and bytes. -/
def OpKind.treeAt : OpKind → Option (Nat × Nat)
  | .tree .tload32 _ _ b | .tree .tload16 _ _ b | .tree .tstore _ _ b => some (b / 2 ^ 24, 4 * (b % 2 ^ 11))
  | _ => none

/-- Is an access of a strand to n bytes at pa behind an earlier TLOAD or TSTORE of its own of some of them, which its unit has not performed
(05 R140, 14 R321)? -/
def treeBehind (s : State) (u pa n seq : Nat) : Bool :=
  let t := s.strand u
  t.ops.any fun o => o.phase == .sent && decide (o.seq < seq) &&
    (match o.kind.treeAt with
    | some r => let a := spadPA s t.lcore t.ctx r.1; decide (a < pa + n) && decide (pa < a + r.2)
    | none => false)

/-- Does an operation write its word at its home: an atomic (05 R142)? The address and the width. -/
def OpKind.atomicAt : OpKind → Option (Nat × Nat)
  | .atomic _ va n _ _ => some (va, n)
  | .agadd va _ _ => some (va, 16)
  | _ => none

/-- Is a request of a core to n bytes at pa, issued in step seq, behind an atomic that has not been performed (08 R192, R193)?
Atomics of its own core to the sector count, and atomics of its cluster to the same home that have passed the hub. -/
def behindAtomic (s : State) (core pa seq : Nat) : Bool :=
  s.strands.any fun t => coreCluster t.2.pcore == coreCluster core && t.2.ops.any fun o =>
    o.phase == .sent && decide (o.seq < seq) &&
      (match o.kind.atomicAt with
      | some q =>
        (match (siteOf s { t.2 with sup := o.sup } q.1 q.2 .both).2 with
        | .ok w => t.2.pcore == core && w.pa / 64 == pa / 64 || decide (o.seq < (s.core t.2.pcore).hubSeq) && homeId s w.pa == homeId s pa
        | .error _ => false)
      | none => false)

/-- An access that is performed at its issue waits for the strand's own earlier accesses to its bytes (05 R140), for releases of its
core to the sector (08 R197), and for what its core, or its cluster past the hub, has on its way to the bytes (08 R189, R193). -/
def localBehind (s : State) (u va n pa : Nat) : Bool :=
  let core := (s.strand u).pcore
  earlierOp s u va n s.steps || ((s.core core).relq.any fun r => r.pa / 64 == pa / 64) ||
    (s.writes.any fun w => (w.uid == u || w.core == core || w.hub && coreCluster w.core == coreCluster core) &&
      decide (w.pa < pa + n) && decide (pa < w.pa + w.bytes.length)) ||
    behindAtomic s core pa s.steps

/-- An operation that reads through the read buffer (05 R139). -/
def OpKind.buffered : OpKind → Bool
  | .load _ _ _ _ | .wfill _ _ | .plnew _ _ _ => true
  | _ => false

/-- Loads of a core's strands to these bytes that have not been performed (05 R140; log entry 17): strand and operation. -/
def loadsAhead (s : State) (core ctx va n : Nat) : List (Nat × Nat) :=
  (s.strands.filter fun t => t.2.pcore == core && t.2.ctx == ctx).flatMap fun t =>
    (t.2.ops.filter fun o => o.phase == .sent && o.kind.buffered && (match o.kind.range with
      | some r => decide (r.1 < va + n) && decide (va < r.1 + r.2) | none => false)).map fun o => (t.1, o.id)

/-- A store updates the bytes of a valid line that it covers (05 R139); earlier loads still see what the line held, so that no load after
them finds anything older (05 R140; log entry 17). -/
def rbufStore (k : CoreSt) (ctx va : Nat) (bs : List Byte) (ahead : List (Nat × Nat)) : CoreSt :=
  { k with rbuf := k.rbuf.map fun l =>
      if l.ctx = ctx ∧ l.va = va / 64 * 64 then
        { l with bytes := (l.bytes.take (va % 64) ++ bs ++ l.bytes.drop (va % 64 + bs.length)).take 64
                 early := l.early ++ (ahead.filter fun i => !(l.early.any fun e => e.1 == i)).map fun i => (i, l.bytes) }
      else l }

/-- One stored piece: performed at once in the own scratchpad, otherwise on its way to its home (05 R136), as is one of a displaced strand
whose logical core is pre-empted (20 R439). -/
def storePiece (s : State) (u : Nat) (t : Strand) (stop : Bool) (va : Nat) (w : Site) (bs : List Byte) : State :=
  if w.loc && !s.off t.lcore t.ctx then homeWrite s w.pa bs
  else
    let s := (touch (noteAccess s t va w.pa bs.length) t.pcore w.pa).modCore t.pcore fun k =>
      rbufStore k t.ctx va bs (loadsAhead s t.pcore t.ctx va bs.length)
    { s with writes := s.writes ++ [⟨u, t.pcore, t.ctx, .s, va, w.pa, bs, none, s.steps, false, none, none, stop⟩] }

/-- The pieces of a store and its sites, in order; those of the strand's own local window are written in one step (log entry 110). -/
def storePieces (s : State) (u : Nat) (t : Strand) (stop : Bool) : Nat → List (Site × List Byte) → State
  | _, [] => s
  | va, p :: ps => storePieces (storePiece s u t stop va p.1 p.2) u t stop (va + p.2.length) ps

/-- A strand whose access a watchpoint stops after becomes STOPPED at its first turn once the last write of it is performed (25 R502). -/
def stopAfter (s : State) (u : Nat) (stop : Bool) : State :=
  if stop && !(s.writes.any fun w => w.uid == u && w.stop) then s.modStrand u fun t => { t with stopWaits := true, stopDbg := true } else s

/-- Does a watchpoint stop the strand after an access (25 R502)? -/
def stopHit (s : State) (ctx : Nat) (skip : Option Nat) (va n : Nat) (acc : Acc) : Bool := (watchHit s ctx skip va n acc true).isSome

/-- The mark that the strand stops after an access that has been performed (25 R502). -/
def watchStop (s : State) (ctx : Nat) (skip : Option Nat) (va n : Nat) (acc : Acc) (t : Strand) : Strand :=
  if stopHit s ctx skip va n acc then { t with stopWaits := true, stopDbg := true } else t

/-- A store of consecutive pieces of at most 8 bytes from va on, turn-settled (05 R136): every site is found first; a
write-blocked page makes it wait (07 R181); a watchpoint comes after the translation. The strand that goes on is f of
the one at issue. -/
def storeEff (x : Exe) (va : Nat) (parts : List (List Byte)) (f : Strand → Strand) : Eff :=
  let addrs := (upto parts.length).map fun i => (va + 8 * i, (parts.getD i []).length)
  let n := (parts.map List.length).foldl (· + ·) 0
  let r := sitesOf x.s x.t .write addrs
  match r.2 with
  | .error c => .trap c
  | .ok ws =>
    if ws.any (·.wb) then .wait r.1
    else if (ws.zip addrs).any fun p => p.1.loc && localBehind r.1 x.u p.2.1 p.2.2 p.1.pa then .wait r.1
    else
      match watchHit r.1 x.t.ctx x.skip va n .write false with
      | some k => .trap { code := 12, sub := k, addr := va, acc := 2 }
      | none =>
        let stop := stopHit r.1 x.t.ctx x.skip va n .write
        .ok (stopAfter ((storePieces r.1 x.u x.t stop va (ws.zip parts)).modStrand x.u f) x.u stop)

/-- A read of the strand's own scratchpad, precise (05 R136): bytes, or POISON. -/
def localRead (s : State) (w : Site) (va n : Nat) : Except Cause (List Byte) :=
  if isPoisoned s w.pa n then .error { code := 10, addr := va, acc := 1 } else .ok (readBytes s w.pa n)

end Sys2Proof.Machine
end

