-- ==== Sys2Proof/Machine/Home.lean ====
section
/-! DEFINITION. Homes of on-chip windows, diversion to the spill queue, and the order in which requests reach a home
(06 R150 to R160, 08 R192, 20 R439, R440). -/

namespace Sys2Proof.Machine
open Sys2Proof

/-- The core whose window holds an address. -/
def windowCore (s : State) (pa : Nat) : Option Nat := match homeOf s pa with | .window c _ => some c | _ => none

/-- Messages of a context to a core are diverted while it is pre-empted there, and wait while diverted ones are redelivered (20 R439,
R441). -/
def spillFor (s : State) (core ctx : Nat) : Bool :=
  (s.ctx ctx).spill.any (fun e => e.1 == core) || (s.ctx ctx).refused.any fun e => e.1 == core
inductive Reach where
  | open | divert | wait
  deriving DecidableEq, Repr
def reach (s : State) (core ctx : Nat) : Reach :=
  if s.off core ctx then .divert else if spillFor s core ctx then .wait else .open
/-- Does a Clavos port of the message's world carry traffic to a fabric address (22 R458 to R460)? Nothing names the node of
an address: the default mask is used. -/
def fabricUp (s : State) (pa : Nat) : Bool :=
  (upto 32).any fun p =>
    bit (cfgLE s (0x5C0 + 44) 4) p && cfgBit s (1708 + p) == granuleSecure s pa &&
      (match (tget Clavos.init s.clavos p).st with | .up | .narrowed => true | _ => false)

/-- The ports that reach a node: those of its route entry, before the end of the list, or the default mask (24 R495). -/
def routeMask (s : State) (node : Nat) : Nat :=
  let entry (k : Nat) : Nat := cfgLE s (0x5C0 + 48 + 8 * k) 8
  match (upto 58).find? fun k => entry k % 2 ^ 16 == node || entry k % 2 ^ 16 == 0xFFFF with
  | some k => if entry k % 2 ^ 16 = node then fld (entry k) 16 32 else cfgLE s (0x5C0 + 44) 4
  | none => cfgLE s (0x5C0 + 44) 4

/-- Does a port of the world carry traffic to a node (22 R460)? -/
def nodeUp (s : State) (secure : Bool) (node : Nat) : Bool :=
  (upto 32).any fun p =>
    bit (routeMask s node) p && cfgBit s (1708 + p) == secure && (match (tget Clavos.init s.clavos p).st with | .up | .narrowed => true | _ => false)

def reachPA (s : State) (ctx pa : Nat) : Reach :=
  match homeOf s pa with
  | .window c _ => reach s c ctx
  | .host => if fabricUp s pa then .open else .wait
  | _ => .open

/-- Set and clear in-flight bits; a line names its core by its address. -/
def lineCore (l : Nat) : Nat := (64 * l - winBase) / winSize
def setLines (s : State) (ls : List Nat) : State :=
  ls.foldl (fun s l => s.modCore (lineCore l) fun k => { k with inflight := if k.inflight.contains l then k.inflight else l :: k.inflight }) s
def clearLines (s : State) (ls : List Nat) : State :=
  ls.foldl (fun s l => s.modCore (lineCore l) fun k => { k with inflight := k.inflight.filter (· != l) }) s

/-- A message has waited for a port: since when, if that is known (22 R460). -/
def waitsSince (s : State) (k : Bool × Nat × Nat) : Option Nat := (s.unreach.find? fun e => e.2.1 == k).map (·.2.2)

/-- A message found waiting, of a world, is noted; after 2^20 cycles it is discarded: is it (22 R460)? -/
def discardIn (s : State) (secure : Bool) (k : Bool × Nat × Nat) : State × Bool :=
  match waitsSince s k with
  | none => ({ s with unreach := s.unreach ++ [(secure, k, s.cycle)] }, false)
  | some c => if s.cycle < c + 2 ^ 20 then (s, false) else ({ s with unreach := s.unreach.filter fun e => e.2.1 != k }, true)
def discarded (s : State) (k : Bool × Nat × Nat) (pa : Nat) : State × Bool := discardIn s (granuleSecure s pa) k

/-- The message of a collective for a node: how it is known while it waits (22 R460). -/
def nodeMsg (wr : Bool) (node id : Nat) : Bool × Nat × Nat := (wr, 2 ^ 80 + node, id)

/-- The ports that a waiting message may take. -/
def msgMask (s : State) (k : Bool × Nat × Nat) : Nat := if 2 ^ 80 ≤ k.2.1 then routeMask s (k.2.1 - 2 ^ 80) else cfgLE s (0x5C0 + 44) 4

/-- Bytes that no reply has brought: the spec states no value for them. -/
def openBytes : Nat → State → State × List Byte
  | 0, s => (s, [])
  | n + 1, s =>
    let v := s.openWord
    let r := openBytes n v.1
    (r.1, leBytes 8 v.2.toNat ++ r.2)

/-- The KIND of a unit's operation: barrier, tree or deque; and of what ends a strand's wait: a wake (20 R440). -/
def OpKind.spillUnit : OpKind → Nat
  | .tree _ _ _ _ => 5 | .deque _ _ => 6 | _ => 3
def OpKind.spillReply : OpKind → Nat
  | .waitw _ _ _ | .barrier .bwait _ _ _ | .swwait _ _ | .rawait _ _ | .gwait _ | .suspend => 10
  | _ => 8

/-- KIND of a spill entry (20 R440). -/
def Spill.kindCode (s : State) : Spill → Nat
  | .write _ => 1 | .mem _ _ => 2 | .port _ _ _ _ => 4 | .complete _ _ | .signal _ _ _ _ => 7 | .miss _ => 9 | .old _ => 1
  | .unit u id => ((s.op u id).map fun o => o.kind.spillUnit).getD 3
  | .reply u id => ((s.op u id).map fun o => o.kind.spillReply).getD 8
def Spill.data : Spill → List Byte
  | .write w => w.bytes.take 64
  | .port _ _ _ v => leBytes 8 v.toNat
  | .old e => (e.buf.take 64).map fun q => BitVec.ofNat 8 q.2
  | _ => []

/-- The 128 bytes of an entry (20 R440); bytes 63:24 are private to the native revision. -/
def spillBytes (s : State) (core seq : Nat) (m : Spill) : List Byte :=
  let d := m.data
  leBytes 8 0 ++ leBytes 2 core ++ leBytes 1 (m.kindCode s) ++ leBytes 1 d.length ++ leBytes 4 0 ++ leBytes 8 seq ++
    ((upto 40).map fun i => Config.privateByte seq i) ++ d ++ List.replicate (64 - d.length) 0

/-- A message for a pre-empted core goes to its context's spill queue; a full queue refuses it (20 R439, R440). -/
def divert (s : State) (ctx core : Nat) (m : Spill) : State :=
  let x := s.ctx ctx
  if x.spqn ≤ x.spill.length || !x.refused.isEmpty then s.setCtx ctx { x with refused := x.refused ++ [(core, m)] }
  else
    let s := homeWrite s (x.spqb + 128 * (x.spqSeq % x.spqn)) (spillBytes s core x.spqSeq m)
    let s := homeWrite s (x.spqb + 128 * x.spqn) (leBytes 4 (x.spqSeq + 1))
    s.setCtx ctx { s.ctx ctx with spill := x.spill ++ [(core, m)], spqSeq := x.spqSeq + 1 }

/-- Space in a context's spill queue; a message it refuses is sent again later (20 R440). -/
def spillRoom (s : State) (ctx : Nat) : Bool := (s.ctx ctx).spill.length < (s.ctx ctx).spqn && (s.ctx ctx).refused.isEmpty

/-- The wait of a strand that is parked in a SWWAIT leaves its register file writable (06 R154; the cases after 16 R372). -/
def Op.waitOnly (o : Op) : Bool := match o.kind with | .swwait _ _ => true | _ => false

/-- May a slot's register file be written (04 R96, 06 R154): its strand is PARKED or STOPPED with no pending operation, or PARKED in a
SWWAIT and nothing else? One that has returned at its acceptance is pending no longer (10 R236). -/
def regFileOpen (t : Strand) : Bool :=
  match t.st with
  | .parked .wordChanged => t.ops.all fun o => o.phase == .late || o.waitOnly
  | .parked _ | .stopped _ => t.ops.all fun o => o.phase == .late
  | _ => false

/-- Write one 8-byte word of a register file (06 R154). -/
def setRegFileWord (t : Strand) (i v : Nat) : Strand :=
  if i < 96 then { t with phys := tput t.phys i (w64 v) }
  else if 97 ≤ i ∧ i < 104 then { t with sregs := tput t.sregs (i - 96) (w64 v) }
  else if i = 112 then { t with pc := v % 2 ^ 64 }
  else if i = 113 then { t with wsp := w64 v }
  else if i = 114 then { t with pword := v % 2 ^ 16 / 2 * 2 }
  else if i = 115 then { t with dseed := w64 v }
  else t

/-- Write bytes of a register file from byte o on. -/
def regFilePut (t : Strand) : Nat → List Byte → Strand
  | _, [] => t
  | o, b :: bs => regFilePut (setRegFileWord t (o / 8) (setFld (regFileWord t (o / 8)) (8 * (o % 8)) 8 b.toNat)) (o + 1) bs

/-- What a write at a window comes to (06 R153, R154). -/
inductive Landed where
  | done (s : State) | outside | engaged

/-- Is a line of the range in flight at the core that holds it, but for lines of the engine's own operation (06 R157)? -/
def linesBusy (s : State) (pa n : Nat) (own : List Nat) : Bool :=
  n != 0 && (match windowCore s pa with
    | some c => (s.core c).inflight.any fun l => decide (pa / 64 ≤ l) && decide (l ≤ (pa + n - 1) / 64) && !own.contains l
    | none => false)

/-- A write performed at the core that owns the window. -/
def windowWrite (s : State) (ctx core off pa : Nat) (bs : List Byte) : Landed :=
  if (winCheck s ctx core off true).isSome || (winCheck s ctx core (off + bs.length - 1) true).isSome then .outside
  else
    match regionOf off with
    | .regs k o =>
      match s.slotStrand core k with
      | some u =>
        if regFileOpen (s.strand u) then
          .done ({ s with poison := poisonAfter s.poison pa bs.length }.modStrand u fun t => regFilePut t o bs)
        else .engaged
      | none => .outside
    | _ => .done (homeWrite s pa bs)

/-- Is a window offset in the register file of the writer's own slot, which discards its stores (06 R154)? -/
def ownFile (s : State) (uid core off : Nat) : Bool :=
  match regionOf off with | .regs k _ => s.slotStrand core k == some uid | _ => false

/-- A write at its home, whichever it is; a discarded one sets the writing strand's MSTAT bit (06 R153 to R155). -/
def landWrite (s : State) (ctx uid pa : Nat) (bs : List Byte) : State :=
  match homeOf s pa with
  | .window c off =>
    match windowWrite s ctx c off pa bs with
    | .done s' => if ownFile s uid c off then s.modStrand uid fun t => { t with engaged := true } else s'
    | .outside => s.modStrand uid fun t => { t with outside := true }
    | .engaged => s.modStrand uid fun t => { t with engaged := true }
  | .hole => s
  | _ => homeWrite s pa bs

/-- The word and the tag of a release at its home (08 R197): a discarded release writes neither (06 R153); a register
file carries no tag (08 R185). -/
def landRelease (s : State) (ctx uid pa v tag : Nat) : State :=
  match homeOf s pa with
  | .window c off =>
    match winCheck s ctx c off true, regionOf off with
    | none, .spad _ => releaseWrite s pa v tag
    | _, _ => landWrite s ctx uid pa (leBytes 8 v)
  | _ => releaseWrite s pa v tag

/-- Is a request of a core to an address, issued in step seq, behind a write that has not been performed (05 R140, 08
R192)? Writes of its own core to the sector count, and writes of its cluster to the same home that have passed the hub. -/
def behindWrite (s : State) (core pa seq : Nat) : Bool :=
  s.writes.any fun w =>
    decide (w.seq < seq) &&
      (w.core == core && w.pa / 64 == pa / 64 ||
        w.hub && coreCluster w.core == coreCluster core && homeId s w.pa == homeId s pa)

/-- Is a write behind a release of its own core to the same sector (08 R197)? -/
def behindRelease (s : State) (core pa seq : Nat) : Bool :=
  (s.core core).relq.any fun r => decide (r.seq < seq) && r.pa / 64 == pa / 64

end Sys2Proof.Machine
end

