-- ==== Sys2Proof/Machine/Compress.lean ====
section
/-! DEFINITION. The compression of messages between network interfaces, and malformed streams (22 R463 to R465). -/

namespace Sys2Proof.Machine
open Sys2Proof

/-- n bytes copied from distance d back, one at a time: a match may overlap what it produces (22 R463). -/
def copyBack (dict : List Byte) (d : Nat) : Nat → List Byte
  | 0 => dict
  | n + 1 => copyBack (dict ++ [dict.getD (dict.length - d) 0]) d n

/-- One token at the head of the input, with room bytes of its chunk left: the dictionary with what it produces, how many
bytes that is, and the rest of the input; none where the chunk is malformed (22 R463). -/
def token (dict : List Byte) (room : Nat) : List Byte → Option (List Byte × Nat × List Byte)
  | [] => none
  | b :: bs =>
    let n := b.toNat
    if n < 64 then
      if room < n + 1 ∨ bs.length < n + 1 then none else some (dict ++ bs.take (n + 1), n + 1, bs.drop (n + 1))
    else if n < 128 then
      if room < n - 63 then none else some (dict ++ List.replicate (n - 63) 0, n - 63, bs)
    else if n < 160 then
      let k := n - 124
      let w := leNat (bs.take 2)
      if bs.length < 2 ∨ 2 ^ 12 ≤ w ∨ dict.length < w + 1 ∨ room < k then none
      else some (copyBack dict (w + 1) k, k, bs.drop 2)
    else none

/-- A chunk: tokens up to its 64th byte, and used, the input bytes it has taken; under the watchdog no more than 96 of
them. The answer is the dictionary and the rest of the input, or the code of the breach (22 R463, R465). -/
def netChunk (guard : Bool) : Nat → List Byte → Nat → Nat → List Byte → Except Nat (List Byte × List Byte)
  | 0, _, _, _, _ => .error 3
  | fuel + 1, dict, room, used, bs =>
    if guard ∧ 96 < used then .error 1
    else if room = 0 then .ok (dict, bs)
    else
      match token dict room bs with
      | none => .error 3
      | some r => netChunk guard fuel r.1 (room - r.2.1) (used + bs.length - r.2.2.length) r.2.2

/-- A payload: chunks up to its end; the answer is the dictionary with every byte the payload decodes to. Under the watchdog
a chunk takes at most 72 cycles (22 R465; log entry 76). -/
def netChunks (guard : Bool) : Nat → List Byte → List Byte → Except Nat (List Byte)
  | _, dict, [] => .ok dict
  | 0, _, _ => .error 3
  | fuel + 1, dict, bs =>
    match netChunk guard 65 dict 64 0 bs with
    | .error c => .error c
    | .ok r =>
      if guard ∧ 72 < Config.decodeCycles (bs.take (bs.length - r.2.length)) then .error 2
      else netChunks guard fuel r.1 r.2

/-- GUARDED mode: during bring-up, and while secure firmware selects it (22 R465). -/
def State.guarded (s : State) : Bool := s.phase != 5 || s.guardSel

/-- Secure firmware selects GUARDED or SERVICE mode for test and recovery (22 R465; log entry 76). -/
def selectGuard (s : State) (on : Bool) : State := { s with guardSel := on }

/-- The dictionary of a pair and a virtual channel; the receiver is this package (22 R463). -/
def streamOf (m : Fabric) : Nat := 4 * m.src + m.vc % 4

/-- The payload of a message, and the state with its dictionary (22 R463, R464), or why it is cut off: 1 byte
limit, 2 cycle limit, 3 malformed. -/
def unpack (s : State) (m : Fabric) : State × Except Nat (List Byte) :=
  let old := if m.drst then [] else tget [] s.dicts (streamOf m)
  let keep (d : List Byte) : State :=
    { s with dicts := tput s.dicts (streamOf m) (d.drop (d.length - 4096)), cutOff := s.cutOff.filter fun n => n != (streamOf m) }
  if m.raw then (keep old, .ok m.bytes)
  else
    match netChunks s.guarded m.bytes.length old m.bytes with
    | .error c => (keep old, .error c)
    | .ok d => (keep d, .ok (d.drop old.length))

/-- A context that is halted for a malformed stream: its kernels end ABORTED, and its messages in flight are gone: its writes and releases,
port values and credits, scope misses, copies, gathers and collectives, and what its strands had outstanding (22 R465). -/
def haltCtx (s : State) (c : Nat) : State :=
  let ks := (s.kernels.filter fun k => k.2.ctx == c && (k.2.st == .admitted || k.2.st == .running || k.2.st == .closing)).map (·.1)
  let mine (u : Nat) : Bool := (s.strand u).ctx == c
  let s' := (s.copies.filter fun x => x.ctx == c).foldl (fun s x => clearLines s x.lines) s
  let s' := (s.gathers.filter fun x => x.ctx == c).foldl (fun s x => clearLines s x.lines) s'
  let s' := { s' with writes := s.writes.filter fun w => w.ctx != c
                      pushes := s.pushes.filter fun p => !mine p.src
                      credits := s.credits.filter fun p => !mine p.1
                      copies := s.copies.filter fun x => x.ctx != c
                      gathers := s.gathers.filter fun x => x.ctx != c
                      colls := s.colls.filter fun x => x.ctx != c
                      cores := s'.cores.map fun (k : Nat × CoreSt) =>
                        (k.1, { k.2 with relq := k.2.relq.filter fun r => r.ctx != c, misses := k.2.misses.filter fun m => m.ctx != c })
                      strands := s'.strands.map fun (t : Nat × Strand) => (t.1, if t.2.ctx = c then { t.2 with ops := [] } else t.2) }
  report (ks.foldl (fun s k => abortKernel s k 30 0xFFFFFFFF) s') 7 c 33 0xFF 0xFFFF 0

/-- A malformed chunk, or a breach of the watchdog, discards its message: in SERVICE mode its context is halted; in GUARDED
mode the sender's stream is cut off, the dictionary is reset and the event is logged with its code (22 R465). -/
def malformed (s : State) (m : Fabric) (code : Nat) : State :=
  if s.guarded then
    { s with dicts := tput s.dicts (streamOf m) [], cutOff := (streamOf m) :: s.cutOff
             guardLog := s.guardLog ++ [leBytes 2 m.src ++ leBytes 2 (cfgLE s 8 2) ++ leBytes 1 m.vc ++ leBytes 1 code ++ leBytes 10 0] }
  else haltCtx s m.ctx

end Sys2Proof.Machine
end

