-- ==== Sys2Proof/Machine/MemIns.lean ====
section
/-! DEFINITION. Loads, stores and atomics (05 R133 to R143). -/

namespace Sys2Proof.Machine
open Sys2Proof

/-- A displacement, scaled by the access size (02 R53). -/
def dispOf (d : BitVec 6) (n : Nat) : Word := immW d * w64 n

/-- The effective address (05 R133). -/
def eaOf (t : Strand) (base : Reg) (d : Word) : Nat := (t.reg base + d).toNat

/-- The register after rd of a pair (02 R48). -/
def pairReg (rd : Reg) : Reg := rd + 1

/-- The value that n loaded bytes give (05 R137). -/
def loadVal (bs : List Byte) (n : Nat) (sx : Bool) : Word :=
  if sx then BitVec.ofInt 64 (sgn (8 * n) (leNat bs)) else w64 (leNat bs)

/-- The words that a load writes, without that of s0 (05 R133, R137). -/
def loadRes (bs : List Byte) (n : Nat) (sx pair : Bool) (ndest : Nat) : List Word :=
  if pair then [w64 (leNat (bs.take 8)), w64 (leNat (bs.drop 8))].drop (2 - ndest) else [loadVal bs n sx]

/-- A pending-class access that an instruction sends, unless 32 operations are outstanding (04 R101). -/
def Exe.trySend (x : Exe) (s : State) (kind : OpKind) (path : Path) (dests : List Loc) : Eff :=
  if 32 ≤ x.t.outstanding then .wait x.s else .ok (s.setStrand x.u (x.t.send kind path x.pc x.len s.steps dests))

/-- A load of n bytes at va (05 R134 to R138). Both words of a pair of the strand's own local window are read in one step (log entry 110),
which waits while a displaced strand's logical core is pre-empted (20 R439). -/
def loadEff (x : Exe) (va n : Nat) (sx pair : Bool) (ds : List Loc) : Eff :=
  if va % n ≠ 0 then .trap { code := 6, addr := va, acc := 1 }
  else
    match localOff x.s x.t.ctx va with
    | none => x.trySend x.s (.load va n sx pair) .s ds
    | some _ =>
      match (siteOf x.s x.t va n .read).2 with
      | .error c => .trap c
      | .ok w =>
        if localBehind x.s x.u va n w.pa || x.s.off x.t.lcore x.t.ctx then .wait x.s else
        match localRead x.s w va n with
        | .error c => .trapIn (logBad x.s w.pa) c
        | .ok bs =>
          match watchHit x.s x.t.ctx x.skip va n .read false with
          | some k => .trap { code := 12, sub := k, addr := va, acc := 1 }
          | none =>
            x.upd (watchStop x.s x.t.ctx x.skip va n .read (x.t.writeDests ds (loadRes bs n sx pair ds.length)))

def loadOp (h : Hdr) (len : Nat) (rd base : Reg) (d : Word) (n : Nat) (sx pair : Bool) : State → Outcome :=
  issue h { len := len, refs := .r base :: .r rd :: (if pair then [.r (pairReg rd)] else []) } fun x =>
    loadEff x (eaOf x.t base d) n sx pair (x.t.dest rd ++ (if pair then x.t.dest (pairReg rd) else []))

/-- A store of the low n bytes of rd (05 R133, R134, R136). -/
def storeOp (h : Hdr) (len : Nat) (rd base : Reg) (d : Word) (n : Nat) : State → Outcome :=
  issue h { len := len, refs := [.r base, .r rd] } fun x =>
    let va := eaOf x.t base d
    if va % n ≠ 0 then .trap { code := 6, addr := va, acc := 2 }
    else storeEff x va [leBytes n (x.t.reg rd).toNat] id

/-- STP: two 8-byte atoms (05 R138). -/
def storePair (h : Hdr) (len : Nat) (rd base : Reg) (d : Word) : State → Outcome :=
  issue h { len := len, refs := [.r base, .r rd, .r (pairReg rd)] } fun x =>
    let va := eaOf x.t base d
    if va % 16 ≠ 0 then .trap { code := 6, addr := va, acc := 2 }
    else storeEff x va [leBytes 8 (x.t.reg rd).toNat, leBytes 8 (x.t.reg (pairReg rd)).toNat] id

/-- The gap of the local window raises its cause precisely, whatever the access (05 R135). -/
def gapOf (s : State) (t : Strand) (va n : Nat) (acc : Acc) : Option Cause :=
  match localOff s t.ctx va with
  | some o => if spadSize s t.lcore t.ctx < o + n then some { code := 7, sub := 3, addr := va, acc := acc.code } else none
  | none => none

/-- At the issue of an atomic the core's line over its word ends (05 R139) and the touched masks record it (06 R158);
an access that does not translate touches nothing. -/
def atomicIssue (s : State) (t : Strand) (va n : Nat) : State :=
  let s := s.modCore t.pcore fun k => { k with rbuf := k.rbuf.filter fun l => !(l.ctx == t.ctx && l.va == va / 64 * 64) }
  let r := siteOf s t va n .both
  match r.2 with
  | .error _ => r.1
  | .ok w => if w.loc then r.1 else touch r.1 t.pcore w.pa

/-- The new value that an atomic writes, or none where it writes nothing (05 R142); n is its width in bytes. -/
def atomicNew (o : AOp) (n old b e : Nat) : Option Nat :=
  let m := 2 ^ (8 * n)
  match o with
  | .add => some ((old + b) % m)
  | .and => some (Nat.land old b)
  | .or => some (Nat.lor old b)
  | .xor => some (Nat.xor old b)
  | .min => some (if sgn (8 * n) b < sgn (8 * n) old then b else old)
  | .max => some (if sgn (8 * n) old < sgn (8 * n) b then b else old)
  | .xchg => some b
  | .cas => if old = e then some b else none

def atomicOp (h : Hdr) (o : AOp) (n : Nat) (rd ra rb : Reg) : State → Outcome :=
  issue h { len := lenShort, pendingClass := true, refs := [.r ra, .r rb, .r rd] } fun x =>
    let va := (x.t.reg ra).toNat
    let m := 2 ^ (8 * n)
    if va % n ≠ 0 then .trap { code := 6, addr := va, acc := 3 }
    else
      match gapOf x.s x.t va n .both with
      | some c => .trap c
      | none =>
        .ok ((atomicIssue x.s x.t va n).setStrand x.u
          (x.t.send (.atomic o va n ((x.t.reg rb).toNat % m) ((x.t.reg rd).toNat % m)) .s x.pc x.len x.s.steps (x.t.dest rd)))

/-- AGADD (05 R143). -/
def execAgadd (h : Hdr) (rd ra rb : Reg) : State → Outcome :=
  issue h { len := lenShort, pendingClass := true, refs := [.r ra, .r rb, .r rd] } fun x =>
    let va := (x.t.reg ra).toNat
    if va % 16 ≠ 0 then .trap { code := 6, addr := va, acc := 3 }
    else
      match gapOf x.s x.t va 16 .both with
      | some c => .trap c
      | none =>
        .ok ((atomicIssue x.s x.t va 16).setStrand x.u
          (x.t.send (.agadd va (x.t.reg rb).toNat ((x.t.reg rd).toNat % 4)) .s x.pc x.len x.s.steps (x.t.dest rd)))

def execLdB (h : Hdr) (rd base : Reg) (disp : BitVec 6) : State → Outcome :=
  loadOp h lenShort rd base (dispOf disp 1) 1 true false
def execLdBLit (h : Hdr) (rd base : Reg) (lit : Word) : State → Outcome := loadOp h lenLit rd base lit 1 true false
def execLdBu (h : Hdr) (rd base : Reg) (disp : BitVec 6) : State → Outcome :=
  loadOp h lenShort rd base (dispOf disp 1) 1 false false
def execLdBuLit (h : Hdr) (rd base : Reg) (lit : Word) : State → Outcome := loadOp h lenLit rd base lit 1 false false
def execLdH (h : Hdr) (rd base : Reg) (disp : BitVec 6) : State → Outcome :=
  loadOp h lenShort rd base (dispOf disp 2) 2 true false
def execLdHLit (h : Hdr) (rd base : Reg) (lit : Word) : State → Outcome := loadOp h lenLit rd base lit 2 true false
def execLdHu (h : Hdr) (rd base : Reg) (disp : BitVec 6) : State → Outcome :=
  loadOp h lenShort rd base (dispOf disp 2) 2 false false
def execLdHuLit (h : Hdr) (rd base : Reg) (lit : Word) : State → Outcome := loadOp h lenLit rd base lit 2 false false
def execLdW (h : Hdr) (rd base : Reg) (disp : BitVec 6) : State → Outcome :=
  loadOp h lenShort rd base (dispOf disp 4) 4 true false
def execLdWLit (h : Hdr) (rd base : Reg) (lit : Word) : State → Outcome := loadOp h lenLit rd base lit 4 true false
def execLdWu (h : Hdr) (rd base : Reg) (disp : BitVec 6) : State → Outcome :=
  loadOp h lenShort rd base (dispOf disp 4) 4 false false
def execLdWuLit (h : Hdr) (rd base : Reg) (lit : Word) : State → Outcome := loadOp h lenLit rd base lit 4 false false
def execLdD (h : Hdr) (rd base : Reg) (disp : BitVec 6) : State → Outcome :=
  loadOp h lenShort rd base (dispOf disp 8) 8 true false
def execLdDLit (h : Hdr) (rd base : Reg) (lit : Word) : State → Outcome := loadOp h lenLit rd base lit 8 true false
def execLdp (h : Hdr) (rd base : Reg) (disp : BitVec 6) : State → Outcome :=
  loadOp h lenShort rd base (dispOf disp 16) 16 false true
def execLdpLit (h : Hdr) (rd base : Reg) (lit : Word) : State → Outcome := loadOp h lenLit rd base lit 16 false true
def execStB (h : Hdr) (rd base : Reg) (disp : BitVec 6) : State → Outcome :=
  storeOp h lenShort rd base (dispOf disp 1) 1
def execStBLit (h : Hdr) (rd base : Reg) (lit : Word) : State → Outcome := storeOp h lenLit rd base lit 1
def execStH (h : Hdr) (rd base : Reg) (disp : BitVec 6) : State → Outcome :=
  storeOp h lenShort rd base (dispOf disp 2) 2
def execStHLit (h : Hdr) (rd base : Reg) (lit : Word) : State → Outcome := storeOp h lenLit rd base lit 2
def execStW (h : Hdr) (rd base : Reg) (disp : BitVec 6) : State → Outcome :=
  storeOp h lenShort rd base (dispOf disp 4) 4
def execStWLit (h : Hdr) (rd base : Reg) (lit : Word) : State → Outcome := storeOp h lenLit rd base lit 4
def execStD (h : Hdr) (rd base : Reg) (disp : BitVec 6) : State → Outcome :=
  storeOp h lenShort rd base (dispOf disp 8) 8
def execStDLit (h : Hdr) (rd base : Reg) (lit : Word) : State → Outcome := storeOp h lenLit rd base lit 8
def execStp (h : Hdr) (rd base : Reg) (disp : BitVec 6) : State → Outcome := storePair h lenShort rd base (dispOf disp 16)
def execStpLit (h : Hdr) (rd base : Reg) (lit : Word) : State → Outcome := storePair h lenLit rd base lit

def execAaddD (h : Hdr) (rd ra rb : Reg) : State → Outcome := atomicOp h .add 8 rd ra rb
def execAaddW (h : Hdr) (rd ra rb : Reg) : State → Outcome := atomicOp h .add 4 rd ra rb
def execAandD (h : Hdr) (rd ra rb : Reg) : State → Outcome := atomicOp h .and 8 rd ra rb
def execAandW (h : Hdr) (rd ra rb : Reg) : State → Outcome := atomicOp h .and 4 rd ra rb
def execAorD (h : Hdr) (rd ra rb : Reg) : State → Outcome := atomicOp h .or 8 rd ra rb
def execAorW (h : Hdr) (rd ra rb : Reg) : State → Outcome := atomicOp h .or 4 rd ra rb
def execAxorD (h : Hdr) (rd ra rb : Reg) : State → Outcome := atomicOp h .xor 8 rd ra rb
def execAxorW (h : Hdr) (rd ra rb : Reg) : State → Outcome := atomicOp h .xor 4 rd ra rb
def execAminD (h : Hdr) (rd ra rb : Reg) : State → Outcome := atomicOp h .min 8 rd ra rb
def execAminW (h : Hdr) (rd ra rb : Reg) : State → Outcome := atomicOp h .min 4 rd ra rb
def execAmaxD (h : Hdr) (rd ra rb : Reg) : State → Outcome := atomicOp h .max 8 rd ra rb
def execAmaxW (h : Hdr) (rd ra rb : Reg) : State → Outcome := atomicOp h .max 4 rd ra rb
def execAxchgD (h : Hdr) (rd ra rb : Reg) : State → Outcome := atomicOp h .xchg 8 rd ra rb
def execAxchgW (h : Hdr) (rd ra rb : Reg) : State → Outcome := atomicOp h .xchg 4 rd ra rb
def execAcasD (h : Hdr) (rd ra rb : Reg) : State → Outcome := atomicOp h .cas 8 rd ra rb
def execAcasW (h : Hdr) (rd ra rb : Reg) : State → Outcome := atomicOp h .cas 4 rd ra rb

end Sys2Proof.Machine
end

