-- ==== Sys2Proof/Machine/Order.lean ====
section
/-! DEFINITION. Bindings, acquires, releases and fences (08 R184 to R202). -/

namespace Sys2Proof.Machine
open Sys2Proof

/-- Cores that run strands of a context: those that hold a partition of it, and those to which one of its strands has been displaced (08
R188). -/
def ctxCores (s : State) (ctx : Nat) : List Nat :=
  (((s.parts.filter fun p => p.2.ctx == ctx && p.2.st != .none).map fun p => p.2.core) ++
    (s.strands.filter fun t => t.2.ctx == ctx && t.2.st != .ended).map fun t => t.2.pcore).eraseDups

/-- A change of a context's bindings by a core: its own copy at once, the others by messages (08 R188). -/
def bindChange (s : State) (core ctx i : Nat) (b : Option Binding) : State :=
  let set (m : Table Binding) : Table Binding := match b with | some v => tput m i v | none => tdel m i
  let s := s.modCtx ctx fun x => { x with binds := set x.binds }
  let others := (ctxCores s ctx).filter (· != core)
  s.modCore core fun k =>
    { k with binds := tput k.binds ctx (set (tget [] k.binds ctx))
             bindOwed := if others.isEmpty then k.bindOwed else k.bindOwed ++ [⟨ctx, i, b, others, s.steps⟩] }

/-- BIND (08 R187). -/
def execBind (h : Hdr) (rd ra rb : Reg) : State → Outcome :=
  issue h { len := lenShort, refs := [.r rd, .r ra, .r rb] } fun x =>
    let len := (x.t.reg rd).toNat
    let word := (x.t.reg ra).toNat
    let base := (x.t.reg rb).toNat
    let tab := tget [] (x.s.core x.t.pcore).binds x.t.ctx
    if word % 8 ≠ 0 then .trap { code := 6, addr := word }
    else if len = 0 ∨ 2 ^ 56 < base + len then x.upd (x.t.setReg rd (w64 (2 ^ 64 - 2)))
    else
      match tab.find? fun b => b.2 == ⟨word, base, len⟩ with
      | some b => x.upd (x.t.setReg rd (w64 b.1))
      | none =>
        match firstFrom 64 0 fun i => (tget? tab i).isNone with
        | none => x.upd (x.t.setReg rd (w64 (2 ^ 64 - 1)))
        | some i =>
          .ok ((bindChange x.s x.t.pcore x.t.ctx i (some ⟨word, base, len⟩)).setStrand x.u (x.t.setReg rd (w64 i)))

/-- UNBIND (08 R187). -/
def execUnbind (h : Hdr) (rd : Reg) : State → Outcome :=
  issue h { len := lenShort, refs := [.r rd] } fun x =>
    let i := (x.t.reg rd).toNat
    if i < 64 ∧ (tget? (tget [] (x.s.core x.t.pcore).binds x.t.ctx) i).isSome = true then
      .ok ((bindChange x.s x.t.pcore x.t.ctx i none).setStrand x.u (x.t.setReg rd 0))
    else x.upd (x.t.setReg rd (w64 (2 ^ 64 - 1)))

/-- Checks of an acquire or a release at issue: ALIGN (08 R184) and the local window's gap (05 R135). -/
def syncCheck (x : Exe) (va : Nat) (acc : Acc) : Option Cause :=
  if va % 8 ≠ 0 then some { code := 6, addr := va, acc := acc.code } else gapOf x.s x.t va 8 acc

/-- Destinations of an acquire: its register and c15 (08 R195). -/
def acqDests (t : Strand) (rd : Reg) : List Loc := t.dest rd ++ [.pred 15]

/-- ACQ (08 R196): performed at its home later. -/
def execAcq (h : Hdr) (rd ra : Reg) (scope : Scope) : State → Outcome :=
  issue h { len := lenShort, pendingClass := true, refs := [.r ra, .r rd, .l (.pred 15)] } fun x =>
    let va := (x.t.reg ra).toNat
    match syncCheck x va .read with
    | some c => .trap c
    | none =>
      x.upd (x.t.sendBound (.acq va scope) x.pc x.len x.s.steps (acqDests x.t rd) (parcelsOf x.s x.t.pcore x.t.ctx va))

/-- WAITW (08 R199). -/
def execWaitw (h : Hdr) (rd ra : Reg) (scope : Scope) : State → Outcome :=
  issue h { len := lenShort, pendingClass := true, refs := [.r ra, .r rd, .l (.pred 15)] } fun x =>
    let va := (x.t.reg ra).toNat
    match syncCheck x va .read with
    | some c => .trap c
    | none =>
      x.upd (x.t.sendBound (.waitw va (x.t.reg rd).toNat scope) x.pc x.len x.s.steps (acqDests x.t rd)
        (parcelsOf x.s x.t.pcore x.t.ctx va))

/-- Sync words lie in first tier or in a window (08 R184). -/
def syncHome (s : State) (pa : Nat) : Bool := match homeOf s pa with | .first => true | .window _ _ => true | _ => false

/-- REL (08 R197): translated precisely as a store, then queued; a full queue wastes the turn. -/
def execRel (h : Hdr) (rd ra : Reg) (scope : Scope) : State → Outcome :=
  issue h { len := lenShort, refs := [.r ra, .r rd] } fun x =>
    let va := (x.t.reg ra).toNat
    match syncCheck x va .write with
    | some c => .trap c
    | none =>
      let r := siteOf x.s x.t va 8 .write
      match r.2 with
      | .error c => .trap (permFirst r.1 x.t va .write (fun pa => !syncHome r.1 pa) c)
      | .ok w =>
        if !syncHome r.1 w.pa then .trap { code := 8, addr := va, acc := 2 }
        else if 8 ≤ (r.1.core x.t.pcore).relq.length then .wait r.1
        else
          match watchHit r.1 x.t.ctx x.skip va 8 .write false with
          | some k => .trap { code := 12, sub := k, addr := va, acc := 2 }
          | none =>
            .ok ((r.1.modCore x.t.pcore fun k =>
              { k with relq := k.relq ++ [⟨x.u, x.t.ctx, va, w.pa, scope, .rel (x.t.reg rd).toNat, x.s.steps, w.wb, x.t.sup,
                  stopHit r.1 x.t.ctx x.skip va 8 .write⟩] }).setStrand x.u x.t)

/-- An operation that goes through the release queue of its core (08 R198, 19 R427, R428). -/
def queueRelease (x : Exe) (va : Nat) (sc : Scope) (kind : OpKind) (rk : Nat → RelKind) (ds : List Loc)
    (ps : List (Nat × Nat)) : Eff :=
  if 8 ≤ (x.s.core x.t.pcore).relq.length then .wait x.s
  else
    .ok ((x.s.modCore x.t.pcore fun k =>
      { k with relq := k.relq ++ [⟨x.u, x.t.ctx, va, 0, sc, rk x.t.nextOp, x.s.steps, false, x.t.sup, false⟩] }).setStrand x.u
        (x.t.sendBound kind x.pc x.len x.s.steps ds ps))

/-- ACQREL (08 R198). -/
def execAcqrel (h : Hdr) (rd ra : Reg) (scope : Scope) : State → Outcome :=
  issue h { len := lenShort, pendingClass := true, refs := [.r ra, .r rd, .l (.pred 15)] } fun x =>
    let va := (x.t.reg ra).toNat
    match syncCheck x va .both with
    | some c => .trap c
    | none =>
      queueRelease x va scope (.acqrel va (x.t.reg rd).toNat scope) .acqrel (acqDests x.t rd)
        (parcelsOf x.s x.t.pcore x.t.ctx va)

/-- Path bits of FENCE (02 R50). -/
def Path.bit : Path → Nat
  | .s => 6 | .v => 5 | .k => 4 | .x => 3 | .g => 2 | .n => 1 | .p => 0 | .w => 7

/-- Has everything that the strand issued on a path returned and been performed at its homes (08 R202)? A write that a full spill queue
has refused has not (08 R204). -/
def pathQuiet (s : State) (u : Nat) (p : Path) : Bool :=
  let t := s.strand u
  let repIdle := match t.rep with | none => true | some r => r.stopped
  !(t.ops.any fun o => o.path == p && (o.phase == .sent || o.phase == .done)) &&
  !(s.ctxs.any fun x => x.2.refused.any fun e => match e.2 with | .write w => w.uid == u && w.path == p | _ => false) &&
  (match p with
  | .s => !(s.writes.any fun w => w.uid == u) && !((s.core t.pcore).relq.any fun r => r.uid == u)
  | .v => t.vq.isEmpty && repIdle
  | .k => repIdle && !(s.parts.any fun q => (q.2.eq ++ q.2.streams).any fun e => e.uid == u && e.heldAt == 0)
  | .x => !(s.copies.any fun c => c.uid == u)
  | .g => !(s.gathers.any fun g => g.uid == u)
  | .n => repIdle && !(s.colls.any fun c => c.members.any fun m => m.uid == u)
  | .w => true
  | .p => !(s.pushes.any fun m => m.src == u))

/-- FENCE (08 R202): while its waits run the strand's turns are wasted. -/
def execFence (h : Hdr) (paths : BitVec 7) (scope : Scope) : State → Outcome :=
  issue h { len := lenShort } fun x =>
    let named (p : Path) : Bool := paths.getLsbD p.bit
    let sk := named .s || named .k
    if !([Path.s, .v, .k, .x, .g, .n, .p].all fun p => !named p || pathQuiet x.s x.u p) then .wait x.s
    else if sk && !releaseWorkDone x.s x.t.pcore scope then .wait x.s
    else if sk && decide (3 ≤ scope.code) then
      .ok ((passHub x.s x.t.pcore).modCore x.t.pcore fun k =>
        { k with touchS := k.touchS - Nat.land k.touchS k.echoS, touchP := k.touchP - Nat.land k.touchP k.echoP,
                 echoS := 0, echoP := 0 })
    else .ok (if sk && decide (2 ≤ scope.code) then passHub x.s x.t.pcore else x.s)

end Sys2Proof.Machine
end

