-- ==== Sys2Proof/Machine/MemEvents.lean ====
section
/-! DEFINITION. What happens to path S operations at their homes: reads, atomics, acquires, releases, watches, access
counts, scope misses and probes (05 R139 to R145, 06 R159, 07 R174 to R181, 08 R188 to R199, 19 R427, R428). -/

namespace Sys2Proof.Machine
open Sys2Proof

/-- What an operation that reaches for its home finds. -/
inductive Att where
  | wait | fault (c : Cause) | go (w : Site)

/-- Operations that act on sync words (08 R184, 19 R427). -/
def OpKind.sync : OpKind → Bool
  | .acq _ _ | .acqrel _ _ _ | .waitw _ _ _ | .ksig _ _ => true
  | _ => false

/-- Is this operation already in a spill queue (20 R439)? -/
def spilled (s : State) (u id : Nat) : Bool :=
  s.ctxs.any fun x => (x.2.spill ++ x.2.refused).any fun e => match e.2 with | .mem a b => a == u && b == id | _ => false

/-- Does a valid line of the strand's core hold the bytes that an operation loads (05 R139)? -/
def lineHit (s : State) (t : Strand) (o : Op) (va : Nat) : Bool :=
  o.kind.buffered && (localOff s t.ctx va).isNone && (s.core t.pcore).rbuf.any fun l => l.ctx == t.ctx && l.va == va / 64 * 64

/-- An operation of path S on n bytes at va, before it is performed: its place in the strand's order (05 R140), its
translation (05 R136, R142), the range it may act on, write-block (07 R181), the order at the home (08 R192), and the
state of the core that owns a window (20 R439); a load that a valid line serves reaches no home (05 R139). It is translated at the privilege
of its issue (23 R479). force is set at redelivery. -/
def attempt (s : State) (u : Nat) (o : Op) (va n : Nat) (acc : Acc) (force : Bool) : State × Att :=
  let t := { s.strand u with sup := o.sup }
  if earlierOp s u va n o.seq then (s, .wait) else
  let r := siteOf s t va n acc
  match r.2 with
  | .error c => (r.1, .fault (permFirst r.1 t va acc (fun pa => acc == .both && homeOf r.1 pa == .host || o.kind.sync && !syncHome r.1 pa) c))
  | .ok w =>
    if treeBehind r.1 u w.pa n o.seq then (r.1, .wait)
    else if w.loc then
      if behindWrite r.1 t.pcore w.pa o.seq || behindRelease r.1 t.pcore w.pa o.seq || behindAtomic r.1 t.pcore w.pa o.seq then (r.1, .wait)
      else if r.1.off t.lcore t.ctx then (if spilled r.1 u o.id then r.1 else divert r.1 t.ctx t.lcore (.mem u o.id), .wait)
      else (r.1, .go w)
    else if acc == .both && homeOf r.1 w.pa == .host || o.kind.sync && !syncHome r.1 w.pa then
      (r.1, .fault { code := 8, addr := va, acc := acc.code })
    else if acc == .both && w.wb then (r.1, .wait)
    else if lineHit r.1 t o va then (r.1, if behindRelease r.1 t.pcore w.pa o.seq then .wait else .go w)
    else if behindWrite r.1 t.pcore w.pa o.seq || behindRelease r.1 t.pcore w.pa o.seq ||
        behindAtomic r.1 t.pcore w.pa o.seq then (r.1, .wait)
    else
      match reachPA r.1 t.ctx w.pa, windowCore r.1 w.pa with
      | .divert, some c => (if spilled r.1 u o.id then r.1 else divert r.1 t.ctx c (.mem u o.id), .wait)
      | .wait, c => (r.1, if force && c.isSome then .go w else .wait)
      | _, _ => (r.1, .go w)

/-- A cause that a home raises. -/
def homeCause (k va : Nat) (acc : Acc) : Cause :=
  { code := k, sub := if k = 7 then 2 else 0, addr := va, acc := acc.code }

/-- A watchpoint's match at a home; one is suppressed for the replay after its report (23 R483). -/
def opWatch (s : State) (t : Strand) (o : Op) (va n : Nat) (acc : Acc) : Option Nat :=
  watchHit s t.ctx (if o.prog = 0 then none else some (o.prog - 1)) va n acc false

/-- The mark of a watchpoint that stops after the access (25 R502). -/
def markStop (s : State) (u : Nat) (o : Op) (va n : Nat) (acc : Acc) : State :=
  let t := s.strand u
  s.setStrand u (watchStop s t.ctx (if o.prog = 0 then none else some (o.prog - 1)) va n acc t)

/-- A line that has just been used or filled; a set holds 16 lines and drops the one used longest ago (05 R139). -/
def rbufTouch (k : CoreSt) (l : RBLine) : CoreSt :=
  let rest := k.rbuf.filter fun x => !(x.ctx == l.ctx && x.va == l.va)
  let set (x : RBLine) : Nat := Config.rbSet x.va % 64
  let same := rest.filter fun x => set x == set l
  let rest := if same.length < 16 then rest else
    match same.getLast? with | some v => rest.filter fun x => x != v | none => rest
  { k with rbuf := l :: rest }

/-- Would a line filled now go stale behind its own core (05 R139, R140): has the core a write on its way to the sector, or an
atomic issued to an address in the line and not performed (log entry 17)? -/
def fillUnsafe (s : State) (core ctx va pa : Nat) : Bool :=
  (s.writes.any fun w => w.core == core && w.pa / 64 == pa / 64) ||
  s.strands.any fun t => t.2.pcore == core && t.2.ctx == ctx && t.2.ops.any fun o =>
    o.phase == .sent && (match o.kind with
      | .atomic _ a _ _ _ | .agadd a _ _ => a / 64 == va / 64
      | _ => false)

/-- A read at a home; one that meets an uncorrectable or poisoned word is logged there (06 R159). -/
def readLogged (s : State) (ctx pa n : Nat) (loc : Bool) : State × Except Nat (List Byte) :=
  match (if loc then (if isPoisoned s pa n then .error 10 else .ok (readBytes s pa n)) else homeRead s ctx pa n) with
  | .ok bs => (s, .ok bs)
  | .error k => (if k = 10 then logBad s pa else s, .error k)

/-- A read of n bytes within one sector by an operation (05 R136, R139): the own scratchpad and windows directly, everything
else through the read buffer, which a core that is pre-empted does not fill. -/
def readSite (s : State) (u : Nat) (o : Op) (va n : Nat) (w : Site) : State × Except Nat (List Byte) :=
  let t := s.strand u
  if w.loc then readLogged s t.ctx w.pa n true
  else
    match homeOf s w.pa with
    | .window _ _ => readLogged (noteAccess s t va w.pa n) t.ctx w.pa n false
    | _ =>
      match (s.core t.pcore).rbuf.find? fun l => l.ctx == t.ctx && l.va == va / 64 * 64 with
      | some l =>
        let bs := match l.early.find? fun e => e.1 == (u, o.id) with | some e => e.2 | none => l.bytes
        (s.modCore t.pcore fun k => rbufTouch k l, .ok ((bs.drop (va % 64)).take n))
      | none =>
        let r := readLogged s t.ctx (w.pa / 64 * 64) 64 false
        match r.2 with
        | .error k => (r.1, .error k)
        | .ok bs =>
          ((noteAccess s t va w.pa n).modCore t.pcore fun k =>
              if fillUnsafe s t.pcore t.ctx va w.pa || s.off t.pcore t.ctx then k else rbufTouch k ⟨t.ctx, va / 64 * 64, bs, []⟩,
            .ok ((bs.drop (va % 64)).take n))

/-- Read n bytes at va for an operation: bytes, or none to wait, or a cause. -/
def readFor (s : State) (u : Nat) (o : Op) (va n : Nat) (force : Bool) : State × Except (Option Cause) (List Byte) :=
  let a := attempt s u o va n .read force
  match a.2 with
  | .wait => (a.1, .error none)
  | .fault c => (a.1, .error (some c))
  | .go w =>
    let r := readSite a.1 u o va n w
    match r.2 with
    | .error k => (r.1, .error (some (homeCause k va .read)))
    | .ok bs =>
      match opWatch r.1 (r.1.strand u) o va n .read with
      | some k => (r.1, .error (some { code := 12, sub := k, addr := va, acc := 1 }))
      | none => (markStop r.1 u o va n .read, .ok bs)

/-- An operation that has read one more of its words, and is not done (05 R138). -/
def gotWord (s : State) (u : Nat) (o : Op) (w : Word) : State := s.setOp u { o with got := o.got ++ [w] }

/-- The words that a WFILL reads (04 R108). -/
def fillFor (s : State) (u : Nat) (o : Op) (force : Bool) : List Nat → State × Except (Option Cause) (List Word)
  | [] => (s, .ok [])
  | va :: vas =>
    let r := readFor s u o va 8 force
    match r.2 with
    | .error c => (r.1, .error c)
    | .ok bs =>
      let q := fillFor r.1 u o force vas
      (q.1, match q.2 with | .ok ws => .ok (w64 (leNat bs) :: ws) | .error c => .error c)

/-- The touched masks record an atomic that did not translate when it issued (06 R158): one they hold already stays as it is. -/
def touchNew (s : State) (core : Nat) (w : Site) : State :=
  let k := s.core core
  let held := match homeOf s w.pa with
    | .first => bit k.touchS (fld w.pa 12 6)
    | .port i _ => bit k.touchP i
    | .host => bit k.touchP 8
    | _ => true
  if w.loc || held then s else touch s core w.pa

/-- A read and write of one word for an operation: the old bytes, when it may be performed (05 R142). -/
def bothFor (s : State) (u : Nat) (o : Op) (va n : Nat) (force : Bool) : State × Except (Option Cause) (Site × List Byte) :=
  let a := attempt s u o va n .both force
  match a.2 with
  | .wait => (a.1, .error none)
  | .fault c => (a.1, .error (some c))
  | .go w =>
    let t := a.1.strand u
    let ro := match homeOf a.1 w.pa with | .window c off => winCheck a.1 t.ctx c off true | _ => none
    let old := readLogged a.1 t.ctx w.pa n w.loc
    match (if w.loc then none else ro), old.2 with
    | some k, _ => (a.1, .error (some (homeCause k va .both)))
    | none, .error k => (old.1, .error (some (homeCause k va .both)))
    | none, .ok bs =>
      match opWatch a.1 t o va n .both with
      | some k => (a.1, .error (some { code := 12, sub := k, addr := va, acc := 3 }))
      | none => (touchNew (noteAccess (markStop a.1 u o va n .both) t va w.pa n) t.pcore w, .ok (w, bs))

/-- The end of an attempt that did not perform: wait, or hold the fault for the close (05 R144). -/
def settle (s : State) (u : Nat) (o : Op) : Option Cause → State
  | none => s
  | some c => opFault s u o c

/-- Does an address lie in the barriers of a window? -/
def inBarriers (s : State) (pa : Nat) : Bool :=
  match homeOf s pa with
  | .window _ off => (match regionOf off with | .barrier _ _ => true | _ => false)
  | _ => false

/-- Watches that a home has in use, of at most 64 (08 R199); those of a barrier unit are its own (18 R398). -/
def watchesAt (s : State) (pa : Nat) : Nat :=
  (s.watches.filter fun w => w.placed && homeId s w.pa == homeId s pa && !inBarriers s w.pa).length

/-- Words that change by writes, and not by a unit or a strand of their core, can be watched; the others are polled. -/
def watchable (s : State) (pa : Nat) : Bool :=
  match homeOf s pa with
  | .window _ off => (match regionOf off with | .spad _ => true | _ => false)
  | _ => true

/-- Perform an operation of path S at its home. -/
def performMem (s : State) (u : Nat) (o : Op) (force : Bool) : State :=
  match o.kind with
  | .load va n sx pair =>
    if pair then
      let r := readFor s u o (va + 8 * o.got.length) 8 force
      match r.2 with
      | .error c => settle r.1 u { o with got := if c.isSome then [] else o.got } c
      | .ok bs =>
        match o.got with
        | [] => gotWord r.1 u o (w64 (leNat bs))
        | w :: _ => opDone r.1 u { o with got := [] } ([w, w64 (leNat bs)].drop (2 - o.dests.length))
    else
      let r := readFor s u o va n force
      match r.2 with
      | .error c => settle r.1 u o c
      | .ok bs => opDone r.1 u o (loadRes bs n sx pair o.dests.length)
  | .plnew q base va =>
    let r := readFor s u o va 64 force
    match r.2 with
    | .error c => settle r.1 u o c
    | .ok bs =>
      let t := r.1.strand u
      match platReason r.1 t.ctx bs base with
      | some k => opFault r.1 u o { code := 26, sub := k, addr := va }
      | none =>
        let p : Plat := ⟨true, bs, va, base, (upto 5).map (platBox bs), false⟩
        opDone (r.1.setStrand u { t with plats := tput t.plats q p }) u o []
  | .wfill va n =>
    let r := fillFor s u o force ((upto n).map fun j => va + 8 * j)
    match r.2 with
    | .error c => settle r.1 u o c
    | .ok ws => opDone r.1 u o ws
  | .atomic a va n b e =>
    let r := bothFor s u o va n force
    match r.2 with
    | .error c => settle r.1 u o c
    | .ok x =>
      let old := leNat x.2
      let s := opDone r.1 u o [BitVec.ofInt 64 (sgn (8 * n) old)]
      match atomicNew a n old b e with
      | some v => if x.1.loc then homeWrite s x.1.pa (leBytes n v) else landWrite s (s.strand u).ctx u x.1.pa (leBytes n v)
      | none => s
  | .agadd va g f =>
    let r := bothFor s u o va 16 force
    match r.2 with
    | .error c => settle r.1 u o c
    | .ok x =>
      let l := (laneOf x.2).add (w64 g, BitVec.ofNat 2 f)
      let bs := l.bytes
      let s := opDone r.1 u o [w64 l.flag.toNat]
      if x.1.loc then homeWrite s x.1.pa bs else landWrite s (s.strand u).ctx u x.1.pa bs
  | .acq va sc =>
    let a := attempt s u o va 8 .read force
    match a.2 with
    | .wait => a.1
    | .fault c => opFault a.1 u o c
    | .go w =>
      let t := a.1.strand u
      let q := readLogged a.1 t.ctx w.pa 8 w.loc
      match q.2 with
      | .error k => opFault q.1 u o (homeCause k va .read)
      | .ok bs =>
        match opWatch a.1 t o va 8 .read with
        | some k => opFault a.1 u o { code := 12, sub := k, addr := va, acc := 1 }
        | none =>
          acqDone (noteAccess (markStop a.1 u o va 8 .read) t va w.pa 8) u o w.pa (leNat bs) (tagOf a.1 w.pa) sc
  | .waitw va e sc =>
    let a := attempt s u o va 8 .read force
    match a.2 with
    | .wait => a.1
    | .fault c => opFault a.1 u o c
    | .go w =>
      let t := a.1.strand u
      let q := readLogged a.1 t.ctx w.pa 8 w.loc
      match q.2 with
      | .error k => opFault q.1 u o (homeCause k va .read)
      | .ok bs =>
        match opWatch a.1 t o va 8 .read with
        | some k => opFault a.1 u o { code := 12, sub := k, addr := va, acc := 1 }
        | none =>
          let s := noteAccess (markStop a.1 u o va 8 .read) t va w.pa 8
          if leNat bs ≠ e then acqDone s u o w.pa (leNat bs) (tagOf s w.pa) sc
          else if s.watches.any fun x => x.uid == u && x.opId == o.id then s
          else { s with watches := s.watches ++ [⟨u, o.id, w.pa, e, decide (watchesAt s w.pa < 64) && watchable s w.pa⟩] }
  | .acqrel va v sc =>
    let r := bothFor s u o va 8 force
    match r.2 with
    | .error c => settle r.1 u o c
    | .ok x =>
      let t := r.1.strand u
      let tag := tagOf r.1 x.1.pa
      let s := acqDone r.1 u o x.1.pa (leNat x.2) tag sc
      if x.1.loc then releaseWrite s x.1.pa v (mkTag sc t.pcore) else landRelease s t.ctx u x.1.pa v (mkTag sc t.pcore)
  | .ksig va a =>
    let r := bothFor s u o va 8 force
    match r.2 with
    | .error c => settle r.1 u o c
    | .ok x =>
      let t := r.1.strand u
      let v := (leNat x.2 + a) % 2 ^ 64
      let s := opDone r.1 u o [w64 (leNat x.2)]
      if x.1.loc then releaseWrite s x.1.pa v (mkTag .system t.pcore)
      else landRelease s t.ctx u x.1.pa v (mkTag .system t.pcore)
  | _ => s

/-- Is a strand saved by a pre-emption (20 R438)? Its waits are registered again when it is restored. -/
def Strand.preempted (t : Strand) : Bool := match t.st with | .saved .preempted _ _ => true | _ => false

/-- An event of an operation that is still on its way. -/
def onSent (s : State) (u id : Nat) (f : Op → State) : State :=
  match s.op u id with
  | some o => if o.phase == .sent then f o else s
  | none => s

def execReadAtHome (uid id : Nat) (s : State) : Outcome :=
  .next (onSent s uid id fun o =>
    match o.kind with
    | .load _ _ _ _ | .wfill _ _ | .plnew _ _ _ => performMem s uid o false
    | _ => s)

def execAtomicAtHome (uid id : Nat) (s : State) : Outcome :=
  .next (onSent s uid id fun o =>
    match o.kind with
    | .atomic _ _ _ _ _ | .agadd _ _ _ => performMem s uid o false
    | _ => s)

/-- An event of a wait, which is not registered while its strand is saved (20 R438). -/
def onWait (s : State) (u id : Nat) (f : Op → State) : State := if (s.strand u).preempted then s else onSent s u id f

def execAcqAtHome (uid id : Nat) (s : State) : Outcome :=
  .next (onWait s uid id fun o => match o.kind with | .acq _ _ => performMem s uid o false | _ => s)

def execWaitwRegister (uid id : Nat) (s : State) : Outcome :=
  .next (onWait s uid id fun o => match o.kind with | .waitw _ _ _ => performMem s uid o false | _ => s)

/-- A WAITW without a watch rereads its word (08 R199). -/
def execWatchPoll (uid id : Nat) (s : State) : Outcome :=
  .next (onWait s uid id fun o =>
    match s.watches.find? fun w => w.uid == uid && w.opId == id && !w.placed, o.kind with
    | some w, .waitw va _ sc =>
      let off (s : State) : State := { s with watches := s.watches.filter fun x => x != w }
      let q := readLogged s (s.strand uid).ctx w.pa 8 false
      (match q.2 with
      | .error k => opFault (off q.1) uid o (homeCause k va .read)
      | .ok b => if leNat b = w.e then s else acqDone (off s) uid o w.pa (leNat b) (tagOf s w.pa) sc)
    | _, _ => s)

/-- Is a translation of va wanted by an instruction fetch or an access of a strand of the core (07 R178)? -/
def walkWanted (s : State) (core ctx va : Nat) : Bool :=
  s.strands.any fun t =>
    t.2.pcore == core && t.2.ctx == ctx && t.2.st != .ended &&
      (t.2.pc == va || t.2.ops.any fun o =>
        o.phase == .sent && match o.kind.range with | some r => decide (r.1 ≤ va) && decide (va < r.1 + r.2) | none => false)

/-- A walker completes a walk for a miss and fills the caches (07 R162, R178); a walk that fails is not cached. -/
def execPageWalk (core ctx va : Nat) (s : State) : Outcome :=
  .next (if walkWanted s core ctx va then (findLeaf s (tlbCore core) (some (tlbCluster core)) ctx va).1 else s)

/-- A slice scrubs its stack (06 R159): errors it corrects are counted, and a sector it finds uncorrectable reads
poisoned from then on. -/
def execSliceScrub (slice fixed : Nat) (bad : List Nat) (s : State) : Outcome :=
  .next (
    let mine := (bad.filter fun a => decide (a < 2 ^ 39) && homeId s a == slice).map eccWord
    if 1024 ≤ slice then s
    else
      { s with ecc := tput s.ecc slice (tget 0 s.ecc slice + fixed)
               poison := mine.foldl (fun p a => if p.contains a then p else a :: p) s.poison })

/-- An addition to a leaf's access counter, saturating; at the threshold, with NT clear, NT is set and a record is sent
(07 R174, R177). -/
def addCount (s : State) (ctx epa n : Nat) : State :=
  let w1 := readLE s (epa + 8) 8
  let c := min 4095 (fld w1 52 12 + n)
  let hit := (s.ctx ctx).nqn != 0 && (s.ctx ctx).nqth ≤ c && !bit w1 38
  let w1' := setFld (setFld w1 52 12 c) 38 1 (if hit then 1 else fld w1 38 1)
  let s := homeWrite s (epa + 8) (leBytes 8 w1')
  if hit then { s with hot := s.hot ++ [(ctx, epa, c)] } else s

/-- A translation cache's gathered counts reach the leaf (07 R174): those that it has sent, otherwise those of an entry that
holds 16. -/
def execAccessCountFlush (who ctx va : Nat) (s : State) : Outcome :=
  .next (
    match s.counts.find? fun q => q.1 == who && q.2.1 == ctx && q.2.2.1 == va with
    | some q => addCount { s with counts := s.counts.erase q } ctx q.2.2.2.1 q.2.2.2.2
    | none =>
      match s.tlb.find? fun e => e.who == who && e.ctx == ctx && decide (e.va ≤ va) && decide (va < e.va + e.size) with
      | some e =>
        if 16 ≤ e.cnt then
          addCount { s with tlb := s.tlb.map fun x => if x = e then { x with cnt := 0 } else x } ctx e.epa e.cnt
        else s
      | none => s)

/-- An uncorrectable error in a read-buffer line ends it; the next load of its bytes fetches the sector (05 R139; log entry 20). -/
def lineError (s : State) (core ctx va : Nat) : State :=
  s.modCore core fun k => { k with rbuf := k.rbuf.filter fun l => !(l.ctx == ctx && l.va == va / 64 * 64) }

/-- A hot-page record reaches its ring's home (07 R176, R177). -/
def execHotPageRecord (i : Nat) (s : State) : Outcome :=
  .next (
    match s.hot[i]? with
    | none => s
    | some h =>
      let x := s.ctx h.1
      let s := { s with hot := ldel s.hot i }
      let wi := readLE s (x.nqb + 16 * x.nqn) 8
      let ri := readLE s (x.nqb + 16 * x.nqn + 8) 8
      let full := x.nqn ≤ (wi % 2 ^ 32 + 2 ^ 32 - ri % 2 ^ 32) % 2 ^ 32
      let s := ringPost s x.nqb x.nqn 16 (leBytes 8 h.2.1 ++ leBytes 2 h.2.2 ++ leBytes 2 0 ++ leBytes 4 (wi % 2 ^ 32))
      if full then homeWrite s (h.2.1 + 8) (leBytes 8 (setFld (readLE s (h.2.1 + 8) 8) 38 1 0)) else s)

/-- An access that waits on write-block translates again (07 R181): the cached leaf is not used. -/
def execWbRetranslate (who ctx va : Nat) (s : State) : Outcome :=
  .next (tlbDrop s fun e =>
    (e.who == who || decide (who < 512) && e.who == tlbCluster who) && e.ctx == ctx && decide (e.va ≤ va) &&
      decide (va < e.va + e.size) && bit e.w0 15)

/-- The releaser's atomics issued before a release are performed before its word is written (log entry 15). -/
def atomicsBefore (s : State) (u seq : Nat) : Bool :=
  (s.strand u).ops.any fun o =>
    o.phase == .sent && decide (o.seq < seq) &&
      match o.kind with | .atomic _ _ _ _ _ => true | .agadd _ _ _ => true | _ => false

/-- Has a strand an earlier TSTORE that the unit has not performed: one of the writes that its release follows (08 R189, 14 R328)? -/
def treeStoreBefore (s : State) (u seq : Nat) : Bool :=
  (s.strand u).ops.any fun o => o.phase == .sent && decide (o.seq < seq) && match o.kind with | .tree .tstore _ _ _ => true | _ => false

/-- The work of a release of a core is done (08 R188, R193); from DIE on its atomics have been performed too (log entry 15). -/
def relReady (s : State) (core : Nat) (r : Rel) : Bool :=
  !((s.core core).bindOwed.any fun b => decide (b.seq < r.seq)) && releaseWorkDone s core r.sc &&
    !(decide (3 ≤ r.sc.code) && atomicsBefore s r.uid r.seq) && !treeStoreBefore s r.uid r.seq

/-- Where a release writes its word (07 R181): the address found at its issue, or, where that page was write-blocked, the one of
a fresh translation, none while that page is still write-blocked or does not translate. -/
def relSite (s : State) (core : Nat) (r : Rel) : State × Option Nat :=
  if r.wb = false then (s, some r.pa)
  else
    let q := xlate s core r.ctx r.va .write r.sup
    (q.1, match q.2 with | .ok x => if x.wb then none else some x.pa | .error _ => none)

/-- Remove the head of a release queue; a strand that waits for an entry may try again. -/
def popRel (s : State) (core : Nat) : State := s.modCore core fun k => { k with relq := k.relq.drop 1 }

/-- The effect of REL at the head of the queue (08 R193, R197): from CLUSTER on the stores before it pass the hub, and its word
goes behind what it must follow; its sector counts for its group (19 R412). One to the core's own window is performed there before a save of the core completes (08 R204). -/
def performRel (s : State) (core : Nat) (r : Rel) (v : Nat) : State :=
  let q := relSite (if r.sc.code < 2 then s else passHub s core) core r
  match q.2 with
  | none => q.1
  | some pa =>
    if treeBehind q.1 r.uid pa 8 r.seq then q.1 else
    let s := q.1
    let tag := mkTag r.sc core
    let own := (localOff s r.ctx r.va).isSome
    let note (s : State) : State := if own then s else noteAccess s (s.strand r.uid) r.va pa 8
    if behindWrite s core pa r.seq || behindAtomic s core pa r.seq then s
    else
      match reachPA s r.ctx pa, windowCore s pa with
      | .divert, some c =>
        if !spillRoom s r.ctx && !(c == core && (s.part core r.ctx).st == .saving) then s
        else if c == core && (s.part core r.ctx).st == .saving then stopAfter (landRelease (note (popRel s core)) r.ctx r.uid pa v tag) r.uid r.stop
        else divert (note (popRel s core)) r.ctx c
          (.write ⟨r.uid, core, r.ctx, .s, r.va, pa, leBytes 8 v, none, r.seq, true, some tag, none, r.stop⟩)
      | .wait, _ => s
      | _, _ =>
        stopAfter (if !own then landRelease (note (popRel s core)) r.ctx r.uid pa v tag
          else releaseWrite (popRel s core) pa v tag) r.uid r.stop

/-- KLAUNCH by the command processor (19 R428, 21 R449): nothing else posts to a device queue; a write-blocked slot makes it wait (07 R181). -/
def performKlaunch (s : State) (u : Nat) (o : Op) (va q : Nat) : State :=
  let t := s.strand u
  match readVA s t.ctx (sectorPieces va 128) with
  | .error c => opFault (logVA s t.ctx (sectorPieces va 128)) u o c
  | .ok bs =>
    match tget? (s.ctx t.ctx).queues (q % 64) with
    | none => opDone s u o [w64 (2 ^ 64 - 2)]
    | some blk =>
      let wi := tget 0 (s.ctx t.ctx).posted (q % 64)
      let ri := readLE s (blk + 24) 8
      let ln := readLE s (blk + 32) 1
      if readLE s (blk + 33) 1 ≠ 2 then opDone s u o [w64 (2 ^ 64 - 2)]
      else if 2 ^ ln ≤ (wi + 2 ^ 64 - ri) % 2 ^ 64 then opDone s u o [w64 (2 ^ 64 - 1)]
      else
        let slot := readLE s blk 8 + 128 * (wi % 2 ^ ln)
        if cpHeld s t.ctx slot 128 then s else
        match cpWrite s t.ctx slot [bs.take 64, bs.drop 64] with
        | none => opFault s u o { code := 7, addr := slot, acc := 2 }
        | some s' =>
          let s' := s'.modCtx t.ctx fun x => { x with posted := tput x.posted (q % 64) ((wi + 1) % 2 ^ 64) }
          opDone (releaseWrite s' (blk + 16) ((wi + 1) % 2 ^ 64) (mkTag .system cpParty)) u o [w64 wi]

/-- The place in the release queue that an operation goes through (08 R198, 19 R427, R428). -/
def relEntry (o : Op) : Option (Nat × Scope × RelKind) :=
  match o.kind with
  | .acqrel va _ sc => some (va, sc, .acqrel o.id)
  | .ksig va _ => some (va, .system, .ksig o.id)
  | .klaunch va _ => some (va, .system, .klaunch o.id)
  | _ => none

/-- An operation that ERET continues takes a place in its core's release queue again, once the queue has one (04 R102, 08 R197). -/
def requeueRel (s : State) (u : Nat) (o : Op) : State :=
  let t := s.strand u
  match relEntry o with
  | none => s
  | some k =>
    if 8 ≤ (s.core t.pcore).relq.length || spilled s u o.id ||
        (s.cores.any fun c => c.2.relq.any fun r => r.uid == u && r.kind == k.2.2) then s
    else s.modCore t.pcore fun c => { c with relq := c.relq ++ [⟨u, t.ctx, k.1, 0, k.2.1, k.2.2, o.seq, false, o.sup, false⟩] }

/-- The head of a core's release queue is performed once its work is done (08 R193, R197, 19 R427, R428). -/
def relStep (s : State) (core : Nat) : State :=
  match (s.core core).relq with
  | [] => s
  | r :: _ =>
    if !relReady s core r then s
    else
      match r.kind with
      | .rel v => performRel s core r v
      | .acqrel _ => s
      | .ksig id =>
        match s.op r.uid id with
        | none => popRel s core
        | some o =>
          let q := popRel s core
          if o.phase != .sent then q
          else
            let q' := performMem (passHub q core) r.uid o false
            if (q'.op r.uid id).any (·.phase == .sent) && !spilled q' r.uid id then s else q'
      | .klaunch id =>
        match s.op r.uid id with
        | none => popRel s core
        | some o =>
          match o.kind with
          | .klaunch va q =>
            let q' := performKlaunch (popRel (passHub s core) core) r.uid o va q
            if (q'.op r.uid id).any (·.phase == .sent) then s else q'
          | _ => popRel s core

def execReleasePerform (core : Nat) (s : State) : Outcome := .next (relStep s core)

/-- The exchange of an ACQREL at the head of its core's queue (08 R198); one that is diverted leaves the queue. -/
def execAcqrelExchange (core : Nat) (s : State) : Outcome :=
  .next (
    match (s.core core).relq with
    | [] => s
    | r :: _ =>
      match r.kind with
      | .acqrel id =>
        match s.op r.uid id with
        | none => popRel s core
        | some o =>
          if o.phase != .sent then popRel s core
          else if !relReady s core r then s
          else
            let q := popRel s core
            let q := performMem (if r.sc.code < 2 then q else passHub q core) r.uid o false
            if (q.op r.uid id).any (·.phase == .sent) && !spilled q r.uid id then s else q
      | _ => s)

/-- Has a core an atomic on its way to an on-chip window (08 R193)? -/
def windowAtomic (s : State) (core : Nat) : Bool :=
  s.strands.any fun t => t.2.pcore == core && t.2.ops.any fun o =>
    o.phase == .sent && (match o.kind.atomicAt with
      | some q => (match (siteOf s { t.2 with sup := o.sup } q.1 q.2 .both).2 with
        | .ok w => !w.loc && (windowCore s w.pa).isSome | .error _ => false)
      | none => false)

/-- A core's release handler takes a scope-miss message (08 R194). -/
def execScopeMissHandle (core : Nat) (s : State) : Outcome :=
  .next (
    match (s.core core).misses with
    | [] => s
    | m :: ms =>
      let pop (s : State) : State := s.modCore core fun k => { k with misses := ms }
      let tag := tagOf s m.pa
      let stands := fld tag 3 10 == core && decide (fld tag 13 3 < m.sc.code)
      if s.off core m.ctx then divert (pop s) m.ctx core (.miss m)
      else if !stands then pop s
      else if !releaseWorkDone s core m.sc || decide (3 ≤ m.sc.code) && windowAtomic s core then s
      else
        let s := setTag (pop (if m.sc.code < 2 then s else passHub s core)) m.pa (mkTag m.sc core)
        traceRec s core 0 6 3 (m.pa / 64 * 64))

/-- A change of bindings reaches another core, in the order of its sender (08 R188). -/
def execBindPropagate (src dst : Nat) (s : State) : Outcome :=
  .next (
    match (s.core src).bindOwed.find? fun b => b.cores.contains dst with
    | none => s
    | some b =>
      let s := s.modCore dst fun k =>
        { k with binds := tput k.binds b.ctx (match b.b with
            | some v => tput (tget [] k.binds b.ctx) b.idx v
            | none => tdel (tget [] k.binds b.ctx) b.idx) }
      s.modCore src fun k =>
        { k with bindOwed := (k.bindOwed.map fun x =>
            if x = b then { x with cores := x.cores.filter (· != dst) } else x).filter fun x => !x.cores.isEmpty })

/-- Does an address belong to a slice group (06 R158) or to a port number, 8 for the fabric? -/
def inGroup (s : State) (isPort : Bool) (i pa : Nat) : Bool :=
  match homeOf s pa with
  | .first => !isPort && fld pa 12 6 == i
  | .port p _ => isPort && p == i
  | .host => isPort && i == 8
  | _ => false

/-- A slice group or a port echoes a probe (08 R193): every write that the core sent there has been performed. -/
def execProbeEcho (core : Nat) (isPort : Bool) (i : Nat) (s : State) : Outcome :=
  .next (
    let busy := (s.writes.any fun w => w.core == core && inGroup s isPort i w.pa) ||
      s.strands.any fun t => t.2.pcore == core && t.2.ops.any fun o =>
        o.phase == .sent &&
          (match o.kind with
          | .atomic _ va n _ _ => (match (siteOf s { t.2 with sup := o.sup } va n .both).2 with | .ok w => inGroup s isPort i w.pa | .error _ => false)
          | .agadd va _ _ => (match (siteOf s { t.2 with sup := o.sup } va 16 .both).2 with | .ok w => inGroup s isPort i w.pa | .error _ => false)
          | _ => false)
    if busy then s
    else if isPort then s.modCore core fun k => { k with echoP := if bit k.touchP i then setFld k.echoP i 1 1 else k.echoP }
    else s.modCore core fun k => { k with echoS := if bit k.touchS i then setFld k.echoS i 1 1 else k.echoS })

end Sys2Proof.Machine
end

