-- ==== Sys2Proof/Machine/Ecdsa.lean ====
section
/-! DEFINITION. ECDSA over P-256, the signatures that 00 R14, 12 R301 and 24 R492 name (FIPS 186-4; log entry 10). -/

namespace Sys2Proof.Machine
open Sys2Proof

/-- The field, the order, the constant of the curve y^2 = x^3 - 3x + b, and its base point. -/
def ecP : Nat := 0xFFFFFFFF00000001000000000000000000000000FFFFFFFFFFFFFFFFFFFFFFFF
def ecN : Nat := 0xFFFFFFFF00000000FFFFFFFFFFFFFFFFBCE6FAADA7179E84F3B9CAC2FC632551
def ecB : Nat := 0x5AC635D8AA3A93E7B3EBBD55769886BC651D06B0CC53B0F63BCE3C3E27D2604B
def ecGx : Nat := 0x6B17D1F2E12C4247F8BCE6E563A440F277037D812DEB33A0F4A13945D898C296
def ecGy : Nat := 0x4FE342E2FE1A7F9B8EE7EB4A7C0F9E162BCE33576B315ECECBB6406837BF51F5

/-- The numbers 255 to 0: bits of a scalar, highest first. -/
def bits256 : List Nat := (upto 256).reverse

/-- A power, and the inverse for a prime modulus. -/
def powMod (m b e : Nat) : Nat := bits256.foldl (fun r i => let q := r * r % m; if bit e i then q * b % m else q) 1
def invMod (m a : Nat) : Nat := powMod m a (m - 2)

/-- A point in Jacobian coordinates; z = 0 is the point at infinity. -/
structure EcPoint where
  x : Nat
  y : Nat
  z : Nat
  deriving DecidableEq, Repr

def ecInf : EcPoint := ⟨1, 1, 0⟩
def ecMul (a b : Nat) : Nat := a * b % ecP
def ecSub (a b : Nat) : Nat := (a + ecP - b) % ecP

def ecDouble (p : EcPoint) : EcPoint :=
  if p.z = 0 ∨ p.y = 0 then ecInf
  else
    let yy := ecMul p.y p.y
    let s := 4 * ecMul p.x yy % ecP
    let zz := ecMul p.z p.z
    let m := 3 * ecMul (ecSub p.x zz) ((p.x + zz) % ecP) % ecP
    let x := ecSub (ecMul m m) (2 * s % ecP)
    ⟨x, ecSub (ecMul m (ecSub s x)) (8 * ecMul yy yy % ecP), 2 * ecMul p.y p.z % ecP⟩

def ecAdd (p q : EcPoint) : EcPoint :=
  if p.z = 0 then q
  else if q.z = 0 then p
  else
    let pp := ecMul p.z p.z
    let qq := ecMul q.z q.z
    let u := ecMul p.x qq
    let s := ecMul p.y (ecMul q.z qq)
    let h := ecSub (ecMul q.x pp) u
    let r := ecSub (ecMul q.y (ecMul p.z pp)) s
    if h = 0 then (if r = 0 then ecDouble p else ecInf)
    else
      let hh := ecMul h h
      let hhh := ecMul h hh
      let v := ecMul u hh
      let x := ecSub (ecSub (ecMul r r) hhh) (2 * v % ecP)
      ⟨x, ecSub (ecMul r (ecSub v x)) (ecMul s hhh), ecMul h (ecMul p.z q.z)⟩

/-- a times p plus b times q. -/
def ecTwice (a : Nat) (p : EcPoint) (b : Nat) (q : EcPoint) : EcPoint :=
  let pq := ecAdd p q
  bits256.foldl (fun r i =>
    let r := ecDouble r
    match bit a i, bit b i with
    | true, true => ecAdd r pq
    | true, false => ecAdd r p
    | false, true => ecAdd r q
    | false, false => r) ecInf

/-- The affine coordinates of a point, and a number as 32 big-endian bytes. -/
def EcPoint.affine (p : EcPoint) : Nat × Nat :=
  let w := invMod ecP p.z
  let ww := ecMul w w
  (ecMul p.x ww, ecMul p.y (ecMul ww w))
def be32 (n : Nat) : List Byte := (leBytes 32 n).reverse

/-- The public key of a private one, and the signature of a digest under it with a secret number k. -/
def ecPublic (d : Nat) : List Byte :=
  let q := (ecTwice d ⟨ecGx, ecGy, 1⟩ 0 ecInf).affine
  be32 q.1 ++ be32 q.2
def ecdsaSign (d k : Nat) (digest : List Byte) : List Byte :=
  let r := (ecTwice k ⟨ecGx, ecGy, 1⟩ 0 ecInf).affine.1 % ecN
  be32 r ++ be32 (invMod ecN k * ((beNat digest + r * d) % ecN) % ecN)

/-- The identity key pair and its signatures (24 R497): secrets from 1 to the order less 1. -/
def ecSecret (n : Nat) : Nat := n % (ecN - 1) + 1
def identityKey : List Byte := ecPublic (ecSecret Config.identitySecret)
def identitySign (digest : List Byte) : List Byte :=
  ecdsaSign (ecSecret Config.identitySecret) (ecSecret (Config.signSecret digest)) digest

/-- Does a signature (r, s) of a 32-byte digest verify under a public key (x, y), all big-endian? -/
def ecdsaOk (digest key sig : List Byte) : Bool :=
  let x := beNat (key.take 32)
  let y := beNat (key.drop 32)
  let r := beNat (sig.take 32)
  let s := beNat (sig.drop 32)
  let w := invMod ecN s
  let e := beNat digest
  let p := ecTwice (e * w % ecN) ⟨ecGx, ecGy, 1⟩ (r * w % ecN) ⟨x, y, 1⟩
  key.length == 64 && sig.length == 64 && decide (x < ecP) && decide (y < ecP) &&
    ecMul y y == (ecMul x (ecMul x x) + 3 * (ecP - x) + ecB) % ecP && decide (0 < r) && decide (r < ecN) && decide (0 < s) && decide (s < ecN) &&
    p.z != 0 && ecMul p.x (invMod ecP (ecMul p.z p.z)) % ecN == r

end Sys2Proof.Machine
end

