-- ==== Sys2Proof/Machine/HandleOps.lean ====
section
/-! DEFINITION. Handle records and what their home does to them (12 R279 to R304, 13 R309, R311). -/

namespace Sys2Proof.Machine
open Sys2Proof

/-- A handle record (12 R279). -/
structure HRec where
  plat : Nat
  base : Nat
  prev : Nat
  stat : Nat
  iref : Nat
  ids : List Nat
  top : Nat
  deriving DecidableEq, Repr

def HRec.mark (r : HRec) : Nat := fld r.stat 48 16
def HRec.gen (r : HRec) : Nat := fld r.stat 32 16
def HRec.hold (r : HRec) : Nat := fld r.stat 21 11
def HRec.oldh (r : HRec) : Nat := fld r.stat 10 11
def HRec.nl (r : HRec) : Nat := fld r.stat 6 4
def HRec.imode (r : HRec) : Nat := fld r.stat 4 2
def HRec.psn (r : HRec) : Bool := bit r.stat 3
def HRec.ver (r : HRec) : Bool := bit r.stat 2
def HRec.fold (r : HRec) : Bool := bit r.stat 1
def HRec.list (r : HRec) : List Nat := r.ids.take r.nl

def HRec.setStat (r : HRec) (lo n v : Nat) : HRec := { r with stat := setFld r.stat lo n v }

/-- Parse and write the 64 bytes of a record. -/
def hRec (b : List Byte) : HRec :=
  { plat := recLE b 0 8, base := recLE b 8 8, prev := recLE b 16 8, stat := recLE b 24 8, iref := recLE b 32 8,
    ids := (upto 8).map fun k => recLE b (40 + 2 * k) 2, top := recLE b 56 8 }

def HRec.bytes (r : HRec) : List Byte :=
  leBytes 8 r.plat ++ leBytes 8 r.base ++ leBytes 8 r.prev ++ leBytes 8 r.stat ++ leBytes 8 r.iref ++
    ((upto 8).flatMap fun k => leBytes 2 (r.ids.getD k 0)) ++ leBytes 8 r.top

/-- A layer entry (12 R283). -/
structure Layer where
  kind : Nat
  deliv : Bool
  rank : Nat
  nent : Nat
  a0 : Nat
  a1 : Nat
  deriving DecidableEq, Repr

/-- The layer an id names, if the id is below LAYN and the entry is valid (12 R283, R289). An entry whose own word is poisoned is taken as it is
stored (log entry 119). -/
def layerOf (s : State) (ctx id : Nat) : Option Layer :=
  let x := s.ctx ctx
  let e := x.layb + 32 * id
  let ctl := readLE s e 8
  let l : Layer := ⟨ctl % 4, bit ctl 2, fld ctl 4 5, readLE s (e + 8) 4, readLE s (e + 16) 8, readLE s (e + 24) 8⟩
  let addrOk (a : Nat) : Bool := a % 16 == 0 && decide (a < 2 ^ 39) && granuleSecure s a == x.secure
  let ok := id < x.layn && ctl / 2 ^ 9 == 0 && !bit ctl 3 && readLE s (e + 12) 4 == 0 && addrOk l.a0 && addrOk l.a1 &&
    (if l.kind = 1 then l.rank == 0 else l.kind == 2 && 1 ≤ l.rank && l.rank ≤ 16 && l.nent == 0)
  if ok then some l else none

/-- Does the entry that an id names say DELIV = 1, valid or not (12 R283, R287)? -/
def layerDeliv (s : State) (ctx id : Nat) : Bool :=
  decide (id < (s.ctx ctx).layn) && bit (readLE s ((s.ctx ctx).layb + 32 * id) 8) 2

/-- The 64 bytes of the plat record that a handle names, or the fault of that read (12 R295). -/
def handlePlat (s : State) (ctx : Nat) (r : HRec) : Except Cause (List Byte) := readVA s ctx (sectorPieces r.plat 64)

/-- A well-formed record (12 R279, R281), its plat record having been read. -/
def HRec.wellFormed (s : State) (ctx : Nat) (r : HRec) (plat : List Byte) : Bool :=
  r.top == 0 && (r.ids.drop r.nl).all (· == 0) && r.ids.all (decide <| · < 2 ^ 12) && r.nl ≤ 8 && r.imode != 3 &&
  !bit r.stat 0 && r.iref % 64 == 0 && (r.imode != 0 || r.iref == 0) && r.prev % 64 == 0 && r.base % 64 == 0 &&
  r.plat % 64 == 0 && handlePlatOk s ctx plat && (r.list.all fun i => decide (i < (s.ctx ctx).layn)) && decide r.list.Nodup

/-- A status word (12 R294). -/
def hStatus (code : Nat) (r : HRec) : Word := w64 (code + r.nl % 16 * 2 ^ 8 + r.gen * 2 ^ 16)

/-- The snapshot of a record at raddr, which lies at pa (12 R290). -/
def HRec.snap (r : HRec) (raddr pa : Nat) : Handle := ⟨true, raddr, r.plat, r.base, r.gen, r.nl, r.list, pa⟩

/-- A holder of a snapshot moves on (12 R292). -/
def HRec.moveOn (r : HRec) (h : Handle) : HRec :=
  if h.gen = r.mark then r
  else
    let r := r.setStat 10 11 (r.oldh + 2047)
    if r.oldh = 0 then { r with prev := 0 } else r

/-- A change of list or base (12 R292, R296, R297). -/
def HRec.change (r : HRec) : HRec :=
  let r := r.setStat 32 16 (r.gen + 1)
  let r := r.setStat 48 16 r.gen
  let r := r.setStat 10 11 r.hold
  if r.imode = 2 then r.setStat 2 1 0 else r

/-- What a handle operation at the home comes to: a fault of its own, or a status with the record's new contents,
the plat bytes read and whether a handle register takes the snapshot. -/
inductive HRes where
  | fault (c : Cause)
  | done (r : HRec) (code : Nat) (plat : List Byte)
  deriving DecidableEq, Repr

/-- HOPEN at the home, its plat record p having been read (12 R295). -/
def hOpenHome (s : State) (ctx : Nat) (r : HRec) (p : List Byte) : HRes :=
  if !r.wellFormed s ctx p then .done r 3 []
  else if r.psn then .done r 10 []
  else if r.imode = 2 ∧ r.ver = false then .done r 9 []
  else if r.hold = 2047 then .done r 8 []
  else .done (r.setStat 21 11 (r.hold + 1)) 0 p

def hBatchHome (r : HRec) (h : Handle) : HRes :=
  if r.psn then .done r 10 []
  else if r.gen ≠ h.gen ∧ r.imode = 2 ∧ r.ver = false then .done r 9 []
  else .done (r.moveOn h) 0 []

/-- HCLOSE at the home (12 R295). -/
def hCloseHome (r : HRec) (h : Handle) : HRec := (r.setStat 21 11 (r.hold + 2047)).moveOn h

def hAttachHome (s : State) (ctx : Nat) (r : HRec) (id : Nat) : HRes :=
  if r.psn then .done r 10 []
  else if r.fold then .done r 7 []
  else if (layerOf s ctx id).isNone then .done r 4 []
  else if r.list.contains id then .done r 5 []
  else if 8 ≤ r.nl then .fault { code := 15 }
  else .done ({ r with ids := lset r.ids r.nl id }.setStat 6 4 (r.nl + 1)).change 0 []

def hDetachHome (r : HRec) (id : Nat) : HRes :=
  if r.psn then .done r 10 []
  else if r.fold then .done r 7 []
  else if !r.list.contains id then .done r 6 []
  else
    let l := r.list.erase id
    .done ({ r with ids := l ++ List.replicate (8 - l.length) 0 }.setStat 6 4 l.length).change 0 []

def hSwapHome (r : HRec) (base : Nat) (clr : Bool) : HRes :=
  if r.psn then .done r 10 []
  else if r.prev ≠ 0 ∨ r.fold = true then .done r 7 []
  else
    let q := { r with prev := r.base, base := base }
    .done (if clr then { q with ids := List.replicate 8 0 }.setStat 6 4 0 else q).change 0 []

/-- Bytes of the current base (12 R300): as many sectors as the fold region has. -/
def baseLen (s : State) (ctx : Nat) (r : HRec) (p : List Byte) : Nat :=
  64 * regionSectors (readDesc s ctx (platCad p)) (platBox p 0) (platBox p 1) (platStr p 1) r.base

/-- The bytes of the current base. -/
def baseBytes (s : State) (ctx : Nat) (r : HRec) : Option (List Byte) :=
  match handlePlat s ctx r with
  | .error _ => none
  | .ok p => (match readVA s ctx (sectorPieces r.base (baseLen s ctx r p)) with | .ok b => some b | .error _ => none)

/-- Does a shard of n bytes at va differ from its digest in the table (12 R300)? One that does not read, or whose digest does not, shows no
mismatch. -/
def shardDiffers (s : State) (ctx : Nat) (r : HRec) (k : Nat) (b : Except Cause (List Byte)) : Bool :=
  match b, readVA s ctx (sectorPieces (r.iref + 32 * k) 32) with
  | .ok b, .ok d => sha256 b != d
  | _, _ => false

/-- The 1 MiB shards of a base (12 R300). -/
def shards (b : List Byte) : List (List Byte) :=
  (upto (cdiv b.length (2 ^ 20))).map fun k => (b.drop (2 ^ 20 * k)).take (2 ^ 20)

/-- A layer's entry and data (12 R301): the entry's 32 bytes, then the data at A0 and at A1. -/
def layerBytes (s : State) (ctx id l0 l1 nbytes : Nat) : List Byte :=
  let e := (s.ctx ctx).layb + 32 * id
  match layerOf s ctx id with
  | none => readBytes s e 32
  | some l =>
    readBytes s e 32 ++
      (if l.kind = 1 then readBytes s l.a0 (8 * l.nent) ++ readBytes s l.a1 (4 * (cdiv nbytes 4096 + 1))
       else readBytes s l.a0 (2 * l.rank * l0) ++ readBytes s l.a1 (2 * l1 * l.rank))

/-- A publisher key of the configuration record (24 R492). -/
def publisherKey (s : State) (k : Nat) : Option (List Byte) :=
  if k < cfgLE s 12 1 then some ((s.config.drop (0x7C0 + 16 * cfgLE s 10 2 + 64 * k)).take 64) else none

/-- The firmware's check of a handle (12 R302); a part that does not read is a failure. -/
def verifyOk (s : State) (ctx : Nat) (r : HRec) : Bool :=
  match baseBytes s ctx r with
  | none => false
  | some b =>
    let ds := (shards b).flatMap sha256
    let nsh := (shards b).length
    if r.imode = 1 then
      match readVA s ctx (sectorPieces r.iref (32 * nsh)) with
      | .ok t => t == ds
      | .error _ => false
    else
      let n := 32 * (nsh + r.nl) + 32
      match readVA s ctx (sectorPieces r.iref (n + 64)), handlePlat s ctx r with
      | .ok m, .ok p =>
        let ls := r.list.flatMap fun i => sha256 (layerBytes s ctx i (platBox p 0) (platBox p 1) b.length)
        recLE m 0 8 == 0x31464D48 && recLE m 8 4 == nsh && recLE m 12 2 == r.nl && recLE m 15 17 == 0 &&
        (m.drop 32).take (32 * (nsh + r.nl)) == ds ++ ls &&
        (match publisherKey s (recLE m 14 1) with
         | some k => ecdsaOk (sha256 (m.take n)) k (m.drop n)
         | none => false)
      | _, _ => false

/-- The homes of what a check of a handle found poisoned log it (06 R159): its plat, its base, and its table or manifest. -/
def verifyLog (s : State) (ctx : Nat) (r : HRec) : State :=
  match handlePlat s ctx r with
  | .error _ => logVA s ctx (sectorPieces r.plat 64)
  | .ok p =>
    let n := baseLen s ctx r p
    let k := 32 * cdiv n (2 ^ 20)
    logVA (logVA s ctx (sectorPieces r.base n)) ctx (sectorPieces r.iref (if r.imode = 1 then k else k + 32 * r.nl + 96))

def hVerifyHome (s : State) (ctx : Nat) (r : HRec) : HRes :=
  if r.imode = 0 then .done r 0 []
  else if verifyOk s ctx r then .done (if r.imode = 2 then r.setStat 2 1 1 else r) 0 []
  else .done (r.setStat 3 1 1) 11 []

/-- Commit of a fold at the record's home (13 R311). -/
def hCommit (r : HRec) (dest digt : Nat) : HRec :=
  let q := { r with prev := r.base, base := dest, ids := List.replicate 8 0,
                    iref := if r.imode = 1 then digt else r.iref }
  let q := (q.setStat 6 4 0).setStat 32 16 (r.gen + 1)
  ((q.setStat 48 16 q.gen).setStat 10 11 r.hold).setStat 1 1 0

/-- Where a handle record lies, for an access that reads and writes it, given its translation (12 R293): the cause of a fault, or
none while its page is write-blocked (07 R181). -/
def hSite (va : Nat) (r : State × Except Cause Xl) : State × Except (Option Cause) Nat :=
  match r.2 with
  | .error c => (r.1, .error (some c))
  | .ok x =>
    if isPoisoned r.1 x.pa 64 then (logBad r.1 x.pa, .error (some { code := 10, addr := va, acc := 3 }))
    else if 2 ^ 39 ≤ x.pa then (r.1, .error (some { code := 8, addr := va, acc := 3 }))
    else if x.wb then (r.1, .error none)
    else (r.1, .ok x.pa)
def hAddr (s : State) (core ctx va : Nat) (sup : Bool) : State × Except (Option Cause) Nat :=
  hSite va (xlate s core ctx va .both sup)

def hReadRec (s : State) (pa : Nat) : HRec := hRec (readBytes s pa 64)
def hWriteRec (s : State) (pa : Nat) (r : HRec) : State := homeWrite s pa r.bytes

/-- Close a handle at its record's home, as END, CONTW and teardown do (12 R304, 20 R434), in the strand's privilege: none while it has
to wait for the record (07 R181, 08 R192); a record that does not read is left as it is. -/
def closeHandle (s : State) (t : Strand) (h : Handle) : Option State :=
  if !h.op then some s
  else
    let a := hAddr s t.pcore t.ctx h.raddr t.sup
    match a.2 with
    | .error none => none
    | .error (some _) => some a.1
    | .ok pa =>
      if behindWrite a.1 t.pcore pa a.1.steps || behindRelease a.1 t.pcore pa a.1.steps then none
      else some (hWriteRec a.1 pa (hCloseHome (hReadRec a.1 pa) h))

/-- A handle register is closed, its plat unlinked (12 R295). -/
def Strand.noHandle (t : Strand) (k : Nat) : Strand :=
  { t with handles := tdel t.handles k
           plats := match tget? t.plats k with | some p => tput t.plats k { p with linked := false } | none => t.plats }

/-- Open handles of a strand are closed in turn (12 R304), until one has to wait: are all closed? -/
def closeEach (s : State) (u : Nat) : List (Nat × Handle) → State × Bool
  | [] => (s, true)
  | h :: hs =>
    match closeHandle s (s.strand u) h.2 with
    | none => (s, false)
    | some s' => closeEach (s'.modStrand u fun t => t.noHandle h.1) u hs
def closeHandles (s : State) (u : Nat) : State × Bool := closeEach s u (s.strand u).handles

end Sys2Proof.Machine
end

