-- ==== Sys2Proof/Machine/Sector.lean ====
section
/-! DEFINITION. Sectors of decoding accesses: what is checked at the request, what a slice delivers, and the amended
data of a handle (07 R168 to R173, 10 R242, 11 R264, 12 R284 to R289). -/

namespace Sys2Proof.Machine
open Sys2Proof

/-- What a reply carries: the format of its codes, and for a block format or QA the scale of each element. -/
structure Reply where
  elem : Nat
  block : Bool
  qa : Bool
  codes : List Nat
  scales : List Nat
  /-- elements per sector and QA group of the descriptor that decoded it (07 R173) -/
  per : Nat
  group : Nat
  deriving DecidableEq, Repr

/-- Does the shadow of a page break R171 for a sector at offset off of it (07 R172)? -/
def shadowBad (d : Desc) (off size : Nat) : Bool :=
  let e := d.shoff / 64 * d.per
  d.shv && (decide (d.shoff ≤ off) ||
    decide (size < d.shoff + (if d.block ≠ 0 then cdiv e 32 else 4 * cdiv e (max 1 d.group))))

/-- The sector rule (10 R242) for a plat register and an origin; the descriptor is the plat's. -/
def sectorRule (d : Desc) (p : Plat) (org : Nat) : Bool :=
  p.cad != 0 && d.valid && !d.bmp && p.str 0 == 1 && p.str 1 % d.per == 0 && fld org 0 20 % d.per == 0 &&
    p.box 2 == 1 && p.box 3 == 1 && p.box 4 == 1

/-- Origin plus box within the extents (10 R242). -/
def inExtents (p : Plat) (org : Nat) : Bool :=
  decide (fld org 0 20 + p.box 0 ≤ p.ext.getD 0 0) && decide (fld org 20 20 + p.box 1 ≤ p.ext.getD 1 0)

/-- The virtual address of a sector of a box: sector k of row y (10 R242, R250). -/
def sectorVA (p : Plat) (org per y k : Nat) : Nat :=
  (p.base + 64 * (((fld org 20 20 + y) * p.str 1 + fld org 0 20 + per * k) / per)) % 2 ^ 64

/-- The CAD of the page that holds an address, if it translates (07 R172). In the local window every 64 KiB region
counts as a page under the plat's descriptor (10 R242). -/
def pageCad (s : State) (core ctx va cad : Nat) : Option Nat :=
  match localOff s ctx va with
  | some _ => some cad
  | none => (match (findLeaf s (tlbCore core) (some (tlbCluster core)) ctx va).2 with | .ok l => some l.cad | .error _ => none)

/-- A descriptor as its words, and back. -/
def Desc.words (d : Desc) : Nat × Nat × Nat := (d.w0, d.w1, d.hi)
def descOf (w : Nat × Nat × Nat) : Desc := ⟨w.1, w.2.1, w.2.2⟩

/-- The descriptor that an engine uses for a sector (07 R173): the one it holds, or, where that has been changed in place, either. -/
def useDesc (s : State) (core ctx cad : Nat) : State × Desc :=
  let key := (core * 4096 + ctx) * 64 + cad
  let d := readDesc s ctx cad
  let take (s : State) : State := { s with descs := tput s.descs key d.words }
  match tget? s.descs key with
  | none => (take s, d)
  | some w =>
    if w = d.words then (s, d)
    else
      let f := s.openWord
      if bit f.2.toNat 0 then (take f.1, d) else (f.1, descOf w)

/-- A sector at its request (11 R264): translation and its causes, then FORMAT_MISMATCH by 07 R172. ref is the reference
index, cad the plat's and d the descriptor used for it. -/
def requestSector (s : State) (lcore core ctx t va cad ref : Nat) (d : Desc) : State × Except Cause Flight :=
  let bad (code sub : Nat) : Cause := { code := code, sub := sub, addr := va, acc := 1 }
  let fmt (s : State) (f : Flight) : State × Except Cause Flight :=
    let d := if f.cad = cad then d else readDesc s ctx f.cad
    if f.cad ≠ ref ∨ f.cad = 0 ∨ d.valid = false ∨ shadowBad d (f.pa - f.page) f.size = true then (s, .error (bad 11 0))
    else (s, .ok { f with desc := d.words })
  match localOff s ctx va with
  | some o =>
    if spadSize s lcore ctx < o + 64 then (s, .error (bad 7 3))
    else fmt s ⟨t, va, spadPA s lcore ctx o, spadPA s lcore ctx (o / 2 ^ 16 * 2 ^ 16), 2 ^ 16, cad, none, (0, 0, 0)⟩
  | none =>
    let r := xlate s core ctx va .read false
    match r.2 with
    | .error c => (r.1, .error c)
    | .ok x =>
      let f : Flight := ⟨t, va, x.pa, x.pa - (va - x.leaf.va), x.leaf.size, x.leaf.cad, none, (0, 0, 0)⟩
      if va - x.leaf.va + 64 ≤ x.leaf.size then fmt r.1 f
      else
        let z := xlate r.1 core ctx (x.leaf.va + x.leaf.size) .read false
        match z.2 with
        | .error c => (z.1, .error c)
        | .ok y => if y.leaf.cad = x.leaf.cad then fmt z.1 { f with more := some y.pa } else (z.1, .error (bad 11 0))

/-- The shadow bytes of sector i of a page: their offset from the page's base and their number (07 R171). -/
def shadowRange (d : Desc) (i : Nat) : Nat × Nat :=
  let e0 := i * d.per
  if d.block ≠ 0 then (d.shoff + e0 / 32, (e0 + d.per - 1) / 32 - e0 / 32 + 1)
  else if d.qa then (d.shoff + 4 * (e0 / d.group), 4 * ((e0 + d.per - 1) / d.group - e0 / d.group + 1))
  else (0, 0)

/-- Does a requested sector or its shadow lie in a scratchpad line that is in flight (06 R157)? -/
def flightBusy (s : State) (f : Flight) : Bool :=
  let off := f.pa - f.page
  let r := shadowRange (descOf f.desc) (off / 64)
  linesBusy s f.pa (min 64 (f.size - off)) [] || (match f.more with | some q => linesBusy s q (64 - (f.size - off)) [] | none => false) ||
    linesBusy s (f.page + r.1) r.2 []

/-- The 64 bytes at an offset of a page; those past its end lie at more. -/
def sectorBytes (s : State) (ctx page off size : Nat) (more : Option Nat) : Except Nat (List Byte) :=
  match more with
  | none => homeRead s ctx (page + off) 64
  | some q =>
    match homeRead s ctx (page + off) (size - off), homeRead s ctx q (64 - (size - off)) with
    | .ok a, .ok b => .ok (a ++ b)
    | .error k, _ => .error k
    | _, .error k => .error k

/-- The codes and scales of the sector at an offset of a page, as stored (03 R70, R72, R73, 07 R171). -/
def storedSector (s : State) (ctx page off size : Nat) (more : Option Nat) (d : Desc) : Except Nat (List Nat × List Nat) :=
  let i := off / 64
  match sectorBytes s ctx page off size more with
  | .error k => .error k
  | .ok bs =>
    let codes := (upto d.per).map fun j => elemAt d.elem (fun b => bs.getD b 0) j
    let r := shadowRange d i
    let e0 := i * d.per
    if r.2 = 0 then .ok (codes, codes.map fun _ => 0)
    else
      match homeRead s ctx (page + r.1) r.2 with
      | .error k => .error k
      | .ok sh =>
        .ok (codes, (upto d.per).map fun j =>
          if d.block ≠ 0 then (sh.getD ((e0 + j) / 32 - e0 / 32) 0).toNat
          else recLE sh (4 * ((e0 + j) / d.group - e0 / d.group)) 4)

/-- The value of a code of a reply that is not QA (03 R70, R76). -/
def elemVal (elem : Nat) (block : Bool) (scale code : Nat) : Val :=
  if block then mxVal elem scale code else decodeNum (elemFmt elem) code

/-- Entries of a sparse layer: element offset and delta code, with its tile index (12 R284); none if they read
poisoned. -/
def sparseEntries (s : State) (l : Layer) : List (Nat × Nat) :=
  (upto l.nent).map fun i => (readLE s (l.a0 + 8 * i) 4, readLE s (l.a0 + 8 * i + 4) 4)
def sparseTile (per e : Nat) : Nat := 64 * (e / per) / 4096

/-- Is a sparse layer corrupt (12 R284)? nb is the number of tensor bytes. -/
def sparseCorrupt (s : State) (l : Layer) (per nb : Nat) : Bool :=
  let es := (sparseEntries s l).map (·.1)
  let nt := cdiv nb 4096
  !(decide (es.Pairwise (· < ·)) && (upto (nt + 1)).all fun t =>
    readLE s (l.a1 + 4 * t) 4 == (if t = nt then l.nent else (es.filter fun e => decide (sparseTile per e < t)).length) &&
      (t != nt || es.all fun e => decide (sparseTile per e < nt)))

/-- The delta of a low-rank layer at (y, x) (12 R285). -/
def lowRank (s : State) (l : Layer) (y x l0 : Nat) : Val :=
  (upto l.rank).foldl (fun v r =>
    v.add ((decodeFlt bf16 (readLE s (l.a1 + 2 * (y * l.rank + r)) 2)).mul
      (decodeFlt bf16 (readLE s (l.a0 + 2 * (r * l0 + x)) 2)))) (.fin false 0 1)

/-- Is the record of a snapshot poisoned, as its home has told every slice (12 R289, R303)? It is found where the address now lies,
whatever the page allows, or where it lay when it was opened. -/
def snapPsn (s : State) (ctx : Nat) (h : Handle) : Bool :=
  match walk s ctx h.raddr with
  | .ok l => (hReadRec s (l.base + (h.raddr - l.va))).psn
  | .error _ => (hReadRec s h.rpa).psn

/-- Does what the amender needs of a sparse layer for some tiles, or of a low-rank layer for some positions, read poisoned (12 R289)? -/
def sparsePoisoned (s : State) (l : Layer) (per : Nat) (tiles : List Nat) : Bool :=
  (tiles.any fun t => isPoisoned s (l.a1 + 4 * t) 8) ||
    ((upto l.nent).zip (sparseEntries s l)).any fun q => tiles.contains (sparseTile per q.2.1) && isPoisoned s (l.a0 + 8 * q.1) 8
def lowRankPoisoned (s : State) (l : Layer) (l0 : Nat) (at' : List (Nat × Nat)) : Bool :=
  at'.any fun q => isPoisoned s (l.a1 + 2 * (q.1 * l.rank)) (2 * l.rank) ||
    (upto l.rank).any fun r => isPoisoned s (l.a0 + 2 * (r * l0 + q.2)) 2

/-- What a sector carries under a snapshot (12 R287 to R289): the reply, or the cause code. Where several causes hold at one sector, PSN or an
invalid entry comes first, then POISON of layer data, then a corrupt entry, then LAYER_CAPACITY: the rules name no order (log entry 119). -/
def amend (s : State) (ctx : Nat) (h : Handle) (p : Plat) (f : Flight) (d : Desc) (wide : Bool) (rep : Reply) :
    Except Nat Reply :=
  let psn := snapPsn s ctx h
  let lays := h.ids.map fun i => layerOf s ctx i
  let ls := lays.filterMap id
  let low := ls.filter fun l => l.kind == 2
  let sp := ls.filter fun l => l.kind == 1
  let per := d.per
  let blk := d.block != 0
  let i := (f.pa - f.page) / 64
  let nb := 64 * cdiv ((p.box 1 - 1) * p.str 1 + p.box 0) per
  -- page element pe is tensor element pe + off - back
  let pe0 := i * per
  let e0 : Int := ((f.va : Int) - (h.base : Int)) / 64 * (per : Int)
  let tens (pe : Nat) : Option Nat := let e := e0 + (pe : Int) - (pe0 : Int); if e < 0 then none else some e.toNat
  let lo := if blk then pe0 / 32 * 32 else pe0
  let hi := if blk then cdiv (pe0 + per) 32 * 32 else pe0 + per
  let lim := if d.shv then d.shoff / 64 * per else f.size / 64 * per
  let pes := ((upto (min hi lim - lo)).map (lo + ·))
  let tiles := (pes.filterMap fun pe => (tens pe).map (sparseTile per)).eraseDups
  let crowded := sp.any fun l => let es := sparseEntries s l
    tiles.any fun t => decide (256 < (es.filter fun e => sparseTile per e.1 == t).length)
  let inBox (pe : Nat) : Option (Nat × Nat) :=
    match tens pe with
    | none => none
    | some e =>
      let y := if p.str 1 = 0 then 0 else e / p.str 1
      let x := if p.str 1 = 0 then e else e % p.str 1
      if y < p.box 1 ∧ x < p.box 0 then some (y, x) else none
  let poisoned := (sp.any fun l => sparsePoisoned s l per tiles) || low.any fun l => lowRankPoisoned s l (p.box 0) (pes.filterMap inBox)
  if psn || lays.any Option.isNone then .error 17
  else if h.nl = 0 then .ok rep
  else if poisoned then .error 10
  else if sp.any fun l => sparseCorrupt s l per nb then .error 17
  else if 32 < (low.map Layer.rank).foldl (· + ·) 0 ∨ crowded = true then .error 16
  else
    let ents := sp.map (sparseEntries s)
    let hits (pe : Nat) : List Nat :=
      match tens pe with
      | none => []
      | some e => ents.flatMap fun es => (es.filter fun x => x.1 == e).map (·.2)
    let stored (pe : Nat) : Except Nat (Nat × Nat) :=
      if pe0 ≤ pe ∧ pe < pe0 + per then .ok (rep.codes.getD (pe - pe0) 0, rep.scales.getD (pe - pe0) 0)
      else
        match storedSector s ctx f.page (64 * (pe / per)) f.size none d with
        | .error k => .error k
        | .ok q => .ok (q.1.getD (pe % per) 0, q.2.getD (pe % per) 0)
    let value (pe : Nat) (c : Nat × Nat) : Val :=
      let v := (hits pe).foldl (fun v x => v.add (decodeFlt fp32 x)) (elemVal d.elem blk c.2 c.1)
      match inBox pe with
      | none => v
      | some q => low.foldl (fun v l => v.add (lowRank s l q.1 q.2 (p.box 0))) v
    match pes.mapM fun pe => (stored pe).map fun c => (pe, c) with
    | .error k => .error k
    | .ok all =>
      let touched (pe : Nat) : Bool :=
        !low.isEmpty || all.any fun q => (if blk then q.1 / 32 == pe / 32 else q.1 == pe) && !(hits q.1).isEmpty
      let mine := all.filter fun q => decide (pe0 ≤ q.1) && decide (q.1 < pe0 + per)
      if wide then
        .ok { elem := 10, block := false, qa := false, per := rep.per, group := 0,
              codes := mine.map fun q => (convertFlt bf16 .rne false
                (if touched q.1 then value q.1 q.2 else elemVal d.elem blk q.2.2 q.2.1)).1,
              scales := mine.map fun _ => 0 }
      else if blk then
        let out := mine.map fun q =>
          if touched q.1 then
            let bl := all.filter fun z => z.1 / 32 == q.1 / 32
            let m := mxScale (bl.map fun z => value z.1 z.2) d.elem (bl.map fun _ => Rnd.rne) true
            (m.2.1.getD (q.1 - (bl.map (·.1)).headD 0) 0, m.1)
          else q.2
        .ok { rep with codes := out.map (·.1), scales := out.map (·.2) }
      else
        .ok { rep with codes := mine.map fun q =>
                if touched q.1 then (convertNum (elemFmt d.elem) .rne true (value q.1 q.2)).1 else q.2.1 }

/-- Does a snapshot deliver widened (12 R287)? A listed entry says so, valid or not. -/
def widened (s : State) (ctx : Nat) (h : Handle) : Bool := h.op && h.ids.any (layerDeliv s ctx)

/-- The reply of a requested sector (11 R264): POISON of data or shadow, then the amender's causes. -/
def replySector (s : State) (ctx : Nat) (e : EngOp) (f : Flight) : Except Cause Reply :=
  let d := descOf f.desc
  let bad (k : Nat) : Cause := { code := k, addr := f.va, acc := 1 }
  match storedSector s ctx f.page (f.pa - f.page) f.size f.more d with
  | .error k => .error (bad k)
  | .ok q =>
    let rep : Reply := ⟨d.elem, d.block != 0, d.qa, q.1, q.2, d.per, d.group⟩
    if e.snap.op then
      (match amend s ctx e.snap e.plat f d e.wide rep with
      | .ok r => .ok r
      | .error k => .error (bad k))
    else .ok rep

end Sys2Proof.Machine
end

