-- ==== Sys2Proof/Machine/Tile.lean ====
section
/-! DEFINITION. Accumulator tiles, the operand store, and the issue of the contracting engine's instructions (10 R230 to
R261, 11 R263 to R278). -/

namespace Sys2Proof.Machine
open Sys2Proof

/-- A logical tile of a partition. -/
def Part.tile (p : Part) (a : Nat) : LTile := tget LTile.init p.tiles a
def Part.setTile (p : Part) (a : Nat) (t : LTile) : Part := { p with tiles := tput p.tiles a t }

/-- Lane (i, j) of a tile: the physical tile and the lane's place in it (10 R231). -/
def laneAt (t : LTile) (i j : Nat) : Nat × Nat :=
  (t.phys.getD (i / 128 * (t.cols / 64) + j / 64) 0, i % 128 * 64 + j % 64)

def laneOfTile (k : CoreSt) (t : LTile) (i j : Nat) : Lane :=
  let q := laneAt t i j
  tget Lane.zero (tget PTile.init k.ptiles q.1).lanes q.2

/-- Adding a contribution to a physical tile: the lane, its row's and its column's checksum (10 R252). -/
def PTile.add (p : PTile) (ix : Nat) (c : Word × BitVec 2) : PTile :=
  if c = (0, 0) then p
  else
    let up (m : Table Lane) (i : Nat) : Table Lane := tput m i ((tget Lane.zero m i).add c)
    { lanes := up p.lanes ix, rowSum := up p.rowSum (ix / 64), colSum := up p.colSum (ix % 64), drained := false }

def addToLane (k : CoreSt) (t : LTile) (i j : Nat) (c : Word × BitVec 2) : CoreSt :=
  let q := laneAt t i j
  { k with ptiles := tput k.ptiles q.1 ((tget PTile.init k.ptiles q.1).add q.2 c) }

/-- The lanes are changed: the tile is no longer drained (06 R151, 10 R233). -/
def LTile.live (t : LTile) : LTile :=
  if t.st = .held then { t with was := .live } else { t with st := .live }
def undrain (k : CoreSt) (phys : List Nat) : CoreSt :=
  { k with ptiles := phys.foldl (fun m j => tput m j { tget PTile.init m j with drained := false }) k.ptiles }

/-- Sums of the lanes of a physical tile along a key of the lane's place. -/
def sumBy (key : Nat → Nat) (lanes : Table Lane) : Table Lane :=
  lanes.foldl (fun m l => tput m (key l.1) ((tget Lane.zero m (key l.1)).add (l.2.g, l.2.flag))) []

/-- Do the checksums of rows, or of columns, disagree with the lanes (10 R257, R259)? -/
def rowsBad (p : PTile) : Bool :=
  let m := sumBy (· / 64) p.lanes
  (upto 128).any fun r => tget Lane.zero m r != tget Lane.zero p.rowSum r
def colsBad (p : PTile) : Bool :=
  let m := sumBy (· % 64) p.lanes
  (upto 64).any fun c => tget Lane.zero m c != tget Lane.zero p.colSum c

/-- Does a word of the tile read uncorrectable (10 R252)? -/
def tilePoisoned (s : State) (core : Nat) (t : LTile) : Bool :=
  t.phys.any fun j => isPoisoned s (winBase + core * winSize + 0x200000 + j * 0x10000) 0x10000

/-- The three checks of a tile (10 R252, R257, R259): CHKFAIL, columns of checksums by row, and by column. -/
def tileChecks (s : State) (core : Nat) (t : LTile) : Nat :=
  let ps := t.phys.map fun j => tget PTile.init (s.core core).ptiles j
  if t.st = .unshaped then 0
  else b2n (t.chkfail || tilePoisoned s core t) + 2 * b2n (ps.any rowsBad) + 4 * b2n (ps.any colsBad)

/-- Words of a core's SRAM that are written whole become clean (06 R160): a stretch of its window, tiles, a row of an operand window. -/
def cleanWords (s : State) (core off n : Nat) : State :=
  { s with poison := poisonAfter s.poison (winBase + core * winSize + off) n }
def cleanTiles (s : State) (core : Nat) (phys : List Nat) : State :=
  phys.foldl (fun s j => cleanWords s core (0x200000 + j * 0x10000) 0x10000) s

/-- Bytes of a row of the operand window, and its rows (10 R241). -/
def rowBytes (elem : Nat) : Nat :=
  match (elemFmt elem).bits with | 4 => 128 | 16 => 512 | _ => 256
def cleanRow (s : State) (core : Nat) (p : Partn) (elem r : Nat) : State :=
  cleanWords s core (0x100000 + p.ob + r * rowBytes elem) (rowBytes elem)

/-- Does a word of a window row that a product with some columns reads read uncorrectable (10 R252)? -/
def rowBad (s : State) (core : Nat) (p : Part) (cols r : Nat) : Bool :=
  match p.rf with
  | some f => isPoisoned s (winBase + core * winSize + 0x100000 + p.partn.ob + r * rowBytes f.elem) (rowBytes f.elem * cols / 256)
  | none => false
def Part.orows (p : Part) (elem : Nat) : Nat := p.partn.ow / rowBytes elem
def residentElem (e : Nat) : Bool := [1, 2, 3, 4, 9, 10, 11, 12, 13, 14, 15].contains e
def streamElem (e : Nat) : Bool := residentElem e || e == 16 || e == 17

/-- A code of the operand window, and writing one (10 R241). -/
def resCode (st : Table Byte) (elem r c : Nat) : Nat :=
  match (elemFmt elem).bits with
  | 4 => fld (tget 0 st (r * 128 + c / 2)).toNat (4 * (c % 2)) 4
  | 16 => (tget 0 st (r * 512 + 2 * c)).toNat + 256 * (tget 0 st (r * 512 + 2 * c + 1)).toNat
  | n => (tget 0 st (r * 256 + c)).toNat % 2 ^ n
def putCode (st : Table Byte) (elem r c v : Nat) : Table Byte :=
  match (elemFmt elem).bits with
  | 4 =>
    let a := r * 128 + c / 2
    tput st a (BitVec.ofNat 8 (setFld (tget 0 st a).toNat (4 * (c % 2)) 4 v))
  | 16 => tput (tput st (r * 512 + 2 * c) (BitVec.ofNat 8 v)) (r * 512 + 2 * c + 1) (BitVec.ofNat 8 (v / 256))
  | n => tput st (r * 256 + c) (BitVec.ofNat 8 (v % 2 ^ n))

/-- Resident(r, c) (10 R241). -/
def Part.resident (p : Part) (r c : Nat) : Val :=
  match p.rf with
  | none => .fin false 0 1
  | some f => elemVal f.elem f.block (tget 0 p.oscale (r * 8 + c / 32)).toNat (resCode p.ostore f.elem r c)

/-- A row of the window is replaced: codes +0, scales 0x7F (10 R244). -/
def Part.freshRow (p : Part) (elem r : Nat) : Part :=
  { p with ostore := p.ostore.filter fun b => b.1 / rowBytes elem != r
           oscale := (upto 8).foldl (fun m b => tput m (r * 8 + b) 0x7F) p.oscale }

/-- Exact column sums of groups of g rows (10 R246). -/
def Part.columnSums (p : Part) (g : Nat) : Table Val :=
  match p.rf with
  | none => []
  | some f =>
    let n := p.orows f.elem
    (upto (cdiv n g)).foldl (fun m j => (upto 256).foldl (fun m c =>
      tput m (j * 256 + c) ((upto g).foldl (fun v i => if j * g + i < n then v.add (p.resident (j * g + i) c) else v)
        (.fin false 0 1))) m) []

/-- Tile states as ASTAT gives them (10 R240). -/
def TileSt.code : TileSt → Nat
  | .unshaped => 0 | .live => 1 | .draining => 2 | .drained => 3 | .held => 4

/-- What ASTAT returns (10 R240). -/
def astatWord (s : State) (core : Nat) (t : LTile) (v : Nat) : Nat :=
  let k := s.core core
  if t.st = .unshaped then 0
  else if bit v 63 then
    let i := fld v 8 8
    let c := fld v 0 3
    if t.rows ≤ i ∨ t.cols ≤ 32 * c then 0
    else ((upto 32).map fun m => (laneOfTile k t i (32 * c + m)).flag.toNat * 4 ^ m).foldl (· + ·) 0
  else
    let flags := t.phys.foldl (fun a j => (tget PTile.init k.ptiles j).lanes.foldl (fun a l => gridCombine a l.2.flag) a) (0 : BitVec 2)
    unsgn 9 t.datum * 2 ^ 39 + (t.rows - 1) % 256 * 2 ^ 31 + (t.cols / 64 - 1) % 4 * 2 ^ 29 + t.st.code * 2 ^ 26 +
      (t.phys.foldl (fun a j => Nat.lor a (2 ^ j)) 0) % 256 * 2 ^ 18 + flags.toNat * 2 ^ 16 + b2n t.part * 2 ^ 15 +
      b2n (t.chkfail || tilePoisoned s core t) * 2 ^ 14 + bit3 t.dflags
where
  /-- SCALE_FLOOR, SATURATED, NAN_SEEN and INEXACT of the last drain in bits 13 to 10. -/
  bit3 (f : Nat) : Nat := f % 16 * 2 ^ 10

/-- An engine operation with what it read at issue. -/
def EngOp.new (seq uid ctx opId tpc len : Nat) (kind : EngKind) (p : Plat) (h : Handle) (n org : Nat) : EngOp :=
  { seq := seq, uid := uid, ctx := ctx, opId := opId, tpc := tpc, len := len, kind := kind, plat := p, snap := h,
    hnum := n, org := org, started := false, heldAt := 0, marks := [], flight := [], bad := [], buf := [], row := 0,
    phys := [], toReserve := [], toSend := [], per := 1, wide := false, flags := 0,
    out := [], line := none, words := [], kept := [] }

/-- Entries of a core's engine queue, of every context (10 R234). -/
def engineQueued (s : State) (core : Nat) : Nat :=
  ((s.parts.filter fun p => p.2.core == core).map fun p => p.2.eq.length).foldl (· + ·) 0

/-- Append an entry to a queue; the core numbers it. -/
def pushEngine (s : State) (core ctx : Nat) (f : Nat → EngOp) : State :=
  let n := (s.core core).nextSeq
  (s.modCore core fun k => { k with nextSeq := n + 1 }).modPart core ctx fun p => { p with eq := p.eq ++ [f n] }

/-- The snapshot that a linked plat register carries (12 R286), and its number, 4 for none. -/
def linkedSnap (t : Strand) (q : Nat) : Handle × Nat :=
  if (tget Plat.init t.plats q).linked then (tget Handle.init t.handles q, q) else (Handle.init, 4)

/-- Entering the engine's queue is acceptance (10 R234); a full queue wastes the turn. late says that the instruction
returns at acceptance (10 R236). coop enters the queues of the whole cluster (10 R254). -/
def Exe.engine (x : Exe) (kind : EngKind) (q : Option Nat) (org : Nat) (late : Bool) (dests : List Loc)
    (coop : Option (Nat × Nat) := none) : Eff :=
  let core := x.t.lcore
  let others := if coop.isSome then (clusterCores (coreCluster core)).filter (· != core) else []
  if (core :: others).any fun c => decide (16 ≤ engineQueued x.s c) then .wait x.s
  else if !late && decide (32 ≤ x.t.outstanding) then .wait x.s
  else
    let h := match q with | some q => linkedSnap x.t q | none => (Handle.init, 4)
    let p := match q with | some q => tget Plat.init x.t.plats q | none => Plat.init
    let t := x.t.send .engine .k x.pc x.len x.s.steps dests
    let t := if late then { t with ops := t.ops.map fun o => if o.id = x.t.nextOp then { o with phase := .late } else o } else t
    let seq := (x.s.core core).nextSeq
    let s := pushEngine (x.s.setStrand x.u t) core x.t.ctx fun n =>
      EngOp.new n x.u x.t.ctx x.t.nextOp x.pc x.len kind p h.1 h.2 org
    .ok (match coop with
      | none => s
      | some ao => others.foldl (fun s c => pushEngine s c x.t.ctx fun n =>
          EngOp.new n x.u x.t.ctx x.t.nextOp x.pc x.len (.coop core seq ao.1 ao.2) p Handle.init 4 org) s)

/-- The instructions on tiles (10 R237 to R240, R259). -/
def execAshape (h : Hdr) (a : Tile) (rows : BitVec 8) (cc : BitVec 2) : State → Outcome :=
  issue h { len := lenShort } fun x =>
    x.engine (.ashape a.val (rows.toNat + 1) (64 * (cc.toNat + 1))) none 0 true []
def execAdatum (h : Hdr) (a : Tile) (d : BitVec 9) : State → Outcome :=
  issue h { len := lenShort } fun x => x.engine (.adatum a.val d.toInt) none 0 true []
def execAzero (h : Hdr) (a : Tile) : State → Outcome :=
  issue h { len := lenShort } fun x => x.engine (.azero a.val) none 0 true []
def execAstat (h : Hdr) (a : Tile) (rd : Reg) : State → Outcome :=
  issue h { len := lenShort, pendingClass := true, refs := [.r rd] } fun x =>
    x.engine (.astat a.val (x.t.reg rd).toNat) none 0 false (x.t.dest rd)
def execAchk (h : Hdr) (a : Tile) (rd : Reg) : State → Outcome :=
  issue h { len := lenShort, pendingClass := true, refs := [.r rd] } fun x =>
    x.engine (.achk a.val) none 0 false (x.t.dest rd)

/-- F3, or the literal that takes its place (02 R54). -/
def Exe.f3 (x : Exe) (e : Ext) (lit : Option Word) : Nat := match lit with | some w => w.toNat | none => (x.t.reg e.f3).toNat
def refF3 (e : Ext) (lit : Option Word) : List Ref := if lit.isSome then [] else [.r e.f3]
def lenOf (lit : Option Word) : Nat := if lit.isSome then lenExtLit else lenExt

/-- The row value o of a load or of OLD (10 R243, R248). -/
def Exe.rowO (x : Exe) (e : Ext) (lit : Option Word) : Nat := x.f3 e lit % 2 ^ 12

/-- Operands of the engine's extended instructions: registers, and a plat register that may be pending (12 R290). -/
def qRef (q : Fin 16) : Ref := .l (.qreg q.val)
def cldRefs (e : Ext) (lit : Option Word) : List Ref := [.r e.f0, qRef e.obj1] ++ refF3 e lit
def oldRefs (e : Ext) (lit : Option Word) : List Ref :=
  [.r e.f0, qRef e.obj0] ++ (if bit e.mode.toNat 4 then [.r e.f1] else []) ++ refF3 e lit
def adrainRefs (e : Ext) (lit : Option Word) : List Ref :=
  [.r e.f0, qRef e.obj1] ++ (if mxElem (e.imm.toNat % 32) then refF3 e lit else [])
def mseqRefs (e : Ext) (lit : Option Word) : List Ref := [.r e.f0, .r e.f1, .r e.f2] ++ refF3 e lit

/-- CLD, CLDC (10 R248 to R255), CLD.SP (11 R272). -/
def cldEff (e : Ext) (lit : Option Word) (x : Exe) : Eff :=
  x.engine (.cld e.obj0.val (x.rowO e lit) false) (some e.obj1.val) (x.t.reg e.f0).toNat false []
def cldcEff (e : Ext) (lit : Option Word) (x : Exe) : Eff :=
  x.engine (.cld e.obj0.val (x.rowO e lit) true) (some e.obj1.val) (x.t.reg e.f0).toNat false []
    (some (e.obj0.val, x.rowO e lit))
def cldSpEff (e : Ext) (lit : Option Word) (x : Exe) : Eff :=
  x.engine (.cldSp e.obj0.val (x.t.reg e.f0).toNat (x.rowO e lit)) (some e.obj1.val) 0 false []

/-- OLD, OLD.T (10 R243 to R247): the chain list's offset is F1 under CHAIN. -/
def chainOf (e : Ext) (x : Exe) : Option Nat := if bit e.mode.toNat 4 then some (x.t.reg e.f1).toNat else none
def oldEff (e : Ext) (lit : Option Word) (x : Exe) : Eff :=
  x.engine (.old (x.rowO e lit) (chainOf e x)) (some e.obj0.val) (x.t.reg e.f0).toNat true []
def oldTEff (e : Ext) (lit : Option Word) (x : Exe) : Eff :=
  x.engine (.oldT (x.rowO e lit) (e.mode.toNat % 8) (bit e.mode.toNat 3) (fld e.imm.toNat 10 10) x.t.dseed.toNat (chainOf e x))
    (some e.obj0.val) (x.t.reg e.f0).toNat true []

/-- OCOLS (10 R246). -/
def ocolsEff (e : Ext) (x : Exe) : Eff := x.engine (.ocols (32 * 2 ^ fld e.mode.toNat 5 2)) none 0 true []

/-- ADRAIN (10 R256). -/
def adrainEff (e : Ext) (lit : Option Word) (x : Exe) : Eff :=
  x.engine (.adrain e.obj0.val (e.imm.toNat % 32) (e.mode.toNat % 8) (bit e.mode.toNat 3) (fld e.imm.toNat 10 10)
    (if mxElem (e.imm.toNat % 32) then x.f3 e lit else 0) x.t.dseed.toNat) (some e.obj1.val) (x.t.reg e.f0).toNat true []

/-- MSEQ (11 R276). -/
def mseqEff (e : Ext) (lit : Option Word) (x : Exe) : Eff :=
  x.engine (.mseq (x.t.reg e.f1).toNat (x.t.reg e.f2).toNat (x.f3 e lit) e.imm.toNat) none 0 false (x.t.dest e.f0)

def execCld (h : Hdr) (e : Ext) : State → Outcome :=
  issue h { len := lenExt, pendingClass := true, refs := cldRefs e none } (cldEff e none)
def execCldLit (h : Hdr) (e : Ext) (lit : Word) : State → Outcome :=
  issue h { len := lenExtLit, pendingClass := true, refs := cldRefs e (some lit) } (cldEff e (some lit))
def execCldc (h : Hdr) (e : Ext) : State → Outcome :=
  issue h { len := lenExt, pendingClass := true, refs := cldRefs e none } (cldcEff e none)
def execCldcLit (h : Hdr) (e : Ext) (lit : Word) : State → Outcome :=
  issue h { len := lenExtLit, pendingClass := true, refs := cldRefs e (some lit) } (cldcEff e (some lit))
def execCldSp (h : Hdr) (e : Ext) : State → Outcome :=
  issue h { len := lenExt, pendingClass := true, refs := cldRefs e none } (cldSpEff e none)
def execCldSpLit (h : Hdr) (e : Ext) (lit : Word) : State → Outcome :=
  issue h { len := lenExtLit, pendingClass := true, refs := cldRefs e (some lit) } (cldSpEff e (some lit))
def execOld (h : Hdr) (e : Ext) : State → Outcome := issue h { len := lenExt, refs := oldRefs e none } (oldEff e none)
def execOldLit (h : Hdr) (e : Ext) (lit : Word) : State → Outcome :=
  issue h { len := lenExtLit, refs := oldRefs e (some lit) } (oldEff e (some lit))
def execOldT (h : Hdr) (e : Ext) : State → Outcome := issue h { len := lenExt, refs := oldRefs e none } (oldTEff e none)
def execOldTLit (h : Hdr) (e : Ext) (lit : Word) : State → Outcome :=
  issue h { len := lenExtLit, refs := oldRefs e (some lit) } (oldTEff e (some lit))
def execOcols (h : Hdr) (e : Ext) : State → Outcome := issue h { len := lenExt } (ocolsEff e)
def execAdrain (h : Hdr) (e : Ext) : State → Outcome :=
  issue h { len := lenExt, refs := adrainRefs e none } (adrainEff e none)
def execAdrainLit (h : Hdr) (e : Ext) (lit : Word) : State → Outcome :=
  issue h { len := lenExtLit, refs := adrainRefs e (some lit) } (adrainEff e (some lit))
def execMseq (h : Hdr) (e : Ext) : State → Outcome :=
  issue h { len := lenExt, pendingClass := true, refs := mseqRefs e none } (mseqEff e none)
def execMseqLit (h : Hdr) (e : Ext) (lit : Word) : State → Outcome :=
  issue h { len := lenExtLit, pendingClass := true, refs := mseqRefs e (some lit) } (mseqEff e (some lit))

/-- SLOTW (10 R261): the entry takes effect at the next frame boundary. -/
def execSlotw (h : Hdr) (ra rb : Reg) : State → Outcome :=
  issue h { len := lenShort, priv := true, refs := [.r ra, .r rb] } fun x =>
    let v := (x.t.reg rb).toNat
    .ok (x.s.modCore x.t.lcore fun k =>
      { k with stabNew := tput k.stabNew ((x.t.reg ra).toNat % 64) (v % 2 ^ 12 + fld v 15 1 * 2 ^ 15) })

end Sys2Proof.Machine
end

