-- ==== Sys2Proof/Machine/Vector.lean ====
section
/-! DEFINITION. Pointers, lane claims, mailboxes and the vector side (09 R205 to R229). -/

namespace Sys2Proof.Machine
open Sys2Proof

/-- A pointer's 64-bit view (09 R205). -/
def Pointer.word (p : Pointer) : Word := w64 (p.off % 2 ^ 24 + p.str % 2 ^ 24 * 2 ^ 24)

/-- PSET, PGET (09 R206). -/
def execPset (h : Hdr) (p : Ptr) (ra rb : Reg) : State → Outcome :=
  issue h { len := lenShort, refs := [.r ra, .r rb] } fun x =>
    x.upd { x.t with ptrs := tput x.t.ptrs p.val ⟨(x.t.reg ra).toNat % 2 ^ 24, (x.t.reg rb).toNat % 2 ^ 24⟩ }
def execPget (h : Hdr) (p : Ptr) (ra : Reg) : State → Outcome :=
  regOp h lenShort ra [] fun t => (tget Pointer.init t.ptrs p.val).word

/-! ## Lane claims -/

/-- Claims of the strands of a cluster. -/
def clusterClaims (s : State) (cl : Nat) : List (Nat × Claim) :=
  (s.strands.filter fun t => coreCluster t.2.pcore == cl && t.2.st != .ended).flatMap fun t => t.2.claims.map fun c => (t.1, c)

/-- Lanes that were given up and that instructions issued while the grant held them still run on (09 R211). -/
def owedLanes (t : Strand) (c : Claim) : Nat :=
  ((c.owed.filter fun o => t.vq.any fun v => v.cid == c.id && decide (o.2.1 ≤ v.seq) && decide (v.seq < o.2.2)).map (·.1)).foldl (· + ·) 0

/-- Free lanes of a cluster's pool (09 R208). -/
def freeLanes (s : State) (cl : Nat) : Nat :=
  256 - ((clusterClaims s cl).map fun p => p.2.grant + owedLanes (s.strand p.1) p.2).foldl (· + ·) 0

/-- A renegotiation that must grow to its minimum (09 R210). -/
def Claim.growing (c : Claim) : Bool :=
  c.grant != 0 && (match c.rens with | r :: _ => decide (c.grant < r.min) | [] => false)
def Claim.waits (c : Claim) : Bool := c.grant == 0 || c.growing

/-- The place in the pool's arrival order. -/
def Claim.order (c : Claim) : Nat :=
  if c.grant = 0 then c.id else match c.rens with | r :: _ => r.order | [] => c.id

def State.claim (s : State) (u cid : Nat) : Option Claim := (s.strand u).claims.find? fun c => c.id == cid
def State.setClaim (s : State) (u : Nat) (c : Claim) : State :=
  s.modStrand u fun t => { t with claims := t.claims.map fun x => if x.id = c.id then c else x }

/-- The grant that Renegotiate gives (09 R210), within the asked count (09 R208). -/
def renegGrant (s : State) (cl : Nat) (c : Claim) : Nat :=
  let all := (clusterClaims s cl).map (·.2)
  let h := (all.filter fun c => c.grant != 0).length
  let q := (all.filter Claim.waits).length
  if q ≠ 0 then min c.ask (max c.min (min c.grant (16 * max 1 (16 / (h + q)))))
  else min c.ask (c.grant + freeLanes s cl / 16 * 16)

/-- The latest n lanes of a grant, with the step from which each ran, and those that stay. -/
def shedLanes : Nat → List (Nat × Nat) → List (Nat × Nat) × List (Nat × Nat)
  | _, [] => ([], [])
  | n, p :: l =>
    if n = 0 then ([], p :: l)
    else if n < p.1 then ([(n, p.2)], (p.1 - n, p.2) :: l)
    else let q := shedLanes (n - p.1) l; (p :: q.1, q.2)

/-- A claim takes a new grant, for the instructions issued from a step on; lanes that earlier instructions run on go back when those have
finished (09 R211). -/
def Claim.regrant (c : Claim) (g now : Nat) : Claim :=
  if g < c.grant then
    let q := shedLanes (c.grant - g) c.segs
    { c with grant := g, segs := q.2, owed := c.owed ++ q.1.map fun p => (p.1, p.2, now) }
  else if g = c.grant then c
  else { c with grant := g, segs := (g - c.grant, now) :: c.segs }

/-- Renegotiate (09 R210), at a point of the strand's issue: what was issued before it keeps its lanes (09 R211). -/
def renegotiate (s : State) (u : Nat) (c : Claim) (seq : Nat) : State :=
  if c.grant = 0 then s
  else s.setClaim u (c.regrant (renegGrant s (coreCluster (s.strand u).pcore) c) seq)

/-- The renegotiations of a granted claim are performed in order; one whose minimum is above the grant joins the pool's
arrival order and stops the rest (09 R210). -/
def settleRens : Nat → State → Nat → Nat → State
  | 0, s, _, _ => s
  | fuel + 1, s, u, cid =>
    match s.claim u cid with
    | none => s
    | some c =>
      match c.rens with
      | [] => s
      | r :: rs =>
        if c.grant = 0 then s
        else if c.grant < r.min then
          if r.order = 0 then s.setClaim u { c with rens := { r with order := s.steps } :: rs } else s
        else
          let c' := if r.ask = 0 then { c with rens := rs } else { c with rens := rs, ask := r.ask, min := r.min }
          let s := renegotiate (s.setClaim u c') u c' r.seq
          let g := match s.claim u cid with | some c => c.grant | none => 0
          let s := match s.op u r.opId with | some o => opDone s u o [w64 g] | none => s
          settleRens fuel s u cid

/-- A claim that VFREE has ended goes back to the pool when it has been granted, its renegotiations are done and its part
of the vector queue is empty (09 R210). -/
def settleFree (s : State) (u : Nat) : State :=
  let t := s.strand u
  let done (c : Claim) : Bool :=
    c.freed.isSome && c.grant != 0 && c.rens.isEmpty && !(t.vq.any fun v => v.cid == c.id)
  let out := t.claims.filter done
  let s := s.setStrand u { t with claims := t.claims.filter fun c => !done c }
  out.foldl (fun s c => match s.op u (c.freed.getD 0) with | some o => opDone s u o [] | none => s) s

/-- A request's A and M, and whether they meet R208. -/
def reqAsk (w : Word) : Nat := fld w.toNat 0 9
def reqMin (w : Word) : Nat := if fld w.toNat 16 9 = 0 then 16 else fld w.toNat 16 9
def reqOk (w : Word) : Bool :=
  reqAsk w % 16 == 0 && reqMin w % 16 == 0 && decide (16 ≤ reqMin w) && decide (reqMin w ≤ reqAsk w) && decide (reqAsk w ≤ 256)

/-- VCLAIM (09 R210). -/
def execVclaim (h : Hdr) (rd ra : Reg) : State → Outcome :=
  issue h { len := lenShort, pendingClass := true, refs := [.r ra, .r rd] } fun x =>
    let w := x.t.reg ra
    if x.t.held.isSome || !reqOk w then .trap { code := 28 }
    else
      x.upd { x.t.send .claim .v x.pc x.len x.s.steps (x.t.dest rd) with
        claims := x.t.claims ++ [⟨x.s.steps, reqAsk w, reqMin w, 0, x.t.nextOp, [], none, [], []⟩] }

/-- VRENEG (09 R210). -/
def execVreneg (h : Hdr) (rd ra : Reg) : State → Outcome :=
  issue h { len := lenShort, pendingClass := true, refs := [.r ra, .r rd] } fun x =>
    let w := x.t.reg ra
    match x.t.held with
    | none => .trap { code := 28 }
    | some c =>
      if w ≠ 0 ∧ reqOk w = false then .trap { code := 28 }
      else
        let r : Reneg := ⟨x.t.nextOp, if w = 0 then 0 else reqAsk w, if w = 0 then 0 else reqMin w, x.s.steps, 0⟩
        let s := (x.s.setStrand x.u (x.t.send .claim .v x.pc x.len x.s.steps (x.t.dest rd))).setClaim x.u
          { c with rens := c.rens ++ [r] }
        .ok (settleRens (c.rens.length + 1) s x.u c.id)

/-- VFREE (09 R210). -/
def execVfree (h : Hdr) : State → Outcome :=
  issue h { len := lenShort, pendingClass := true } fun x =>
    match x.t.held with
    | none => .trap { code := 28 }
    | some c =>
      .ok (settleFree ((x.s.setStrand x.u (x.t.send .claim .v x.pc x.len x.s.steps [])).setClaim x.u
        { c with freed := some x.t.nextOp }) x.u)

/-- The claim that the pool serves next: the earliest request that waits (09 R210). -/
def nextRequest (s : State) (cl : Nat) : Option (Nat × Claim) :=
  ((clusterClaims s cl).filter fun p => p.2.waits).foldl (fun a p =>
    match a with | some q => if p.2.order < q.2.order then some p else some q | none => some p) none

/-- The pool of a cluster grants lanes to the earliest waiting request, when it can (09 R210). -/
def execLaneGrant (cl : Nat) (s : State) : Outcome :=
  .next (
    match nextRequest s cl with
    | none => s
    | some (u, c) =>
      let free := freeLanes s cl
      if c.grant = 0 then
        if free < c.min then s
        else
          let g := min c.ask (free / 16 * 16)
          let s := s.setClaim u (c.regrant g 0)
          let s := match s.op u c.opId with | some o => opDone s u o [w64 g] | none => s
          settleFree (settleRens (c.rens.length + 1) s u c.id) u
      else
        match c.rens with
        | [] => s
        | r :: rs =>
          if free < r.min - c.grant then s
          else
            let g := min r.ask (c.grant + free / 16 * 16)
            let s := s.setClaim u { c.regrant g r.seq with ask := r.ask, min := r.min, rens := rs }
            let s := match s.op u r.opId with | some o => opDone s u o [w64 g] | none => s
            settleFree (settleRens rs.length s u c.id) u)

/-! ## Issue of a vector instruction -/

/-- An operand that a pointer names: its pointer, alignment and bytes (09 R212). -/
structure PtrUse where
  p : Nat
  align : Nat
  bytes : Nat

def ptrOff (t : Strand) (p : Nat) : Nat := (tget Pointer.init t.ptrs p).off

/-- The named pointers advance, each once (09 R207). -/
def advance (t : Strand) (ps : List Nat) : Strand :=
  { t with ptrs := ps.eraseDups.foldl (fun m p =>
      let q := tget Pointer.init m p
      tput m p ⟨(q.off + q.str) % 2 ^ 24, q.str⟩) t.ptrs }

/-- The issue of a vector instruction (09 R207, R212): VECTOR_CLAIM, ALIGN, the bound of the scratchpad, and acceptance by
a queue of 4; v holds what was read. -/
def vecIssue (x : Exe) (uses : List PtrUse) (v : VecOp) : Eff :=
  match x.t.held with
  | none => .trap { code := 28 }
  | some c =>
    if uses.any fun o => ptrOff x.t o.p % o.align != 0 then .trap { code := 6 }
    else if uses.any fun o => o.bytes != 0 && decide (spadSize x.s x.t.lcore x.t.ctx < ptrOff x.t o.p + o.bytes) then
      .trap { code := 7, sub := 3 }
    else if 4 ≤ x.t.vq.length then .wait x.s
    else
      let v := { v with spans := uses.map fun o => (ptrOff x.t o.p, o.bytes)
                        cid := c.id, seq := x.s.steps, opId := x.t.nextOp, tpc := x.pc, len := x.len }
      x.upd { advance x.t (uses.map (·.p)) with vq := x.t.vq ++ [v], nextOp := x.t.nextOp + 1 }

/-- Element types (02 R50): ELEM code, bytes, and float format. -/
def etElem (et : Nat) : Nat := [8, 10, 9, 6, 5, 3].getD et 8
def etSize (et : Nat) : Nat := [4, 2, 2, 4, 2, 1].getD et 4
def etIsFloat (et : Nat) : Bool := et < 3
def etFlt (et : Nat) : FFmt := match et with | 0 => fp32 | 1 => bf16 | _ => fp16

/-- The count (09 R213). -/
def countOf (w : Word) : Nat := w.toNat % 2 ^ 20

/-- Element-wise instructions with two sources (09 R221). -/
def vecBin (h : Hdr) (op : Nat) (pd pa pb : Ptr) (rn : Reg) (et : ElTy) : State → Outcome :=
  issue h { len := lenShort, refs := [.r rn] } fun x =>
    let n := countOf (x.t.reg rn)
    let z := etSize et.code
    vecIssue x [⟨pd.val, z, n * z⟩, ⟨pa.val, z, n * z⟩, ⟨pb.val, z, n * z⟩]
      { op := op, et := et.code, n := n, pd := ptrOff x.t pd.val, pa := ptrOff x.t pa.val, pb := ptrOff x.t pb.val }
def execVadd (h : Hdr) (pd pa pb : Ptr) (rn : Reg) (et : ElTy) : State → Outcome := vecBin h 0x4A pd pa pb rn et
def execVsub (h : Hdr) (pd pa pb : Ptr) (rn : Reg) (et : ElTy) : State → Outcome := vecBin h 0x4B pd pa pb rn et
def execVmul (h : Hdr) (pd pa pb : Ptr) (rn : Reg) (et : ElTy) : State → Outcome := vecBin h 0x4C pd pa pb rn et
def execVfma (h : Hdr) (pd pa pb : Ptr) (rn : Reg) (et : ElTy) : State → Outcome := vecBin h 0x4D pd pa pb rn et
def execVmin (h : Hdr) (pd pa pb : Ptr) (rn : Reg) (et : ElTy) : State → Outcome := vecBin h 0x4E pd pa pb rn et
def execVmax (h : Hdr) (pd pa pb : Ptr) (rn : Reg) (et : ElTy) : State → Outcome := vecBin h 0x4F pd pa pb rn et

/-- Element-wise instructions with one source (09 R221). -/
def vecUn (h : Hdr) (sel : Nat) (pd pa : Ptr) (rn : Reg) (et : ElTy) : State → Outcome :=
  issue h { len := lenShort, refs := [.r rn] } fun x =>
    let n := countOf (x.t.reg rn)
    let z := etSize et.code
    vecIssue x [⟨pd.val, z, n * z⟩, ⟨pa.val, z, n * z⟩]
      { op := 0x500 + sel, et := et.code, n := n, pd := ptrOff x.t pd.val, pa := ptrOff x.t pa.val }
def execVabs (h : Hdr) (pd pa : Ptr) (rn : Reg) (et : ElTy) : State → Outcome := vecUn h 0 pd pa rn et
def execVneg (h : Hdr) (pd pa : Ptr) (rn : Reg) (et : ElTy) : State → Outcome := vecUn h 1 pd pa rn et
def execVexp2 (h : Hdr) (pd pa : Ptr) (rn : Reg) (et : ElTy) : State → Outcome := vecUn h 2 pd pa rn et
def execVlog2 (h : Hdr) (pd pa : Ptr) (rn : Reg) (et : ElTy) : State → Outcome := vecUn h 3 pd pa rn et
def execVrcp (h : Hdr) (pd pa : Ptr) (rn : Reg) (et : ElTy) : State → Outcome := vecUn h 4 pd pa rn et
def execVrsq (h : Hdr) (pd pa : Ptr) (rn : Reg) (et : ElTy) : State → Outcome := vecUn h 5 pd pa rn et
def execVcopy (h : Hdr) (pd pa : Ptr) (rn : Reg) (et : ElTy) : State → Outcome := vecUn h 6 pd pa rn et

/-- Reductions (09 R222). -/
def vecRed (h : Hdr) (sel : Nat) (mb : Obj2) (pa : Ptr) (rn : Reg) (et : ElTy) : State → Outcome :=
  issue h { len := lenShort, refs := [.r rn] } fun x =>
    let n := countOf (x.t.reg rn)
    let z := etSize et.code
    vecIssue x [⟨pa.val, z, n * z⟩] { op := 0x510 + sel, et := et.code, n := n, pa := ptrOff x.t pa.val, mb := mb.val }
def execVsum (h : Hdr) (mb : Obj2) (pa : Ptr) (rn : Reg) (et : ElTy) : State → Outcome := vecRed h 0 mb pa rn et
def execVmaxr (h : Hdr) (mb : Obj2) (pa : Ptr) (rn : Reg) (et : ElTy) : State → Outcome := vecRed h 1 mb pa rn et
def execVminr (h : Hdr) (mb : Obj2) (pa : Ptr) (rn : Reg) (et : ElTy) : State → Outcome := vecRed h 2 mb pa rn et
def execVargmax (h : Hdr) (mb : Obj2) (pa : Ptr) (rn : Reg) (et : ElTy) : State → Outcome := vecRed h 3 mb pa rn et

/-! ## Extended vector instructions (09 R224 to R229) -/

/-- The alignment of an operand of an ELEM code (09 R212). -/
def elemAlign (c : Nat) : Nat := match (elemFmt c).bits with | 6 => 64 | 16 => 2 | 32 => 4 | 64 => 8 | _ => 1

/-- The scalar registers that each extended vector instruction reads. -/
def vecRefs (o : ExtOp) (e : Ext) (lit : Option Word) : List Ref :=
  match o with
  | .vcmp | .vsel | .vnzc | .vdqmx => [.r e.f0]
  | .vscale => [.r e.f0, .r e.f1] ++ refF3 e lit
  | _ => [.r e.f0] ++ refF3 e lit

/-- What an extended vector instruction has read, with the offsets of its pointers. -/
def vecBase (o : ExtOp) (e : Ext) (lit : Option Word) (x : Exe) : VecOp :=
  { ext := some o, mode := e.mode.toNat, imm := e.imm.toNat, n := countOf (x.t.reg e.f0), pd := ptrOff x.t e.obj0.val,
    pa := ptrOff x.t e.obj1.val, pb := ptrOff x.t e.obj2.val, mb := e.obj2.val, x := (x.t.reg e.f1).toNat, y := x.f3 e lit,
    seed := x.t.dseed.toNat }

def vcmpEff (e : Ext) (x : Exe) : Eff :=
  let v := vecBase .vcmp e none x
  let et := fld v.mode 3 3
  let z := etSize et
  vecIssue x [⟨e.obj0.val, 1, cdiv v.n 8⟩, ⟨e.obj1.val, z, v.n * z⟩, ⟨e.obj2.val, z, v.n * z⟩] { v with et := et }
def vselEff (e : Ext) (x : Exe) : Eff :=
  let v := vecBase .vsel e none x
  let et := fld v.mode 3 3
  let z := etSize et
  let pm := fld v.mode 0 3
  vecIssue x [⟨e.obj0.val, z, v.n * z⟩, ⟨e.obj1.val, z, v.n * z⟩, ⟨e.obj2.val, z, v.n * z⟩, ⟨pm, 1, cdiv v.n 8⟩]
    { v with et := et, pm := ptrOff x.t pm }
def vscaleEff (e : Ext) (lit : Option Word) (x : Exe) : Eff :=
  let v := vecBase .vscale e lit x
  let et := fld v.mode 0 3
  let z := etSize et
  vecIssue x [⟨e.obj0.val, z, v.n * z⟩, ⟨e.obj1.val, z, v.n * z⟩] { v with et := et }
def vfillEff (e : Ext) (lit : Option Word) (x : Exe) : Eff :=
  let v := vecBase .vfill e lit x
  let et := fld v.mode 0 3
  let z := etSize et
  vecIssue x [⟨e.obj0.val, z, v.n * z⟩] { v with et := et }
def vrandEff (e : Ext) (lit : Option Word) (x : Exe) : Eff :=
  let v := vecBase .vrand e lit x
  vecIssue x [⟨e.obj0.val, 4, v.n * 4⟩] { v with et := fld v.mode 0 3 }
def vnzcEff (e : Ext) (x : Exe) : Eff :=
  let v := vecBase .vnzc e none x
  let el := fld v.mode 0 5
  vecIssue x ((if bit v.mode 5 then [⟨e.obj0.val, 1, cdiv v.n 8⟩] else []) ++ [⟨e.obj1.val, elemAlign el, elemBytes el v.n⟩]) v
def vcvtEff (e : Ext) (lit : Option Word) (x : Exe) : Eff :=
  let v := vecBase .vcvt e lit x
  let a := fld v.imm 0 5
  let d := fld v.imm 5 5
  vecIssue x [⟨e.obj0.val, elemAlign d, elemBytes d v.n⟩, ⟨e.obj1.val, elemAlign a, elemBytes a v.n⟩] v
def vqmxEff (e : Ext) (lit : Option Word) (x : Exe) : Eff :=
  let v := vecBase .vqmx e lit x
  let a := fld v.imm 0 5
  let d := fld v.imm 5 5
  vecIssue x [⟨e.obj0.val, elemAlign d, elemBytes d v.n⟩, ⟨e.obj1.val, elemAlign a, elemBytes a v.n⟩,
    ⟨e.obj2.val, 1, cdiv v.n 32⟩] v
def vdqmxEff (e : Ext) (x : Exe) : Eff :=
  let v := vecBase .vdqmx e none x
  let a := fld v.imm 0 5
  let d := fld v.imm 5 5
  vecIssue x [⟨e.obj0.val, elemAlign d, elemBytes d v.n⟩, ⟨e.obj1.val, elemAlign a, elemBytes a v.n⟩,
    ⟨e.obj2.val, 1, cdiv v.n 32⟩] v
/-- The group size of VQA (09 R229). -/
def qaGroup (mode : Nat) : Nat := 32 * 2 ^ fld mode 5 2
def vqaEff (e : Ext) (lit : Option Word) (x : Exe) : Eff :=
  let v := vecBase .vqa e lit x
  let a := fld v.imm 0 5
  let d := fld v.imm 5 5
  vecIssue x [⟨e.obj0.val, elemAlign d, elemBytes d v.n⟩, ⟨e.obj1.val, elemAlign a, elemBytes a v.n⟩,
    ⟨e.obj2.val, 4, 4 * cdiv v.n (qaGroup v.mode)⟩] v

/-- A chain stage (09 R226): K, SRC, OP, and whether it is legal. -/
def stageK (w : Nat) : Nat := fld w 32 32
def stageSrc (w : Nat) : Nat := fld w 8 2
def stageOp (w : Nat) : Nat := fld w 0 8
def stageOk (w : Nat) : Bool :=
  fld w 10 22 == 0 && stageOp w ≤ 12 &&
    (if 6 ≤ stageOp w ∧ stageOp w ≤ 11 then stageSrc w == 0
     else if stageOp w = 12 then stageSrc w == 1 || stageSrc w == 3 else stageSrc w != 0)

/-- VCHAIN (09 R226): the descriptor is read at issue, precisely, with n = 0 as well (DESIGN CHOICE, log 114). -/
def vchainEff (e : Ext) (lit : Option Word) (x : Exe) : Eff :=
  let v := vecBase .vchain e lit x
  let k := fld v.mode 0 4
  let et := fld v.mode 4 3
  let z := etSize et
  let o := v.y
  if x.t.held.isNone then .trap { code := 28 }
  else if o % 8 ≠ 0 then .trap { code := 6 }
  else if spadSize x.s x.t.lcore x.t.ctx < o + 8 * k then .trap { code := 7, sub := 3 }
  else if spadBusy x.s x.t.lcore x.t.ctx o (8 * k) then .wait x.s
  else if spadPoisoned x.s x.t.lcore x.t.ctx o (8 * k) then .trapIn (logSpad x.s x.t.lcore x.t.ctx o) { code := 10, acc := 1 }
  else
    let ws := (upto k).map fun i => spadLE x.s x.t.lcore x.t.ctx (o + 8 * i) 8
    let usesB := ws.any fun w => stageSrc w == 1
    if !(ws.all stageOk) || (!usesB && e.obj2.val != 0) then .trap { code := 1 }
    else
      vecIssue x ([⟨e.obj0.val, z, v.n * z⟩, ⟨e.obj1.val, z, v.n * z⟩] ++ (if usesB then [⟨e.obj2.val, z, v.n * z⟩] else []))
        { v with et := et, chain := ws }

def execVcmp (h : Hdr) (e : Ext) : State → Outcome := issue h { len := lenExt, refs := vecRefs .vcmp e none } (vcmpEff e)
def execVsel (h : Hdr) (e : Ext) : State → Outcome := issue h { len := lenExt, refs := vecRefs .vsel e none } (vselEff e)
def execVscale (h : Hdr) (e : Ext) : State → Outcome :=
  issue h { len := lenExt, refs := vecRefs .vscale e none } (vscaleEff e none)
def execVscaleLit (h : Hdr) (e : Ext) (lit : Word) : State → Outcome :=
  issue h { len := lenExtLit, refs := vecRefs .vscale e (some lit) } (vscaleEff e (some lit))
def execVfill (h : Hdr) (e : Ext) : State → Outcome :=
  issue h { len := lenExt, refs := vecRefs .vfill e none } (vfillEff e none)
def execVfillLit (h : Hdr) (e : Ext) (lit : Word) : State → Outcome :=
  issue h { len := lenExtLit, refs := vecRefs .vfill e (some lit) } (vfillEff e (some lit))
def execVrand (h : Hdr) (e : Ext) : State → Outcome :=
  issue h { len := lenExt, refs := vecRefs .vrand e none } (vrandEff e none)
def execVrandLit (h : Hdr) (e : Ext) (lit : Word) : State → Outcome :=
  issue h { len := lenExtLit, refs := vecRefs .vrand e (some lit) } (vrandEff e (some lit))
def execVnzc (h : Hdr) (e : Ext) : State → Outcome := issue h { len := lenExt, refs := vecRefs .vnzc e none } (vnzcEff e)
def execVchain (h : Hdr) (e : Ext) : State → Outcome :=
  issue h { len := lenExt, refs := vecRefs .vchain e none } (vchainEff e none)
def execVchainLit (h : Hdr) (e : Ext) (lit : Word) : State → Outcome :=
  issue h { len := lenExtLit, refs := vecRefs .vchain e (some lit) } (vchainEff e (some lit))
def execVcvt (h : Hdr) (e : Ext) : State → Outcome :=
  issue h { len := lenExt, refs := vecRefs .vcvt e none } (vcvtEff e none)
def execVcvtLit (h : Hdr) (e : Ext) (lit : Word) : State → Outcome :=
  issue h { len := lenExtLit, refs := vecRefs .vcvt e (some lit) } (vcvtEff e (some lit))
def execVqmx (h : Hdr) (e : Ext) : State → Outcome :=
  issue h { len := lenExt, refs := vecRefs .vqmx e none } (vqmxEff e none)
def execVqmxLit (h : Hdr) (e : Ext) (lit : Word) : State → Outcome :=
  issue h { len := lenExtLit, refs := vecRefs .vqmx e (some lit) } (vqmxEff e (some lit))
def execVdqmx (h : Hdr) (e : Ext) : State → Outcome :=
  issue h { len := lenExt, refs := vecRefs .vdqmx e none } (vdqmxEff e)
def execVqa (h : Hdr) (e : Ext) : State → Outcome :=
  issue h { len := lenExt, refs := vecRefs .vqa e none } (vqaEff e none)
def execVqaLit (h : Hdr) (e : Ext) (lit : Word) : State → Outcome :=
  issue h { len := lenExtLit, refs := vecRefs .vqa e (some lit) } (vqaEff e (some lit))

/-! ## Mailboxes -/

/-- A write of a mailbox (09 R218). -/
def mbWrite (t : Strand) (m : Nat) (v : Word) : Strand :=
  { t with mboxes := tput t.mboxes m ⟨true, v⟩, mblost := t.mblost || (tget Mailbox.init t.mboxes m).full }

/-- MBW, MBR (09 R219). -/
def execMbw (h : Hdr) (mb : Obj2) (rd : Reg) : State → Outcome :=
  issue h { len := lenShort, refs := [.r rd] } fun x => x.upd (mbWrite x.t mb.val (x.t.reg rd))
def execMbr (h : Hdr) (mb : Obj2) (rd : Reg) : State → Outcome :=
  issue h { len := lenShort, pendingClass := true, refs := [.r rd] } fun x =>
    x.send (.mbr mb.val) .v (x.t.dest rd) -- path V (DESIGN CHOICE, log 114)

end Sys2Proof.Machine
end

