-- ==== Sys2Proof/Machine/Barrier.lean ====
section
/-! DEFINITION. The barrier (18 R388 to R403), and the arrival of stores at their homes (05 R136, 08 R192, R197). -/

namespace Sys2Proof.Machine
open Sys2Proof

/-- The window address of a barrier of a context's run (18 R390). -/
def barrierPA (s : State) (core ctx j : Nat) : Nat :=
  winBase + core * winSize + 0x380000 + 16 * ((s.part core ctx).partn.bb + j)

/-- The barrier that a reference names: its core and its place in the context's run there (18 R392). -/
def barrierRef (s : State) (t : Strand) (v : Nat) : State × Except Cause (Nat × Nat) :=
  if v < 256 then
    (s, if v < (s.part t.lcore t.ctx).partn.nb then .ok (t.lcore, v) else .error { code := 8 })
  else if v % 16 ≠ 0 then (s, .error { code := 6, addr := v, acc := 3 })
  else
    let r := xlate s t.pcore t.ctx v .both t.sup
    (r.1, match r.2 with
      | .error c => .error c
      | .ok x =>
        match homeOf r.1 x.pa with
        | .window c off =>
          (match regionOf off with
          | .barrier j _ =>
            let p := (r.1.part c t.ctx).partn
            if p.bb ≤ j ∧ j < p.bb + p.nb then .ok (c, j - p.bb) else .error { code := 8, addr := v, acc := 3 }
          | _ => .error { code := 8, addr := v, acc := 3 })
        | _ => .error { code := 8, addr := v, acc := 3 })

/-- Is the page of a reference's address write-blocked: the access, which needs R and W, then waits (07 R181, 18 R392)? -/
def refBlocked (s : State) (t : Strand) (v : Nat) : Bool :=
  decide (256 ≤ v) && (match (xlate s t.pcore t.ctx v .both t.sup).2 with | .ok x => x.wb | .error _ => false)

def barrierOf (s : State) (core ctx j : Nat) : Barrier := tget Barrier.init (s.part core ctx).barriers j
def setBarrier (s : State) (core ctx j : Nat) (b : Barrier) : State :=
  s.modPart core ctx fun p => { p with barriers := tput p.barriers j b }

/-- Waiters whose watch on the barrier sees another phase are woken (18 R393, R398). -/
def wakeBarrier (s : State) (ctx pa phase : Nat) : State :=
  s.watches.foldl (fun s w =>
    if w.pa = pa ∧ w.placed = true ∧ w.e ≠ phase ∧ (s.strand w.uid).ctx = ctx then
      let s := { s with watches := s.watches.filter fun x => x != w }
      match s.op w.uid w.opId with
      | some o => (match o.kind with | .barrier .bwait _ _ _ => opDone s w.uid o [w64 phase] | _ => s)
      | none => s
    else s) s

/-- Advance (18 R393). -/
def advanceBar : Nat → State → Nat → Nat → Nat → State
  | 0, s, _, _, _ => s
  | fuel + 1, s, core, ctx, j =>
    let b := barrierOf s core ctx j
    if b.expc ≠ 0 ∧ b.expc ≤ b.arr ∧ b.pendB = 0 then
      let b' := { b with phase := (b.phase + 1) % 2 ^ 16, arr := b.arr - b.expc }
      advanceBar fuel (wakeBarrier (setBarrier s core ctx j b') ctx (barrierPA s core ctx j) b'.phase) core ctx j
    else s

/-- A barrier takes new fields, then the test of R393. -/
def barStep (s : State) (core ctx j : Nat) (b : Barrier) : State :=
  advanceBar (b.arr + 1) (setBarrier s core ctx j b) core ctx j

/-- PEND is counted modulo 2^36 (18 R396, R400). -/
def Barrier.owe (b : Barrier) (n : Nat) : Barrier := { b with pendB := (b.pendB + n) % 2 ^ 36 }

/-- The fields that BINIT, BEXP and an arrival leave (18 R395 to R397). -/
def Barrier.init' (b : Barrier) (v : Nat) : Barrier := { b with expc := v % 2 ^ 12, arr := 0, ovf := false }
def Barrier.arrive (b : Barrier) (v : Nat) : Barrier :=
  let n := if v % 2 ^ 12 = 0 then 1 else v % 2 ^ 12
  if 4095 < b.arr + n then { b with arr := 4095, ovf := true } else { b with arr := b.arr + n }

/-- Watches in use at a core's barrier unit (18 R398). -/
def barWatches (s : State) (core : Nat) : Nat :=
  (s.watches.filter fun w => w.placed && windowCore s w.pa == some core && inBarriers s w.pa).length

/-- The value that BTEST returns (18 R399). -/
def btestVal (s : State) (t : Strand) (b : Barrier) (sel : Nat) : Word :=
  match sel with
  | 0 => w64 (barrierWord b true)
  | 1 => BitVec.ofInt 64 (sgn 36 b.pendB)
  | 2 => w64 (0x380000 + 16 * (s.part t.lcore t.ctx).partn.bb)
  | _ => w64 (s.part t.lcore t.ctx).partn.nb

/-- Has a barrier operation gone to a spill queue (18 R402)? -/
def barDiverted (s : State) (u id : Nat) : Bool := s.ctxs.any fun x => (x.2.spill ++ x.2.refused).any fun q => q.2 == .unit u id

/-- Is an operation of a strand to a barrier of a core behind an earlier one of the strand to that core (18 R393)? One that has been
diverted has taken its place in the spill queue (18 R402). -/
def barBehind (s : State) (u core seq : Nat) : Bool :=
  let t := s.strand u
  (t.ops.any fun o =>
    o.phase == .sent && decide (o.seq < seq) && !(s.watches.any fun w => w.uid == u && w.opId == o.id) && !barDiverted s u o.id &&
      (match o.kind with
      | .barrier op a b _ => !(op == .btest && decide (2 ≤ b % 4)) &&
        (match (barrierRef s t a).2 with | .ok q => q.1 == core | .error _ => false)
      | _ => false)) ||
  s.writes.any fun w => w.uid == u && decide (w.seq < seq) && (match w.stb with | some q => q.2 == core | none => false)

/-- Is an arrival held (18 R397)? A write that a full spill queue has refused is not acknowledged (18 R402, 08 R204). -/
def arrivalHeld (s : State) (u seq : Nat) : Bool :=
  let holds (w : MemWrite) : Bool := w.uid == u && decide (w.seq < seq) && (w.stb.isSome || (windowCore s w.pa).isSome)
  s.writes.any holds || s.ctxs.any fun x => x.2.refused.any fun e => match e.2 with | .write w => holds w | _ => false

/-- A barrier instruction at its unit (18 R393 to R399). force is set at redelivery. -/
def performBar (s : State) (u : Nat) (o : Op) (force : Bool) : State :=
  match o.kind with
  | .barrier op a b e =>
    let t := s.strand u
    if op = .btest ∧ 2 ≤ b % 4 then opDone s u o [btestVal s t Barrier.init (b % 4)]
    else
      let r := barrierRef s t a
      match r.2 with
      | .error c => opFault r.1 u o c
      | .ok (core, j) =>
        let s := r.1
        if refBlocked s t a || frozenNow s core || barBehind s u core o.seq || (op == .barv && arrivalHeld s u o.seq) then s
        else if reach s core t.ctx = .divert then
          if barDiverted s u o.id then s
          else divert s t.ctx core (.unit u o.id)
        else if reach s core t.ctx = .wait ∧ force = false then s
        else
          let q := barrierOf s core t.ctx j
          let ph := [w64 q.phase]
          match op with
          | .binit => barStep (opDone s u o ph) core t.ctx j (q.init' b)
          | .bexp => barStep (opDone s u o ph) core t.ctx j (q.owe (b % 2 ^ 36))
          | .barv => barStep (opDone s u o ph) core t.ctx j (q.arrive b)
          | .btest => opDone s u o [btestVal s t q (b % 4)]
          | .bwait =>
            if q.phase ≠ e then opDone s u o ph
            else if s.watches.any fun w => w.uid == u && w.opId == o.id then s
            else { s with watches := s.watches ++ [⟨u, o.id, barrierPA s core t.ctx j, e, decide (barWatches s core < 64)⟩] }
          | .stb => s
  | _ => s

/-- The core that holds a strand performs an operation on its own barriers within its turn (18 R393). -/
def ownBarrier (s : State) (u id : Nat) : State :=
  match s.op u id with
  | some o =>
    match o.kind with
    | .barrier op a b _ =>
      if op = .btest ∧ 2 ≤ b % 4 then performBar s u o false
      else (match (barrierRef s (s.strand u) a).2 with
        | .ok q => if q.1 = (s.strand u).pcore then performBar s u o false else s
        | .error _ => s)
    | _ => s
  | none => s

/-- Precise checks of a reference (18 R392): a local number out of range, an unaligned address, which has ACC 3 (DEDUCED, log entry 22). -/
def barrierCheck (x : Exe) (v : Nat) : Option Cause :=
  if v < 256 then (if v < (x.s.part x.t.lcore x.t.ctx).partn.nb then none else some { code := 8 })
  else if v % 16 ≠ 0 then some { code := 6, addr := v, acc := 3 } else none

/-- The issue of a pending-class barrier instruction. -/
def barIssue (x : Exe) (o : BOp) (a b e : Nat) (rd : Reg) : Eff :=
  match (if o = .btest ∧ 2 ≤ b % 4 then none else barrierCheck x a) with
  | some c => .trap c
  | none =>
    .ok (ownBarrier (x.s.setStrand x.u (x.t.send (.barrier o a b e) .s x.pc x.len x.s.steps (x.t.dest rd))) x.u x.t.nextOp)

/-- BINIT, BEXP, BARV (18 R394 to R397). -/
def execBinit (h : Hdr) (rd ra rb : Reg) : State → Outcome :=
  issue h { len := lenShort, pendingClass := true, refs := [.r rd, .r ra, .r rb] } fun x =>
    barIssue x .binit (x.t.reg ra).toNat (x.t.reg rb).toNat 0 rd
def execBexp (h : Hdr) (rd ra rb : Reg) : State → Outcome :=
  issue h { len := lenShort, pendingClass := true, refs := [.r rd, .r ra, .r rb] } fun x =>
    barIssue x .bexp (x.t.reg ra).toNat (x.t.reg rb).toNat 0 rd
def execBarv (h : Hdr) (rd ra rb : Reg) : State → Outcome :=
  issue h { len := lenShort, pendingClass := true, refs := [.r rd, .r ra, .r rb] } fun x =>
    barIssue x .barv (x.t.reg ra).toNat (x.t.reg rb).toNat 0 rd

/-- BWAIT (18 R398): a claim is renegotiated at issue. -/
def execBwait (h : Hdr) (rd ra : Reg) : State → Outcome :=
  issue h { len := lenShort, pendingClass := true, refs := [.r rd, .r ra] } fun x =>
    match barIssue x .bwait (x.t.reg ra).toNat 0 ((x.t.reg rd).toNat % 2 ^ 16) rd with
    | .ok s => .ok (match x.t.held with | some c => renegotiate s x.u c x.s.steps | none => s)
    | e => e

/-- BTEST (18 R399): selectors 2 and 3 do not read ra. -/
def execBtest (h : Hdr) (rd ra rb : Reg) (s : State) : Outcome :=
  let sel := ((s.strand s.cur).reg rb).toNat % 4
  issue h { len := lenShort, pendingClass := true, refs := [.r rd, .r rb] ++ (if sel < 2 then [.r ra] else []) } (fun x =>
    barIssue x .btest (x.t.reg ra).toNat sel 0 rd) s

/-- STB counted at the barrier's core (18 R400): the bytes, PEND and the test, indivisibly. -/
def landStb (s : State) (ctx uid pa : Nat) (bs : List Byte) (core j : Nat) : State :=
  barStep (landWrite s ctx uid pa bs) core ctx j ((barrierOf s core ctx j).owe (2 ^ 36 - 8))

/-- Does an address land in the scratchpad of a core (18 R400)? -/
def inSpad (s : State) (pa core : Nat) : Bool :=
  match homeOf s pa with
  | .window c off => c == core && (match regionOf off with | .spad _ => true | _ => false)
  | _ => false

/-- STB (18 R400): every cause is precise; to its own core it is performed at once. -/
def execStb (h : Hdr) (rd ra rb : Reg) : State → Outcome :=
  issue h { len := lenShort, refs := [.r rd, .r ra, .r rb] } fun x =>
    let va := (x.t.reg ra).toNat
    let v := (x.t.reg rb).toNat
    if va % 8 ≠ 0 then .trap { code := 6, addr := va, acc := 2 }
    else
      match barrierCheck x v with
      | some c => .trap c
      | none =>
        let r := siteOf x.s x.t va 8 .write
        match r.2 with
        | .error c => .trap c
        | .ok w =>
          let q := barrierRef r.1 x.t v
          match q.2 with
          | .error c => .trap c
          | .ok (core, j) =>
            if !inSpad q.1 w.pa core then .trap { code := 8, addr := va, acc := 2 }
            else if w.wb || refBlocked q.1 x.t v then .wait q.1
            else
              match watchHit q.1 x.t.ctx x.skip va 8 .write false with
              | some k => .trap { code := 12, sub := k, addr := va, acc := 2 }
              | none =>
                let bs := leBytes 8 (x.t.reg rd).toNat
                let stop := stopHit q.1 x.t.ctx x.skip va 8 .write
                let s := q.1.setStrand x.u x.t
                let s := if w.loc then s else noteAccess s x.t va w.pa 8
                if core = x.t.pcore ∧ reach s core x.t.ctx = .open ∧ barBehind s x.u core s.steps = false ∧
                    localBehind s x.u va 8 w.pa = false then
                  .ok (stopAfter (landStb s x.t.ctx x.u w.pa bs core j) x.u stop)
                else
                  .ok { s with writes := s.writes ++
                    [⟨x.u, x.t.pcore, x.t.ctx, .s, va, w.pa, bs, some (j, core), s.steps, false, none, none, stop⟩] }

/-- A barrier unit performs an operation that has reached it (18 R393). -/
def execBarrierUnitPerform (uid id : Nat) (s : State) : Outcome :=
  .next (onWait s uid id fun o => match o.kind with | .barrier _ _ _ _ => performBar s uid o false | _ => s)

/-- A BWAIT that found every watch in use reads the phase again (18 R398), where the barrier's core holds it (18 R402). -/
def execBarrierPoll (uid id : Nat) (s : State) : Outcome :=
  .next (onWait s uid id fun o =>
    match s.watches.find? fun w => w.uid == uid && w.opId == id && !w.placed, o.kind with
    | some w, .barrier .bwait a _ e =>
      (match (barrierRef s (s.strand uid) a).2 with
      | .ok q =>
        let b := barrierOf s q.1 (s.strand uid).ctx q.2
        if b.phase = e ∨ reach s q.1 (s.strand uid).ctx ≠ .open ∨ frozenNow s q.1 = true then s
        else opDone { s with watches := s.watches.filter fun x => x != w } uid o [w64 b.phase]
      | .error _ => s)
    | _, _ => s)

/-! ## Stores at their homes -/

/-- May a queued store be performed: nothing that must come first is still on its way (05 R140, 08 R192, R197, 18 R393)? -/
def storeReady (s : State) (i : Nat) (w : MemWrite) : Bool :=
  !((s.writes.take i).any fun x =>
      x.core == w.core && x.pa / 64 == w.pa / 64 ||
      x.hub && coreCluster x.core == coreCluster w.core && homeId s x.pa == homeId s w.pa ||
      (match x.stb, w.stb with | some a, some b => x.uid == w.uid && a.2 == b.2 | _, _ => false)) &&
    !behindRelease s w.core w.pa w.seq && !behindAtomic s w.core w.pa w.seq && !earlierOp s w.uid w.va w.bytes.length w.seq &&
    !treeBehind s w.uid w.pa w.bytes.length w.seq &&
    (match w.stb with | some q => !barBehind s w.uid q.2 w.seq | none => true)

/-- A store performed at its home. -/
def landStore (s : State) (w : MemWrite) : State :=
  stopAfter (match w.stb, w.tag with
  | some q, _ => landStb s w.ctx w.uid w.pa w.bytes q.2 q.1
  | none, some tag => landRelease s w.ctx w.uid w.pa (leNat w.bytes) tag
  | none, none => landWrite s w.ctx w.uid w.pa w.bytes) w.uid w.stop

/-- Can a message of another node reach an address: is some port of the granule's world UP or NARROWED (22 R458, 24 R496)? -/
def fabricIn (s : State) (pa : Nat) : Bool :=
  (upto 32).any fun p =>
    cfgBit s (1708 + p) == granuleSecure s pa &&
      (match (tget Clavos.init s.clavos p).st with | .up | .narrowed => true | _ => false)

/-- A write of another node, decoded, at its home: as a release if it says so (08 R192, 21 R449, 22 R456, R463). A stream
that the watchdog has cut off is discarded until its dictionary is reset (22 R464, R465). -/
def landFabric (s : State) (m : Fabric) : State :=
  if !fabricIn s m.pa then s
  else if s.cutOff.contains (streamOf m) && !m.drst then s
  else
    let r := unpack s m
    match r.2 with
    | .error c => malformed r.1 m c
    | .ok bs =>
      if m.vc % 4 ≠ 0 then r.1 else
      match homeOf s m.pa, homeOf s (m.pa + bs.length - 1) with
      | .first, .first | .port _ _, .port _ _ =>
        if !fabricIn r.1 (m.pa + bs.length - 1) then r.1
        else if m.rel ∧ bs.length = 8 ∧ m.pa % 8 = 0 then releaseWrite r.1 m.pa (leNat bs) (mkTag .system 1023) else homeWrite r.1 m.pa bs
      | _, _ => r.1

/-- Entry i of the store paths reaches its home; or, with bytes given, a write that another node sends to this package
over Clavos. -/
def execStoreAtHome (i : Nat) (m : Fabric) (s : State) : Outcome :=
  .next (
    match m.bytes, s.writes[i]? with
    | [], none => s
    | [], some w =>
      if !storeReady s i w || (match w.stb with | some q => frozenNow s q.2 | none => false) then s
      else
        let q := { s with writes := ldel s.writes i }
        (match reachPA s w.ctx w.pa, windowCore s w.pa with
        | .divert, some c => divert q w.ctx c (.write w)
        | .wait, _ => s
        | _, _ => landStore q w)
    | _, _ => landFabric s m)

end Sys2Proof.Machine
end

