-- ==== Sys2Proof/Machine/Ring.lean ====
section
/-! DEFINITION. Sync words and rings (16 R358 to R366). -/

namespace Sys2Proof.Machine
open Sys2Proof

/-- A sync word (16 R358). -/
structure Sync where
  target : Nat
  count : Nat
  gen : Nat
  ecnt : Nat
  ecode : Nat
  top : Nat
  deriving DecidableEq, Repr

def syncOf (w : Nat) : Sync := ⟨fld w 0 36, fld w 36 36, fld w 72 16, fld w 88 8, fld w 96 8, fld w 104 24⟩
def Sync.num (y : Sync) : Nat :=
  y.target % 2 ^ 36 + y.count % 2 ^ 36 * 2 ^ 36 + y.gen % 2 ^ 16 * 2 ^ 72 + y.ecnt % 2 ^ 8 * 2 ^ 88 + y.ecode % 2 ^ 8 * 2 ^ 96 +
    y.top % 2 ^ 24 * 2 ^ 104

/-- A count of b bytes, with the error code of a failed copy (16 R359). -/
def Sync.add (y : Sync) (b err : Nat) : Sync :=
  let c := y.count + b
  let y := if err = 0 then y else { y with ecnt := min 255 (y.ecnt + 1), ecode := if y.ecode = 0 then err else y.ecode }
  if y.target = 0 then { y with count := c % 2 ^ 36 }
  else { y with count := c % y.target, gen := (y.gen + c / y.target) % 2 ^ 16 }

def syncAt (s : State) (core ctx o : Nat) : Sync := syncOf (spadLE s core ctx o 16)
def putSync (s : State) (core ctx o : Nat) (y : Sync) : State := spadWrite s core ctx o (leBytes 16 y.num)

/-- A SWWAIT whose word now holds another generation is done (16 R360). -/
def swTest (s : State) (u : Nat) (o : Op) : State :=
  let t := s.strand u
  match o.kind with
  | .swwait a e => if o.phase != .sent || (syncAt s t.lcore t.ctx a).gen == e then s else opDone s u o []
  | _ => s

/-- A count at a sync word, and the test of the waits on it (16 R359, R360). -/
def countSync (s : State) (core ctx o n err : Nat) : State :=
  let s := putSync s core ctx o ((syncAt s core ctx o).add n err)
  s.strands.foldl (fun s q =>
    if q.2.lcore = core ∧ q.2.ctx = ctx then
      q.2.ops.foldl (fun s x => match x.kind with | .swwait a _ => if a = o then swTest s q.1 x else s | _ => s) s
    else s) s

/-- Checks of a sync-word offset (16 R360). -/
def syncOffCheck (x : Exe) (o : Nat) : Option Cause :=
  if o % 16 ≠ 0 then some { code := 6 }
  else if spadSize x.s x.t.lcore x.t.ctx < o + 16 then some { code := 7, sub := 3 } else none

/-- SWINIT, SWWAIT (16 R360). -/
def execSwinit (h : Hdr) (ra rb : Reg) : State → Outcome :=
  issue h { len := lenShort, refs := [.r ra, .r rb] } fun x =>
    let o := (x.t.reg ra).toNat % 2 ^ 19
    match syncOffCheck x o with
    | some c => .trap c
    | none =>
      .ok (putSync x.s x.t.lcore x.t.ctx o
        { syncAt x.s x.t.lcore x.t.ctx o with target := (x.t.reg rb).toNat % 2 ^ 36, count := 0, ecnt := 0, ecode := 0 })
def execSwwait (h : Hdr) (ra rb : Reg) : State → Outcome :=
  issue h { len := lenShort, pendingClass := true, refs := [.r ra, .r rb] } fun x =>
    let o := (x.t.reg ra).toNat % 2 ^ 19
    match syncOffCheck x o with
    | some c => .trap c
    | none =>
      let s := x.s.setStrand x.u (x.t.send (.swwait o ((x.t.reg rb).toNat % 2 ^ 16)) .w x.pc x.len x.s.steps [])
      .ok (match s.op x.u x.t.nextOp with | some q => swTest s x.u q | none => s)

/-- Sequences compare modulo 2^32 (16 R362). -/
def seqLt (a b : Nat) : Bool := let d := (b + 2 ^ 32 - a % 2 ^ 32) % 2 ^ 32; 0 < d && d < 2 ^ 31
def seqOff (a b : Nat) : Nat := (b % 2 ^ 32 + 2 ^ 32 - a % 2 ^ 32) % 2 ^ 32

def RingSt.n (r : RingSt) : Nat := 2 ^ r.ln
def RingSt.slotOff (r : RingSt) (n : Nat) : Nat := r.base + n % r.n * 2 ^ r.lsz

/-- Advance WP over filled slots, and RP over released ones (16 R364, R366). -/
def RingSt.fill : Nat → RingSt → RingSt
  | 0, r => r
  | fuel + 1, r =>
    if seqOff r.rp r.wp < r.n ∧ bit r.full (r.wp % r.n) = true then
      RingSt.fill fuel { r with full := setFld r.full (r.wp % r.n) 1 0, wp := (r.wp + 1) % 2 ^ 32 }
    else r
def RingSt.drain : Nat → RingSt → RingSt
  | 0, r => r
  | fuel + 1, r =>
    if r.rp ≠ r.wp ∧ bit r.done (r.rp % r.n) = true then
      RingSt.drain fuel { r with done := setFld r.done (r.rp % r.n) 1 0, rp := (r.rp + 1) % 2 ^ 32 }
    else r

/-- Mark(s, end) (16 R364). -/
def RingSt.mark (r : RingSt) (s : Nat) (eos : Bool) : RingSt :=
  let k := (s + r.n * 2 ^ 32 - r.rp) % r.n
  if r.n ≤ s ∨ k < seqOff r.rp r.wp ∨ bit r.full s = true then { r with ovf := true }
  else
    let r := { r with full := setFld r.full s 1 1 }
    let r := if eos then { r with eosv := true, eosq := (r.rp + k) % 2 ^ 32 } else r
    r.fill (r.n + 1)

/-- A ring of the strand's core: PAGE_PERM at or above RN (06 R152). -/
def ringOp (h : Hdr) (g : Ring) (rd ra : Reg) (f : RingSt → Nat → Nat → RingSt × Nat) : State → Outcome :=
  issue h { len := lenShort, refs := [.r rd, .r ra] } fun x =>
    let p := x.s.part x.t.lcore x.t.ctx
    if p.partn.rn ≤ g.val then .trap { code := 8 }
    else
      let q := f (tget RingSt.init p.rings g.val) (x.t.reg ra).toNat p.partn.sz
      .ok ((x.s.setPart x.t.lcore x.t.ctx { p with rings := tput p.rings g.val q.1 }).setStrand x.u (x.t.setReg rd (w64 q.2)))

/-- RINIT (16 R366). -/
def execRinit (h : Hdr) (g : Ring) (rd ra : Reg) : State → Outcome :=
  ringOp h g rd ra fun r a sz =>
    let b := fld a 0 19
    let l := fld a 20 4
    let k := fld a 24 4
    if b % 64 ≠ 0 ∨ l < 6 ∨ 15 < l ∨ 8 < k ∨ sz < b + 2 ^ (k + l) then (r, 1)
    else ({ RingSt.init with base := b, lsz := l, ln := k }, 0)

/-- RREL (16 R366). -/
def execRrel (h : Hdr) (g : Ring) (rd ra : Reg) : State → Outcome :=
  ringOp h g rd ra fun r a _ =>
    let n := a % 2 ^ 32
    if seqOff r.rp r.wp ≤ seqOff r.rp n ∨ bit r.done (n % r.n) = true then (r, 1)
    else (({ r with done := setFld r.done (n % r.n) 1 1 }).drain (r.n + 1), 0)

/-- RSEQ (16 R366). -/
def execRseq (h : Hdr) (g : Ring) (rd ra : Reg) : State → Outcome := ringOp h g rd ra fun r a _ => (r, r.slotOff a)

/-- REOS (16 R366). -/
def execReos (h : Hdr) (g : Ring) (rd ra : Reg) : State → Outcome :=
  ringOp h g rd ra fun r a _ =>
    let n := a % 2 ^ 32
    let k := seqOff r.rp n
    if k < seqOff r.rp r.wp ∨ r.n ≤ k then (r, 1) else (r.mark (n % r.n) true, 0)

/-- RAWAIT (16 R366): the wait is the operation's. -/
def execRawait (h : Hdr) (g : Ring) (rd ra : Reg) : State → Outcome :=
  issue h { len := lenShort, pendingClass := true, refs := [.r rd, .r ra] } fun x =>
    if (x.s.part x.t.lcore x.t.ctx).partn.rn ≤ g.val then .trap { code := 8 }
    else x.send (.rawait g.val (x.t.reg ra).toNat) .w (x.t.dest rd)

/-- Has a RAWAIT what it waits for, and what does it return (16 R366)? -/
def rawaitRes (r : RingSt) (a : Nat) : Option Word :=
  let n := a % 2 ^ 32
  let pastEos := r.eosv && !seqLt n r.eosq && seqLt r.eosq r.wp
  let ready := if bit a 63 then seqLt n (r.rp + r.n) else seqLt n r.wp || pastEos
  if ready then some (w64 (r.slotOff n + b2n pastEos * 2 ^ 63 + b2n (seqLt n r.rp) * 2 ^ 62)) else none

end Sys2Proof.Machine
end

