-- ==== Sys2Proof/Machine/Copy.lean ====
section
/-! DEFINITION. Copies and gathers (16 R352 to R357, R361, R367 to R372), and how engines other than the contracting one
reach memory. -/

namespace Sys2Proof.Machine
open Sys2Proof

/-- What an engine's access to one piece of memory comes to; a fault carries its cause. -/
inductive Touch (α : Type) where
  | done (s : State) (v : α)
  | wait (s : State)
  | fault (s : State) (c : Cause)
  /-- its message has been discarded, as no port carries it (22 R460) -/
  | lost (s : State) (pa : Nat)

/-- The message of an engine for a sector: how it is known while it waits for a port (22 R460). -/
def engineMsg (wr : Bool) (who va : Nat) : Bool × Nat × Nat := (wr, 2 ^ 64 + who, va / 64)

/-- Regions that engines reach only in whole aligned words (16 R356). -/
def wordRegion (off : Nat) : Bool :=
  match regionOf off with
  | .regs _ _ | .barrier _ _ | .ring _ _ | .reserved => true
  | _ => false

/-- A read of n bytes within a sector by an engine, charged to a group (07 R174, 16 R355, 19 R412). -/
def engineRead (s : State) (who ctx va n kern grp : Nat) (own : List Nat) : Touch (List Byte) :=
  let r := xlateBy s (some who) ctx va .read false
  match r.2 with
  | .error c => .fault r.1 c
  | .ok x =>
    let go (s : State) : Touch (List Byte) :=
      match homeRead s ctx x.pa n with
      | .error k => .fault (if k = 10 then logBad s x.pa else s) (homeCause k va .read)
      | .ok bs => .done (charge (gatherCount s who ctx va 1) kern grp x.pa n) bs
    match homeOf r.1 x.pa with
    | .window c off =>
      if reach r.1 c ctx ≠ .open ∨ linesBusy r.1 x.pa n own = true then .wait r.1
      else if wordRegion off = true ∧ (x.pa % 8 ≠ 0 ∨ n % 8 ≠ 0) then .fault r.1 { code := 6, addr := va, acc := 1 }
      else go r.1
    | _ =>
      if reachPA r.1 ctx x.pa = .wait then
        let q := discarded r.1 (engineMsg false who va) x.pa
        if q.2 then .lost q.1 x.pa else .wait q.1
      else go r.1

/-- A refusal of a write by a window, but for a register file, whose slot is looked at when the write arrives (06 R153, R154). -/
def winRefuses (s : State) (ctx c off : Nat) : Option Nat :=
  match regionOf off with | .regs _ _ => none | _ => winCheck s ctx c off true

/-- A write of at most 8 bytes by a copy engine (08 R203, 16 R355, 07 R181); the answer is the physical address. The first into a
sector counts for it; the last ends its line. A write to a pre-empted core is diverted (20 R439). Cause 0 stands for a register file
that is not eligible. -/
def engineWrite (s : State) (who : Nat) (k : Copy) (va : Nat) (bs : List Byte) (first last : Bool)
    (tag : Option Copy := some k) : Touch Nat :=
  let ctx := k.ctx
  let r := xlateBy s (some who) ctx va .write false
  match r.2 with
  | .error c => .fault r.1 c
  | .ok x =>
    let n := bs.length
    let note (s : State) : State := if first then charge (gatherCount s who ctx va 1) k.kern k.grp x.pa n else s
    if x.wb then .wait r.1
    else
      match homeOf r.1 x.pa with
      | .window c off =>
        match reach r.1 c ctx with
        | .wait => .wait r.1
        | .divert =>
          match winRefuses r.1 ctx c off with
          | some k => .fault r.1 (homeCause k va .write)
          | none =>
            if wordRegion off = true ∧ (x.pa % 8 ≠ 0 ∨ n % 8 ≠ 0) then .fault r.1 { code := 6, addr := va, acc := 2 }
            else .done (divert (note r.1) ctx c (.write ⟨k.uid, k.core, ctx, .x, va, x.pa, bs, none, s.steps, last, none, tag, false⟩)) x.pa
        | .open =>
          match winCheck r.1 ctx c off true with
          | some k => .fault r.1 (homeCause k va .write)
          | none =>
            if wordRegion off = true ∧ (x.pa % 8 ≠ 0 ∨ n % 8 ≠ 0) then .fault r.1 { code := 6, addr := va, acc := 2 }
            else
              match windowWrite r.1 ctx c off x.pa bs with
              | .done s' => .done (note s') x.pa
              | .outside => .fault r.1 { code := 8, addr := va, acc := 2 }
              | .engaged => .fault r.1 { code := 0, addr := va, acc := 2 }
      | _ =>
        if reachPA r.1 ctx x.pa = .wait then
          let q := discarded r.1 (engineMsg true who va) x.pa
          if q.2 then .lost q.1 x.pa else .wait q.1
        else .done (homeWrite (note r.1) x.pa bs) x.pa

/-- The error code of a copy or a gather (16 R356). -/
def xCode (c : Cause) : Nat :=
  match c.code with | 7 => 1 | 8 => 2 | 9 => 3 | 10 => 4 | 6 => 5 | 0 => 6 | _ => 2

/-- Fields of a copy request (16 R352). -/
def cSrc (q : List Word) : Nat := (q.getD 0 0).toNat
def cDst (q : List Word) : Nat := (q.getD 1 0).toNat
def cW2 (q : List Word) : Nat := (q.getD 2 0).toNat
def cW3 (q : List Word) : Nat := (q.getD 3 0).toNat
def cKind (q : List Word) : Nat := fld (cW2 q) 36 2
def cLen (q : List Word) : Nat := fld (cW2 q) 0 36
def cDm (w3 : Nat) : Nat := fld w3 36 2
def cDh (w3 : Nat) : Nat := fld w3 34 2
def cRv (w3 : Nat) : Bool := bit w3 33
def cRing (w3 : Nat) : Nat := fld w3 29 4
def cSv (w3 : Nat) : Bool := bit w3 28
def cScore (w3 : Nat) : Nat := fld w3 19 9
def cSoff (w3 : Nat) : Nat := fld w3 0 19
def cEnd (w3 : Nat) : Bool := bit w3 46
def cSlot (w3 : Nat) : Nat := fld w3 38 8

/-- Requests in a core's FIFO (16 R354); those of a pre-empted context are saved with it (16 R372). -/
def fifoOf (s : State) (core : Nat) : List Copy :=
  s.copies.filter fun c => c.engine.isNone && c.core == core && !s.off core c.ctx

/-- Does a copy engine belong to a context's world (24 R493, R496)? -/
def engineOf (s : State) (ctx e : Nat) : Bool := cfgBit s (512 + e) == (s.ctx ctx).secure

/-- The status of a request, in the order of R353. -/
def cpyStatus (s : State) (t : Strand) (q : List Word) (nb : Bool) : Nat :=
  let w3 := cW3 q
  if nb && decide (8 ≤ (fifoOf s t.pcore).length) then 1
  else if (cSv w3 && cSoff w3 % 16 != 0) || (cDm w3 == 1 && cDst q % 64 != 0) || (cDm w3 == 2 && (cDst q + cLen q) % 8 != 0) then 2
  else if decide (cW2 q / 2 ^ 38 ≠ 0) || decide (2 ≤ cKind q) || cLen q == 0 || decide (w3 / 2 ^ 47 ≠ 0) || cDm w3 == 3 ||
      (cEnd w3 && !cRv w3) || (cDm w3 == 1 && !(tget Handle.init t.handles (cDh w3)).op) ||
      (cSv w3 && decide (spadSize s (cScore w3) t.ctx < cSoff w3 + 16)) then 3
  else if !((upto 24).any fun i => engineOf s t.ctx (24 * coreDie t.pcore + i)) then 4
  else 0

/-- Registers ra to ra + 3. -/
def quadRegs (ra : Reg) : List Reg := (upto 4).map fun i => Fin.ofNat 32 (ra.val + i)

/-- CPY, CPYNB (16 R353): accepted into the core's FIFO, or a status. -/
def cpyOp (h : Hdr) (nb : Bool) (rd ra : Reg) : State → Outcome :=
  issue h { len := lenShort, pendingClass := true, refs := .r rd :: (quadRegs ra).map .r } fun x =>
    let q := (quadRegs ra).map x.t.reg
    let dh := cDh (cW3 q)
    if cDm (cW3 q) = 1 ∧ x.t.isPending (.hreg dh) = true then .trap { code := 2 }
    else if nb = false ∧ 8 ≤ (fifoOf x.s x.t.pcore).length then .wait x.s
    else
      let st := cpyStatus x.s x.t q nb
      let s := x.s.setStrand x.u (x.t.send .cpy .x x.pc x.len x.s.steps (x.t.dest rd))
      let c : Copy := { id := s.nextCopy, uid := x.u, core := x.t.pcore, kern := x.t.kern, grp := x.t.grp, ctx := x.t.ctx, nb := nb,
                        req := q, engine := none, lines := [], moved := 0, slot := x.t.pslot,
                        hva := (tget Handle.init x.t.handles dh).raddr, hash := [], err := none }
      let s := if st = 0 then { s with copies := s.copies ++ [c], nextCopy := s.nextCopy + 1 } else s
      .ok (match s.op x.u x.t.nextOp with | some o => opDone s x.u o [w64 st] | none => s)
def execCpy (h : Hdr) (rd ra : Reg) : State → Outcome := cpyOp h false rd ra
def execCpynb (h : Hdr) (rd ra : Reg) : State → Outcome := cpyOp h true rd ra

def State.setCopy (s : State) (c : Copy) : State := { s with copies := s.copies.map fun x => if x.id = c.id then c else x }

/-- Bytes that a copy writes and counts: a digest adds 32 (16 R355). -/
def Copy.total (c : Copy) : Nat := cLen c.req + (if cDm (cW3 c.req) = 2 then 32 else 0)

/-- Scratchpad lines that a range targets, by core (06 R157). -/
def targetLines (s : State) (who ctx va n : Nat) : List Nat :=
  (sectorPieces va n).filterMap fun p =>
    match (xlateBy s (some who) ctx p.1 .write false).2 with
    | .ok x =>
      (match homeOf s x.pa with
      | .window _ off => (match regionOf off with | .spad _ => some (x.pa / 64) | _ => none)
      | _ => none)
    | .error _ => none

/-- An engine takes a request (16 R354): the lines that it targets are in flight; a ring the context does not hold ends it
with PERM (06 R152). -/
def takeCopy (s : State) (e : Nat) (c : Copy) : State :=
  let ls := targetLines s (tlbCopy e) c.ctx (cDst c.req) c.total
  let w3 := cW3 c.req
  let bad := cRv w3 && decide ((s.part (cScore w3) c.ctx).partn.rn ≤ cRing w3)
  (setLines s ls).setCopy { c with engine := some e, lines := ls, err := if bad then some (2, 0) else none }

/-- Bytes of the source that a copy has taken; a copy that has met an error takes no more (16 R356). -/
def Copy.taken (c : Copy) : Nat := c.moved + c.buf.length
def Copy.avail (c : Copy) : Nat := if c.err.isSome then c.buf.length else c.total - c.moved

/-- What a copy writes next: an aligned 8-byte word of its destination, or a single byte of an unaligned part (08 R203). -/
def Copy.pieceLen (c : Copy) : Nat := if (cDst c.req + c.moved) % 8 = 0 ∧ 8 ≤ c.avail then 8 else 1

/-- The bytes that a copy takes next, up to the end of a source sector: of memory, of the pattern, or of the digest (16 R352, R355,
R361). -/
def copyRead (s : State) (e : Nat) (c : Copy) : Touch (List Byte) :=
  let a := (cSrc c.req + c.taken) % 2 ^ 64
  let d := cDst c.req + c.taken
  if cLen c.req ≤ c.taken then .done s ((sha256 c.hash).drop (c.taken - cLen c.req))
  else if cKind c.req = 0 then
    engineRead s (tlbCopy e) c.ctx a (min (64 - a % 64) (cLen c.req - c.taken)) c.kern c.grp c.lines
  else .done s ((upto (min 64 (cLen c.req - c.taken))).map fun j => byteOf (cSrc c.req) ((d + j) % 8))

/-- A message of a copy or a gather that no port carried is reported (22 R460, 23 R491). -/
def reportLost (s : State) (ctx core pa : Nat) : State := report s 4 ctx 33 0xFF core pa

/-- Bytes taken into a copy's buffer, and into its digest. -/
def Copy.takes (c : Copy) (bs : List Byte) : Copy :=
  { c with buf := c.buf ++ bs, hash := if c.taken < cLen c.req && cDm (cW3 c.req) != 0 then c.hash ++ bs else c.hash }

/-- A copy takes bytes of its source, or writes its next piece (16 R355); the first error ends it (16 R356). Bytes that no port brings are
stated by no rule, and the rest of a sector that none takes is dropped (22 R460; log entry 113). -/
def copyStep (s : State) (e : Nat) (c : Copy) : State :=
  let d := (cDst c.req + c.moved) % 2 ^ 64
  let n := c.pieceLen
  if c.buf.length < n then
    match copyRead s e c with
    | .wait s => s
    | .fault s k => s.setCopy { c with err := some (xCode k, c.taken) }
    | .lost s pa =>
      let r := openBytes 8 (reportLost s c.ctx c.core pa)
      r.1.setCopy (c.takes (r.2.take (min (64 - (cSrc c.req + c.taken) % 64) (cLen c.req - c.taken))))
    | .done s bs => s.setCopy (c.takes bs)
  else
    let last := (d + n) % 64 == 0 || c.moved + n == c.total
    match engineWrite s (tlbCopy e) c d (c.buf.take n) (c.moved == 0 || d % 64 == 0) last with
    | .wait s => s
    | .fault s k => s.setCopy { c with err := some (c.err.getD (xCode k, c.moved)), buf := [] }
    | .lost s pa =>
      let m := min (64 - d % 64) c.buf.length
      (reportLost s c.ctx c.core pa).setCopy { c with moved := c.moved + m, buf := c.buf.drop m }
    | .done s pa =>
      let s := s.setCopy { c with moved := c.moved + n, buf := c.buf.drop n }
      let s := if (d + n) % 64 = 0 ∧ 64 ≤ c.moved + n then cleanWord s pa else s
      if last && reachPA s c.ctx pa == .open then clearLines s [pa / 64] else s

/-- The cores of a die in the order in which its engines visit them (16 R354). -/
def visitOrder (s : State) (die : Nat) : List Nat :=
  let cs := (upto 512).filter fun c => coreDie c == die
  let k := tget 0 s.copyTurn die
  cs.filter (fun c => decide (k ≤ c)) ++ cs.filter fun c => decide (c < k)

/-- The request that an idle engine takes: the first of the next core it visits that has one of its world
(16 R354, 24 R496). -/
def nextCopy? (s : State) (e : Nat) : Option Copy :=
  (visitOrder s (e / 24)).findSome? fun core => (fifoOf s core).head?.filter fun c => engineOf s c.ctx e

/-- A copy engine of a core's die takes a request from the core's FIFO, or moves the next piece of the one it has (16 R354). -/
def execCopyStart (core e : Nat) (s : State) : Outcome :=
  .next (
    match s.copies.find? fun c => c.engine == some e with
    | some c => if c.core ≠ core ∨ c.avail = 0 then s else copyStep s e c
    | none =>
      match nextCopy? s e with
      | some c => if c.core = core then { takeCopy s e c with copyTurn := tput s.copyTurn (e / 24) (core + 1) } else s
      | none => s)

/-- The message of Complete() at the core that holds the sync word and the ring (16 R355, R359, R364). -/
def landComplete (s : State) (c : Copy) (err : Nat) : State :=
  let w3 := cW3 c.req
  let core := cScore w3
  let ctx := c.ctx
  let o := cSoff w3
  let s := if cSv w3 && decide (o + 16 ≤ spadSize s core ctx) then countSync s core ctx o c.total err else s
  let p := s.part core ctx
  if cRv w3 && decide (cRing w3 < p.partn.rn) then
    s.setPart core ctx { p with rings := tput p.rings (cRing w3) ((tget RingSt.init p.rings (cRing w3)).mark (cSlot w3) (cEnd w3)) }
  else s

/-- Complete() of a copy that has ended (16 R355, R356); the message may be diverted (16 R372). -/
def finishCopy (s : State) (c : Copy) (err : Nat) : State :=
  let w3 := cW3 c.req
  let q := { s with copies := s.copies.filter fun x => x.id != c.id }
  if !(cSv w3 || cRv w3) then q
  else
    match reach s (cScore w3) c.ctx with
    | .wait => s
    | .divert => divert q c.ctx (cScore w3) (.complete c err)
    | .open => landComplete q c err

/-- What the digest check of a copy comes to (16 R361): it passes, it fails at an offset, poisoning a record or not, or it waits for the
record's page (07 R181). -/
inductive Digest where
  | pass | fail (off : Nat) (psn : Option Nat) | wait

/-- The digest check of a copy (16 R361): a shard that differs poisons the record; a digest that does not read only fails the copy (12 R300). -/
def digestCheck (s : State) (c : Copy) : Digest :=
  match (hAddr s c.core c.ctx c.hva false).2 with
  | .error none => .wait
  | .error (some _) => .fail 0 none
  | .ok pa =>
    let r := hReadRec s pa
    if r.imode ≠ 1 ∨ cDst c.req < r.base ∨ (cDst c.req - r.base) % 2 ^ 20 ≠ 0 then .fail 0 none
    else
      match handlePlat s c.ctx r with
      | .error _ => .fail 0 none
      | .ok p =>
        let all := baseLen s c.ctx r p
        let k0 := (cDst c.req - r.base) / 2 ^ 20
        let size (j : Nat) : Nat := min (2 ^ 20) (all - (k0 + j) * 2 ^ 20)
        let whole := (upto (cdiv (cLen c.req) (2 ^ 20))).filter fun j =>
          decide ((k0 + j) * 2 ^ 20 < all) && decide (j * 2 ^ 20 + size j ≤ cLen c.req)
        let shard (j : Nat) : List Byte := (c.hash.drop (j * 2 ^ 20)).take (size j)
        let reads (j : Nat) : Bool := match readVA s c.ctx (sectorPieces (r.iref + 32 * (k0 + j)) 32) with | .ok _ => true | .error _ => false
        match whole.find? fun j => !reads j || shardDiffers s c.ctx r (k0 + j) (.ok (shard j)) with
        | none => .pass
        | some j => .fail (j * 2 ^ 20) (if reads j then some pa else none)

/-- The home of a plat record or digest that the check found poisoned logs it (06 R159). -/
def digestLog (s : State) (c : Copy) : State :=
  match (hAddr s c.core c.ctx c.hva false).2 with
  | .error _ => s
  | .ok pa =>
    let r := hReadRec s pa
    let k0 := (cDst c.req - r.base) / 2 ^ 20
    logVA s c.ctx (sectorPieces r.plat 64 ++ sectorPieces (r.iref + 32 * k0) (32 * (cLen c.req / 2 ^ 20)))

/-- A copy is complete: its digest is checked, and its core is told (16 R355, R361). -/
def execCopyComplete (e : Nat) (s : State) : Outcome :=
  .next (
    match s.copies.find? fun c => c.engine == some e with
    | none => s
    | some c =>
      if c.err.isSome ∨ c.moved < c.total then s
      else if cDm (cW3 c.req) = 1 then
        match digestCheck s c with
        | .wait => s
        | .pass => finishCopy (clearLines s c.lines) c 0
        | .fail off psn =>
          let s := match psn with | some pa => hWriteRec s pa ((hReadRec s pa).setStat 3 1 1) | none => digestLog s c
          s.setCopy { c with err := some (7, off) }
      else finishCopy s c 0)

/-- The error record of a copy (16 R357). -/
def postError (s : State) (c : Copy) (code off : Nat) : State :=
  let x := s.ctx c.ctx
  ringPost s x.xerb x.xern 32
    (leBytes 8 (cSrc c.req) ++ leBytes 8 (cDst c.req) ++ leBytes 8 (cW2 c.req) ++ leBytes 4 off ++ leBytes 1 code ++ leBytes 2 c.core ++
      leBytes 1 c.slot)

/-- A copy ends in error once it has written what it had taken (16 R356, R357). -/
def execCopyError (e : Nat) (s : State) : Outcome :=
  .next (
    match s.copies.find? fun c => c.engine == some e with
    | none => s
    | some c =>
      match c.err with
      | none => s
      | some (code, off) =>
        let w3 := cW3 c.req
        if !c.buf.isEmpty || (cSv w3 || cRv w3) && reach s (cScore w3) c.ctx == .wait then s
        else finishCopy (postError (clearLines s c.lines) c code off) c code)

/-- Does a copy in progress write a strand's register file, some of it written and some not (06 R154)? -/
def regHeld (s : State) (t : Strand) : Bool :=
  s.copies.any fun c =>
    c.engine.isSome && c.moved != 0 && c.avail != 0 &&
      (match (xlateBy s none c.ctx ((cDst c.req + c.moved) % 2 ^ 64) .write false).2 with
      | .ok x =>
        (match homeOf s x.pa with
        | .window core off => core == t.pcore && (match regionOf off with | .regs k _ => k == t.pslot | _ => false)
        | _ => false)
      | .error _ => false)

/-! ## Gather -/

/-- Fields of a gather descriptor (16 R367). -/
def gFill (d : List Byte) : Nat := recLE d 40 8
def gMoff (d : List Byte) : Nat := recLE d 32 4
def gTstr (d : List Byte) : Nat := recLE d 28 4
def gRsz (d : List Byte) : Nat := recLE d 24 4
def gDoff (d : List Byte) : Nat := recLE d 20 4
def gCnt (d : List Byte) : Nat := recLE d 16 4
def gIoff (d : List Byte) : Nat := recLE d 12 4
def gNtab (d : List Byte) : Nat := recLE d 8 4
def gTbase (d : List Byte) : Nat := recLE d 0 8
def gHasMask (d : List Byte) : Bool := gMoff d != 0xFFFFFFFF

/-- A descriptor that meets R367 within a scratchpad of sz bytes (16 R368). -/
def gatherOk (d : List Byte) (sz : Nat) : Bool :=
  recLE d 48 16 == 0 && recLE d 36 4 == 0 && (!gHasMask d || gMoff d % 8 == 0) && gRsz d % 8 == 0 && decide (8 ≤ gRsz d) &&
  decide (gRsz d ≤ 65536) && gTstr d % 8 == 0 && decide (gRsz d ≤ gTstr d) && gDoff d % 8 == 0 && decide (1 ≤ gCnt d) &&
  decide (gCnt d ≤ 65536) && gIoff d % 4 == 0 && gTbase d % 8 == 0 && decide (gIoff d + 4 * gCnt d ≤ sz) &&
  decide (gDoff d + gCnt d * gRsz d ≤ sz) && (!gHasMask d || decide (gMoff d + cdiv (gCnt d) 8 ≤ sz)) &&
  (decide (gIoff d + 4 * gCnt d ≤ gDoff d) || decide (gDoff d + gCnt d * gRsz d ≤ gIoff d))

/-- Lines of a range of the scratchpad. -/
def spadLines (s : State) (core ctx o n : Nat) : List Nat :=
  let a := spadPA s core ctx o
  if n = 0 then [] else (upto ((a + n - 1) / 64 - a / 64 + 1)).map (a / 64 + ·)

/-- A gather enters its cluster's queue of 16 descriptors (16 R368); the ticket is returned. -/
def postGather (s : State) (u : Nat) (o : Op) (line : Nat) (d : List Byte) : State :=
  let t := s.strand u
  let cl := coreCluster t.pcore
  if 16 ≤ (s.gathers.filter fun g => g.cluster == cl).length then s
  else
    let ls := spadLines s t.lcore t.ctx (gDoff d) (gCnt d * gRsz d) ++
      (if gHasMask d then spadLines s t.lcore t.ctx (gMoff d) (cdiv (gCnt d) 8) else [])
    let s := setLines s ls
    opDone { s with gathers := s.gathers ++ [⟨cl, u, line, t.lcore, t.ctx, t.kern, t.grp, d, ls, 0, 0, [], none, [], false, none⟩] } u o [w64 line]

/-- GPOST (16 R368). -/
def execGpost (h : Hdr) (rd ra : Reg) : State → Outcome :=
  issue h { len := lenShort, pendingClass := true, refs := [.r rd, .r ra] } fun x =>
    let o := (x.t.reg ra).toNat % 2 ^ 19
    let sz := spadSize x.s x.t.lcore x.t.ctx
    if o % 64 ≠ 0 then .trap { code := 6 }
    else if sz < o + 64 then .trap { code := 7, sub := 3 }
    else if spadPoisoned x.s x.t.lcore x.t.ctx o 64 then .trapIn (logSpad x.s x.t.lcore x.t.ctx o) { code := 10, acc := 1 }
    else
      let d := spadRead x.s x.t.lcore x.t.ctx o 64
      let line := firstFrom 4 0 fun i => (tget (⟨0, 0⟩ : GLine) x.t.glines i).st == 0
      let send (t : Strand) (l : Nat) : State :=
        x.s.setStrand x.u (t.send (.gpost l d) .g x.pc x.len x.s.steps (x.t.dest rd))
      let fin (s : State) (v : Nat) : Eff := .ok (match s.op x.u x.t.nextOp with | some o => opDone s x.u o [w64 v] | none => s)
      if !gatherOk d sz then fin (send x.t 4) (2 ^ 64 - 2)
      else
        match line with
        | none => fin (send x.t 4) (2 ^ 64 - 1)
        | some l =>
          let s := send { x.t with glines := tput x.t.glines l ⟨1, 0⟩ } l
          .ok (match s.op x.u x.t.nextOp with | some o => postGather s x.u o l d | none => s)

/-- GWAIT (16 R370). -/
def execGwait (h : Hdr) (rd ra : Reg) : State → Outcome :=
  issue h { len := lenShort, pendingClass := true, refs := [.r rd, .r ra] } fun x =>
    x.send (.gwait ((x.t.reg ra).toNat % 4)) .g (x.t.dest rd)

/-- Lines that a write of n bytes at pa ends: its own, where it is the last of the line or of the destination, and the status mask has
no byte in it (06 R157). -/
def gatherEnds (s : State) (g : Gather) (pa n : Nat) : List Nat :=
  let fin := spadPA s g.core g.ctx (gDoff g.desc + gCnt g.desc * gRsz g.desc)
  let ml := if gHasMask g.desc then spadLines s g.core g.ctx (gMoff g.desc) (cdiv (gCnt g.desc) 8) else []
  if ((pa + n) % 64 == 0 || pa + n == fin) && !ml.contains (pa / 64) then [pa / 64] else []

/-- A gather's write into its core's scratchpad, which may be diverted (16 R372), and the lines that end with it. -/
def gatherPut (s : State) (g : Gather) (o : Nat) (bs : List Byte) (ends : List Nat) : State :=
  let pa := spadPA s g.core g.ctx o
  if s.off g.core g.ctx then
    divert s g.ctx g.core (.write ⟨g.uid, g.core, g.ctx, .g, 0, pa, bs, none, s.steps, !ends.isEmpty, none, none, false⟩)
  else clearLines (homeWrite s pa bs) ends

/-- A line is signalled (16 R370); one that END or CONTW has freed stays free. -/
def signalLine (s : State) (u line : Nat) (res : Word) : State :=
  let t := s.strand u
  if (tget (⟨0, 0⟩ : GLine) t.glines line).st = 1 then s.setStrand u { t with glines := tput t.glines line ⟨2, res⟩ } else s

/-- The bytes of the status mask (16 R369). -/
def gatherMask (g : Gather) : List Byte :=
  (upto (cdiv (gCnt g.desc) 8)).map fun j =>
    BitVec.ofNat 8 (((upto 8).map fun b => if g.mask.contains (8 * j + b) then 2 ^ b else 0).foldl (· + ·) 0)

/-- A gather is complete: its in-flight bits, and its line (16 R369, R370). -/
def finishGather (s : State) (g : Gather) (code : Nat) : State :=
  let q := { s with gathers := s.gathers.filter fun x => x != g }
  let res := w64 (g.noor + code * 2 ^ 40 + (if code = 0 then 0 else g.pos) * 2 ^ 48)
  if s.off g.core g.ctx then divert q g.ctx g.core (.signal g.uid g.line res g.lines)
  else signalLine (clearLines q g.lines) g.uid g.line res

def State.setGather (s : State) (g g' : Gather) : State := { s with gathers := s.gathers.map fun x => if x = g then g' else x }

/-- The end of a gather: its status mask, if it has one, is still to be written, a word in each event (08 R203, 16 R369). -/
def endGather (s : State) (g : Gather) (code : Nat) : State :=
  if gHasMask g.desc then s.setGather g { g with fin := some code, idx := none, row := gatherMask g, whole := false } else finishGather s g code

/-- The next word of the status mask, after whose last the gather is complete. -/
def gatherEnd (s : State) (g : Gather) (code : Nat) : State :=
  let o := gMoff g.desc + (cdiv (gCnt g.desc) 8 - g.row.length)
  let q := { g with row := g.row.drop 8 }
  let s := (gatherPut s g o (g.row.take 8) []).setGather g q
  if q.row.isEmpty then finishGather s q code else s

/-- The index of the row in hand is read, in its core's scratchpad (16 R369). -/
def gatherIndex (s : State) (g : Gather) : State :=
  let io := gIoff g.desc + 4 * g.pos
  let k := spadLE s g.core g.ctx io 4
  let n := gRsz g.desc
  if s.off g.core g.ctx then s
  else if spadPoisoned s g.core g.ctx io 4 then endGather (logSpad s g.core g.ctx io) g 4
  else if k = 0xFFFFFFFF then s.setGather g { g with idx := some k, row := List.replicate n 0, whole := true }
  else if gNtab g.desc ≤ k then
    s.setGather g { g with idx := some k, row := (upto n).map fun j => byteOf (gFill g.desc) (j % 8), whole := true, noor := g.noor + 1,
                           mask := g.pos :: g.mask }
  else s.setGather g { g with idx := some k }

/-- The next piece of a table row is read, up to the end of its sector (16 R369). -/
def gatherRead (s : State) (g : Gather) (k : Nat) : State :=
  let a := (gTbase g.desc + k * gTstr g.desc + g.row.length) % 2 ^ 64
  match engineRead s (tlbGather g.cluster) g.ctx a (min (64 - a % 64) (gRsz g.desc - g.row.length)) g.kern g.grp g.lines with
  | .wait s => s
  | .fault s c => endGather s g (min 4 (xCode c))
  | .lost s pa =>
    let r := openBytes 8 (reportLost s g.ctx g.core pa)
    let row := g.row ++ r.2.take (min (64 - a % 64) (gRsz g.desc - g.row.length))
    r.1.setGather g { g with row := row, whole := decide (gRsz g.desc ≤ row.length) }
  | .done s bs => s.setGather g { g with row := g.row ++ bs, whole := decide (gRsz g.desc ≤ (g.row ++ bs).length) }

/-- The next word of a whole row is written (08 R203, 16 R369). -/
def gatherWrite (s : State) (g : Gather) : State :=
  let o := gDoff g.desc + g.pos * gRsz g.desc + (gRsz g.desc - g.row.length)
  let s := gatherPut s g o (g.row.take 8) (gatherEnds s g (spadPA s g.core g.ctx o) 8)
  s.setGather g (if g.row.length ≤ 8 then { g with pos := g.pos + 1, idx := none, row := [], whole := false }
    else { g with row := g.row.drop 8 })

/-- The gather engine of a cluster goes on with its first descriptor (16 R369). -/
def execGatherPerform (cl : Nat) (s : State) : Outcome :=
  .next (
    match s.gathers.find? fun g => g.cluster == cl with
    | none => s
    | some g =>
      if reach s g.core g.ctx = .wait then s
      else if let some code := g.fin then gatherEnd s g code
      else if gCnt g.desc ≤ g.pos then endGather s g 0
      else
        match g.idx with
        | none => gatherIndex s g
        | some k => if g.whole then gatherWrite s g else gatherRead s g k)

end Sys2Proof.Machine
end

