-- ==== Sys2Proof/Machine/Handle.lean ====
section
/-! DEFINITION. The handle instructions (12 R290 to R304) and what the fold engine's queue accepts (13 R309). -/

namespace Sys2Proof.Machine
open Sys2Proof

/-- A status whose record was never read: GEN and NL, as the home holds them, are stated by no rule (12 R294). -/
def unsentStatus (s : State) (code : Nat) : State × Word :=
  let f := s.openWord
  (f.1, w64 (code + fld f.2.toNat 0 4 * 2 ^ 8 + fld f.2.toNat 4 16 * 2 ^ 16))

/-- Destinations of a handle instruction (12 R290, R293). -/
def handleDests (t : Strand) (o : HOp) (h : Nat) (rd : Reg) : List Loc :=
  t.dest rd ++ (match o with | .hopen | .hclose | .hbatch => [.hreg h, .qreg h] | _ => [])

/-- The issue of a handle instruction: decided here, or sent to the record's home. -/
def handleSend (x : Exe) (o : HOp) (h : Nat) (rd : Reg) (va b : Nat) : Strand :=
  x.t.send (.handle o h va b) .s x.pc x.len x.s.steps (handleDests x.t o h rd)
def handleNow (x : Exe) (s : State) (o : HOp) (h : Nat) (rd : Reg) (v : Word) : Eff :=
  let s := s.setStrand x.u (handleSend x o h rd 0 0)
  .ok (match s.op x.u x.t.nextOp with | some q => opReturn s x.u { q with res := [v] } | none => s)
def handleDecided (x : Exe) (o : HOp) (h : Nat) (rd : Reg) (code : Nat) : Eff :=
  let f := unsentStatus x.s code
  handleNow x f.1 o h rd f.2

/-- Operands of the handle instructions that raise CLOSURE when pending (12 R290): HOPEN, HBATCH and HCLOSE write qN beside hN. -/
def handleRefs (h : Obj2) (regs : List Reg) : List Ref := .l (.hreg h.val) :: regs.map .r
def openRefs (h : Obj2) (regs : List Reg) : List Ref := .l (.qreg h.val) :: handleRefs h regs

/-- An instruction on an open handle: H_NOTOPEN at issue, then its precise checks, then it is sent (12 R293, R294). -/
def onHandle (x : Exe) (o : HOp) (h : Obj2) (rd : Reg) (b : Nat) (bad : Option Cause) : Eff :=
  let r := tget Handle.init x.t.handles h.val
  if !r.op then handleDecided x o h.val rd 1
  else match bad with
    | some c => .trap c
    | none => x.upd (handleSend x o h.val rd r.raddr b)

def execHopen (h : Hdr) (o : Obj2) (rd ra : Reg) : State → Outcome :=
  issue h { len := lenShort, pendingClass := true, refs := openRefs o [rd, ra] } fun x =>
    let va := (x.t.reg ra).toNat
    if (tget Handle.init x.t.handles o.val).op then handleDecided x .hopen o.val rd 2
    else if va % 64 ≠ 0 then .trap { code := 6, addr := va, acc := 3 }
    else x.upd (handleSend x .hopen o.val rd va 0)

def execHclose (h : Hdr) (o : Obj2) (rd : Reg) : State → Outcome :=
  issue h { len := lenShort, pendingClass := true, refs := openRefs o [rd] } fun x => onHandle x .hclose o rd 0 none

def execHbatch (h : Hdr) (o : Obj2) (rd : Reg) : State → Outcome :=
  issue h { len := lenShort, pendingClass := true, refs := openRefs o [rd] } fun x => onHandle x .hbatch o rd 0 none

/-- HLIST (12 R298): selector 9 is read at the home, the others at issue. -/
def execHlist (h : Hdr) (o : Obj2) (rd ra : Reg) : State → Outcome :=
  issue h { len := lenShort, pendingClass := true, refs := handleRefs o [rd, ra] } fun x =>
    let r := tget Handle.init x.t.handles o.val
    let sel := (x.t.reg ra).toNat % 16
    if !r.op then handleNow x x.s .hlist o.val rd 0
    else if sel < 8 then
      handleNow x x.s .hlist o.val rd (if sel < r.nl then w64 (r.ids.getD sel 0) else w64 (2 ^ 64 - 1))
    else if sel = 8 then
      handleNow x x.s .hlist o.val rd (w64 (r.gen + r.nl * 2 ^ 16 + b2n (widened x.s x.t.ctx r) * 2 ^ 20))
    else if sel = 9 then x.upd (handleSend x .hlist o.val rd r.raddr 9)
    else handleNow x x.s .hlist o.val rd 0

/-- HATTACH, HDETACH: the id is ra[11:0] (12 R296). -/
def execHattach (h : Hdr) (o : Obj2) (rd ra : Reg) : State → Outcome :=
  issue h { len := lenShort, pendingClass := true, refs := handleRefs o [rd, ra] } fun x =>
    onHandle x .hattach o rd ((x.t.reg ra).toNat % 2 ^ 12) none
def execHdetach (h : Hdr) (o : Obj2) (rd ra : Reg) : State → Outcome :=
  issue h { len := lenShort, pendingClass := true, refs := handleRefs o [rd, ra] } fun x =>
    onHandle x .hdetach o rd ((x.t.reg ra).toNat % 2 ^ 12) none

/-- HSWAP (12 R297): the second operand carries CLR in bit 0 of the 64-aligned base. -/
def execHswap (h : Hdr) (o : Obj2) (rd ra : Reg) : State → Outcome :=
  issue h { len := lenShort, pendingClass := true, refs := handleRefs o [rd, ra] } fun x =>
    let va := (x.t.reg ra).toNat
    onHandle x .hswap o rd (va + (x.t.reg rd).toNat % 2) (if va % 64 = 0 then none else some { code := 6, addr := va })

def execHverify (h : Hdr) (o : Obj2) (rd : Reg) : State → Outcome :=
  issue h { len := lenShort, pendingClass := true, refs := handleRefs o [rd] } fun x => onHandle x .hverify o rd 0 none

/-- Entries of a die's fold queue that are in use: accepted jobs and reservations (13 R305, R309); an HFOLD whose strand has left its slot keeps
its own only while it is on its way. -/
def foldsReserved (s : State) (die : Nat) : Nat :=
  (s.folds.filter fun j => j.die == die).length +
    ((s.strands.filter fun t => coreDie t.2.pcore == die).map fun t =>
      (t.2.ops.filter fun o => o.resv && (t.2.st != .ended || o.phase == .sent)).length).foldl (· + ·) 0

/-- The world of the die's fold engine, and one of its eight entries (13 R309). -/
def foldReserve (s : State) (u : Nat) (o : Op) : State :=
  let t := s.strand u
  let die := coreDie t.pcore
  match o.kind with
  | .handle .hfold _ _ req =>
    if (s.ctx t.ctx).secure != cfgBit s (608 + die) then opFault s u o { code := 9, addr := req }
    else if foldsReserved s die < 8 then s.setOp u { o with resv := true }
    else s
  | _ => s

/-- HFOLD (13 R309). -/
def execHfold (h : Hdr) (o : Obj2) (rd ra : Reg) : State → Outcome :=
  issue h { len := lenShort, pendingClass := true, refs := handleRefs o [rd, ra] } fun x =>
    let va := (x.t.reg ra).toNat
    let r := tget Handle.init x.t.handles o.val
    match onHandle x .hfold o rd va (if va % 32 = 0 then none else some { code := 6, addr := va, acc := 3 }) with
    | .ok s => .ok (if r.op then (match s.op x.u x.t.nextOp with | some q => foldReserve s x.u q | none => s) else s)
    | e => e

/-- DEST or DIGT breaks R306, or the destination overlaps the fold region (13 R308, R309). -/
def badDest (s : State) (ctx : Nat) (r : HRec) (plat : List Byte) (dest digt : Nat) : Bool :=
  let n := baseLen s ctx r plat
  dest % 64 != 0 || dest == 0 || (if r.imode = 1 then digt == 0 || digt % 64 != 0 else digt != 0) ||
    (decide (dest < r.base + n) && decide (r.base < dest + n))

/-- HFOLD at the record's home (13 R309), its plat record p having been read: the status, and whether a job is accepted. -/
def hFoldHome (s : State) (ctx : Nat) (r : HRec) (dest digt : Nat) (p : List Byte) : HRes :=
  if r.psn then .done r 10 []
  else if !r.wellFormed s ctx p then .done r 3 []
  else if r.fold ∨ r.prev ≠ 0 then .done r 7 []
  else if r.nl = 0 then .done r 14 []
  else if r.imode = 2 then .done r 13 []
  else if r.list.any (layerDeliv s ctx) then .done r 12 []
  else if badDest s ctx r p dest digt then .done r 15 []
  else .done (r.setStat 1 1 1) 0 p

/-- The write of FADDR, then of FRES with its order tag (13 R307, R314). -/
def foldResult (s : State) (req result cause fgen nsec faddr : Nat) : State :=
  releaseWrite (homeWrite s (req + 24) (leBytes 8 faddr)) (req + 16)
    (result + cause * 2 ^ 8 + fgen * 2 ^ 16 + nsec % 2 ^ 32 * 2 ^ 32) (mkTag .package cpParty)

/-- The plat register that HOPEN links (12 R295). -/
def openPlat (r : HRec) (p : List Byte) : Plat := ⟨true, p, r.plat, r.base, (upto 5).map (platBox p), true⟩

/-- The strand after a handle instruction has returned H_OK (12 R295). -/
def handleTaken (t : Strand) (op : HOp) (h va pa : Nat) (r : HRec) (p : List Byte) : Strand :=
  let q := tget Plat.init t.plats h
  match op with
  | .hopen => { t with handles := tput t.handles h (r.snap va pa), plats := tput t.plats h (openPlat r p) }
  | .hbatch =>
    { t with handles := tput t.handles h (r.snap va pa)
             plats := if q.linked then tput t.plats h { q with base := r.base } else t.plats }
  | .hclose => { t with handles := tput t.handles h Handle.init, plats := tput t.plats h { q with linked := false } }
  | _ => t

/-- What an instruction on a record comes to at its home, the record having been read there, and for HOPEN its plat record p (12 R295 to
R302). -/
def handleWork (s : State) (ctx : Nat) (op : HOp) (h : Handle) (r : HRec) (b : Nat) (p : List Byte) : HRes :=
  match op with
  | .hopen => hOpenHome s ctx r p
  | .hbatch => hBatchHome r h
  | .hclose => .done (hCloseHome r h) 0 []
  | .hattach => hAttachHome s ctx r b
  | .hdetach => hDetachHome r b
  | .hswap => hSwapHome r (b / 64 * 64) (bit b 0)
  | .hverify => hVerifyHome s ctx r
  | .hlist | .hfold => .done r 0 []

/-- A translated access of a die's fold engine (07 R178, 13 R305). -/
def foldXl (s : State) (die ctx va : Nat) (acc : Acc) : State × Except Cause Xl :=
  xlateBy s (some (tlbFold die)) ctx va acc false

/-- DEST and DIGT, which HFOLD reads from its request block (13 R306, R309): a cause, or none to wait. -/
def readRequest (s : State) (u : Nat) (o : Op) (req : Nat) : State × Except (Option Cause) (Nat × Nat) :=
  let t := { s.strand u with sup := o.sup }
  let q := xlate s t.pcore t.ctx req .read t.sup
  let bad (s : State) (code sub : Nat) : State × Except (Option Cause) (Nat × Nat) :=
    (s, .error (some { code := code, sub := sub, addr := req, acc := 1 }))
  match q.2 with
  | .error c => (q.1, .error (some c))
  | .ok x =>
    if homeOf q.1 x.pa ≠ .first then bad q.1 8 0
    else if earlierOp q.1 u req 16 o.seq || behindWrite q.1 t.pcore x.pa o.seq || behindRelease q.1 t.pcore x.pa o.seq then (q.1, .error none)
    else if isPoisoned q.1 x.pa 16 then bad (logBad q.1 x.pa) 10 0
    else
      match opWatch q.1 t o req 16 .read with
      | some k => bad q.1 12 k
      | none => (noteAccess (markStop q.1 u o req 16 .read) t req x.pa 16, .ok (readLE q.1 x.pa 8, readLE q.1 (x.pa + 8) 8))

/-- A handle record as an instruction finds it at its home, for an access on path S (12 R293, 25 R502): where it lies and what it holds, a
cause, or none to wait. -/
def readRecord (s : State) (u : Nat) (o : Op) (va : Nat) : State × Except (Option Cause) (Nat × HRec) :=
  let t := { s.strand u with sup := o.sup }
  let a := hAddr s t.pcore t.ctx va t.sup
  match a.2 with
  | .error c => (a.1, .error c)
  | .ok pa =>
    if behindWrite a.1 t.pcore pa o.seq || behindRelease a.1 t.pcore pa o.seq then (a.1, .error none)
    else
      match opWatch a.1 t o va 64 .both with
      | some k => (a.1, .error (some { code := 12, sub := k, addr := va, acc := 3 }))
      | none => (noteAccess (markStop a.1 u o va 64 .both) t va pa 64, .ok (pa, hReadRec a.1 pa))

/-- The plat record that a handle record names, which HOPEN and HFOLD read on path S before any field changes (12 R295): where PLAT is no
multiple of 64 the record is malformed, and nothing is read. -/
def readPlat (s : State) (u : Nat) (o : Op) (r : HRec) (force : Bool) : State × Except (Option Cause) (List Byte) :=
  if r.plat % 64 ≠ 0 then (s, .ok []) else readFor s u o r.plat 64 force

/-- HFOLD past its reservation: the request block is read, then the record's home decides; the engine writes FRES and FADDR, and has the
job (13 R309). -/
def performFold (s : State) (u : Nat) (o : Op) (va req : Nat) (force : Bool) : State :=
  let t := s.strand u
  let q := readRequest s u o req
  match q.2 with
  | .error c => settle q.1 u o c
  | .ok d =>
    let a := readRecord q.1 u o va
    match a.2 with
    | .error c => settle a.1 u o c
    | .ok (pa, r) =>
      let b := if r.psn then (a.1, .ok []) else readPlat a.1 u o r force
      match b.2 with
      | .error c => settle b.1 u o c
      | .ok pl =>
      match hFoldHome b.1 t.ctx r d.1 d.2 pl with
      | .fault c => opFault b.1 u o c
      | .done r' code p =>
        if code ≠ 0 then opDone b.1 u { o with resv := false } [hStatus code r']
        else
          let w := foldXl b.1 (coreDie t.pcore) t.ctx req .write
          match w.2 with
          | .error c => opFault w.1 u o c
          | .ok x =>
            if x.wb then s
            else
              let job : FoldJob :=
                { die := coreDie t.pcore, ctx := t.ctx, record := va, snap := r'.snap va pa, req := req, dest := d.1, digt := d.2
                  st := 0, nsec := 0, fgen := r.gen, fail := none, plat := p, out := [], outVA := 0, img := [], ndig := 0 }
              let s := foldResult (hWriteRec w.1 pa r') x.pa 0 0 0 0 0
              opDone { s with folds := s.folds ++ [job] } u { o with resv := false } [hStatus 0 r']

/-- A handle instruction at its record's home (12 R280, R293): HBATCH and HCLOSE first wait for every operation that
carries the snapshot (R291). -/
def performHandle (s : State) (u : Nat) (o : Op) (force : Bool := false) : State :=
  match o.kind with
  | .handle op h va b =>
    let t := s.strand u
    let waits := (op == .hbatch || op == .hclose) && snapshotInUse s u h fun x => x.phase != .late
    if waits || earlierOp s u va 64 o.seq then s
    else if op = .hfold then (if o.resv then performFold s u o va b force else foldReserve s u o)
    else
      let a := readRecord s u o va
      match a.2 with
      | .error c => settle a.1 u o c
      | .ok (pa, r) =>
        let q := if op = .hopen then readPlat a.1 u o r force else (a.1, .ok [])
        let s := q.1
        match q.2 with
        | .error c => settle s u o c
        | .ok pl =>
        if op = .hlist then opDone s u o [w64 r.stat]
        else
          let s := if op = .hverify ∧ r.imode ≠ 0 then verifyLog s t.ctx r else s
          match handleWork s t.ctx op (tget Handle.init t.handles h) r b pl with
          | .fault c => opFault s u o c
          | .done r' code p =>
            let s := if r' = r then s else hWriteRec s pa r'
            let s := if code = 0 then s.modStrand u fun t => handleTaken t op h va pa r' p else s
            opDone s u o [hStatus code r']
  | _ => s

def execHandleHomePerform (uid id : Nat) (s : State) : Outcome :=
  .next (onSent s uid id fun o => performHandle s uid o)

/-- A record's home hashes one shard again (12 R300), once its interval has passed, the shards in rotation: a mismatch poisons the
handle. It waits while the record's page is write-blocked (07 R181, R182). -/
def execHandleScrub (ctx va shard : Nat) (s : State) : Outcome :=
  .next (
    let held := s.strands.any fun t => t.2.ctx == ctx && t.2.handles.any fun h => h.2.op && h.2.raddr == va
    let ivl := (s.ctx ctx).hscrub
    if ivl = 0 || !held then s
    else
      match checkLeaf s ctx va .read true (walk s ctx va) with
      | .error _ => s
      | .ok x =>
        let r := hReadRec s x.pa
        let last := tget (0, 0) s.scrubs x.pa
        if x.wb = true ∨ r.imode ≠ 1 ∨ shard ≠ last.1 ∨ s.cycle < last.2 + ivl then s
        else
          match handlePlat s ctx r with
          | .error _ => logVA s ctx (sectorPieces r.plat 64)
          | .ok p =>
            let n := baseLen s ctx r p
            let a := 2 ^ 20 * shard
            let q := { s with scrubs := tput s.scrubs x.pa (if a + 2 ^ 20 < n then shard + 1 else 0, s.cycle) }
            let q := if a < n then logVA (logVA q ctx (sectorPieces (r.base + a) (min (2 ^ 20) (n - a)))) ctx
              (sectorPieces (r.iref + 32 * shard) 32) else q
            if decide (a < n) && shardDiffers s ctx r shard (readVA s ctx (sectorPieces (r.base + a) (min (2 ^ 20) (n - a)))) then
              hWriteRec q x.pa (r.setStat 3 1 1)
            else q)

end Sys2Proof.Machine
end

