-- ==== Sys2Proof/Machine/Fold.lean ====
section
/-! DEFINITION. The fold engine: running, commit and failure of a job (13 R305, R310 to R317). -/

namespace Sys2Proof.Machine
open Sys2Proof

/-- The job that a die's engine has in hand: the first it accepted (13 R305). -/
def foldAt (s : State) (die : Nat) : Option FoldJob := s.folds.find? fun j => j.die == die

/-- Put the job in hand, in the place of the first of its die; take it out. -/
def putFirst (j : FoldJob) : List FoldJob → List FoldJob
  | [] => []
  | k :: ks => if k.die = j.die then j :: ks else k :: putFirst j ks
def dropFold (die : Nat) : List FoldJob → List FoldJob
  | [] => []
  | k :: ks => if k.die = die then ks else k :: dropFold die ks
def foldSet (s : State) (j : FoldJob) : State := { s with folds := putFirst j s.folds }

/-- A write by an engine at the home of its bytes (06 R153); none where a window does not take it. -/
def tryWrite (s : State) (ctx pa : Nat) (bs : List Byte) : Option State :=
  match homeOf s pa with
  | .window c off => (match windowWrite s ctx c off pa bs with | .done s' => some s' | _ => none)
  | .hole => none
  | _ => some (homeWrite s pa bs)

/-- A write whose refusal nothing reports. -/
def unitWrite (s : State) (ctx pa : Nat) (bs : List Byte) : State := (tryWrite s ctx pa bs).getD s

/-- What a step of a running job comes to: it waits, has failed, or goes on with a changed job. -/
inductive FoldStep where
  | wait (s : State) | fail (s : State) (c : Cause) | go (s : State) (j : FoldJob)

/-- Sector u of the fold region (13 R308, R310): the sector as the slices deliver it, then the checks of its destination; its bytes and the
scales it carries are then written by atoms. -/
def foldSector (s : State) (j : FoldJob) (plat : Plat) (ref u : Nat) : FoldStep :=
  let va := j.snap.base + 64 * u
  let dva := j.dest + 64 * u
  let bad (code va acc : Nat) : Cause := { code := code, addr := va, acc := acc }
  let a := foldXl s j.die j.ctx va .read
  match a.2 with
  | .error c => .fail a.1 c
  | .ok x =>
    let d := readDesc a.1 j.ctx x.leaf.cad
    let page := x.leaf.base
    let off := x.pa - page
    if x.leaf.cad ≠ ref ∨ x.leaf.cad = 0 ∨ d.valid = false ∨ shadowBad d off x.leaf.size = true then
      .fail a.1 (bad 11 va 1)
    else
      let f : Flight := ⟨u, va, x.pa, page, x.leaf.size, x.leaf.cad, none, d.words⟩
      if flightBusy a.1 f || reachPA a.1 j.ctx x.pa != .open then .wait a.1
      else
        match storedSector a.1 j.ctx page off x.leaf.size none d with
        | .error k => .fail (if k = 10 then logBad a.1 x.pa else a.1) (bad k va 1)
        | .ok q =>
          match amend a.1 j.ctx j.snap plat f d false ⟨d.elem, d.block != 0, d.qa, q.1, q.2, d.per, d.group⟩ with
          | .error k => .fail a.1 (bad k va 1)
          | .ok rep =>
            let b := foldXl a.1 j.die j.ctx dva .write
            match b.2 with
            | .error c => .fail b.1 c
            | .ok y =>
              if y.leaf.size ≠ x.leaf.size ∨ y.leaf.cad ≠ x.leaf.cad ∨
                  (((j.dest : Int) - (j.snap.base : Int)) % (x.leaf.size : Int)) ≠ 0 then .fail b.1 (bad 11 dva 2)
              else if y.wb then .wait b.1
              else
                let r := shadowRange d (off / 64)
                let e0 := off / 64 * d.per
                let s := gatherCount (gatherCount b.1 (tlbFold j.die) j.ctx va 1) (tlbFold j.die) j.ctx dva 1
                let bs := (packElems d.elem rep.codes ++ List.replicate 64 0).take 64
                let scales := if d.block = 0 then [] else
                  (upto r.2).map fun k => BitVec.ofNat 8 (rep.scales.getD ((e0 / 32 + k) * 32 - e0) 0)
                .go s { j with out := atomsOf y.pa bs ++ atomsOf (y.leaf.base + r.1) scales, outVA := dva, img := j.img ++ bs }

/-- One atom of what the engine writes is performed (08 R203), the last of a sector with its ECC word clean (06 R160); its home may be a core
that is pre-empted (20 R439), and what a window does not take fails the job (06 R153). -/
def foldWrite (s : State) (j : FoldJob) (w : Nat × List Byte) (rest : List (Nat × List Byte)) : FoldStep :=
  if reachPA s j.ctx w.1 != .open then .wait s
  else
    match tryWrite s j.ctx w.1 w.2 with
    | none => .fail s { code := 8, addr := j.outVA, acc := 2 }
    | some s => .go (if w.1 % 64 = 56 ∧ w.2.length = 8 ∧ j.outVA % 64 = 0 then cleanWord s w.1 else s) { j with out := rest }

/-- What the last atom of a sector or of a digest completes. -/
def FoldJob.wrote (j : FoldJob) (n : Nat) : FoldJob :=
  if !j.out.isEmpty then j else if j.nsec < n then { j with nsec := j.nsec + 1 } else { j with ndig := j.ndig + 1 }

/-- Digest k of the new region (13 R310). -/
def foldDigest (s : State) (j : FoldJob) (k : Nat) (shard : List Byte) : FoldStep :=
  let va := j.digt + 32 * k
  let r := foldXl s j.die j.ctx va .write
  match r.2 with
  | .error c => .fail r.1 c
  | .ok x =>
    if x.wb then .wait r.1
    else .go (gatherCount r.1 (tlbFold j.die) j.ctx va 1) { j with out := atomsOf x.pa (sha256 shard), outVA := va }

/-- The descriptor index of the base's first sector, by which the others are held (07 R172). -/
def foldRef (s : State) (j : FoldJob) : Nat :=
  match (foldXl s j.die j.ctx j.snap.base .read).2 with | .ok x => x.leaf.cad | .error _ => platCad j.plat

/-- What a job that runs does next: it writes on, folds its next sector, or writes its next digest; when all is written it is committing. -/
def foldNext (s : State) (j : FoldJob) : FoldStep :=
  let n := regionSectors (readDesc s j.ctx (platCad j.plat)) (platBox j.plat 0) (platBox j.plat 1) (platStr j.plat 1) j.snap.base
  match j.out with
  | w :: rest => (match foldWrite s j w rest with | .go s j => .go s (j.wrote n) | r => r)
  | [] =>
    if j.nsec < n then
      foldSector s j ⟨true, j.plat, j.snap.plat, j.snap.base, (upto 5).map (platBox j.plat), false⟩ (foldRef s j) j.nsec
    else if j.digt = 0 then .go s { j with st := 2 }
    else
      match (shards j.img)[j.ndig]? with
      | some b => foldDigest s j j.ndig b
      | none => .go s { j with st := 2 }

/-- A step of the job in hand (13 R310, R313): a queued job starts to run; a running one goes on. -/
def foldStep (s : State) (j : FoldJob) : State :=
  if j.fail.isSome then s
  else if j.st = 0 then foldSet s { j with st := 1 }
  else if j.st ≠ 1 then s
  else
    match foldNext s j with
    | .wait s => s
    | .fail s c => foldSet s { j with fail := some c, out := [] }
    | .go s j => foldSet s j

def execFoldJobStart (die : Nat) (s : State) : Outcome :=
  .next (match foldAt s die with | some j => foldStep s j | none => s)

/-- The engine's writes of FADDR and FRES (13 R311, R312): none while their page is write-blocked; a request block that no longer
translates gets neither (log entry 98). -/
def foldReport (s : State) (j : FoldJob) (result cause faddr : Nat) : Option State :=
  let r := foldXl s j.die j.ctx j.req .write
  match r.2 with
  | .error _ => some r.1
  | .ok x => if x.wb then none else some (foldResult r.1 x.pa result cause j.fgen j.nsec faddr)

/-- The last change of a job's record, then the report, and the job leaves the queue: it stays where it has to wait. -/
def foldEnd (s : State) (j : FoldJob) (pa : Nat) (f : HRec → HRec) (result cause faddr : Nat) : State :=
  match foldReport (hWriteRec s pa (f (hReadRec s pa))) j result cause faddr with
  | none => s
  | some s => { s with folds := dropFold j.die s.folds }

/-- The commit at the record's home, then FRES (13 R311); a record that no longer translates fails the job (log entry 98). -/
def execFoldCommit (die : Nat) (s : State) : Outcome :=
  .next (
    match foldAt s die with
    | none => s
    | some j =>
      if j.st ≠ 2 then s
      else
        let a := hSite j.record (foldXl s j.die j.ctx j.record .both)
        match a.2 with
        | .error none => a.1
        | .error (some c) => foldSet a.1 { j with st := 1, fail := some c }
        | .ok pa => foldEnd a.1 j pa (fun r => hCommit r j.dest j.digt) 1 0 0)

/-- A failed job clears FOLD, and FRES and FADDR name the cause (13 R312); a record that does not translate is left as it is. -/
def execFoldFail (die : Nat) (s : State) : Outcome :=
  .next (
    match foldAt s die with
    | none => s
    | some j =>
      match j.fail with
      | none => s
      | some c =>
        let a := hSite j.record (foldXl s j.die j.ctx j.record .both)
        match a.2 with
        | .error none => a.1
        | .error (some _) => (match foldReport a.1 j 2 c.code c.addr with | none => s | some s => { s with folds := dropFold j.die s.folds })
        | .ok pa => foldEnd a.1 j pa (fun r => r.setStat 1 1 0) 2 c.code c.addr)

end Sys2Proof.Machine
end

