-- ==== Sys2Proof/Machine/Control.lean ====
section
/-! DEFINITION. Control transfers, window instructions, and predicate instructions (04 R106 to R112). -/

namespace Sys2Proof.Machine
open Sys2Proof

/-- BR (04 R109). -/
def execBr (h : Hdr) (off : BitVec 17) : State → Outcome :=
  issue h { len := lenShort } fun x => jump x (wordTarget x.pc off) x.t
def execBrLit (h : Hdr) (lit : Word) : State → Outcome :=
  issue h { len := lenLit } fun x => jump x (byteTarget x.pc lit) x.t
def execJr (h : Hdr) (ra : Reg) : State → Outcome :=
  issue h { len := lenShort, refs := [.r ra] } fun x => jump x (x.t.reg ra).toNat x.t

/-- The slide of a window (04 R106). -/
def slideOf (kc : BitVec 2) : Nat := 4 * (kc.toNat + 1)

/-- The strand after a call slides the window by k and writes the link word (04 R106). -/
def Strand.slideUp (t : Strand) (k link : Nat) : Strand :=
  { t.setLoc (.phys ((t.cwp + k - 1) % 96)) (w64 link) with cwp := (t.cwp + k) % 96, wres := t.wres + k }

/-- CALL, CALLR (04 R106). -/
def callTo (x : Exe) (kc : BitVec 2) (target : Nat) : Eff :=
  let k := slideOf kc
  if x.t.isPending (.phys ((x.t.cwp + k - 1) % 96)) then .trap { code := 2 }
  else if target % 4 ≠ 0 then .trap { code := 6, addr := target }
  else if 72 < x.t.wres + k then .trap { code := 4 }
  else x.upd { x.t.slideUp k (Nat.lor ((x.pc + x.len) % 2 ^ 64) kc.toNat) with pc := target }

def execCall (h : Hdr) (kc : BitVec 2) (off : BitVec 15) : State → Outcome :=
  issue h { len := lenShort } fun x => callTo x kc (wordTarget x.pc off)
def execCallLit (h : Hdr) (kc : BitVec 2) (lit : Word) : State → Outcome :=
  issue h { len := lenLit } fun x => callTo x kc (byteTarget x.pc lit)
def execCallr (h : Hdr) (kc : BitVec 2) (ra : Reg) : State → Outcome :=
  issue h { len := lenShort, refs := [.r ra] } fun x => callTo x kc (x.t.reg ra).toNat

/-- RET (04 R107). The read of the link word raises CLOSURE when it is pending (04 R99). -/
def execRet (h : Hdr) : State → Outcome :=
  issue h { len := lenShort } fun x =>
    let l := Loc.phys ((x.t.cwp + 95) % 96)
    let link := (x.t.getLoc l).toNat
    let k := 4 * (link % 4 + 1)
    if x.t.isPending l then .trap { code := 2 }
    else if x.t.wres = 0 ∨ x.t.wres < k then .trap { code := 5 }
    else x.upd { x.t with cwp := (x.t.cwp + 96 - k) % 96, wres := x.t.wres - k, pc := link / 4 * 4 }

/-- NOP, YIELD (04 R110). -/
def execNop (h : Hdr) : State → Outcome := issue h { len := lenShort } fun x => x.upd x.t
def execYield (h : Hdr) : State → Outcome := issue h { len := lenShort } fun x => x.upd { x.t with yielded := true }

/-- END (04 R110): it closes as if C were 1, and the turn that follows the close ends the strand. -/
def execEndStrand (h : Hdr) : State → Outcome := issue h { len := lenShort, ends := true } fun x => x.upd x.t

/-- The physical registers from i on. -/
def physRun (i n : Nat) : List Loc := (upto n).map fun j => .phys ((i + j) % 96)

/-- WSPILL of n registers (04 R108): ALIGN, then translation, then the stores of the oldest resident registers. -/
def spillN (x : Exe) (n : Nat) : Eff :=
  let a := x.t.wsp.toNat
  let ls := physRun (x.t.cwp + 96 - x.t.wres) n
  if n = 0 then .ok x.s
  else if ls.any x.t.isPending then .trap { code := 2 }
  else if a % 8 ≠ 0 then .trap { code := 6, addr := a, acc := 2 }
  else storeEff x a (ls.map fun l => leBytes 8 (x.t.getLoc l).toNat) fun t =>
    { t with wsp := t.wsp + w64 (8 * n), wres := t.wres - n }

def execWspill (h : Hdr) (kc : BitVec 2) : State → Outcome :=
  issue h { len := lenShort } fun x => spillN x (min (slideOf kc) x.t.wres)

/-- WFILL (04 R108): pending-class, its destinations the n registers below the resident ones; WSP and WRES change at
issue. -/
def execWfill (h : Hdr) (kc : BitVec 2) : State → Outcome :=
  issue h { len := lenShort, pendingClass := true } fun x =>
    let n := min (slideOf kc) (72 - x.t.wres)
    let a := x.t.wsp.toNat
    let ds := physRun (x.t.cwp + 192 - x.t.wres - n) n
    let b := (a + 2 ^ 64 - 8 * n) % 2 ^ 64
    if n = 0 then .ok x.s
    else if ds.any x.t.isPending then .trap { code := 2 }
    else if a % 8 ≠ 0 then .trap { code := 6, addr := a, acc := 1 }
    else
      let r := sitesOf x.s x.t .read ((upto n).map fun j => (b + 8 * j, 8))
      match r.2 with
      | .error c => .trap c
      | .ok _ =>
        .ok (r.1.setStrand x.u ({ x.t with wsp := w64 b, wres := x.t.wres + n }.send (.wfill b n) .s x.pc x.len x.s.steps ds))

/-- CMP and CMPI (04 R111). -/
def icmpOf (c : ICond) (a b : Word) : Bool :=
  match c with
  | .eq => a == b | .ne => a != b | .lt => a.slt b | .ge => !a.slt b | .ltu => a.ult b | .geu => !a.ult b
  | .tst => a &&& b != 0 | .ntst => a &&& b == 0
def execCmp (h : Hdr) (cd : Pr) (ra rb : Reg) (cond : ICond) : State → Outcome :=
  predOp h lenShort cd [.r ra, .r rb] fun t => (icmpOf cond (t.reg ra) (t.reg rb), 0)
def execCmpi (h : Hdr) (cd : Pr) (ra : Reg) (cond : ICond) (imm : BitVec 5) : State → Outcome :=
  predOp h lenShort cd [.r ra] fun t => (icmpOf cond (t.reg ra) (immW imm), 0)
def execCmpiLit (h : Hdr) (cd : Pr) (ra : Reg) (cond : ICond) (lit : Word) : State → Outcome :=
  predOp h lenLit cd [.r ra] fun t => (icmpOf cond (t.reg ra) lit, 0)

/-- Predicate operations (04 R112). -/
def execPand (h : Hdr) (cd ca cb : Pr) : State → Outcome :=
  predOp h lenShort cd [.p ca, .p cb] fun t => (t.predBit ca && t.predBit cb, 0)
def execPor (h : Hdr) (cd ca cb : Pr) : State → Outcome :=
  predOp h lenShort cd [.p ca, .p cb] fun t => (t.predBit ca || t.predBit cb, 0)
def execPxor (h : Hdr) (cd ca cb : Pr) : State → Outcome :=
  predOp h lenShort cd [.p ca, .p cb] fun t => (t.predBit ca != t.predBit cb, 0)
def execPnot (h : Hdr) (cd ca : Pr) : State → Outcome := predOp h lenShort cd [.p ca] fun t => (!t.predBit ca, 0)
def execPmov (h : Hdr) (cd ca : Pr) : State → Outcome := predOp h lenShort cd [.p ca] fun t => (t.predBit ca, 0)

end Sys2Proof.Machine
end

