-- ==== Sys2Proof/Machine/Engine.lean ====
section
/-! DEFINITION. What the contracting engine performs (10 R233 to R261, 11 R263 to R278). -/

namespace Sys2Proof.Machine
open Sys2Proof

/-- The tile an operation names; a load into it; reading and writing the operand window (10 R235). -/
def EngKind.tile? : EngKind → Option Nat
  | .ashape a _ _ | .adatum a _ | .azero a | .astat a _ | .achk a | .cld a _ _ | .cldSp a _ _
  | .adrain a _ _ _ _ _ _ | .coop _ _ a _ => some a
  | _ => none
def EngKind.isLoad : EngKind → Bool
  | .cld _ _ _ | .cldSp _ _ _ | .coop _ _ _ _ => true
  | _ => false
def EngKind.reads : EngKind → Bool
  | .cld _ _ _ | .cldSp _ _ _ | .coop _ _ _ _ | .ocols _ => true
  | _ => false
def EngKind.writes : EngKind → Bool
  | .old _ _ | .oldT _ _ _ _ _ _ | .member _ _ => true
  | _ => false

/-- KIND of CPROGB (11 R263). -/
def EngKind.prog : EngKind → Nat
  | .cld _ _ cp => if cp then 2 else 1
  | .cldSp _ _ _ => 3 | .old _ _ => 4 | .oldT _ _ _ _ _ _ => 5 | .adrain _ _ _ _ _ _ _ => 6
  | _ => 0

/-- Does an operation write memory on path K, and the ranges of virtual addresses that one reads or writes there (10 R242, R257): the
sectors of its rows, a drain's scales, and for a sparse stream whatever its map may name. -/
def EngKind.drains : EngKind → Bool
  | .adrain _ _ _ _ _ _ _ => true
  | _ => false
def EngOp.spans (s : State) (e : EngOp) : List (Nat × Nat) :=
  let per := if e.started then e.per else (readDesc s e.ctx e.plat.cad).per
  let rows : List (Nat × Nat) := (upto (e.plat.box 1)).map fun y => (sectorVA e.plat e.org per y 0, 64 * cdiv (e.plat.box 0) (max 1 per))
  match e.kind with
  | .cld _ _ _ | .old _ _ | .oldT _ _ _ _ _ _ => rows
  | .adrain _ tgt _ _ _ scale _ =>
    if mxElem tgt then
      rows ++ (upto (e.plat.box 1)).map fun y =>
        (scale + ((fld e.org 20 20 + y) * e.plat.str 1 + fld e.org 0 20) / 32, cdiv (e.plat.box 0) 32)
    else rows
  | .cldSp _ _ _ => [(e.plat.base, 2 ^ 56 - e.plat.base)]
  | _ => []

/-- Sectors of row y of a CLD.SP and the number before it (11 R274). -/
def spNnz (e : EngOp) (y : Nat) : Nat := fld (tget 0 e.buf (y * 64)) 32 16
def spSoff (e : EngOp) (y : Nat) : Nat := fld (tget 0 e.buf (y * 64)) 0 32
def spNs (e : EngOp) (y : Nat) : Nat := cdiv (spNnz e y) e.per
def spBefore (e : EngOp) (y : Nat) : Nat := ((upto y).map (spNs e)).foldl (· + ·) 0

/-- The row and the place within it of sector t of a CLD.SP. -/
def spFind (e : EngOp) : Nat → Nat → Nat → Option (Nat × Nat)
  | 0, _, _ => none
  | fuel + 1, y, t => if y < e.row then (if t < spNs e y then some (y, t) else spFind e fuel (y + 1) (t - spNs e y)) else none

/-- Sectors known so far, and whether that is all of them (10 R250, 11 R274). -/
def EngOp.known (e : EngOp) : Nat × Bool :=
  match e.kind with
  | .cldSp _ _ _ => (spBefore e e.row, e.row == e.plat.box 1)
  | _ => (e.plat.box 1 * cdiv (e.plat.box 0) e.per, true)

/-- Row, place within the row, and address of sector t. -/
def EngOp.sector (e : EngOp) (t : Nat) : Nat × Nat × Nat :=
  match e.kind with
  | .cldSp _ _ _ =>
    (match spFind e (e.row + 1) 0 t with
    | some q => (q.1, q.2, (e.plat.base + 64 * (spSoff e q.1 + q.2)) % 2 ^ 64)
    | none => (0, 0, 0))
  | _ =>
    let ns := cdiv (e.plat.box 0) e.per
    (t / ns, t % ns, sectorVA e.plat e.org e.per (t / ns) (t % ns))

/-- Has a load of the operand window written its own core's rows: what is left of it is for the members of its chain (10 R247)? -/
def EngOp.stored (e : EngOp) : Bool :=
  e.kind.writes && e.started && (upto e.known.1).all fun t => e.marks.contains t

/-- Is an operation behind an earlier one of its strand to the same bytes, one of the two writing them (05 R140, 08 R200)? -/
def pathBehind (s : State) (e l : EngOp) : Bool :=
  e.uid == l.uid && (e.kind.drains || l.kind.drains) &&
    (e.spans s).any fun x => (l.spans s).any fun y => decide (x.1 < y.1 + y.2) && decide (y.1 < x.1 + x.2)

/-- Does an operation accepted earlier keep a later one waiting (10 R235, 08 R200)? A load held at its checks keeps nothing (10
R249), nor does an OCOLS that is held; a load held at a sector keeps its place (log entry 33). Loads of the window write it in their order,
and an ASHAPE waits for the drain of its tile (DESIGN CHOICE, log entries 117 and 115). -/
def blocks (s : State) (e l : EngOp) : Bool :=
  if e.heldAt = 1 && e.kind.isLoad then false
  else
    ((match e.kind.tile?, l.kind.tile? with | some a, some b => a == b | _, _ => false) &&
      !(e.kind.isLoad && l.kind.isLoad)) ||
    e.kind.writes && !e.stored && (l.kind.reads || l.kind.writes) || e.kind.reads && e.heldAt != 1 && l.kind.writes || pathBehind s e l

/-- The operation of a traverse in a member's queue (10 R247). -/
def isMember (core seq : Nat) (x : EngOp) : Bool := match x.kind with | .member c n => c == core && n == seq | _ => false

/-- Is an entry of a queue free of everything accepted before it? A traverse that comes back to its own core does not wait for itself. -/
def unblocked (s : State) (p : Part) (e : EngOp) : Bool :=
  !((p.eq ++ p.streams).any fun x => decide (x.seq < e.seq) && !isMember p.core x.seq e && blocks s x e)

def Part.setEq (p : Part) (e : EngOp) : Part := { p with eq := p.eq.map fun x => if x.seq = e.seq then e else x }
def Part.setStream (p : Part) (e : EngOp) : Part := { p with streams := p.streams.map fun x => if x.seq = e.seq then e else x }
def Part.dropEq (p : Part) (n : Nat) : Part := { p with eq := p.eq.filter fun x => x.seq != n }
def Part.dropStream (p : Part) (n : Nat) : Part := { p with streams := p.streams.filter fun x => x.seq != n }
/-- An entry leaves the queue when its stream starts (DESIGN CHOICE, log entry 115). -/
def Part.toStream (p : Part) (e : EngOp) : Part := { p.dropEq e.seq with streams := p.streams ++ [e] }

/-- An operation has been performed: one that returned at acceptance has nothing more to do, the others return (10
R234, R236). -/
def engineDone (s : State) (u id : Nat) (res : List Word) : State :=
  match s.op u id with
  | some o =>
    if o.phase == .late then s.modStrand u fun t => { t with ops := t.ops.filter fun x => x.id != id }
    else if o.phase == .sent then opDone s u o res else s
  | none => s

/-- An operation faults: its strand takes the cause at a close (10 R236, 11 R267). -/
def engineFault (s : State) (u id : Nat) (c : Cause) (b m : Nat) : State :=
  match s.op u id with
  | some o => if o.phase == .late || o.phase == .sent then opFault s u { o with cprogb := b, cprogm := m } c else s
  | none => s

/-- Held at its checks, or in mid-operation: the entry keeps its place. -/
def holdEq (s : State) (core : Nat) (e : EngOp) (how : Nat) (c : Cause) (b m : Nat) : State :=
  engineFault (s.modPart core e.ctx fun p => p.setEq { e with heldAt := how }) e.uid e.opId c b m

def shapeCause : Cause := { code := 23 }

/-- The checks of CLD for an engine (10 R249, R251), but for the extents. -/
def cldShape (s : State) (p : Part) (e : EngOp) (a o : Nat) : Bool :=
  let t := p.tile a
  let d := readDesc s e.ctx e.plat.cad
  let l0 := e.plat.box 0
  t.st != .unshaped && sectorRule d e.plat e.org && decide (e.plat.box 1 ≤ t.rows) && streamElem d.elem &&
    (match p.rf with | none => false | some f => decide (o + l0 ≤ p.orows f.elem)) &&
    (!d.qa || d.per % d.group == 0 && fld e.org 0 20 % d.group == 0 && l0 % d.group == 0 && o % d.group == 0 &&
      p.osumG == some d.group)

/-- The checks of CLD.SP (11 R272). -/
def cldSpShape (s : State) (p : Part) (e : EngOp) (a o : Nat) : Bool :=
  let t := p.tile a
  let d := readDesc s e.ctx e.plat.cad
  t.st != .unshaped && e.plat.cad != 0 && d.valid && d.bmp && residentElem d.elem && e.plat.str 0 == 1 &&
    e.plat.box 2 == 1 && e.plat.box 3 == 1 && e.plat.box 4 == 1 && decide (e.plat.box 1 ≤ t.rows) &&
    (match p.rf with | none => false | some f => decide (o + e.plat.box 0 ≤ p.orows f.elem))

/-- The format that the sectors of an OLD hold: BF16 under widened delivery (12 R287), otherwise the page's. -/
def oldFmt (s : State) (e : EngOp) : RFmt :=
  let d := readDesc s e.ctx e.plat.cad
  if widened s e.ctx e.snap then ⟨10, false⟩ else ⟨d.elem, d.block != 0⟩

/-- The checks of OLD and OLD.T against a partition (10 R244, R245), but for the extents. -/
def oldShape (s : State) (p : Part) (e : EngOp) (o : Nat) (tr : Bool) : Bool :=
  let d := readDesc s e.ctx e.plat.cad
  let f := oldFmt s e
  let l0 := e.plat.box 0
  let l1 := e.plat.box 1
  sectorRule d e.plat e.org && residentElem f.elem && residentElem d.elem &&
    (if tr then decide (l1 ≤ 256) && decide (o + l0 ≤ p.orows f.elem)
     else decide (l0 ≤ 256) && decide (o + l1 ≤ p.orows f.elem) &&
       (d.block == 0 || e.plat.str 1 % 32 == 0 && fld e.org 0 20 % 32 == 0))

/-- A window takes a format: a change clears it (10 R244); column sums end. -/
def Part.takeFmt (p : Part) (f : RFmt) : Part :=
  let p := { p with osumG := none, osum := [] }
  if p.rf = some f then p else { p with rf := some f, ostore := [], oscale := [] }

/-- A change of format writes the whole window (06 R160). -/
def takenFmt (s : State) (core : Nat) (p : Part) (f : RFmt) : State :=
  if p.rf = some f then s else cleanWords s core (0x100000 + p.partn.ob) p.partn.ow

/-- The cores of a chain list (10 R247): halfwords at a scratchpad offset, up to 63, ended by 0xFFFF; a cause where the list
does not lie in the partition, or reads poisoned (06 R159); an error without cause where a line of it is in flight (06 R157). -/
def chainList (s : State) (core ctx off : Nat) : Nat → Except (Option Cause) (List Nat)
  | 0 => .ok []
  | n + 1 =>
    if spadSize s core ctx < off + 2 then .error (some { code := 7, sub := 3, addr := off, acc := 1 })
    else if spadBusy s core ctx off 2 then .error none
    else if spadPoisoned s core ctx off 2 then .error (some { code := 10, addr := off, acc := 1 })
    else
      let v := spadLE s core ctx off 2
      if v = 0xFFFF then .ok []
      else match chainList s core ctx (off + 2) n with | .ok l => .ok (v :: l) | .error c => .error c

/-- Does a core run a group of the context (10 R247)? -/
def runsGroup (s : State) (ctx core : Nat) : Bool := (s.part core ctx).st != .none && ctxOnCore s ctx core

/-- An OLD or OLD.T begins (10 R244 to R247): checks on the own window and on every member's, then the window takes the
format. -/
def startOld (s : State) (core : Nat) (e : EngOp) (o : Nat) (tr : Bool) (chain : Option Nat) : State :=
  let p := s.part core e.ctx
  let d := readDesc s e.ctx e.plat.cad
  let list : Except (Option Cause) (List Nat) := match chain with | none => .ok [] | some off => chainList s core e.ctx off 63
  match list with
  | .error none => s
  | .error (some c) => holdEq (if c.code = 10 then logSpad s core e.ctx c.addr else s) core e 1 c (e.kind.prog * 2 ^ 44) 0
  | .ok ms =>
    if !(oldShape s p e o tr && ms.all fun m => decide (m < 512) && runsGroup s e.ctx m && oldShape s (s.part m e.ctx) e o tr) then
      holdEq s core e 1 shapeCause (e.kind.prog * 2 ^ 44) 0
    else if !inExtents e.plat e.org then holdEq s core e 1 { code := 27 } (e.kind.prog * 2 ^ 44) 0
    else
      let e' := { e with started := true, per := d.per, wide := widened s e.ctx e.snap, toReserve := ms, toSend := ms, heldAt := 0 }
      (takenFmt s core p (oldFmt s e)).modPart core e.ctx fun p => (p.takeFmt (oldFmt s e)).toStream e'

/-- A CLD or CLDC begins (10 R249, R254): every engine of a cooperative load checks, and all hold or all start. -/
def startCld (s : State) (core : Nat) (e : EngOp) (a o : Nat) (coop : Bool) : State :=
  let d := readDesc s e.ctx e.plat.cad
  let others := if coop then (clusterCores (coreCluster core)).filter (· != core) else []
  let mine (c : Nat) (x : EngOp) : Bool := match x.kind with | .coop k n _ _ => k == core && n == e.seq && decide (c ≠ core) | _ => false
  let entry (c : Nat) : Option EngOp := (s.part c e.ctx).eq.find? (mine c)
  let ready := others.all fun c => (match entry c with | some x => unblocked s (s.part c e.ctx) x | none => false) && !s.off c e.ctx && !frozenNow s c
  let spans := !coop || decide (1 ≤ (s.kern (s.strand e.uid).kern).kind)
  let hold (c : Cause) : State :=
    others.foldl (fun s c => s.modPart c e.ctx fun p => { p with eq := p.eq.map fun x => if mine c x then { x with heldAt := 1 } else x })
      (holdEq s core e 1 c (e.kind.prog * 2 ^ 44) 0)
  if !spans then hold shapeCause
  else if !ready then s
  else if !(cldShape s (s.part core e.ctx) e a o && others.all fun c => cldShape s (s.part c e.ctx) e a o) then hold shapeCause
  else if !inExtents e.plat e.org then hold { code := 27 }
  else
    let s := s.modPart core e.ctx fun p =>
      p.toStream { e with started := true, per := d.per, wide := widened s e.ctx e.snap, heldAt := 0 }
    others.foldl (fun s c => s.modPart c e.ctx fun p =>
      match p.eq.find? (mine c) with
      | some x => p.toStream { x with started := true, heldAt := 0 }
      | none => p) s

/-- Bytes of a map record, and where record y lies (11 R273). -/
def mapStep (p : Plat) : Nat := 8 + 8 * cdiv (p.box 0) 64

/-- A CLD.SP begins (11 R272). -/
def startSp (s : State) (core : Nat) (e : EngOp) (a map o : Nat) : State :=
  let d := readDesc s e.ctx e.plat.cad
  let prog := e.kind.prog * 2 ^ 44
  if !cldSpShape s (s.part core e.ctx) e a o then holdEq s core e 1 shapeCause prog 0
  else if map % 8 ≠ 0 then holdEq s core e 1 { code := 6, addr := map } prog 0
  else if spadSize s core e.ctx < map + e.plat.box 1 * mapStep e.plat then
    holdEq s core e 1 { code := 7, sub := 3, addr := map, acc := 1 } prog 0
  else s.modPart core e.ctx fun p => p.toStream { e with started := true, per := d.per, heldAt := 0 }

/-- ASHAPE (10 R238). -/
def performAshape (s : State) (core : Nat) (e : EngOp) (a rows cols : Nat) : State :=
  let p := s.part core e.ctx
  let n := cdiv rows 128 * (cols / 64)
  let held := (p.tiles.filter fun t => t.1 != a).flatMap fun t => t.2.phys
  if p.partn.tiles.length < n + held.length then holdEq s core e 1 shapeCause 0 0
  else
    let free := (p.partn.tiles.filter fun j => !held.contains j).take n
    let s := cleanTiles (s.modCore core fun k => { k with ptiles := free.foldl (fun m j => tput m j PTile.init) k.ptiles }) core free
    let s := s.modPart core e.ctx fun p =>
      (p.setTile a { LTile.init with st := .live, rows := rows, cols := cols, phys := free }).dropEq e.seq
    engineDone s e.uid e.opId []

/-- ADATUM and AZERO (10 R239). -/
def performSet (s : State) (core : Nat) (e : EngOp) (a : Nat) (datum : Option Int) : State :=
  let t := (s.part core e.ctx).tile a
  if t.st = .unshaped then holdEq s core e 1 shapeCause 0 0
  else
    let s := s.modCore core fun k =>
      match datum with
      | some _ => undrain k t.phys
      | none => { k with ptiles := t.phys.foldl (fun m j => tput m j PTile.init) k.ptiles }
    let s := if datum.isSome then s else cleanTiles s core t.phys
    let t' := match datum with | some d => { t with st := .live, datum := d } | none => { t with st := .live, chkfail := false, part := false }
    engineDone (s.modPart core e.ctx fun p => (p.setTile a t').dropEq e.seq) e.uid e.opId []

/-- A core reports a failed check; the third within 2^32 cycles reports the core itself (10 R258), and the count begins anew (DESIGN CHOICE,
log entry 115). -/
def checkReport (s : State) (core ctx : Nat) : State :=
  let recent := ((s.core core).checks.filter fun c => decide (s.cycle < c + 2 ^ 32)) ++ [s.cycle]
  if 3 ≤ recent.length then report (s.modCore core fun k => { k with checks := [] }) 6 ctx 33 0xFF core 0
  else s.modCore core fun k => { k with checks := recent }

/-- Bytes of a run of codes that starts at position i of a sector (03 R73): whole bytes, and byte 63 of a 6-bit sector
with its last group; where the run ends before it, byte 63 is a write of its own. -/
def packRun (elem i : Nat) (codes : List Nat) : List Byte :=
  match (elemFmt elem).bits with
  | 6 => ((upto (cdiv codes.length 4)).flatMap fun g =>
      leBytes 3 (codes.getD (4 * g) 0 % 64 + codes.getD (4 * g + 1) 0 % 64 * 2 ^ 6 + codes.getD (4 * g + 2) 0 % 64 * 2 ^ 12 +
        codes.getD (4 * g + 3) 0 % 64 * 2 ^ 18)) ++ (if i + codes.length = 84 then [0] else [])
  | _ => packElems elem codes
def runOffset (elem i : Nat) : Nat :=
  match (elemFmt elem).bits with | 4 => i / 2 | 6 => 3 * (i / 4) | n => n / 8 * i

/-- Byte 63 of the 6-bit sectors that writes do not fill is written zero (03 R73). -/
def padWrites (elem : Nat) (ws : List (Nat × List Byte)) : List (Nat × List Byte) :=
  if (elemFmt elem).bits = 6 then (ws.filter fun w => decide (3 ≤ w.2.length) && decide (w.2.length < 64)).map fun w => (w.1 / 64 * 64 + 63, [0])
  else []

/-- The writes of consecutive element codes from element offset e on, sector by sector. -/
def elemWrites (elem per base : Nat) : Nat → Nat → List Nat → List (Nat × List Byte)
  | 0, _, _ => []
  | fuel + 1, e, codes =>
    if codes.isEmpty then []
    else
      let n := min codes.length (per - e % per)
      (base + 64 * (e / per) + runOffset elem (e % per), packRun elem (e % per) (codes.take n)) ::
        elemWrites elem per base fuel (e + n) (codes.drop n)

/-- Codes, scale writes and flags of row i of a drain (10 R257). -/
def drainRow (s : State) (core : Nat) (e : EngOp) (t : LTile) (per tgt rm : Nat) (sat : Bool) (stream scale seed i : Nat) :
    List (Nat × List Byte) × Nat :=
  let l0 := e.plat.box 0
  let o0 := fld e.org 0 20
  let y := fld e.org 20 20 + i
  let k := s.core core
  let xs := (upto l0).map fun j => (laneOfTile k t i j).val t.datum
  let rnd := (upto l0).map fun j => rndOf rm seed stream (y * 2 ^ 32 + (o0 + j))
  let e0 := y * e.plat.str 1 + o0
  let out (codes : List Nat) : List (Nat × List Byte) := elemWrites tgt per e.plat.base (codes.length + 1) e0 codes
  if mxElem tgt then
    let bs := (upto (l0 / 32)).map fun b => mxScale ((xs.drop (32 * b)).take 32) tgt ((rnd.drop (32 * b)).take 32) sat
    (out (bs.flatMap fun m => m.2.1) ++
      ((upto bs.length).map fun b => (scale + (e0 + 32 * b) / 32, leBytes 1 (bs.getD b (0, [], 0)).1)),
     bs.foldl (fun a m => Nat.lor a m.2.2) 0)
  else
    let cs := (xs.zip rnd).map fun q => convertNum (elemFmt tgt) q.2 sat q.1
    (out (cs.map (·.1)), cs.foldl (fun a c => Nat.lor a c.2) 0)

/-- Where a drain's write goes (10 R257): the own scratchpad, or a translated page; a wait is an error without cause. -/
def drainSite (s : State) (lcore core ctx va n : Nat) : State × Except (Option Cause) Site :=
  match localOff s ctx va with
  | some o =>
    if spadSize s lcore ctx < o + n then (s, .error (some { code := 7, sub := 3, addr := va, acc := 2 }))
    else if spadBusy s lcore ctx o n then (s, .error none)
    else (s, .ok ⟨spadPA s lcore ctx o, true, false⟩)
  | none =>
    let r := xlate s core ctx va .write false
    match r.2 with
    | .error c => (r.1, .error (some c))
    | .ok x =>
      if x.wb then (r.1, .error none)
      else
        match homeOf r.1 x.pa with
        | .window c off =>
          if roRegion off || (winCheck r.1 ctx c off true).isSome then (r.1, .error (some { code := 8, addr := va, acc := 2 }))
          else if linesBusy r.1 x.pa n [] then (r.1, .error none)
          else (r.1, match reachPA r.1 ctx x.pa with | .wait => .error none | _ => .ok ⟨x.pa, false, false⟩)
        | _ => (r.1, match reachPA r.1 ctx x.pa with | .wait => .error none | _ => .ok ⟨x.pa, false, false⟩)

/-- Every write of a row is placed before any is performed. -/
def drainSites (s : State) (lcore core ctx : Nat) : List (Nat × List Byte) → State × Except (Option Cause) (List Site)
  | [] => (s, .ok [])
  | w :: ws =>
    let r := drainSite s lcore core ctx w.1 w.2.length
    match r.2 with
    | .error c => (r.1, .error c)
    | .ok p =>
      let q := drainSites r.1 lcore core ctx ws
      (q.1, match q.2 with | .ok ps => .ok (p :: ps) | .error c => .error c)

/-- The sectors of a drain's write are counted (07 R174, 19 R412). -/
def drainCount (s : State) (core : Nat) (e : EngOp) (va : Nat) (w : Site) (n : Nat) : State :=
  let t := s.strand e.uid
  if w.loc then s else charge (gatherCount s (tlbCore core) e.ctx va (sectorPieces w.pa n).length) t.kern t.grp w.pa n

/-- One atom of a drain is written (08 R203); the last of a whole sector has the sector's ECC word clean (06 R160). -/
def drainWrite (s : State) (core : Nat) (e : EngOp) (va : Nat) (w : Site) (bs : List Byte) : State :=
  let clean (s : State) : State := if va % 64 = 56 ∧ bs.length = 8 then cleanWord s w.pa else s
  if w.loc then homeWrite s w.pa bs
  else
    let s := touch s core w.pa
    match reachPA s e.ctx w.pa, windowCore s w.pa with
    | .divert, some c => divert s e.ctx c (.write ⟨e.uid, core, e.ctx, .k, va, w.pa, bs, none, s.steps, true, none, none, false⟩)
    | _, _ => clean (landWrite s e.ctx e.uid w.pa bs)

/-- A drain that has started is held at its row (10 R258). -/
def drainHold (s : State) (core a : Nat) (e : EngOp) (c : Cause) : State :=
  holdEq (s.modPart core e.ctx fun p => p.setTile a { p.tile a with st := .held, was := .draining }) core
    { e with out := [] } 2 c (6 * 2 ^ 44 + e.row) 0

/-- A drain that has started goes on by one part: the next atom of its row is written; or the next row's writes are all placed before
any is performed; or, after the last row, it is performed (08 R203, 10 R257). -/
def drainStep (s : State) (core : Nat) (e : EngOp) (a tgt rm : Nat) (sat : Bool) (stream scale seed : Nat) : State :=
  let t := (s.part core e.ctx).tile a
  match e.out with
  | w :: ws =>
    let q := drainSite s core core e.ctx w.1 w.2.length
    (match q.2 with
    | .error none => q.1
    | .error (some c) => drainHold q.1 core a e c
    | .ok site =>
      (drainWrite q.1 core e w.1 site w.2).modPart core e.ctx fun p =>
        p.setEq { e with out := ws, row := if ws.isEmpty then e.row + 1 else e.row })
  | [] =>
    if e.row < e.plat.box 1 then
      let r := drainRow s core e t e.per tgt rm sat stream scale seed e.row
      let q := drainSites s core core e.ctx r.1
      match q.2 with
      | .error none => q.1
      | .error (some c) => drainHold q.1 core a e c
      | .ok ps =>
        ((r.1.zip ps).foldl (fun s w => drainCount s core e w.1.1 w.2 w.1.2.length) q.1).modPart core e.ctx fun p =>
          p.setEq { e with out := (r.1 ++ padWrites tgt r.1).flatMap fun w => atomsOf w.1 w.2, flags := Nat.lor e.flags r.2 }
    else
      let s := s.modCore core fun k => { k with ptiles := t.phys.foldl (fun m j => tput m j { tget PTile.init m j with drained := true }) k.ptiles }
      engineDone (s.modPart core e.ctx fun p => (p.setTile a { t with st := .drained, dflags := e.flags % 16 }).dropEq e.seq)
        e.uid e.opId []

/-- ADRAIN (10 R257, R258): its checks, then part by part. heldAt 3 is a failed check that the command processor answers by a rerun
(R260). -/
def performDrain (s : State) (core : Nat) (e : EngOp) (a tgt rm : Nat) (sat : Bool) (stream scale seed : Nat) : State :=
  let p := s.part core e.ctx
  let t := p.tile a
  let d := readDesc s e.ctx e.plat.cad
  let mx := mxElem tgt
  let prog : Nat := 6 * 2 ^ 44
  if e.started then drainStep s core e a tgt rm sat stream scale seed
  else if !(t.st != .unshaped && sectorRule d e.plat e.org && d.elem == tgt && decide (e.plat.box 1 ≤ t.rows) &&
      decide (e.plat.box 0 ≤ t.cols) &&
      (!mx || e.plat.box 0 % 32 == 0 && fld e.org 0 20 % 32 == 0 && e.plat.str 1 % 32 == 0)) then
    holdEq s core e 1 shapeCause prog 0
  else if !inExtents e.plat e.org then holdEq s core e 1 { code := 27 } prog 0
  else if tileChecks s core t != 0 then
    let s := checkReport s core e.ctx
    if (s.strand e.uid).slice.isSome then
      (s.modPart core e.ctx fun p => p.setEq { e with heldAt := 3 }).modStrand e.uid fun t => { t with rerunWaits := true }
    else
      holdEq (s.modPart core e.ctx fun p => p.setTile a { t with st := .held, was := .draining }) core e 2 { code := 22 } prog 0
  else s.modPart core e.ctx fun p => (p.setTile a { t with st := .draining }).setEq { e with started := true, per := d.per }

/-- A mask parameter block (11 R277). -/
def maskOk (b : List Byte) : Bool :=
  recLE b 15 1 == 0 && decide (recLE b 14 1 < 2) && decide (recLE b 13 1 ≤ 16) && decide (4 ≤ recLE b 12 1) &&
    decide (recLE b 12 1 ≤ 8) && decide (1 ≤ recLE b 0 4) && decide (recLE b 0 4 ≤ 32768 * 2 ^ recLE b 12 1)

/-- Is a pair allowed (11 R278)? -/
def maskAllowed (b : List Byte) (i j : Nat) : Bool :=
  let causal := recLE b 14 1 == 1
  let win := recLE b 8 4
  let anc := (upto (recLE b 13 1)).map fun k => recLE b (16 + 4 * k) 4
  (!causal || decide (j ≤ i)) &&
    (win == 0 || decide ((if causal then (i : Int) - j else ((i : Int) - j).natAbs) < win) || anc.contains j)

/-- The entries of the kept key blocks (11 R278). -/
def maskList (b : List Byte) (qb : Nat) : List Nat :=
  let bs := 2 ^ recLE b 12 1
  let nk := recLE b 0 4
  let is := (upto bs).map fun i => recLE b 4 4 + qb * bs + i
  (upto (cdiv nk bs)).filterMap fun kb =>
    let js := (upto (min nk ((kb + 1) * bs) - kb * bs)).map fun j => kb * bs + j
    if is.any fun i => js.any fun j => maskAllowed b i j then
      some (kb % 2 ^ 15 + (if is.any fun i => js.any fun j => !maskAllowed b i j then 2 ^ 15 else 0))
    else none

/-- MSEQ has made its list: it is written by 8-byte atoms (08 R203), each once its line is not in flight, and then F0. -/
def mseqStep (s : State) (core : Nat) (e : EngOp) : State :=
  match e.out with
  | [] => engineDone (s.modPart core e.ctx fun p => p.dropEq e.seq) e.uid e.opId [w64 e.row]
  | w :: ws =>
    if spadBusy s core e.ctx w.1 w.2.length then s
    else (spadWrite s core e.ctx w.1 w.2).modPart core e.ctx fun p => p.setEq { e with out := ws }

/-- MSEQ (11 R276 to R278). The list is as long as what is written to it (DESIGN CHOICE, log entry 116). -/
def performMseq (s : State) (core : Nat) (e : EngOp) (list par qb cap : Nat) : State :=
  let sz := spadSize s core e.ctx
  let bad (a : Nat) : State := holdEq s core e 1 { code := 30, addr := a } 0 0
  if e.started then mseqStep s core e
  else if par % 16 ≠ 0 ∨ sz < par + 80 then bad par
  else if list % 2 ≠ 0 then bad list
  else if spadBusy s core e.ctx par 80 then s
  else if spadPoisoned s core e.ctx par 80 then holdEq (logSpad s core e.ctx par) core e 1 { code := 10, addr := par, acc := 1 } 0 0
  else
    let b := spadRead s core e.ctx par 80
    if !maskOk b then bad par
    else
      let es := maskList b qb
      let out := es.take cap
      if sz < list + 2 * out.length then bad list
      else
        s.modPart core e.ctx fun p =>
          p.setEq { e with started := true, row := es.length, out := atomsOf list (out.flatMap fun v => leBytes 2 v) }

/-- The engine performs the entry with a given number, once nothing before it holds it back (10 R235). -/
def performEngine (s : State) (core : Nat) (e : EngOp) : State :=
  match e.kind with
  | .ashape a r c => performAshape s core e a r c
  | .adatum a d => performSet s core e a (some d)
  | .azero a => performSet s core e a none
  | .astat a v =>
    engineDone (s.modPart core e.ctx fun p => p.dropEq e.seq) e.uid e.opId
      [w64 (astatWord s core ((s.part core e.ctx).tile a) v)]
  | .achk a =>
    let v := tileChecks s core ((s.part core e.ctx).tile a)
    let s := if v = 0 then s else checkReport s core e.ctx
    engineDone (s.modPart core e.ctx fun p => p.dropEq e.seq) e.uid e.opId [w64 v]
  | .cld a o coop => startCld s core e a o coop
  | .cldSp a map o => startSp s core e a map o
  | .old o chain => startOld s core e o false chain
  | .oldT o _ _ _ _ chain => startOld s core e o true chain
  | .ocols g =>
    let p := s.part core e.ctx
    if p.rf = none then holdEq s core e 1 shapeCause 0 0
    else
      engineDone (s.modPart core e.ctx fun p => { p.dropEq e.seq with osumG := some g, osum := p.columnSums g }) e.uid e.opId []
  | .adrain a tgt rm sat stream scale seed => performDrain s core e a tgt rm sat stream scale seed
  | .mseq list par qb cap => performMseq s core e list par qb cap
  | .member _ _ => s
  | .coop _ _ _ _ => s

def execEngineOpPerform (core ctx seq : Nat) (s : State) : Outcome :=
  .next (
    let p := s.part core ctx
    match p.eq.find? fun e => e.seq == seq with
    | none => s
    | some e => if p.st != .placed || frozenNow s core || e.heldAt != 0 || !unblocked s p e then s else performEngine s core e)

/-- The lowest sector that has not been accumulated (11 R263). -/
def EngOp.baseSector (e : EngOp) : Nat := (firstFrom (e.known.1 + 1) 0 fun t => !e.marks.contains t).getD 0

/-- The next sector to request: the lowest that is neither marked nor in flight (10 R250, 11 R268). -/
def EngOp.nextSector (e : EngOp) : Option Nat :=
  firstFrom e.known.1 0 fun t => !e.marks.contains t && !(e.flight.any fun f => f.t == t)

/-- Has a load that is not held, and whose sectors have all been clean, a sector or a map record still to ask for (11 R265, R275)? -/
def EngOp.unasked (e : EngOp) : Bool :=
  e.heldAt == 0 && e.bad.isEmpty && (e.nextSector.isSome || !e.known.2) && (match e.kind with | .coop _ _ _ _ => false | _ => true)

/-- May it ask: a traverse first reserves every member (10 R247), and no sector lies more than 63 above the base (11 R263)? -/
def EngOp.wants (e : EngOp) : Bool :=
  e.unasked && e.toReserve.isEmpty && (match e.nextSector with | some t => decide (t ≤ e.baseSector + 63) | none => true)

/-- Cores whose engines hold or end with a load (10 R254, 11 R270). -/
def loadCores (core : Nat) (e : EngOp) : List Nat :=
  match e.kind with | .cld _ _ true => clusterCores (coreCluster core) | _ => [core]

/-- Is every engine of a load there, none of its cores pre-empted (10 R262)? -/
def allPlaced (s : State) (core : Nat) (e : EngOp) : Bool := (loadCores core e).all fun c => (s.part c e.ctx).st == .placed

/-- The header words of a sparse load's records that hold stored codes, as far as the engine has read them and else as the map stands (DESIGN
CHOICE, log entry 118). -/
def spHeads (s : State) (core : Nat) (e : EngOp) (map : Nat) : List Nat :=
  ((upto (e.plat.box 1)).map fun y => if y < e.row then tget 0 e.buf (y * 64) else spadLE s core e.ctx (map + y * mapStep e.plat) 8).filter
    fun w => fld w 32 16 != 0

/-- The reference index of a load: the CAD of the page that holds the lowest-addressed sector of its range (07 R172). -/
def EngOp.refCad (s : State) (core : Nat) (e : EngOp) : Option Nat :=
  let va :=
    match e.kind with
    | .cldSp _ map _ =>
      let offs := (spHeads s core e map).map fun w => fld w 0 32
      (e.plat.base + 64 * offs.foldl min (offs.headD 0)) % 2 ^ 64
    | _ => sectorVA e.plat e.org e.per 0 0
  pageCad s core e.ctx va e.plat.cad

/-- A load asks for a sector: what is checked at the request (11 R264). Where the page of the lowest-addressed sector does not translate, the
plat's CAD is the reference index (DESIGN CHOICE, log entry 118). -/
def askSector (s : State) (core ctx : Nat) (e : EngOp) (t : Nat) : State × Except Cause Flight :=
  let z := useDesc s core ctx e.plat.cad
  let q := e.sector t
  let va := match e.kind with | .cldSp _ _ _ => q.2.2 | _ => sectorVA e.plat e.org z.2.per q.1 q.2.1
  requestSector z.1 core core ctx t va e.plat.cad ((e.refCad z.1 core).getD e.plat.cad) z.2

/-- Where the words of the next map record that have not been read begin, and their line (11 R273, R275). -/
def mapPlace (e : EngOp) (map : Nat) : Nat × Nat :=
  let a := map + e.row * mapStep e.plat + 8 * e.words.length
  (a, a / 64 * 64)

/-- Does what a load asks for next lie in a line that is in flight (06 R157)? -/
def askWaits (s : State) (core ctx : Nat) (e : EngOp) : Bool :=
  match e.nextSector with
  | some t => (match (askSector s core ctx e t).2 with | .ok f => flightBusy s f | .error _ => false)
  | none =>
    match e.kind, e.line with
    | .cldSp _ map _, none => spadBusy s core ctx (mapPlace e map).2 64
    | _, _ => false

/-- Is a load behind an earlier one of its engine that has still to ask (10 R253)? A cooperative load that a pre-empted member stops keeps
nothing behind it (10 R262). -/
def askBehind (s : State) (core : Nat) (p : Part) (e : EngOp) : Bool :=
  let asks (x : EngOp) : Bool := match x.kind with
    | .cld _ _ _ | .cldSp _ _ _ | .old _ _ | .oldT _ _ _ _ _ _ => x.heldAt == 0
    | _ => false
  (p.streams.any fun x => decide (x.seq < e.seq) && x.unasked && allPlaced s core x) ||
    p.eq.any fun x => decide (x.seq < e.seq) && asks x && allPlaced s core x

/-- Can a load ask for its next sector or map line (10 R250, R253, R262)? -/
def canAsk (s : State) (core : Nat) (p : Part) (e : EngOp) : Bool :=
  e.wants && allPlaced s core e && !askBehind s core p e && !askWaits s core p.ctx e

/-- Contexts with work for a core's engine, in ascending order: cycles that the owner of an entry cannot use are theirs (10 R261). -/
def engineCtxs (s : State) (core : Nat) : List Nat :=
  (s.parts.filter fun p => p.2.core == core && p.2.streams.any (canAsk s core p.2)).map fun p => p.2.ctx

/-- The context whose work comes next (10 R261): the owner of the slot-table entry of this cycle, or else the contexts in turn by number. -/
def engineNext (s : State) (core : Nat) : Option Nat :=
  let cs := engineCtxs s core
  let v := tget 0 (s.core core).stab (s.cycle / 256 % 64)
  if bit v 15 ∧ cs.contains (v % 2 ^ 12) = true then some (v % 2 ^ 12)
  else
    match cs.find? fun c => decide ((s.core core).engTurn < c) with
    | some c => some c
    | none => cs.head?

/-- A map record that has been read whole (11 R273): the row's words, or a malformed record that holds the load at the row. -/
def takeRecordWords (p : Part) (e : EngOp) (off : Nat) (ws : List Nat) : Part :=
  let y := e.row
  let h := ws.headD 0
  let bits := leNat ((ws.drop 1).flatMap fun w => leBytes 8 w)
  let set := (upto (64 * (ws.length - 1))).filter fun b => bit bits b
  if h / 2 ^ 48 ≠ 0 ∨ set.length ≠ fld h 32 16 ∨ (set.any fun b => decide (e.plat.box 0 ≤ b)) = true then
    p.setStream { e with words := [], line := none, bad := e.bad ++ [(spBefore e y, { code := 30, addr := off, acc := 1 })] }
  else
    p.setStream { e with words := [], row := y + 1, buf := (upto ws.length).foldl (fun m i => tput m (y * 64 + i) (ws.getD i 0)) e.buf }

/-- The next map line is read, once each (11 R275), or the one in hand gives its words to the next record; a line that is in flight is
waited for (06 R157). -/
def readMap (s : State) (core : Nat) (e : EngOp) (map : Nat) : State :=
  let n := mapStep e.plat
  let off := map + e.row * n
  let a := (mapPlace e map).1
  let l := (mapPlace e map).2
  match e.line with
  | some q =>
    if q.1 = l then
      let m := min (off + n - a) (l + 64 - a) / 8
      let ws := e.words ++ (upto m).map fun i => recLE q.2 (a - l + 8 * i) 8
      s.modPart core e.ctx fun p =>
        if ws.length = n / 8 then takeRecordWords p e off ws else p.setStream { e with words := ws }
    else s.modPart core e.ctx fun p => p.setStream { e with line := none }
  | none =>
    if spadBusy s core e.ctx l 64 then s
    else if spadPoisoned s core e.ctx a (min (off + n - a) (l + 64 - a)) then
      (logSpad s core e.ctx a).modPart core e.ctx fun p => p.setStream
        { e with words := [], bad := e.bad ++ [(spBefore e e.row, { code := 10, addr := off, acc := 1 })] }
    else s.modPart core e.ctx fun p => p.setStream { e with line := some (l, spadRead s core e.ctx l 64) }

/-- The mask of CPROGM above the base (11 R263). -/
def progMask (e : EngOp) (base : Nat) : Nat :=
  ((upto 64).filter fun i => e.marks.contains (base + i)).foldl (fun a i => a + 2 ^ i) 0

/-- A tile becomes HELD (10 R233). -/
def holdTile (s : State) (core ctx a : Nat) : State :=
  s.modPart core ctx fun p =>
    let t := p.tile a
    p.setTile a (if t.st = .held then t else { t with st := .held, was := t.st })

/-- The operation in another engine's list that belongs to a cooperative load. -/
def isCoop (core seq : Nat) (x : EngOp) : Bool := match x.kind with | .coop c n _ _ => c == core && n == seq | _ => false

/-- A row of the window is replaced when the operation first writes it (10 R244): a key of its buffer above all elements says so. -/
def firstRow (q : Part × EngOp) (elem row : Nat) : Part × EngOp :=
  if (tget? q.2.buf (2 ^ 30 + row)).isNone then (q.1.freshRow elem row, { q.2 with buf := tput q.2.buf (2 ^ 30 + row) 1 }) else q

/-- An element in hand: keys are y * 4096 + x, with the scale above its code and the format of the sector that it came in above both
(07 R173). -/
def EngOp.code (e : EngOp) (y x : Nat) : Nat := tget 0 e.buf (y * 4096 + x) % 2 ^ 32
def EngOp.scl (e : EngOp) (y x : Nat) : Nat := fld (tget 0 e.buf (y * 4096 + x)) 32 8
def EngOp.fmtAt (e : EngOp) (y x : Nat) : RFmt :=
  let v := tget 0 e.buf (y * 4096 + x) / 2 ^ 40
  ⟨v % 32, v / 32 == 1⟩

/-- One block of a row that OLD.T writes in a block format (10 R245), and its flags. -/
def storeBlock (f : RFmt) (e : EngOp) (o rm : Nat) (sat : Bool) (stream seed : Nat) (q : (Part × EngOp) × Nat) (x b : Nat) :
    (Part × EngOp) × Nat :=
  let w := firstRow q.1 f.elem (o + x)
  let vs := (upto 32).map fun i =>
    let n := 32 * b + i
    if n < e.plat.box 1 then elemVal (e.fmtAt n x).elem (e.fmtAt n x).block (e.scl n x) (e.code n x) else .fin false 0 1
  let rs := (upto 32).map fun i => rndOf rm seed stream ((o + x) * 2 ^ 32 + (32 * b + i))
  let m := mxScale vs f.elem rs sat
  (({ w.1 with ostore := (upto 32).foldl (fun st i => putCode st f.elem (o + x) (32 * b + i) (m.2.1.getD i 0)) w.1.ostore
               oscale := tput w.1.oscale ((o + x) * 8 + b) (BitVec.ofNat 8 m.1) }, w.2), Nat.lor q.2 m.2.2)

/-- An element that OLD, or OLD.T without blocks, writes at row y, position x of the tensor (10 R244, R245). -/
def storeElem (f : RFmt) (o : Nat) (tr : Bool) (q : Part × EngOp) (y x code scale : Nat) : Part × EngOp :=
  let row := if tr then o + x else o + y
  let col := if tr then y else x
  let w := firstRow q f.elem row
  let p := { w.1 with ostore := putCode w.1.ostore f.elem row col code }
  (if f.block then { p with oscale := tput p.oscale (row * 8 + col / 32) (BitVec.ofNat 8 scale) } else p, w.2)

/-- The window has the format of what is stored next. -/
def Part.inFmt (p : Part) (f : RFmt) : Part := if p.rf = some f then p else p.takeFmt f

/-- A whole load as a member of its traverse stores it (10 R247), each element under the format of its sector. -/
def storeAll (p : Part) (e : EngOp) : Part :=
  let e' := { e with buf := e.buf.filter fun b => decide (b.1 < 2 ^ 30) }
  let f := e.fmtAt 0 0
  let q := (p.takeFmt f, e')
  let put (o : Nat) (tr : Bool) (q : Part × EngOp) (y x : Nat) : Part × EngOp :=
    storeElem (e.fmtAt y x) o tr (q.1.inFmt (e.fmtAt y x), q.2) y x (e.code y x) (e.scl y x)
  let l0 := e.plat.box 0
  let l1 := e.plat.box 1
  match e.kind with
  | .old o _ => ((upto l1).foldl (fun q y => (upto l0).foldl (fun q x => put o false q y x) q) q).1
  | .oldT o rm sat stream seed _ =>
    if f.block then
      ((upto l0).foldl (fun q x => (upto 8).foldl (fun q b => storeBlock f e' o rm sat stream seed q x b) q) (q, 0)).1.1
    else ((upto l1).foldl (fun q y => (upto l0).foldl (fun q x => put o true q y x) q) q).1
  | _ => p

/-- Rows that an operation has written first since it was e. -/
def newRows (e z : EngOp) : List Nat :=
  (z.buf.filter fun b => decide (2 ^ 30 ≤ b.1) && (tget? e.buf b.1).isNone).map fun b => b.1 - 2 ^ 30

/-- Words of the window that a load writes whole become clean (06 R160). -/
def cleanRows (s : State) (core : Nat) (p : Part) (f : RFmt) (e : EngOp) : State :=
  let rows := match e.kind with
    | .old o _ => (upto (e.plat.box 1)).map fun y => o + y
    | .oldT o _ _ _ _ _ => (upto (e.plat.box 0)).map fun x => o + x
    | _ => []
  rows.foldl (fun s r => cleanRow s core p.partn f.elem r) (takenFmt s core p f)

/-- Does a transposed block load keep a sector until its block of 32 source rows is there (10 R245)? -/
def staged (f : RFmt) (e : EngOp) : Bool := match e.kind with | .oldT _ _ _ _ _ _ => f.block | _ => false

/-- A load that has nothing in flight is held at its faults, or ends when every sector is marked (10 R250, R254, 11
R265 to R270). -/
def settleStream (s : State) (core ctx seq : Nat) : State :=
  match (s.part core ctx).streams.find? fun e => e.seq == seq with
  | none => s
  | some e =>
    if e.heldAt ≠ 0 ∨ e.flight ≠ [] then s
    else
      match e.bad.foldl (fun (a : Option (Nat × Cause)) b => match a with | none => some b | some x => some (if b.1 < x.1 then b else x)) none with
      | some b =>
        let base := e.baseSector
        let s := (loadCores core e).foldl (fun s c =>
          let s := s.modPart c ctx fun p =>
            { p with streams := p.streams.map fun x => if (c = core ∧ x.seq = seq) ∨ isCoop core seq x = true then { x with heldAt := 2 } else x }
          match e.kind with
          | .cld a _ _ => holdTile s c ctx a
          | .cldSp a _ _ => holdTile s c ctx a
          | _ => s) s
        engineFault s e.uid e.opId b.2 (e.kind.prog * 2 ^ 44 + (b.1 - base) % 64 * 2 ^ 32 + base % 2 ^ 32) (progMask e base)
      | none =>
        if !(e.known.2 && (upto e.known.1).all fun t => e.marks.contains t) || e.toSend ≠ [] then s
        else
          let s := if e.flags = 0 then s else s.modStrand e.uid fun t => t.addFlags e.flags
          let s := (loadCores core e).foldl (fun s c => s.modPart c ctx fun p =>
            { p with streams := p.streams.filter fun x => !((decide (c = core) && x.seq == seq) || isCoop core seq x) }) s
          engineDone s e.uid e.opId []

/-- The engine requests the next sector of a load, or, when all that it knows of have been requested, reads its next map line (10 R250, R253,
R261, R262, 11 R265, R275): loads ask in the order of their acceptance, one context after another. -/
def execSectorRequest (core ctx seq : Nat) (s : State) : Outcome :=
  .next (
    let p := s.part core ctx
    match p.streams.find? fun e => e.seq == seq with
    | none => s
    | some e =>
      let inFlight := ((s.parts.filter fun q => q.2.core == core).map fun q => (q.2.streams.map fun x => x.flight.length).foldl (· + ·) 0).foldl (· + ·) 0
      if frozenNow s core || 64 ≤ inFlight || !canAsk s core p e || engineNext s core != some ctx then s
      else
        let s := s.modCore core fun k => { k with engTurn := ctx }
        match e.nextSector with
        | none =>
          (match e.kind with
          | .cldSp _ map _ => settleStream (readMap s core e map) core ctx seq
          | _ => s)
        | some t =>
          let r := askSector s core ctx e t
          match r.2 with
          | .error c => settleStream (r.1.modPart core ctx fun p => p.setStream { e with bad := e.bad ++ [(t, c)] }) core ctx seq
          | .ok f => r.1.modPart core ctx fun p => p.setStream { e with flight := e.flight ++ [f] })

/-- The contributions of a sector of a CLD or CLDC to one engine's tile (10 R250, R251). -/
def accumulateRow (s : State) (core ctx : Nat) (e : EngOp) (a o y k : Nat) (r : Reply) : State :=
  let p := s.part core ctx
  let t := p.tile a
  let l0 := e.plat.box 0
  let per := r.per
  let n := min r.codes.length (l0 - per * k)
  let cs : List (Nat × (Word × BitVec 2)) :=
    if r.qa then
      (upto (n / r.group)).flatMap fun g =>
        let sc := r.scales.getD (g * r.group) 0
        let z := if r.elem = 16 then fld sc 16 4 else fld sc 16 8
        let x0 := per * k + g * r.group
        (upto t.cols).map fun j =>
          let sum := (upto r.group).foldl (fun v i =>
            v.add ((Val.fin false (r.codes.getD (g * r.group + i) 0) 1).mul (p.resident (o + x0 + i) j))) (Val.fin false 0 1)
          let cz := (Val.fin false z 1).mul (tget (Val.fin false 0 1) p.osum ((o + x0) / r.group * 256 + j))
          (j, roundToGrid ((decodeFlt fp16 (sc % 2 ^ 16)).mul (sum.add cz.neg)) t.datum)
    else
      (upto n).flatMap fun i =>
        let v := elemVal r.elem r.block (r.scales.getD i 0) (r.codes.getD i 0)
        (upto t.cols).map fun j => (j, roundToGrid (v.mul (p.resident (o + per * k + i) j)) t.datum)
  let s := s.modCore core fun c => cs.foldl (fun c q => addToLane c t y q.1 q.2) (undrain c t.phys)
  let bad := tilePoisoned s core t || (upto n).any fun i => rowBad s core p t.cols (o + per * k + i)
  s.modPart core ctx fun p => p.setTile a { t.live with chkfail := t.chkfail || bad }

/-- The dense positions of a row of a CLD.SP (11 R274). -/
def densePos (e : EngOp) (y : Nat) : List Nat :=
  let bits := leNat ((upto (cdiv (e.plat.box 0) 64)).flatMap fun m => leBytes 8 (tget 0 e.buf (y * 64 + 1 + m)))
  (upto (e.plat.box 0)).filter fun b => bit bits b

/-- The contributions of a sector of a CLD.SP (11 R274). -/
def accumulateSparse (s : State) (core ctx : Nat) (e : EngOp) (a o y k : Nat) (r : Reply) : State :=
  let p := s.part core ctx
  let t := p.tile a
  let pos := densePos e y
  let n := min r.codes.length (spNnz e y - r.per * k)
  let cs := (upto n).flatMap fun i =>
    let v := elemVal r.elem r.block (r.scales.getD i 0) (r.codes.getD i 0)
    (upto t.cols).map fun j => (j, roundToGrid (v.mul (p.resident (o + pos.getD (r.per * k + i) 0) j)) t.datum)
  let s := s.modCore core fun c => cs.foldl (fun c q => addToLane c t y q.1 q.2) (undrain c t.phys)
  let bad := tilePoisoned s core t || (upto n).any fun i => rowBad s core p t.cols (o + pos.getD (r.per * k + i) 0)
  s.modPart core ctx fun p => p.setTile a { t.live with chkfail := t.chkfail || bad }

/-- A product of a load into a tile fails its residue check (10 R252). -/
def residueError (s : State) (core ctx a : Nat) : State :=
  let p := s.part core ctx
  if p.streams.any fun e => e.kind.isLoad && e.kind.tile? == some a then
    s.modPart core ctx fun p => p.setTile a { p.tile a with chkfail := true }
  else s

/-- A sector of an OLD or OLD.T reaches the window (10 R244, R245); a transposed block is written when its 32 source rows are there, and
until then the engine keeps the sector, which counts as accumulated (DESIGN CHOICE, log entry 117). -/
def storeSector (p : Part) (f : RFmt) (e : EngOp) (t y k : Nat) (r : Reply) : Part × EngOp :=
  let l0 := e.plat.box 0
  let l1 := e.plat.box 1
  let xs := (upto (min r.codes.length (l0 - r.per * k))).map fun i => r.per * k + i
  let put (buf : Table Nat) (x : Nat) : Table Nat :=
    tput buf (y * 4096 + x) (r.codes.getD (x - r.per * k) 0 % 2 ^ 32 + r.scales.getD (x - r.per * k) 0 % 2 ^ 8 * 2 ^ 32 +
      (r.elem % 32 + 32 * b2n r.block) * 2 ^ 40)
  let has := { e with buf := xs.foldl put e.buf, marks := t :: e.marks }
  match e.kind with
  | .old o _ => xs.foldl (fun q x => storeElem f o false q y x (has.code y x) (has.scl y x)) (p, has)
  | .oldT o rm sat stream seed _ =>
    if f.block then
      let ns := cdiv l0 e.per
      let b := y / 32
      let group := ((upto 32).map fun i => (32 * b + i) * ns + k).filter fun n => decide (n < l1 * ns)
      let kept := t :: e.kept
      if group.all kept.contains then
        let bs := if 32 * (b + 1) < l1 then [b] else (upto 8).drop b
        let q := xs.foldl (fun q x => bs.foldl (fun q b => storeBlock f has o rm sat stream seed q x b) q) ((p, has), 0)
        (q.1.1, { q.1.2 with kept := kept.filter fun n => !group.contains n, flags := Nat.lor e.flags q.2 })
      else (p, { has with kept := kept })
    else xs.foldl (fun q x => storeElem f o true q y x (has.code y x) 0) (p, has)
  | _ => (p, e)

/-- A sector's reply arrives (10 R250, 11 R264, R265): before anything of a load is done, its delivery follows the layers as they now
stand (12 R287). -/
def execSectorReply (core ctx seq t : Nat) (s : State) : Outcome :=
  .next (
    let p := s.part core ctx
    match p.streams.find? fun e => e.seq == seq with
    | none => s
    | some e =>
      match e.flight.find? fun f => f.t == t with
      | none => s
      | some f =>
        if (loadCores core e).any (frozenNow s) || flightBusy s f || reachPA s ctx f.pa != .open && windowCore s f.pa != some core then s
        else
          let wide := if e.kind.writes && !e.marks.isEmpty then e.wide else widened s ctx e.snap
          let e' := { e with flight := e.flight.filter fun x => x.t != t, wide := wide }
          match replySector s ctx e' f with
          | .error c =>
            let s := if c.code = 10 then logBad s f.pa else s
            settleStream (s.modPart core ctx fun p => p.setStream { e' with bad := e.bad ++ [(t, c)] }) core ctx seq
          | .ok r =>
            let st := s.strand e.uid
            let s := charge (gatherCount s (tlbCore core) ctx f.va 1) st.kern st.grp f.pa 64
            let q := e.sector t
            let e'' := { e' with marks := t :: e.marks }
            let s :=
              match e.kind with
              | .cld a o _ =>
                (loadCores core e).foldl (fun s c =>
                  let o' := match (s.part c ctx).streams.find? (isCoop core seq) with
                    | some x => (match x.kind with | .coop _ _ _ n => n | _ => o) | none => o
                  accumulateRow s c ctx e a o' q.1 q.2.1 r) (s.modPart core ctx fun p => p.setStream e'')
              | .cldSp a _ o => accumulateSparse (s.modPart core ctx fun p => p.setStream e'') core ctx e a o q.1 q.2.1 r
              | _ =>
                let fm : RFmt := ⟨r.elem, r.block⟩
                let p := s.part core ctx
                let z := storeSector (p.inFmt fm) fm e' t q.1 q.2.1 r
                let s := (newRows e' z.2).foldl (fun s row => cleanRow s core p.partn fm.elem row) (takenFmt s core p fm)
                s.setPart core ctx (z.1.setStream z.2)
            settleStream s core ctx seq)

/-- A chain reservation reaches the next member: the OLD takes its place in the member's queue (10 R247). -/
def execTraverseReservation (core ctx seq : Nat) (s : State) : Outcome :=
  .next (
    match (s.part core ctx).streams.find? fun e => e.seq == seq with
    | none => s
    | some e =>
      match e.toReserve with
      | [] => s
      | m :: ms =>
        if 16 ≤ engineQueued s m then s
        else
          let s := pushEngine s m ctx fun n => { e with seq := n, kind := .member core seq, toReserve := [], toSend := [], marks := [], buf := [] }
          s.modPart core ctx fun p => p.setStream { e with toReserve := ms })

/-- Traverse data at a member: it stores it in the order of its queue (10 R247); none where something accepted before comes first or the core
is in a frozen rotation (19 R421). -/
def landOld (s : State) (core ctx : Nat) (e : EngOp) : Option State :=
  let pm := s.part core ctx
  match pm.eq.find? (isMember (s.strand e.uid).lcore e.seq) with
  | none => some s
  | some x =>
    if unblocked s pm x && !frozenNow s core then
      some ((cleanRows s core pm (e.fmtAt 0 0) e).setPart core ctx ((storeAll pm e).dropEq x.seq))
    else none

/-- Traverse data reaches the next member, is stored there in its order, and goes on (10 R247); for a pre-empted member it
goes to the spill queue (20 R439). -/
def execTraverseData (core ctx seq : Nat) (s : State) : Outcome :=
  .next (
    match (s.part core ctx).streams.find? fun e => e.seq == seq with
    | none => s
    | some e =>
      match e.toSend with
      | [] => s
      | m :: ms =>
        if !((upto e.known.1).all fun t => e.marks.contains t) then s
        else
          let next (s : State) : State := settleStream (s.modPart core ctx fun p => { p with streams := p.streams.map fun x => if x.seq = seq then { x with toSend := ms } else x }) core ctx seq
          if s.off m ctx then next (divert s ctx m (.old e))
          else match landOld s m ctx e with | some s => next s | none => s)

/-- A slot-table frame begins: every 16,384 cycles (10 R261). -/
def execSlotFrameBoundary (core : Nat) (s : State) : Outcome :=
  .next (if s.cycle % 2 ^ 14 = 0 then s.modCore core CoreSt.newFrame else s)

end Sys2Proof.Machine
end

