-- ==== Sys2Proof/Decode.lean ====
section
/-! DEFINITION. Decoding of words, total on any words, and the encoder (R45 to R56). -/

namespace Sys2Proof

/-- Why a word pattern is not an instruction (R56). Each of them raises ILLEGAL. -/
inductive Reject where
  /-- an unallocated opcode, sub-opcode, SUB8, cond or kind, a scope or element type out of range, or a LEN that R55 does not list -/
  | unallocated
  /-- a field value outside the limits of R48 to R54 or of the entry -/
  | limit
  /-- a nonzero reserved field -/
  | reserved
  /-- fewer words than LEN asks for were given -/
  | truncated
  deriving DecidableEq, Repr

def rg (x lo : Nat) : Reg := Fin.ofNat 32 (x / 2 ^ lo)
def f16 (x lo : Nat) : Fin 16 := Fin.ofNat 16 (x / 2 ^ lo)
def f8 (x lo : Nat) : Fin 8 := Fin.ofNat 8 (x / 2 ^ lo)
def f4 (x lo : Nat) : Fin 4 := Fin.ofNat 4 (x / 2 ^ lo)
def bv (n x lo : Nat) : BitVec n := BitVec.ofNat n (x / 2 ^ lo)
def bt (x lo : Nat) : Bool := x / 2 ^ lo % 2 == 1

/-- The header of a base word (R45). -/
def hdrOf (w : Nat) : Hdr := ⟨bt w 29, f16 w 25, bt w 24⟩

/-- Extended words 1 and 2 (R54). -/
def extOf (w1 w2 : Nat) : Ext :=
  ⟨rg w1 27, rg w1 22, rg w1 17, rg w1 12, f16 w1 8, f16 w1 4, f16 w1 0, bv 4 w2 28, bv 8 w2 20, bv 20 w2 0⟩

/-- A literal is stored low half first (R46). -/
def litOf (lo hi : Nat) : Word := BitVec.ofNat 64 (lo % 2 ^ 32 + hi % 2 ^ 32 * 2 ^ 32)

/-- How many words the base word's LEN asks for (R46). -/
def numWords (w : Nat) : Nat :=
  match fld w 30 2 with
  | 0 => 1
  | 1 => 3
  | 2 => 3
  | _ => 5


/-- Short forms (LEN 00) of major opcodes 0x00 to 0x0F, by R51 and R55. -/
def rawShort0 (h : Hdr) (op x : Nat) : Option Instr :=
  match op with
  | 0x01 => (match fld x 0 2 with
    | 0 => some (.add h (rg x 12) (rg x 7) (rg x 2))
    | 1 => some (.sub h (rg x 12) (rg x 7) (rg x 2))
    | 2 => some (.min h (rg x 12) (rg x 7) (rg x 2))
    | 3 => some (.minu h (rg x 12) (rg x 7) (rg x 2))
    | _ => none)
  | 0x02 => (match fld x 0 2 with
    | 0 => some (.and h (rg x 12) (rg x 7) (rg x 2))
    | 1 => some (.or h (rg x 12) (rg x 7) (rg x 2))
    | 2 => some (.xor h (rg x 12) (rg x 7) (rg x 2))
    | 3 => some (.andn h (rg x 12) (rg x 7) (rg x 2))
    | _ => none)
  | 0x03 => (match fld x 0 2 with
    | 0 => some (.shl h (rg x 12) (rg x 7) (rg x 2))
    | 1 => some (.shr h (rg x 12) (rg x 7) (rg x 2))
    | 2 => some (.sar h (rg x 12) (rg x 7) (rg x 2))
    | 3 => some (.rol h (rg x 12) (rg x 7) (rg x 2))
    | _ => none)
  | 0x04 => (match fld x 0 2 with
    | 0 => some (.mul h (rg x 12) (rg x 7) (rg x 2))
    | 1 => some (.mulh h (rg x 12) (rg x 7) (rg x 2))
    | 2 => some (.mulhu h (rg x 12) (rg x 7) (rg x 2))
    | _ => none)
  | 0x05 => (match fld x 0 2 with
    | 0 => some (.div h (rg x 12) (rg x 7) (rg x 2))
    | 1 => some (.divu h (rg x 12) (rg x 7) (rg x 2))
    | 2 => some (.rem h (rg x 12) (rg x 7) (rg x 2))
    | 3 => some (.remu h (rg x 12) (rg x 7) (rg x 2))
    | _ => none)
  | 0x06 => (match fld x 0 2 with
    | 0 => some (.max h (rg x 12) (rg x 7) (rg x 2))
    | 1 => some (.maxu h (rg x 12) (rg x 7) (rg x 2))
    | _ => none)
  | 0x07 => (match fld x 0 2 with
    | 0 => some (.clz h (rg x 12) (rg x 7))
    | 1 => some (.ctz h (rg x 12) (rg x 7))
    | 2 => some (.popc h (rg x 12) (rg x 7))
    | _ => none)
  | 0x08 => (match fld x 0 1 with
    | 0 => some (.sext h (rg x 12) (rg x 7) (bv 6 x 1))
    | 1 => some (.zext h (rg x 12) (rg x 7) (bv 6 x 1))
    | _ => none)
  | 0x09 => (match fld x 0 2 with
    | 0 => some (.bfx h (rg x 12) (rg x 7) (rg x 2))
    | 1 => some (.bfi h (rg x 12) (rg x 7) (rg x 2))
    | _ => none)
  | 0x0A => some (.addi h (rg x 12) (rg x 7) (bv 7 x 0))
  | 0x0B => some (.li h (rg x 12) (bv 12 x 0))
  | 0x0C => some (.sel h (Fin.ofNat 16 (0 + fld x 0 2)) (rg x 12) (rg x 7) (rg x 2))
  | 0x0D => some (.sel h (Fin.ofNat 16 (4 + fld x 0 2)) (rg x 12) (rg x 7) (rg x 2))
  | 0x0E => some (.sel h (Fin.ofNat 16 (8 + fld x 0 2)) (rg x 12) (rg x 7) (rg x 2))
  | 0x0F => some (.sel h (Fin.ofNat 16 (12 + fld x 0 2)) (rg x 12) (rg x 7) (rg x 2))
  | _ => none

/-- Short forms (LEN 00) of major opcodes 0x10 to 0x1F, by R51 and R55. -/
def rawShort1 (h : Hdr) (op x : Nat) : Option Instr :=
  match op with
  | 0x10 => some (.adr h (rg x 12) (bv 12 x 0))
  | _ => none

/-- Short forms (LEN 00) of major opcodes 0x20 to 0x2F, by R51 and R55. -/
def rawShort2 (h : Hdr) (op x : Nat) : Option Instr :=
  match op with
  | 0x20 => (match fld x 0 2 with
    | 0 => some (.fadd h (rg x 12) (rg x 7) (rg x 2))
    | 1 => some (.fsub h (rg x 12) (rg x 7) (rg x 2))
    | 2 => some (.fmul h (rg x 12) (rg x 7) (rg x 2))
    | 3 => some (.fdiv h (rg x 12) (rg x 7) (rg x 2))
    | _ => none)
  | 0x21 => (match fld x 0 2 with
    | 0 => some (.fmin h (rg x 12) (rg x 7) (rg x 2))
    | 1 => some (.fmax h (rg x 12) (rg x 7) (rg x 2))
    | 2 => some (.fsqrt h (rg x 12) (rg x 7))
    | 3 => some (.fclass h (rg x 12) (rg x 7))
    | _ => none)
  | 0x22 => (match fld x 0 2 with
    | 0 => some (.ffma h (rg x 12) (rg x 7) (rg x 2))
    | _ => none)
  | 0x23 => (FCond.ofCode (fld x 0 3)).map fun cond => .fcmp h (f16 x 13) (rg x 8) (rg x 3) cond
  | 0x24 => (CvtKind.ofCode (fld x 3 4)).bind fun kind => (DRm.ofCode (fld x 1 2)).map fun rm => .fcvt h (rg x 12) (rg x 7) kind rm (bt x 0)
  | _ => none

/-- Short forms (LEN 00) of major opcodes 0x30 to 0x3F, by R51 and R55. -/
def rawShort3 (h : Hdr) (op x : Nat) : Option Instr :=
  match op with
  | 0x30 => some (.br h (bv 17 x 0))
  | 0x31 => some (.call h (bv 2 x 15) (bv 15 x 0))
  | 0x32 => (match fld x 0 2 with
    | 0 => some (.jr h (rg x 7))
    | 1 => some (.callr h (bv 2 x 15) (rg x 7))
    | 2 => some (.ret h)
    | _ => none)
  | 0x33 => (match fld x 14 3 with
    | 0 => some (.nop h)
    | 1 => some (.yield h)
    | 2 => some (.endStrand h)
    | 3 => some (.wspill h (bv 2 x 12))
    | 4 => some (.wfill h (bv 2 x 12))
    | _ => none)
  | 0x34 => (ICond.ofCode (fld x 0 3)).map fun cond => .cmp h (f16 x 13) (rg x 8) (rg x 3) cond
  | 0x35 => (ICond.ofCode (fld x 5 3)).map fun cond => .cmpi h (f16 x 13) (rg x 8) cond (bv 5 x 0)
  | 0x36 => (match fld x 0 3 with
    | 0 => some (.pand h (f16 x 13) (f16 x 9) (f16 x 5))
    | 1 => some (.por h (f16 x 13) (f16 x 9) (f16 x 5))
    | 2 => some (.pxor h (f16 x 13) (f16 x 9) (f16 x 5))
    | 3 => some (.pnot h (f16 x 13) (f16 x 9))
    | 4 => some (.pmov h (f16 x 13) (f16 x 9))
    | _ => none)
  | 0x37 => some (.rep h (bv 3 x 14) (bv 8 x 6) (bv 6 x 0))
  | 0x38 => (match fld x 0 1 with
    | 0 => some (.ldB h (rg x 12) (rg x 7) (bv 6 x 1))
    | 1 => some (.ldBu h (rg x 12) (rg x 7) (bv 6 x 1))
    | _ => none)
  | 0x39 => (match fld x 0 1 with
    | 0 => some (.ldH h (rg x 12) (rg x 7) (bv 6 x 1))
    | 1 => some (.ldHu h (rg x 12) (rg x 7) (bv 6 x 1))
    | _ => none)
  | 0x3A => (match fld x 0 1 with
    | 0 => some (.ldW h (rg x 12) (rg x 7) (bv 6 x 1))
    | 1 => some (.ldWu h (rg x 12) (rg x 7) (bv 6 x 1))
    | _ => none)
  | 0x3B => (match fld x 0 1 with
    | 0 => some (.ldD h (rg x 12) (rg x 7) (bv 6 x 1))
    | 1 => some (.ldp h (rg x 12) (rg x 7) (bv 6 x 1))
    | _ => none)
  | 0x3C => (match fld x 0 1 with
    | 0 => some (.stB h (rg x 12) (rg x 7) (bv 6 x 1))
    | _ => none)
  | 0x3D => (match fld x 0 1 with
    | 0 => some (.stH h (rg x 12) (rg x 7) (bv 6 x 1))
    | _ => none)
  | 0x3E => (match fld x 0 1 with
    | 0 => some (.stW h (rg x 12) (rg x 7) (bv 6 x 1))
    | _ => none)
  | 0x3F => (match fld x 0 1 with
    | 0 => some (.stD h (rg x 12) (rg x 7) (bv 6 x 1))
    | 1 => some (.stp h (rg x 12) (rg x 7) (bv 6 x 1))
    | _ => none)
  | _ => none

/-- Short forms (LEN 00) of major opcodes 0x40 to 0x4F, by R51 and R55. -/
def rawShort4 (h : Hdr) (op x : Nat) : Option Instr :=
  match op with
  | 0x40 => (match fld x 0 2 with
    | 0 => some (.aaddD h (rg x 12) (rg x 7) (rg x 2))
    | 1 => some (.aandD h (rg x 12) (rg x 7) (rg x 2))
    | 2 => some (.aorD h (rg x 12) (rg x 7) (rg x 2))
    | 3 => some (.axorD h (rg x 12) (rg x 7) (rg x 2))
    | _ => none)
  | 0x41 => (match fld x 0 2 with
    | 0 => some (.aaddW h (rg x 12) (rg x 7) (rg x 2))
    | 1 => some (.aandW h (rg x 12) (rg x 7) (rg x 2))
    | 2 => some (.aorW h (rg x 12) (rg x 7) (rg x 2))
    | 3 => some (.axorW h (rg x 12) (rg x 7) (rg x 2))
    | _ => none)
  | 0x42 => (match fld x 0 2 with
    | 0 => some (.aminD h (rg x 12) (rg x 7) (rg x 2))
    | 1 => some (.amaxD h (rg x 12) (rg x 7) (rg x 2))
    | 2 => some (.axchgD h (rg x 12) (rg x 7) (rg x 2))
    | 3 => some (.acasD h (rg x 12) (rg x 7) (rg x 2))
    | _ => none)
  | 0x43 => (match fld x 0 2 with
    | 0 => some (.aminW h (rg x 12) (rg x 7) (rg x 2))
    | 1 => some (.amaxW h (rg x 12) (rg x 7) (rg x 2))
    | 2 => some (.axchgW h (rg x 12) (rg x 7) (rg x 2))
    | 3 => some (.acasW h (rg x 12) (rg x 7) (rg x 2))
    | _ => none)
  | 0x44 => (match fld x 0 2 with
    | 0 => some (.agadd h (rg x 12) (rg x 7) (rg x 2))
    | _ => none)
  | 0x45 => (match fld x 0 2 with
    | 0 => some (.bind h (rg x 12) (rg x 7) (rg x 2))
    | 1 => some (.unbind h (rg x 12))
    | _ => none)
  | 0x46 => (match fld x 0 2 with
    | 0 => (Scope.ofCode (fld x 4 3)).map fun scope => .acq h (rg x 12) (rg x 7) scope
    | 1 => (Scope.ofCode (fld x 4 3)).map fun scope => .rel h (rg x 12) (rg x 7) scope
    | 2 => (Scope.ofCode (fld x 4 3)).map fun scope => .acqrel h (rg x 12) (rg x 7) scope
    | 3 => (Scope.ofCode (fld x 4 3)).map fun scope => .waitw h (rg x 12) (rg x 7) scope
    | _ => none)
  | 0x47 => (Scope.ofCode (fld x 7 3)).map fun scope => .fence h (bv 7 x 10) scope
  | 0x48 => (match fld x 0 2 with
    | 0 => some (.vclaim h (rg x 12) (rg x 7))
    | 1 => some (.vreneg h (rg x 12) (rg x 7))
    | 2 => some (.vfree h)
    | _ => none)
  | 0x49 => (match fld x 0 2 with
    | 0 => some (.pset h (f8 x 14) (rg x 7) (rg x 2))
    | 1 => some (.pget h (f8 x 14) (rg x 7))
    | _ => none)
  | 0x4A => (ElTy.ofCode (fld x 0 3)).map fun et => .vadd h (f8 x 14) (f8 x 11) (f8 x 8) (rg x 3) et
  | 0x4B => (ElTy.ofCode (fld x 0 3)).map fun et => .vsub h (f8 x 14) (f8 x 11) (f8 x 8) (rg x 3) et
  | 0x4C => (ElTy.ofCode (fld x 0 3)).map fun et => .vmul h (f8 x 14) (f8 x 11) (f8 x 8) (rg x 3) et
  | 0x4D => (ElTy.ofCode (fld x 0 3)).map fun et => .vfma h (f8 x 14) (f8 x 11) (f8 x 8) (rg x 3) et
  | 0x4E => (ElTy.ofCode (fld x 0 3)).map fun et => .vmin h (f8 x 14) (f8 x 11) (f8 x 8) (rg x 3) et
  | 0x4F => (ElTy.ofCode (fld x 0 3)).map fun et => .vmax h (f8 x 14) (f8 x 11) (f8 x 8) (rg x 3) et
  | _ => none

/-- Short forms (LEN 00) of major opcodes 0x50 to 0x5F, by R51 and R55. -/
def rawShort5 (h : Hdr) (op x : Nat) : Option Instr :=
  match op with
  | 0x50 => (match fld x 8 3 with
    | 0 => (ElTy.ofCode (fld x 0 3)).map fun et => .vabs h (f8 x 14) (f8 x 11) (rg x 3) et
    | 1 => (ElTy.ofCode (fld x 0 3)).map fun et => .vneg h (f8 x 14) (f8 x 11) (rg x 3) et
    | 2 => (ElTy.ofCode (fld x 0 3)).map fun et => .vexp2 h (f8 x 14) (f8 x 11) (rg x 3) et
    | 3 => (ElTy.ofCode (fld x 0 3)).map fun et => .vlog2 h (f8 x 14) (f8 x 11) (rg x 3) et
    | 4 => (ElTy.ofCode (fld x 0 3)).map fun et => .vrcp h (f8 x 14) (f8 x 11) (rg x 3) et
    | 5 => (ElTy.ofCode (fld x 0 3)).map fun et => .vrsq h (f8 x 14) (f8 x 11) (rg x 3) et
    | 6 => (ElTy.ofCode (fld x 0 3)).map fun et => .vcopy h (f8 x 14) (f8 x 11) (rg x 3) et
    | _ => none)
  | 0x51 => (match fld x 8 3 with
    | 0 => (ElTy.ofCode (fld x 0 3)).map fun et => .vsum h (f4 x 14) (f8 x 11) (rg x 3) et
    | 1 => (ElTy.ofCode (fld x 0 3)).map fun et => .vmaxr h (f4 x 14) (f8 x 11) (rg x 3) et
    | 2 => (ElTy.ofCode (fld x 0 3)).map fun et => .vminr h (f4 x 14) (f8 x 11) (rg x 3) et
    | 3 => (ElTy.ofCode (fld x 0 3)).map fun et => .vargmax h (f4 x 14) (f8 x 11) (rg x 3) et
    | _ => none)
  | 0x58 => some (.ashape h (f16 x 13) (bv 8 x 5) (bv 2 x 3))
  | 0x59 => some (.adatum h (f16 x 13) (bv 9 x 4))
  | 0x5A => (match fld x 0 3 with
    | 0 => some (.azero h (f16 x 13))
    | 1 => some (.astat h (f16 x 13) (rg x 8))
    | 2 => some (.achk h (f16 x 13) (rg x 8))
    | _ => none)
  | 0x5F => (match fld x 0 2 with
    | 0 => some (.slotw h (rg x 7) (rg x 2))
    | _ => none)
  | _ => none

/-- Short forms (LEN 00) of major opcodes 0x60 to 0x6F, by R51 and R55. -/
def rawShort6 (h : Hdr) (op x : Nat) : Option Instr :=
  match op with
  | 0x60 => (match fld x 0 3 with
    | 0 => some (.hopen h (f4 x 15) (rg x 10) (rg x 5))
    | 1 => some (.hclose h (f4 x 15) (rg x 10))
    | 2 => some (.hbatch h (f4 x 15) (rg x 10))
    | 3 => some (.hlist h (f4 x 15) (rg x 10) (rg x 5))
    | _ => none)
  | 0x61 => (match fld x 0 3 with
    | 0 => some (.hattach h (f4 x 15) (rg x 10) (rg x 5))
    | 1 => some (.hdetach h (f4 x 15) (rg x 10) (rg x 5))
    | 2 => some (.hswap h (f4 x 15) (rg x 10) (rg x 5))
    | 3 => some (.hverify h (f4 x 15) (rg x 10))
    | 4 => some (.hfold h (f4 x 15) (rg x 10) (rg x 5))
    | _ => none)
  | 0x64 => (match fld x 0 4 with
    | 0 => some (.tclr h (f8 x 14) (rg x 4))
    | 1 => some (.tset h (f8 x 14) (rg x 9) (rg x 4))
    | 2 => some (.tadd h (f8 x 14) (rg x 9) (rg x 4))
    | 3 => some (.tpref h (f8 x 14) (rg x 9) (rg x 4))
    | 4 => some (.tfind h (f8 x 14) (rg x 9) (rg x 4))
    | 5 => some (.tcut h (f8 x 14) (rg x 9) (rg x 4))
    | 6 => some (.ttot h (f8 x 14) (rg x 9) (rg x 4))
    | _ => none)
  | 0x65 => (match fld x 0 4 with
    | 0 => some (.tloadM32 h (f8 x 14) (rg x 9) (rg x 4))
    | 8 => some (.tloadM16 h (f8 x 14) (rg x 9) (rg x 4))
    | 1 => some (.tstore h (f8 x 14) (rg x 9) (rg x 4))
    | _ => none)
  | 0x68 => (match fld x 0 3 with
    | 0 => (Bearing.ofCode (fld x 14 3)).map fun b => .ppush h b (rg x 9)
    | 1 => (Bearing.ofCode (fld x 14 3)).map fun b => .ppop h b (rg x 9) (f16 x 5)
    | 2 => (Bearing.ofCode (fld x 14 3)).map fun b => .ppeek h b (rg x 9) (f16 x 5)
    | 3 => (Bearing.ofCode (fld x 14 3)).map fun b => .pcount h b (rg x 9)
    | 4 => (Bearing.ofCode (fld x 14 3)).map fun b => .peos h b
    | 5 => (Bearing.ofCode (fld x 14 3)).map fun b => .pconf h b (rg x 9)
    | _ => none)
  | 0x69 => (match fld x 0 2 with
    | 0 => some (.mbw h (f4 x 15) (rg x 10))
    | 1 => some (.mbr h (f4 x 15) (rg x 10))
    | _ => none)
  | 0x6C => (match fld x 0 3 with
    | 0 => some (.plnew h (f4 x 15) (rg x 10) (rg x 5))
    | 1 => some (.plset h (f4 x 15) (rg x 10) (rg x 5))
    | 2 => some (.plget h (f4 x 15) (rg x 10) (rg x 5))
    | _ => none)
  | 0x6D => (match fld x 0 2 with
    | 0 => some (.cpy h (rg x 12) (rg x 7))
    | 1 => some (.cpynb h (rg x 12) (rg x 7))
    | _ => none)
  | 0x6E => (match fld x 0 2 with
    | 0 => some (.swinit h (rg x 7) (rg x 2))
    | 1 => some (.swwait h (rg x 7) (rg x 2))
    | _ => none)
  | 0x6F => (match fld x 0 3 with
    | 0 => some (.rinit h (f16 x 13) (rg x 8) (rg x 3))
    | 1 => some (.rawait h (f16 x 13) (rg x 8) (rg x 3))
    | 2 => some (.rrel h (f16 x 13) (rg x 8) (rg x 3))
    | 3 => some (.rseq h (f16 x 13) (rg x 8) (rg x 3))
    | 4 => some (.reos h (f16 x 13) (rg x 8) (rg x 3))
    | _ => none)
  | _ => none

/-- Short forms (LEN 00) of major opcodes 0x70 to 0x7F, by R51 and R55. -/
noncomputable def rawShort7 (h : Hdr) (op x : Nat) : Option Instr :=
  match op with
  | 0x70 => (match fld x 0 2 with
    | 0 => some (.gpost h (rg x 12) (rg x 7))
    | 1 => some (.gwait h (rg x 12) (rg x 7))
    | _ => none)
  | 0x74 => (match fld x 0 2 with
    | 0 => some (.gid h (rg x 12) (rg x 7))
    | 1 => some (.dqpush h (rg x 12) (rg x 7))
    | 2 => some (.dqpop h (rg x 12))
    | 3 => some (.dqsplit h (rg x 12) (rg x 7))
    | _ => none)
  | 0x75 => (match fld x 0 2 with
    | 0 => some (.dqsteal h (rg x 12) (rg x 7))
    | 1 => some (.suspend h (rg x 12))
    | 2 => some (.btest h (rg x 12) (rg x 7) (rg x 2))
    | 3 => some (.stb h (rg x 12) (rg x 7) (rg x 2))
    | _ => none)
  | 0x76 => (match fld x 0 2 with
    | 0 => some (.binit h (rg x 12) (rg x 7) (rg x 2))
    | 1 => some (.bexp h (rg x 12) (rg x 7) (rg x 2))
    | 2 => some (.barv h (rg x 12) (rg x 7) (rg x 2))
    | 3 => some (.bwait h (rg x 12) (rg x 7))
    | _ => none)
  | 0x77 => (match fld x 0 2 with
    | 0 => some (.ksig h (rg x 12) (rg x 7) (rg x 2))
    | 1 => some (.klaunch h (rg x 12) (rg x 7) (rg x 2))
    | 2 => some (.keos h (rg x 12))
    | _ => none)
  | 0x79 => (match fld x 0 2 with
    | 0 => some (.cwait h (rg x 12) (rg x 7))
    | 1 => some (.ctest h (rg x 12) (rg x 7))
    | _ => none)
  | 0x7C => (match fld x 0 2 with
    | 0 => some (.rseed h (rg x 7))
    | 1 => some (.rgen h (rg x 12) (rg x 7) (rg x 2))
    | 2 => some (.rnoise h (rg x 12))
    | 3 => some (.rlog h (rg x 12) (rg x 7))
    | _ => none)
  | 0x7E => (match fld x 13 4 with
    | 0 => some (.trap h (bv 8 x 0))
    | 1 => if bt x 0 then some (.eretAb h) else some (.eret h)
    | 2 => some (.csrr h (rg x 8) (bv 8 x 0))
    | 3 => if fld x 0 8 = 0x25 then some (.shoot h (rg x 8)) else if fld x 0 8 = 0x0C then some (.sliceWrite h (rg x 8))
      else some (.csrw h (rg x 8) (bv 8 x 0))
    | 4 => some (.csrs h (rg x 8) (bv 8 x 0))
    | 5 => some (.csrc h (rg x 8) (bv 8 x 0))
    | 6 => some (.wcall h (rg x 8) (bv 8 x 0))
    | 7 => some (.sleep h (rg x 8))
    | 8 => some (.contw h (rg x 8))
    | 9 => some (.contr h (rg x 8) (f16 x 0))
    | _ => none)
  | _ => none

/-- Short forms: one base word (R46). -/
noncomputable def rawShort (h : Hdr) (op x : Nat) : Option Instr :=
  match op / 16 with
  | 0 => rawShort0 h op x
  | 1 => rawShort1 h op x
  | 2 => rawShort2 h op x
  | 3 => rawShort3 h op x
  | 4 => rawShort4 h op x
  | 5 => rawShort5 h op x
  | 6 => rawShort6 h op x
  | 7 => rawShort7 h op x
  | _ => none

/-- Literal forms (LEN 01): the literal takes the place of one short field (R52). -/
def rawLit (h : Hdr) (op x : Nat) (lit : Word) : Option Instr :=
  match op with
  | 0x09 => (match fld x 0 2 with
    | 0 => some (.bfxLit h (rg x 12) (rg x 7) lit)
    | 1 => some (.bfiLit h (rg x 12) (rg x 7) lit)
    | _ => none)
  | 0x0A => some (.addiLit h (rg x 12) (rg x 7) lit)
  | 0x0B => some (.liLit h (rg x 12) lit)
  | 0x10 => some (.adrLit h (rg x 12) lit)
  | 0x30 => some (.brLit h lit)
  | 0x31 => some (.callLit h (bv 2 x 15) lit)
  | 0x35 => (ICond.ofCode (fld x 5 3)).map fun cond => .cmpiLit h (f16 x 13) (rg x 8) cond lit
  | 0x38 => (match fld x 0 1 with
    | 0 => some (.ldBLit h (rg x 12) (rg x 7) lit)
    | 1 => some (.ldBuLit h (rg x 12) (rg x 7) lit)
    | _ => none)
  | 0x39 => (match fld x 0 1 with
    | 0 => some (.ldHLit h (rg x 12) (rg x 7) lit)
    | 1 => some (.ldHuLit h (rg x 12) (rg x 7) lit)
    | _ => none)
  | 0x3A => (match fld x 0 1 with
    | 0 => some (.ldWLit h (rg x 12) (rg x 7) lit)
    | 1 => some (.ldWuLit h (rg x 12) (rg x 7) lit)
    | _ => none)
  | 0x3B => (match fld x 0 1 with
    | 0 => some (.ldDLit h (rg x 12) (rg x 7) lit)
    | 1 => some (.ldpLit h (rg x 12) (rg x 7) lit)
    | _ => none)
  | 0x3C => (match fld x 0 1 with
    | 0 => some (.stBLit h (rg x 12) (rg x 7) lit)
    | _ => none)
  | 0x3D => (match fld x 0 1 with
    | 0 => some (.stHLit h (rg x 12) (rg x 7) lit)
    | _ => none)
  | 0x3E => (match fld x 0 1 with
    | 0 => some (.stWLit h (rg x 12) (rg x 7) lit)
    | _ => none)
  | 0x3F => (match fld x 0 1 with
    | 0 => some (.stDLit h (rg x 12) (rg x 7) lit)
    | 1 => some (.stpLit h (rg x 12) (rg x 7) lit)
    | _ => none)
  | _ => none

/-- Extended forms (LEN 10), by major opcode and SUB8 (R51, R55). -/
noncomputable def rawExt (h : Hdr) (op sub8 : Nat) (e : Ext) : Option Instr :=
  match op, sub8 with
  | 0x52, 0 => some (.vcmp h e)
  | 0x52, 1 => some (.vsel h e)
  | 0x52, 2 => some (.vscale h e)
  | 0x52, 3 => some (.vfill h e)
  | 0x52, 4 => some (.vrand h e)
  | 0x52, 5 => some (.vnzc h e)
  | 0x52, 6 => some (.vchain h e)
  | 0x53, 0 => some (.vcvt h e)
  | 0x53, 1 => some (.vqmx h e)
  | 0x53, 2 => some (.vdqmx h e)
  | 0x53, 3 => some (.vqa h e)
  | 0x5B, 0 => some (.cld h e)
  | 0x5B, 1 => some (.cldc h e)
  | 0x5B, 2 => some (.cldSp h e)
  | 0x5C, 0 => some (.old h e)
  | 0x5C, 1 => some (.oldT h e)
  | 0x5C, 2 => some (.ocols h e)
  | 0x5D, 0 => some (.adrain h e)
  | 0x78, 0 => some (.cgrp h e)
  | 0x78, 1 => some (.cag h e)
  | 0x78, 2 => some (.crs h e)
  | 0x78, 3 => some (.ca2a h e)
  | 0x78, 4 => some (.cbar h e)
  | 0x7D, 0 => some (.mseq h e)
  | _, _ => none

/-- Extended forms with a literal (LEN 11): legal where F3 is a scalar source (R54). -/
noncomputable def rawExtLit (h : Hdr) (op sub8 : Nat) (e : Ext) (lit : Word) : Option Instr :=
  match op, sub8 with
  | 0x52, 2 => some (.vscaleLit h e lit)
  | 0x52, 3 => some (.vfillLit h e lit)
  | 0x52, 4 => some (.vrandLit h e lit)
  | 0x52, 6 => some (.vchainLit h e lit)
  | 0x53, 0 => some (.vcvtLit h e lit)
  | 0x53, 1 => some (.vqmxLit h e lit)
  | 0x53, 3 => some (.vqaLit h e lit)
  | 0x5B, 0 => some (.cldLit h e lit)
  | 0x5B, 1 => some (.cldcLit h e lit)
  | 0x5B, 2 => some (.cldSpLit h e lit)
  | 0x5C, 0 => some (.oldLit h e lit)
  | 0x5C, 1 => some (.oldTLit h e lit)
  | 0x5D, 0 => some (.adrainLit h e lit)
  | 0x78, 1 => some (.cagLit h e lit)
  | 0x78, 2 => some (.crsLit h e lit)
  | 0x78, 3 => some (.ca2aLit h e lit)
  | 0x7D, 0 => some (.mseqLit h e lit)
  | _, _ => none

/-- The instruction that the allocated fields of the words name, before the checks of reserved fields and limits. -/
noncomputable def rawDecode (ws : List Nat) : Except Reject Instr :=
  match ws with
  | [] => .error .truncated
  | w :: rest =>
    let h := hdrOf w
    let op := fld w 17 7
    let x := fld w 0 17
    match fld w 30 2, rest with
    | 0, _ => (match rawShort h op x with | some i => .ok i | none => .error .unallocated)
    | 1, l :: u :: _ =>
      (match rawLit h op x (litOf l u) with | some i => .ok i | none => .error .unallocated)
    | 2, a :: b :: _ =>
      (match rawExt h op (fld x 9 8) (extOf a b) with | some i => .ok i | none => .error .unallocated)
    | 3, a :: b :: l :: u :: _ =>
      (match rawExtLit h op (fld x 9 8) (extOf a b) (litOf l u) with
        | some i => .ok i | none => .error .unallocated)
    | _, _ => .error .truncated

/-- The base word (R45). -/
def word (h : Hdr) (len op x : Nat) : Nat :=
  len * 2 ^ 30 + h.c.toNat * 2 ^ 29 + h.pred.val * 2 ^ 25 + h.pn.toNat * 2 ^ 24 + op * 2 ^ 17 + x

def Ext.word1 (e : Ext) : Nat :=
  e.f0.val * 2 ^ 27 + e.f1.val * 2 ^ 22 + e.f2.val * 2 ^ 17 + e.f3.val * 2 ^ 12 + e.obj0.val * 2 ^ 8 +
    e.obj1.val * 2 ^ 4 + e.obj2.val

def Ext.word2 (e : Ext) : Nat := e.mark.toNat * 2 ^ 28 + e.mode.toNat * 2 ^ 20 + e.imm.toNat

def lo32 (l : Word) : Nat := l.toNat % 2 ^ 32
def hi32 (l : Word) : Nat := l.toNat / 2 ^ 32

def shortForm (h : Hdr) (op x : Nat) : List Nat := [word h 0 op x]
def litForm (h : Hdr) (op x : Nat) (lit : Word) : List Nat := [word h 1 op x, lo32 lit, hi32 lit]
def extForm (h : Hdr) (op sub8 : Nat) (e : Ext) : List Nat := [word h 2 op (sub8 * 2 ^ 9), e.word1, e.word2]
def extLitForm (h : Hdr) (op sub8 : Nat) (e : Ext) (lit : Word) : List Nat :=
  [word h 3 op (sub8 * 2 ^ 9), e.word1, e.word2, lo32 lit, hi32 lit]


/-- Operand bits of format REG3 (R51). -/
def xREG3 (rd : Reg) (ra : Reg) (rb : Reg) (sub : Nat) : Nat :=
  rd.val * 2 ^ 12 + ra.val * 2 ^ 7 + rb.val * 2 ^ 2 + sub

/-- Operand bits of format IMM7 (R51). -/
def xIMM7 (rd : Reg) (ra : Reg) (imm : BitVec 7) : Nat :=
  rd.val * 2 ^ 12 + ra.val * 2 ^ 7 + imm.toNat

/-- Operand bits of format IMM12 (R51). -/
def xIMM12 (rd : Reg) (imm : BitVec 12) : Nat :=
  rd.val * 2 ^ 12 + imm.toNat

/-- Operand bits of format WID (R51). -/
def xWID (rd : Reg) (ra : Reg) (n : BitVec 6) (sub : Nat) : Nat :=
  rd.val * 2 ^ 12 + ra.val * 2 ^ 7 + n.toNat * 2 ^ 1 + sub

/-- Operand bits of format MEM (R51). -/
def xMEM (rd : Reg) (base : Reg) (disp : BitVec 6) (sub : Nat) : Nat :=
  rd.val * 2 ^ 12 + base.val * 2 ^ 7 + disp.toNat * 2 ^ 1 + sub

/-- Operand bits of format BRA (R51). -/
def xBRA (off : BitVec 17) : Nat :=
  off.toNat

/-- Operand bits of format CAL (R51). -/
def xCAL (kc : BitVec 2) (off : BitVec 15) : Nat :=
  kc.toNat * 2 ^ 15 + off.toNat

/-- Operand bits of format JMP (R51). -/
def xJMP (kc : BitVec 2) (ra : Reg) (sub : Nat) : Nat :=
  kc.toNat * 2 ^ 15 + ra.val * 2 ^ 7 + sub

/-- Operand bits of format MSC (R51). -/
def xMSC (kc : BitVec 2) (sub : Nat) : Nat :=
  kc.toNat * 2 ^ 12 + sub * 2 ^ 14

/-- Operand bits of format CPRF (R51). -/
def xCPRF (cd : Pr) (ra : Reg) (rb : Reg) (cond : FCond) : Nat :=
  cd.val * 2 ^ 13 + ra.val * 2 ^ 8 + rb.val * 2 ^ 3 + cond.code

/-- Operand bits of format CPRI (R51). -/
def xCPRI (cd : Pr) (ra : Reg) (rb : Reg) (cond : ICond) : Nat :=
  cd.val * 2 ^ 13 + ra.val * 2 ^ 8 + rb.val * 2 ^ 3 + cond.code

/-- Operand bits of format CPI (R51). -/
def xCPI (cd : Pr) (ra : Reg) (cond : ICond) (imm : BitVec 5) : Nat :=
  cd.val * 2 ^ 13 + ra.val * 2 ^ 8 + cond.code * 2 ^ 5 + imm.toNat

/-- Operand bits of format PRD (R51). -/
def xPRD (cd : Pr) (ca : Pr) (cb : Pr) (sub : Nat) : Nat :=
  cd.val * 2 ^ 13 + ca.val * 2 ^ 9 + cb.val * 2 ^ 5 + sub

/-- Operand bits of format REPF (R51). -/
def xREPF (n : BitVec 3) (k : BitVec 8) (stride : BitVec 6) : Nat :=
  n.toNat * 2 ^ 14 + k.toNat * 2 ^ 6 + stride.toNat

/-- Operand bits of format FCV (R51). -/
def xFCV (rd : Reg) (ra : Reg) (kind : CvtKind) (rm : DRm) (sat : Bool) : Nat :=
  rd.val * 2 ^ 12 + ra.val * 2 ^ 7 + kind.code * 2 ^ 3 + rm.code * 2 ^ 1 + sat.toNat

/-- Operand bits of format ORD (R51). -/
def xORD (rd : Reg) (ra : Reg) (scope : Scope) (sub : Nat) : Nat :=
  rd.val * 2 ^ 12 + ra.val * 2 ^ 7 + scope.code * 2 ^ 4 + sub

/-- Operand bits of format FEN (R51). -/
def xFEN (paths : BitVec 7) (scope : Scope) : Nat :=
  paths.toNat * 2 ^ 10 + scope.code * 2 ^ 7

/-- Operand bits of format VEC (R51). -/
def xVEC (pd : Ptr) (pa : Ptr) (pb : Ptr) (rn : Reg) (et : ElTy) : Nat :=
  pd.val * 2 ^ 14 + pa.val * 2 ^ 11 + pb.val * 2 ^ 8 + rn.val * 2 ^ 3 + et.code

/-- Operand bits of format VUN (R51). -/
def xVUN (pd : Ptr) (pa : Ptr) (rn : Reg) (et : ElTy) (sub : Nat) : Nat :=
  pd.val * 2 ^ 14 + pa.val * 2 ^ 11 + rn.val * 2 ^ 3 + et.code + sub * 2 ^ 8

/-- Operand bits of format VRD (R51). -/
def xVRD (mb : Obj2) (pa : Ptr) (rn : Reg) (et : ElTy) (sub : Nat) : Nat :=
  mb.val * 2 ^ 14 + pa.val * 2 ^ 11 + rn.val * 2 ^ 3 + et.code + sub * 2 ^ 8

/-- Operand bits of format PTR (R51). -/
def xPTR (p : Ptr) (ra : Reg) (rb : Reg) (sub : Nat) : Nat :=
  p.val * 2 ^ 14 + ra.val * 2 ^ 7 + rb.val * 2 ^ 2 + sub

/-- Operand bits of format TSH (R51). -/
def xTSH (a : Tile) (rows : BitVec 8) (cc : BitVec 2) : Nat :=
  a.val * 2 ^ 13 + rows.toNat * 2 ^ 5 + cc.toNat * 2 ^ 3

/-- Operand bits of format TDT (R51). -/
def xTDT (a : Tile) (d : BitVec 9) : Nat :=
  a.val * 2 ^ 13 + d.toNat * 2 ^ 4

/-- Operand bits of format TMS (R51). -/
def xTMS (a : Tile) (rd : Reg) (sub : Nat) : Nat :=
  a.val * 2 ^ 13 + rd.val * 2 ^ 8 + sub

/-- Operand bits of format OB2 (R51). -/
def xOB2 (o : Obj2) (rd : Reg) (ra : Reg) (sub : Nat) : Nat :=
  o.val * 2 ^ 15 + rd.val * 2 ^ 10 + ra.val * 2 ^ 5 + sub

/-- Operand bits of format TRE (R51). -/
def xTRE (t : TreeR) (rd : Reg) (ra : Reg) (sub : Nat) : Nat :=
  t.val * 2 ^ 14 + rd.val * 2 ^ 9 + ra.val * 2 ^ 4 + sub

/-- Operand bits of format TRL (R51). -/
def xTRL (t : TreeR) (ra : Reg) (rb : Reg) (sub : Nat) : Nat :=
  t.val * 2 ^ 14 + ra.val * 2 ^ 9 + rb.val * 2 ^ 4 + sub

/-- Operand bits of format PRT (R51). -/
def xPRT (b : Bearing) (rd : Reg) (cd : Pr) (sub : Nat) : Nat :=
  b.code * 2 ^ 14 + rd.val * 2 ^ 9 + cd.val * 2 ^ 5 + sub

/-- Operand bits of format MBX (R51). -/
def xMBX (mb : Obj2) (rd : Reg) (sub : Nat) : Nat :=
  mb.val * 2 ^ 15 + rd.val * 2 ^ 10 + sub

/-- Operand bits of format RNG (R51). -/
def xRNG (g : Ring) (rd : Reg) (ra : Reg) (sub : Nat) : Nat :=
  g.val * 2 ^ 13 + rd.val * 2 ^ 8 + ra.val * 2 ^ 3 + sub

/-- Operand bits of format SYS (R51). -/
def xSYS (rd : Reg) (imm : BitVec 8) (sub : Nat) : Nat :=
  rd.val * 2 ^ 8 + imm.toNat + sub * 2 ^ 13

/-- The words of an instruction, by the tables of R45 to R55; a command or an event has none. -/
def encode (i : Instr) : List Nat :=
  match i with
  | .add h rd ra rb => shortForm h 0x01 (xREG3 rd ra rb 0)
  | .sub h rd ra rb => shortForm h 0x01 (xREG3 rd ra rb 1)
  | .min h rd ra rb => shortForm h 0x01 (xREG3 rd ra rb 2)
  | .minu h rd ra rb => shortForm h 0x01 (xREG3 rd ra rb 3)
  | .and h rd ra rb => shortForm h 0x02 (xREG3 rd ra rb 0)
  | .or h rd ra rb => shortForm h 0x02 (xREG3 rd ra rb 1)
  | .xor h rd ra rb => shortForm h 0x02 (xREG3 rd ra rb 2)
  | .andn h rd ra rb => shortForm h 0x02 (xREG3 rd ra rb 3)
  | .shl h rd ra rb => shortForm h 0x03 (xREG3 rd ra rb 0)
  | .shr h rd ra rb => shortForm h 0x03 (xREG3 rd ra rb 1)
  | .sar h rd ra rb => shortForm h 0x03 (xREG3 rd ra rb 2)
  | .rol h rd ra rb => shortForm h 0x03 (xREG3 rd ra rb 3)
  | .mul h rd ra rb => shortForm h 0x04 (xREG3 rd ra rb 0)
  | .mulh h rd ra rb => shortForm h 0x04 (xREG3 rd ra rb 1)
  | .mulhu h rd ra rb => shortForm h 0x04 (xREG3 rd ra rb 2)
  | .div h rd ra rb => shortForm h 0x05 (xREG3 rd ra rb 0)
  | .divu h rd ra rb => shortForm h 0x05 (xREG3 rd ra rb 1)
  | .rem h rd ra rb => shortForm h 0x05 (xREG3 rd ra rb 2)
  | .remu h rd ra rb => shortForm h 0x05 (xREG3 rd ra rb 3)
  | .max h rd ra rb => shortForm h 0x06 (xREG3 rd ra rb 0)
  | .maxu h rd ra rb => shortForm h 0x06 (xREG3 rd ra rb 1)
  | .clz h rd ra => shortForm h 0x07 (xREG3 rd ra 0 0)
  | .ctz h rd ra => shortForm h 0x07 (xREG3 rd ra 0 1)
  | .popc h rd ra => shortForm h 0x07 (xREG3 rd ra 0 2)
  | .sext h rd ra n => shortForm h 0x08 (xWID rd ra n 0)
  | .zext h rd ra n => shortForm h 0x08 (xWID rd ra n 1)
  | .bfx h rd ra rb => shortForm h 0x09 (xREG3 rd ra rb 0)
  | .bfxLit h rd ra lit => litForm h 0x09 (xREG3 rd ra 0 0) lit
  | .bfi h rd ra rb => shortForm h 0x09 (xREG3 rd ra rb 1)
  | .bfiLit h rd ra lit => litForm h 0x09 (xREG3 rd ra 0 1) lit
  | .addi h rd ra imm => shortForm h 0x0A (xIMM7 rd ra imm)
  | .addiLit h rd ra lit => litForm h 0x0A (xIMM7 rd ra 0) lit
  | .li h rd imm => shortForm h 0x0B (xIMM12 rd imm)
  | .liLit h rd lit => litForm h 0x0B (xIMM12 rd 0) lit
  | .sel h cs rd ra rb => shortForm h (12 + cs.val / 4) (xREG3 rd ra rb (cs.val % 4))
  | .adr h rd imm => shortForm h 0x10 (xIMM12 rd imm)
  | .adrLit h rd lit => litForm h 0x10 (xIMM12 rd 0) lit
  | .fadd h rd ra rb => shortForm h 0x20 (xREG3 rd ra rb 0)
  | .fsub h rd ra rb => shortForm h 0x20 (xREG3 rd ra rb 1)
  | .fmul h rd ra rb => shortForm h 0x20 (xREG3 rd ra rb 2)
  | .fdiv h rd ra rb => shortForm h 0x20 (xREG3 rd ra rb 3)
  | .fmin h rd ra rb => shortForm h 0x21 (xREG3 rd ra rb 0)
  | .fmax h rd ra rb => shortForm h 0x21 (xREG3 rd ra rb 1)
  | .fsqrt h rd ra => shortForm h 0x21 (xREG3 rd ra 0 2)
  | .fclass h rd ra => shortForm h 0x21 (xREG3 rd ra 0 3)
  | .ffma h rd ra rb => shortForm h 0x22 (xREG3 rd ra rb 0)
  | .fcmp h cd ra rb cond => shortForm h 0x23 (xCPRF cd ra rb cond)
  | .fcvt h rd ra kind rm sat => shortForm h 0x24 (xFCV rd ra kind rm sat)
  | .br h off => shortForm h 0x30 (xBRA off)
  | .brLit h lit => litForm h 0x30 (xBRA 0) lit
  | .call h kc off => shortForm h 0x31 (xCAL kc off)
  | .callLit h kc lit => litForm h 0x31 (xCAL kc 0) lit
  | .jr h ra => shortForm h 0x32 (xJMP 0 ra 0)
  | .callr h kc ra => shortForm h 0x32 (xJMP kc ra 1)
  | .ret h => shortForm h 0x32 (xJMP 0 0 2)
  | .nop h => shortForm h 0x33 (xMSC 0 0)
  | .yield h => shortForm h 0x33 (xMSC 0 1)
  | .endStrand h => shortForm h 0x33 (xMSC 0 2)
  | .wspill h kc => shortForm h 0x33 (xMSC kc 3)
  | .wfill h kc => shortForm h 0x33 (xMSC kc 4)
  | .cmp h cd ra rb cond => shortForm h 0x34 (xCPRI cd ra rb cond)
  | .cmpi h cd ra cond imm => shortForm h 0x35 (xCPI cd ra cond imm)
  | .cmpiLit h cd ra cond lit => litForm h 0x35 (xCPI cd ra cond 0) lit
  | .pand h cd ca cb => shortForm h 0x36 (xPRD cd ca cb 0)
  | .por h cd ca cb => shortForm h 0x36 (xPRD cd ca cb 1)
  | .pxor h cd ca cb => shortForm h 0x36 (xPRD cd ca cb 2)
  | .pnot h cd ca => shortForm h 0x36 (xPRD cd ca 0 3)
  | .pmov h cd ca => shortForm h 0x36 (xPRD cd ca 0 4)
  | .rep h n k stride => shortForm h 0x37 (xREPF n k stride)
  | .ldB h rd base disp => shortForm h 0x38 (xMEM rd base disp 0)
  | .ldBLit h rd base lit => litForm h 0x38 (xMEM rd base 0 0) lit
  | .ldBu h rd base disp => shortForm h 0x38 (xMEM rd base disp 1)
  | .ldBuLit h rd base lit => litForm h 0x38 (xMEM rd base 0 1) lit
  | .ldH h rd base disp => shortForm h 0x39 (xMEM rd base disp 0)
  | .ldHLit h rd base lit => litForm h 0x39 (xMEM rd base 0 0) lit
  | .ldHu h rd base disp => shortForm h 0x39 (xMEM rd base disp 1)
  | .ldHuLit h rd base lit => litForm h 0x39 (xMEM rd base 0 1) lit
  | .ldW h rd base disp => shortForm h 0x3A (xMEM rd base disp 0)
  | .ldWLit h rd base lit => litForm h 0x3A (xMEM rd base 0 0) lit
  | .ldWu h rd base disp => shortForm h 0x3A (xMEM rd base disp 1)
  | .ldWuLit h rd base lit => litForm h 0x3A (xMEM rd base 0 1) lit
  | .ldD h rd base disp => shortForm h 0x3B (xMEM rd base disp 0)
  | .ldDLit h rd base lit => litForm h 0x3B (xMEM rd base 0 0) lit
  | .ldp h rd base disp => shortForm h 0x3B (xMEM rd base disp 1)
  | .ldpLit h rd base lit => litForm h 0x3B (xMEM rd base 0 1) lit
  | .stB h rd base disp => shortForm h 0x3C (xMEM rd base disp 0)
  | .stBLit h rd base lit => litForm h 0x3C (xMEM rd base 0 0) lit
  | .stH h rd base disp => shortForm h 0x3D (xMEM rd base disp 0)
  | .stHLit h rd base lit => litForm h 0x3D (xMEM rd base 0 0) lit
  | .stW h rd base disp => shortForm h 0x3E (xMEM rd base disp 0)
  | .stWLit h rd base lit => litForm h 0x3E (xMEM rd base 0 0) lit
  | .stD h rd base disp => shortForm h 0x3F (xMEM rd base disp 0)
  | .stDLit h rd base lit => litForm h 0x3F (xMEM rd base 0 0) lit
  | .stp h rd base disp => shortForm h 0x3F (xMEM rd base disp 1)
  | .stpLit h rd base lit => litForm h 0x3F (xMEM rd base 0 1) lit
  | .aaddD h rd ra rb => shortForm h 0x40 (xREG3 rd ra rb 0)
  | .aandD h rd ra rb => shortForm h 0x40 (xREG3 rd ra rb 1)
  | .aorD h rd ra rb => shortForm h 0x40 (xREG3 rd ra rb 2)
  | .axorD h rd ra rb => shortForm h 0x40 (xREG3 rd ra rb 3)
  | .aaddW h rd ra rb => shortForm h 0x41 (xREG3 rd ra rb 0)
  | .aandW h rd ra rb => shortForm h 0x41 (xREG3 rd ra rb 1)
  | .aorW h rd ra rb => shortForm h 0x41 (xREG3 rd ra rb 2)
  | .axorW h rd ra rb => shortForm h 0x41 (xREG3 rd ra rb 3)
  | .aminD h rd ra rb => shortForm h 0x42 (xREG3 rd ra rb 0)
  | .amaxD h rd ra rb => shortForm h 0x42 (xREG3 rd ra rb 1)
  | .axchgD h rd ra rb => shortForm h 0x42 (xREG3 rd ra rb 2)
  | .acasD h rd ra rb => shortForm h 0x42 (xREG3 rd ra rb 3)
  | .aminW h rd ra rb => shortForm h 0x43 (xREG3 rd ra rb 0)
  | .amaxW h rd ra rb => shortForm h 0x43 (xREG3 rd ra rb 1)
  | .axchgW h rd ra rb => shortForm h 0x43 (xREG3 rd ra rb 2)
  | .acasW h rd ra rb => shortForm h 0x43 (xREG3 rd ra rb 3)
  | .agadd h rd ra rb => shortForm h 0x44 (xREG3 rd ra rb 0)
  | .bind h rd ra rb => shortForm h 0x45 (xREG3 rd ra rb 0)
  | .unbind h rd => shortForm h 0x45 (xREG3 rd 0 0 1)
  | .acq h rd ra scope => shortForm h 0x46 (xORD rd ra scope 0)
  | .rel h rd ra scope => shortForm h 0x46 (xORD rd ra scope 1)
  | .acqrel h rd ra scope => shortForm h 0x46 (xORD rd ra scope 2)
  | .waitw h rd ra scope => shortForm h 0x46 (xORD rd ra scope 3)
  | .fence h paths scope => shortForm h 0x47 (xFEN paths scope)
  | .vclaim h rd ra => shortForm h 0x48 (xREG3 rd ra 0 0)
  | .vreneg h rd ra => shortForm h 0x48 (xREG3 rd ra 0 1)
  | .vfree h => shortForm h 0x48 (xREG3 0 0 0 2)
  | .pset h p ra rb => shortForm h 0x49 (xPTR p ra rb 0)
  | .pget h p ra => shortForm h 0x49 (xPTR p ra 0 1)
  | .vadd h pd pa pb rn et => shortForm h 0x4A (xVEC pd pa pb rn et)
  | .vsub h pd pa pb rn et => shortForm h 0x4B (xVEC pd pa pb rn et)
  | .vmul h pd pa pb rn et => shortForm h 0x4C (xVEC pd pa pb rn et)
  | .vfma h pd pa pb rn et => shortForm h 0x4D (xVEC pd pa pb rn et)
  | .vmin h pd pa pb rn et => shortForm h 0x4E (xVEC pd pa pb rn et)
  | .vmax h pd pa pb rn et => shortForm h 0x4F (xVEC pd pa pb rn et)
  | .vabs h pd pa rn et => shortForm h 0x50 (xVUN pd pa rn et 0)
  | .vneg h pd pa rn et => shortForm h 0x50 (xVUN pd pa rn et 1)
  | .vexp2 h pd pa rn et => shortForm h 0x50 (xVUN pd pa rn et 2)
  | .vlog2 h pd pa rn et => shortForm h 0x50 (xVUN pd pa rn et 3)
  | .vrcp h pd pa rn et => shortForm h 0x50 (xVUN pd pa rn et 4)
  | .vrsq h pd pa rn et => shortForm h 0x50 (xVUN pd pa rn et 5)
  | .vcopy h pd pa rn et => shortForm h 0x50 (xVUN pd pa rn et 6)
  | .vsum h mb pa rn et => shortForm h 0x51 (xVRD mb pa rn et 0)
  | .vmaxr h mb pa rn et => shortForm h 0x51 (xVRD mb pa rn et 1)
  | .vminr h mb pa rn et => shortForm h 0x51 (xVRD mb pa rn et 2)
  | .vargmax h mb pa rn et => shortForm h 0x51 (xVRD mb pa rn et 3)
  | .vcmp h e => extForm h 0x52 0 e
  | .vsel h e => extForm h 0x52 1 e
  | .vscale h e => extForm h 0x52 2 e
  | .vscaleLit h e lit => extLitForm h 0x52 2 e lit
  | .vfill h e => extForm h 0x52 3 e
  | .vfillLit h e lit => extLitForm h 0x52 3 e lit
  | .vrand h e => extForm h 0x52 4 e
  | .vrandLit h e lit => extLitForm h 0x52 4 e lit
  | .vnzc h e => extForm h 0x52 5 e
  | .vchain h e => extForm h 0x52 6 e
  | .vchainLit h e lit => extLitForm h 0x52 6 e lit
  | .vcvt h e => extForm h 0x53 0 e
  | .vcvtLit h e lit => extLitForm h 0x53 0 e lit
  | .vqmx h e => extForm h 0x53 1 e
  | .vqmxLit h e lit => extLitForm h 0x53 1 e lit
  | .vdqmx h e => extForm h 0x53 2 e
  | .vqa h e => extForm h 0x53 3 e
  | .vqaLit h e lit => extLitForm h 0x53 3 e lit
  | .ashape h a rows cc => shortForm h 0x58 (xTSH a rows cc)
  | .adatum h a d => shortForm h 0x59 (xTDT a d)
  | .azero h a => shortForm h 0x5A (xTMS a 0 0)
  | .astat h a rd => shortForm h 0x5A (xTMS a rd 1)
  | .achk h a rd => shortForm h 0x5A (xTMS a rd 2)
  | .cld h e => extForm h 0x5B 0 e
  | .cldLit h e lit => extLitForm h 0x5B 0 e lit
  | .cldc h e => extForm h 0x5B 1 e
  | .cldcLit h e lit => extLitForm h 0x5B 1 e lit
  | .cldSp h e => extForm h 0x5B 2 e
  | .cldSpLit h e lit => extLitForm h 0x5B 2 e lit
  | .old h e => extForm h 0x5C 0 e
  | .oldLit h e lit => extLitForm h 0x5C 0 e lit
  | .oldT h e => extForm h 0x5C 1 e
  | .oldTLit h e lit => extLitForm h 0x5C 1 e lit
  | .ocols h e => extForm h 0x5C 2 e
  | .adrain h e => extForm h 0x5D 0 e
  | .adrainLit h e lit => extLitForm h 0x5D 0 e lit
  | .slotw h ra rb => shortForm h 0x5F (xREG3 0 ra rb 0)
  | .hopen h o rd ra => shortForm h 0x60 (xOB2 o rd ra 0)
  | .hclose h o rd => shortForm h 0x60 (xOB2 o rd 0 1)
  | .hbatch h o rd => shortForm h 0x60 (xOB2 o rd 0 2)
  | .hlist h o rd ra => shortForm h 0x60 (xOB2 o rd ra 3)
  | .hattach h o rd ra => shortForm h 0x61 (xOB2 o rd ra 0)
  | .hdetach h o rd ra => shortForm h 0x61 (xOB2 o rd ra 1)
  | .hswap h o rd ra => shortForm h 0x61 (xOB2 o rd ra 2)
  | .hverify h o rd => shortForm h 0x61 (xOB2 o rd 0 3)
  | .hfold h o rd ra => shortForm h 0x61 (xOB2 o rd ra 4)
  | .tclr h t ra => shortForm h 0x64 (xTRE t 0 ra 0)
  | .tset h t rd ra => shortForm h 0x64 (xTRE t rd ra 1)
  | .tadd h t rd ra => shortForm h 0x64 (xTRE t rd ra 2)
  | .tpref h t rd ra => shortForm h 0x64 (xTRE t rd ra 3)
  | .tfind h t rd ra => shortForm h 0x64 (xTRE t rd ra 4)
  | .tcut h t rd ra => shortForm h 0x64 (xTRE t rd ra 5)
  | .ttot h t rd ra => shortForm h 0x64 (xTRE t rd ra 6)
  | .tloadM32 h t ra rb => shortForm h 0x65 (xTRL t ra rb 0)
  | .tloadM16 h t ra rb => shortForm h 0x65 (xTRL t ra rb 8)
  | .tstore h t ra rb => shortForm h 0x65 (xTRL t ra rb 1)
  | .ppush h b rd => shortForm h 0x68 (xPRT b rd 0 0)
  | .ppop h b rd cd => shortForm h 0x68 (xPRT b rd cd 1)
  | .ppeek h b rd cd => shortForm h 0x68 (xPRT b rd cd 2)
  | .pcount h b rd => shortForm h 0x68 (xPRT b rd 0 3)
  | .peos h b => shortForm h 0x68 (xPRT b 0 0 4)
  | .pconf h b rd => shortForm h 0x68 (xPRT b rd 0 5)
  | .mbw h mb rd => shortForm h 0x69 (xMBX mb rd 0)
  | .mbr h mb rd => shortForm h 0x69 (xMBX mb rd 1)
  | .plnew h o rd ra => shortForm h 0x6C (xOB2 o rd ra 0)
  | .plset h o rd ra => shortForm h 0x6C (xOB2 o rd ra 1)
  | .plget h o rd ra => shortForm h 0x6C (xOB2 o rd ra 2)
  | .cpy h rd ra => shortForm h 0x6D (xREG3 rd ra 0 0)
  | .cpynb h rd ra => shortForm h 0x6D (xREG3 rd ra 0 1)
  | .swinit h ra rb => shortForm h 0x6E (xREG3 0 ra rb 0)
  | .swwait h ra rb => shortForm h 0x6E (xREG3 0 ra rb 1)
  | .rinit h g rd ra => shortForm h 0x6F (xRNG g rd ra 0)
  | .rawait h g rd ra => shortForm h 0x6F (xRNG g rd ra 1)
  | .rrel h g rd ra => shortForm h 0x6F (xRNG g rd ra 2)
  | .rseq h g rd ra => shortForm h 0x6F (xRNG g rd ra 3)
  | .reos h g rd ra => shortForm h 0x6F (xRNG g rd ra 4)
  | .gpost h rd ra => shortForm h 0x70 (xREG3 rd ra 0 0)
  | .gwait h rd ra => shortForm h 0x70 (xREG3 rd ra 0 1)
  | .gid h rd ra => shortForm h 0x74 (xREG3 rd ra 0 0)
  | .dqpush h rd ra => shortForm h 0x74 (xREG3 rd ra 0 1)
  | .dqpop h rd => shortForm h 0x74 (xREG3 rd 0 0 2)
  | .dqsplit h rd ra => shortForm h 0x74 (xREG3 rd ra 0 3)
  | .dqsteal h rd ra => shortForm h 0x75 (xREG3 rd ra 0 0)
  | .suspend h rd => shortForm h 0x75 (xREG3 rd 0 0 1)
  | .btest h rd ra rb => shortForm h 0x75 (xREG3 rd ra rb 2)
  | .stb h rd ra rb => shortForm h 0x75 (xREG3 rd ra rb 3)
  | .binit h rd ra rb => shortForm h 0x76 (xREG3 rd ra rb 0)
  | .bexp h rd ra rb => shortForm h 0x76 (xREG3 rd ra rb 1)
  | .barv h rd ra rb => shortForm h 0x76 (xREG3 rd ra rb 2)
  | .bwait h rd ra => shortForm h 0x76 (xREG3 rd ra 0 3)
  | .ksig h rd ra rb => shortForm h 0x77 (xREG3 rd ra rb 0)
  | .klaunch h rd ra rb => shortForm h 0x77 (xREG3 rd ra rb 1)
  | .keos h rd => shortForm h 0x77 (xREG3 rd 0 0 2)
  | .cgrp h e => extForm h 0x78 0 e
  | .cag h e => extForm h 0x78 1 e
  | .cagLit h e lit => extLitForm h 0x78 1 e lit
  | .crs h e => extForm h 0x78 2 e
  | .crsLit h e lit => extLitForm h 0x78 2 e lit
  | .ca2a h e => extForm h 0x78 3 e
  | .ca2aLit h e lit => extLitForm h 0x78 3 e lit
  | .cbar h e => extForm h 0x78 4 e
  | .cwait h rd ra => shortForm h 0x79 (xREG3 rd ra 0 0)
  | .ctest h rd ra => shortForm h 0x79 (xREG3 rd ra 0 1)
  | .rseed h ra => shortForm h 0x7C (xREG3 0 ra 0 0)
  | .rgen h rd ra rb => shortForm h 0x7C (xREG3 rd ra rb 1)
  | .rnoise h rd => shortForm h 0x7C (xREG3 rd 0 0 2)
  | .rlog h rd ra => shortForm h 0x7C (xREG3 rd ra 0 3)
  | .mseq h e => extForm h 0x7D 0 e
  | .mseqLit h e lit => extLitForm h 0x7D 0 e lit
  | .trap h imm => shortForm h 0x7E (xSYS 0 imm 0)
  | .eret h => shortForm h 0x7E (xSYS 0 0 1)
  | .eretAb h => shortForm h 0x7E (xSYS 0 1 1)
  | .csrr h rd imm => shortForm h 0x7E (xSYS rd imm 2)
  | .csrw h rd imm => shortForm h 0x7E (xSYS rd imm 3)
  | .csrs h rd imm => shortForm h 0x7E (xSYS rd imm 4)
  | .csrc h rd imm => shortForm h 0x7E (xSYS rd imm 5)
  | .wcall h rd imm => shortForm h 0x7E (xSYS rd imm 6)
  | .sleep h rd => shortForm h 0x7E (xSYS rd 0 7)
  | .contw h rd => shortForm h 0x7E (xSYS rd 0 8)
  | .contr h rd slot => shortForm h 0x7E (xSYS rd (BitVec.ofNat 8 slot.val) 9)
  | .shoot h rd => shortForm h 0x7E (xSYS rd 0x25 3)
  | .sliceWrite h rd => shortForm h 0x7E (xSYS rd 0x0C 3)
  | .create => []
  | .destroy => []
  | .qopen => []
  | .qclose => []
  | .linkup => []
  | .linkfence => []
  | .linkdown => []
  | .settvec => []
  | .dbgset => []
  | .dstop => []
  | .dresume => []
  | .trcset => []
  | .loadobj => []
  | .finalisedCacheDrop _ => []
  | .powerUp _ _ _ _ _ => []
  | .pendingReturn _ _ => []
  | .repIterationIssue _ => []
  | .thermalInterval _ _ => []
  | .thermalDisplacement _ => []
  | .noiseWordDelivery _ => []
  | .noiseHealthFail _ => []
  | .noiseHealthPass _ => []
  | .storeAtHome _ _ => []
  | .readAtHome _ _ => []
  | .atomicAtHome _ _ => []
  | .pageWalk _ _ _ => []
  | .sliceScrub _ _ _ => []
  | .accessCountFlush _ _ _ => []
  | .hotPageRecord _ => []
  | .wbRetranslate _ _ _ => []
  | .releasePerform _ => []
  | .acqAtHome _ _ => []
  | .acqrelExchange _ => []
  | .waitwRegister _ _ => []
  | .watchPoll _ _ => []
  | .scopeMissHandle _ => []
  | .bindPropagate _ _ => []
  | .probeEcho _ _ _ => []
  | .laneGrant _ => []
  | .vectorPerform _ => []
  | .engineOpPerform _ _ _ => []
  | .sectorRequest _ _ _ => []
  | .sectorReply _ _ _ _ => []
  | .traverseReservation _ _ _ => []
  | .traverseData _ _ _ => []
  | .slotFrameBoundary _ => []
  | .sliceRerun _ _ _ => []
  | .handleHomePerform _ _ => []
  | .handleScrub _ _ _ => []
  | .foldJobStart _ => []
  | .foldCommit _ => []
  | .foldFail _ => []
  | .treeUnitPerform _ _ => []
  | .portValueLand _ => []
  | .portCreditReturn _ => []
  | .portClosedNotice _ _ => []
  | .portDeadlock _ _ => []
  | .copyStart _ _ => []
  | .copyError _ => []
  | .copyComplete _ => []
  | .gatherPerform _ => []
  | .groupPlacement _ _ => []
  | .dequeUnitPerform _ _ => []
  | .idleMonitorTest _ _ _ _ => []
  | .barrierUnitPerform _ _ => []
  | .barrierPoll _ _ => []
  | .queueTake _ _ => []
  | .overrun _ _ => []
  | .kernelCompletion _ => []
  | .transformRun _ => []
  | .meshInterrupt _ => []
  | .saveComplete _ => []
  | .restore _ => []
  | .redelivery _ _ => []
  | .spillRetry _ => []
  | .portTrainingEnd _ _ _ => []
  | .laneFailure _ _ => []
  | .messageDiscard _ _ _ => []
  | .meshCountDump => []
  | .collectiveReservation _ _ => []
  | .collectiveChunk _ _ _ => []
  | .reductionCombine _ _ _ _ _ => []
  | .reductionPartialSpill _ _ _ _ _ => []
  | .sample _ => []
  | .tracePushback => []
  | .flitReplay _ _ => []
  | .powerRemoval => []
  | .promiseMissed _ _ => []
  | .tracePushbackRelease => []
  | .windowEnd _ _ => []

/-- The first words of an instruction, as many as its LEN asks for. -/
def instrWords (ws : List Nat) : List Nat :=
  match ws with
  | [] => []
  | w :: _ => ws.take (numWords w)

/-- Decoding: the allocated fields name the instruction; a limit that is broken rejects it; and since every bit
that no field holds is reserved and zero, the words must be exactly those of the instruction (R56). -/
noncomputable def decode (ws : List Nat) : Except Reject Instr :=
  match rawDecode ws with
  | .error r => .error r
  | .ok i =>
    if i.wf = false then .error .limit
    else if encode i = instrWords ws then .ok i
    else .error .reserved

/-- The 32-bit words of a number that holds an instruction's bits, bit 0 the least significant bit of the first
word. -/
def tableWords (w : Nat) : List Nat := (upto 5).map fun k => fld w (32 * k) 32

/-- The instruction the decoder reads from an instruction whose bits are w, numbered as the opcode table numbers
them; the bits from nbits on are zero. -/
noncomputable def decodeTableWord (nbits w : Nat) : Option Instr :=
  match decode (tableWords (w % 2 ^ nbits)) with
  | .ok i => some i
  | .error _ => none

end Sys2Proof
end

