-- ==== Sys2Proof/Machine/Fetch.lean ====
section
/-! DEFINITION. Fetching an instruction: its words, or the precise cause of its fetch (02 R46, R58, R59, 25 R502), and
where the model places an instruction for the next step. -/

namespace Sys2Proof.Machine
open Sys2Proof

/-- One word of text at a virtual address (02 R58); an instruction counts each sector it lies in once (07 R174). -/
def fetchWord (s : State) (core ctx va : Nat) (first : Bool) : State × Except Cause Nat :=
  let r := xlate s core ctx va .fetch false
  match r.2 with
  | .error c => (r.1, .error c)
  | .ok x =>
    (match homeRead r.1 ctx x.pa 4 with
    | .ok b => (if first || va % 64 = 0 then gatherCount r.1 (tlbCore core) ctx va 1 else r.1, .ok (leNat b))
    | .error k => (if k = 10 then logBad r.1 x.pa else r.1, .error { code := k, addr := va, fetch := true }))

/-- The following words of an instruction. -/
def fetchMore (s : State) (core ctx : Nat) : Nat → Nat → State × Except Cause (List Nat)
  | 0, _ => (s, .ok [])
  | n + 1, va =>
    let r := fetchWord s core ctx va false
    match r.2 with
    | .error c => (r.1, .error c)
    | .ok w =>
      let q := fetchMore r.1 core ctx n (va + 4)
      (q.1, match q.2 with | .ok ws => .ok (w :: ws) | .error c => .error c)

/-- The words of the instruction at va (02 R46, R57, R58), or the cause and the length that is recorded at the trap
(23 R485): 4 when the base word itself could not be fetched. -/
def fetchInstr (s : State) (core ctx va : Nat) : State × Except (Cause × Nat) (List Nat) :=
  if va % 4 ≠ 0 then (s, .error ({ code := 6, addr := va, fetch := true }, 4))
  else
    let r := fetchWord s core ctx va true
    match r.2 with
    | .error c => (r.1, .error (c, 4))
    | .ok w =>
      let q := fetchMore r.1 core ctx (numWords w - 1) (va + 4)
      (q.1, match q.2 with
        | .ok ws => .ok (w :: ws)
        | .error c => .error (c, 4 * numWords w))

/-- The breakpoint that matches an instruction address (25 R502). -/
def breakHit (s : State) (t : Strand) : Option (Nat × DbgPoint) :=
  if t.noBreak then none
  else (s.ctx t.ctx).breaks.find? fun b => b.2.en && b.2.base == t.pc

/-- Has what a strand parked in "port ready" before a push waits for come true: a credit, or that its member has ended
(15 R336, R340)? -/
def portOpen (t : Strand) : Bool :=
  match t.portWait with
  | some b => let p := tget Port.init t.ports b; decide (0 < p.credit) || p.closed
  | none => true

/-- A deterministic kernel whose common sequence stands still, or has events of this cycle before its turns, offers no turn (19 R423, 25
R503). -/
def detFrozen (s : State) (t : Strand) : Bool := detStill s t.kern || !(s.kern t.kern).todo.isEmpty

/-- Is a strand's slot offered issue for it (04 R94, 20 R437): no pre-empted core, no disabled slot? -/
def offered (s : State) (t : Strand) : Bool :=
  !s.off t.pcore t.ctx && !bit (s.core t.pcore).disabled t.pslot && !detFrozen s t

/-- Has a strand something to issue (04 R93, R94)? One chosen for displacement has nothing but in a handler of its last close (04 R119; log
entry 70), and one whose slice is to be rerun nothing (10 R260). -/
def wantsTurn (t : Strand) : Bool :=
  (!t.displacing || t.trap.intrap || t.ending) && !t.rerunWaits &&
    (t.st == .ready || t.st == .parked .resource || t.st == .parked .portReady && t.close.isNone && portOpen t)

/-- May the strand's slot take a turn (04 R93, R94, 19 R421, 20 R437): it is offered one, outside a frozen rotation? -/
def canIssue (s : State) (t : Strand) : Bool := wantsTurn t && offered s t && !frozenNow s t.pcore

/-- A stop waits for the slot's next turn, parked or not (25 R503). -/
def stopDue (s : State) (t : Strand) : Bool :=
  t.stopWaits && (match t.st with | .ready | .parked _ => true | _ => false) && offered s t && !frozenNow s t.pcore

/-- A strand is stopped precisely, before its next instruction (25 R503, 04 R94). A breakpoint that has stopped it does not match its replay
(25 R502). -/
def stopStrand (s : State) (u : Nat) (dbg : Bool) : State :=
  let t := s.strand u
  let was : Option Wake := match t.st with | .parked w => some w | _ => none
  traceRec (s.setStrand u { t with st := .stopped was, stopWaits := false, stopDbg := false, noBreak := t.noBreak || dbg && !t.stopWaits }) t.pcore t.pslot 3 2
    (t.pc % 2 ^ 63 + b2n dbg * 2 ^ 63)

/-- The next move where the agenda names none (log entry 3). -/
opaque nextMove : Nat → Move

/-- Where withFetchWord places an instruction: the virtual and the physical address. -/
def fetchVA : Nat := 0x10000
def fetchPA : Nat := 0x10000

/-- The state in which the next step fetches exactly the instruction whose bits are w: strand 0 is ready at fetchVA,
its core's translation cache maps that page executable, and the bytes are there (log entry 2). -/
def placeWord (s : State) (nbits w : Nat) : State :=
  let t := s.strand 0
  let s := s.modCtx t.ctx fun x => { x with secure := granuleSecure s fetchPA, breaks := [] }
  let s := { s with mem := memPut s.mem fetchPA (leBytes 20 (w % 2 ^ nbits))
                    poison := s.poison.filter fun p => p / 64 * 64 != fetchPA
                    tlb := ⟨tlbCore t.pcore, t.ctx, fetchVA, 2 ^ 16, 0, 0x42 + b2n (granuleSecure s fetchPA) * 2 ^ 7,
                      fetchPA / 2 ^ 16, 0⟩ :: s.tlb
                    agenda := [.issue 0] }
  let s := (s.modCore t.pcore fun k => { k with disabled := 0, frozen := 0 }).modPart t.pcore t.ctx fun p => { p with st := .placed }
  s.setStrand 0 { t with st := .ready, pc := fetchVA, yielded := false, ending := false, stopWaits := false, displacing := false, rerunWaits := false }

end Sys2Proof.Machine
end

