-- ==== Sys2Proof/Machine/EndStrand.lean ====
section
/-! DEFINITION. The end of a strand, of its group and of its kernel (04 R110, 17 R375, 19 R407, R409). -/

namespace Sys2Proof.Machine
open Sys2Proof

/-- A strand of a standing kernel passes the end once (19 R409). -/
def passEnd (s : State) (u : Nat) : State :=
  let t := s.strand u
  if t.passedEnd then s
  else (s.modKern t.kern fun k => { k with eosLeft := k.eosLeft - 1 }).setStrand u { t with passedEnd := true }

/-- Strands of a group that have not ended. -/
def groupStrands (s : State) (kid gnum : Nat) : List Nat :=
  (s.strands.filter fun t => t.2.kern == kid && t.2.grp == gnum && t.2.st != .ended).map (·.1)

/-- Has the engine work of a strand still to do: it has been accepted, and a fault has not stopped it (10 R236)? -/
def engineBusy (s : State) (u : Nat) : Bool := s.parts.any fun p => (p.2.eq ++ p.2.streams).any fun e => e.uid == u && e.heldAt == 0

/-- A group whose last strand has ended is ENDED (17 R375), and its slot-table entries are cleared with what it reserved (19 R419); a kernel whose last group has ended is CLOSING (19 R407). -/
def settleGroup (s : State) (kid gnum : Nat) : State :=
  if !(groupStrands s kid gnum).isEmpty then s
  else
    let s := clearEnts (endGroup s kid gnum) kid gnum
    let k := s.kern kid
    if k.st == .running && k.groups.all fun g => g.st == .ended then s.setKern kid { k with st := .closing } else s

/-- A turn of a strand whose END has closed (04 R110): it waits for its repetition buffer, its vector queue and what the
engines have accepted of it, so that no write of it is lost with its partition (19 R417; log entry 109); then
handles are closed (12 R304), which may have to wait, the claim is released, event lines and port queues are freed (16 R370, 15 R340), and the
slot is EMPTY. -/
def endTurn (s : State) (u : Nat) : State :=
  let t := s.strand u
  if t.rep.isSome || !t.vq.isEmpty || engineBusy s u then s
  else
    let r := closeHandles s u
    if !r.2 then r.1
    else
      settleGroup ((passEnd r.1 u).modStrand u fun t =>
        { t with st := .ended, ending := false, claims := [], mboxes := [], glines := [], clines := [],
                 slice := none, ports := t.ports.map fun p => (p.1, { p.2 with q := [] }) }) t.kern t.grp

end Sys2Proof.Machine
end

