-- ==== Sys2Proof/Machine/Group.lean ====
section
/-! DEFINITION. Groups, the range deque and the idle monitor (17 R373 to R387). -/

namespace Sys2Proof.Machine
open Sys2Proof

/-- Strands of a group, ended or not (17 R373). -/
def groupSize (s : State) (kern grp : Nat) : Nat := (s.strands.filter fun t => t.2.kern == kern && t.2.grp == grp).length

/-- GID (17 R382). -/
def gidVal (s : State) (t : Strand) (sel : Nat) : Nat :=
  let k := s.kern t.kern
  match sel with
  | 0 => t.index
  | 1 => groupSize s t.kern t.grp
  | 2 => t.grp
  | 3 => k.g
  | 4 => t.pcore + t.pslot * 2 ^ 16 + t.lcore * 2 ^ 32 + t.lslot * 2 ^ 48
  | 5 => k.width
  | 6 => k.slices
  | 7 => k.coords
  | _ => 0

def execGid (h : Hdr) (rd ra : Reg) : State → Outcome :=
  issue h { len := lenShort, refs := [.r rd, .r ra] } fun x =>
    x.upd (x.t.setReg rd (w64 (gidVal x.s x.t ((x.t.reg ra).toNat % 16))))

/-- A range of a deque entry (17 R380). -/
def rangeLo (e : Nat) : Nat := e % 2 ^ 32
def rangeHi (e : Nat) : Nat := fld e 32 32
def rangeOf (lo hi : Nat) : Nat := lo + hi * 2 ^ 32

/-- A deque operation (17 R383, R384): the deque, oldest entry first, and the result. -/
def dequeWork (o : DOp) (a : Nat) (d : List Nat) : List Nat × Nat :=
  match o with
  | .push => if rangeHi a ≤ rangeLo a then (d, 2) else if 64 ≤ d.length then (d, 1) else (d ++ [a], 0)
  | .pop => (match d.getLast? with | none => (d, 0) | some e => (d.dropLast, e))
  | .split =>
    let g := a % 2 ^ 32
    match d.getLast? with
    | none => (d, 0)
    | some e =>
      if g = 0 then (d, 0)
      else if rangeHi e - rangeLo e ≤ g then (d.dropLast, e)
      else (d.dropLast ++ [rangeOf (rangeLo e + g) (rangeHi e)], rangeOf (rangeLo e) (rangeLo e + g))
  | .steal =>
    match d with
    | [] => (d, 0)
    | e :: rest =>
      let t := cdiv (rangeHi e - rangeLo e) 2
      if t = rangeHi e - rangeLo e then (rest, e)
      else (rangeOf (rangeLo e) (rangeHi e - t) :: rest, rangeOf (rangeHi e - t) (rangeHi e))

/-- The core whose deque an operation of a strand acts on (17 R377, R384); none when the victim does not exist. -/
def dequeCore (s : State) (t : Strand) (o : DOp) (a : Nat) : Option Nat :=
  if !(s.kern t.kern).usesDeques then none
  else match o with
    | .steal => (match groupOf s t with | some g => g.cores[a % 64]? | none => none)
    | _ => some t.lcore

/-- The issue of a deque instruction: DEQUE in a group without deques or for a victim at or above M (17 R379, R384). -/
def dequeIssue (h : Hdr) (o : DOp) (rd : Reg) (ra : Option Reg) : State → Outcome :=
  issue h { len := lenShort, pendingClass := true, refs := .r rd :: (ra.toList.map .r) } fun x =>
    let a := match ra with | some r => (x.t.reg r).toNat | none => 0
    if (dequeCore x.s x.t o a).isNone then .trap { code := 29 }
    else x.send (.deque o a) .s (x.t.dest rd)

def execDqpush (h : Hdr) (rd ra : Reg) : State → Outcome := dequeIssue h .push rd (some ra)
def execDqpop (h : Hdr) (rd : Reg) : State → Outcome := dequeIssue h .pop rd none
def execDqsplit (h : Hdr) (rd ra : Reg) : State → Outcome := dequeIssue h .split rd (some ra)
def execDqsteal (h : Hdr) (rd ra : Reg) : State → Outcome := dequeIssue h .steal rd (some ra)

/-- SUSPEND (17 R385). -/
def execSuspend (h : Hdr) (rd : Reg) : State → Outcome :=
  issue h { len := lenShort, pendingClass := true, refs := [.r rd] } fun x => x.send .suspend .w (x.t.dest rd)

def modGroup (s : State) (kern grp : Nat) (f : Group → Group) : State :=
  s.modKern kern fun k => { k with groups := k.groups.map fun g => if g.num = grp then f g else g }

/-- Has an operation at a unit gone to a spill queue (17 R386)? -/
def unitDiverted (s : State) (u id : Nat) : Bool := s.ctxs.any fun x => (x.2.spill ++ x.2.refused).any fun q => q.2 == .unit u id

/-- Is a deque operation of a strand on the deque of core c behind an earlier one of it (17 R380)? One that has been diverted to that core
has taken its place in the spill queue (17 R386). -/
def dequeBehind (s : State) (u id c : Nat) : Bool :=
  let t := s.strand u
  (t.ops.takeWhile fun x => x.id != id).any fun x => x.phase == .sent && (match x.kind with
    | .deque o a => !(dequeCore s t o a == some c && unitDiverted s u x.id)
    | _ => false)

/-- An operation at a deque unit, and the notice of its change (17 R380, R385): diverted operations come before any new one (R386), and
the deque of an ended group is gone for what is still on its way to it (19 R415). -/
def performDeque (s : State) (u : Nat) (o : Op) (force : Bool) : State :=
  match o.kind with
  | .deque op a =>
    let t := s.strand u
    match dequeCore s t op a with
    | none => opDone s u o [0]
    | some c =>
      if dequeBehind s u o.id c && !force || frozenNow s c then s
      else if reach s c t.ctx == .divert then
        if c == t.pcore || unitDiverted s u o.id then s
        else divert s t.ctx c (.unit u o.id)
      else if reach s c t.ctx == .wait && !force then s
      else if (s.part c t.ctx).deqGrp != some (t.kern * 2 ^ 32 + t.grp) then opDone s u o [0]
      else
        let p := s.part c t.ctx
        let r := dequeWork op a p.deque
        let s := opDone (s.setPart c t.ctx { p with deque := r.1 }) u o [w64 r.2]
        if r.1 = p.deque then s
        else modGroup s t.kern t.grp fun g => { g with notes := g.notes ++ [(u, c, !r.1.isEmpty)] }
  | _ => s

/-- An event of an operation that is still on its way, by the unit that performs it. -/
def execDequeUnitPerform (uid id : Nat) (s : State) : Outcome :=
  .next (
    match s.op uid id with
    | some o => if o.phase == .sent then performDeque s uid o false else s
    | none => s)

/-- The SUSPEND that a strand has outstanding. -/
def suspendOf (t : Strand) : Option Op := t.ops.find? fun o => o.kind == .suspend && o.phase == .sent

/-- Return of every registered SUSPEND of a group (17 R385). -/
def idleReturn (s : State) (kern grp : Nat) (us : List Nat) (v : Word) : State :=
  let s := us.foldl (fun s u => match suspendOf (s.strand u) with | some o => opDone s u o [v] | none => s) s
  modGroup s kern grp fun g => { g with idle := [] }

/-- Is a change of a deque by a strand that has ended, or is registered, still on its way to the monitor (17 R385)? -/
def lateNotice (s : State) (g : Group) : Bool :=
  g.notes.any fun n => g.idle.contains n.1 || (match (s.strand n.1).st with | .ended => true | _ => false)

/-- The test (17 R385): every deque is empty only when no change of one by an ended or a registered strand is still to come. -/
def idleTest (s : State) (kern grp : Nat) : State :=
  match (s.kern kern).groups.find? fun g => g.num == grp with
  | none => s
  | some g =>
    if !g.view.isEmpty then idleReturn s kern grp g.idle 0
    else if !lateNotice s g && (groupStrands s kern grp).all g.idle.contains then idleReturn s kern grp g.idle 1
    else s

/-- The monitor of a group: a strand's SUSPEND reaches it, behind the notices of that strand's own deque operations, or notice i
does, behind the earlier ones of its core; then the test (17 R385). -/
def execIdleMonitorTest (kern grp uid i : Nat) (s : State) : Outcome :=
  .next (
    match (s.kern kern).groups.find? fun g => g.num == grp with
    | none => s
    | some g =>
      let t := s.strand uid
      let joins := t.kern == kern && t.grp == grp && t.st != .ended && (suspendOf t).isSome && !g.idle.contains uid &&
        !(g.notes.any fun n => n.1 == uid) &&
        !(t.ops.any fun o => o.phase == .sent && (match o.kind with | .deque _ _ => true | _ => false))
      let s :=
        if joins then modGroup s kern grp fun g => { g with idle := g.idle ++ [uid] }
        else
          match g.notes[i]? with
          | none => s
          | some n =>
            if (g.notes.take i).any fun m => m.2.1 == n.2.1 then s
            else modGroup s kern grp fun g =>
              { g with notes := ldel g.notes i
                       view := (g.view.filter (· != n.2.1)) ++ (if n.2.2 then [n.2.1] else []) }
      idleTest s kern grp)

end Sys2Proof.Machine
end

