-- ==== Sys2Proof/Machine/SysReg.lean ====
section
/-! DEFINITION. The system registers and the CSR instructions (23 R487, R490). -/

namespace Sys2Proof.Machine
open Sys2Proof

/-- What a privilege may do with a system register (23 R490): every access raises PRIV; it is read only; both. -/
inductive CsrAcc where
  | none | r | rw
  deriving DecidableEq, Repr

/-- The access columns of R490 at user and at supervisor privilege; no answer where the number names no register. A user write of BWIN is
accepted without effect, as the column says (log entry 96). -/
def csrAcc (n : Nat) (sup : Bool) : Option CsrAcc :=
  let cols (u v : CsrAcc) : Option CsrAcc := some (if sup then v else u)
  match n with
  | 0x00 | 0x01 | 0x03 | 0x04 | 0x0C => cols .rw .rw
  | 0x02 | 0x06 | 0x07 | 0x0A | 0x0B => cols .r .r
  | 0x05 | 0x08 | 0x09 | 0x31 => cols .r .rw
  | 0x10 | 0x11 | 0x12 | 0x14 => cols .none .r
  | 0x13 | 0x15 | 0x20 | 0x21 | 0x22 | 0x23 | 0x24 | 0x25 | 0x26 | 0x27 | 0x28 | 0x29 | 0x2A | 0x2B | 0x2C | 0x2D | 0x2E | 0x2F
  | 0x30 => cols .none .rw
  | _ => none

/-- The cycle count that a strand reads: in a deterministic kernel, that of its common sequence (19 R423). -/
def strandCycle (s : State) (t : Strand) : Nat :=
  let k := s.kern t.kern
  if k.det then k.detCyc else s.cycle

/-- SSTAT and TSTAT (23 R490, R481), SLICE (10 R260), NLOGCTL. -/
def sstat (s : State) (t : Strand) : Nat := b2n t.sup + 2 * b2n t.trap.intrap + 4 * b2n (s.ctx t.ctx).secure
def tstat (t : Strand) : Nat := b2n t.trap.ppriv + 2 * b2n t.trap.intrap
def sliceWord (t : Strand) : Nat := match t.slice with | some j => 2 ^ 63 + j | none => 0
def nlogctl (x : Ctx) : Nat := x.nlogMode % 4 + 4 * b2n x.nlogLoss + 8 * b2n x.nlogExhaust

/-- The value of a system register (23 R490). -/
def csrRead (s : State) (t : Strand) (n : Nat) : Nat :=
  let x := s.ctx t.ctx
  match n with
  | 0x00 => t.pw + 1
  | 0x01 => t.wsp.toNat
  | 0x02 => t.wstat
  | 0x03 => t.vstat
  | 0x04 => t.mstat
  | 0x05 => t.dseed.toNat
  | 0x06 => strandCycle s t
  | 0x07 => sstat s t
  | 0x08 => x.lwin
  | 0x09 => x.bwin
  | 0x0A => t.cprogb.toNat
  | 0x0B => t.cprogm.toNat
  | 0x0C => sliceWord t
  | 0x10 => t.trap.tpc.toNat
  | 0x11 => t.trap.tcause.toNat
  | 0x12 => t.trap.taddr.toNat
  | 0x13 => t.trap.tres.toNat
  | 0x14 => tstat t
  | 0x15 => x.tvec
  | 0x20 => x.ptroot
  | 0x21 => x.cadb
  | 0x22 => x.nqb
  | 0x23 => x.nqn
  | 0x24 => x.nqth
  | 0x26 => x.layb
  | 0x27 => x.layn
  | 0x28 => x.hscrub
  | 0x29 => x.pstall
  | 0x2A => x.xerb
  | 0x2B => x.xern
  | 0x2C => x.rspb
  | 0x2D => x.rspn
  | 0x2E => x.nlogb
  | 0x2F => x.nlogn
  | 0x30 => x.nlogi
  | 0x31 => nlogctl x
  | _ => 0

/-- Bits hi - 1 to lo of a value, the others zero: what a register with one field keeps. -/
def keep (v lo hi : Nat) : Nat := fld v lo (hi - lo) * 2 ^ lo

/-- A context register takes a value by its field table (05 R135, 07 R175, 12 R282, 15 R342, 16 R357, 18 R391, 22 R477, 23
R490, 03 R92). -/
def ctxWrite (x : Ctx) (n v : Nat) : Ctx :=
  match n with
  | 0x08 => { x with lwin := keep v 19 56 }
  | 0x09 => { x with bwin := keep v 31 56 }
  | 0x15 => { x with tvec := keep v 12 56, tvecSet := true }
  | 0x20 => { x with ptroot := keep v 17 52 }
  | 0x21 => { x with cadb := keep v 11 52 }
  | 0x22 => { x with nqb := keep v 4 52 }
  | 0x23 => { x with nqn := v % 2 ^ 16 }
  | 0x24 => { x with nqth := max 16 (v % 2 ^ 12) }
  | 0x26 => { x with layb := keep v 5 52 }
  | 0x27 => { x with layn := v % 2 ^ 13 }
  | 0x28 => { x with hscrub := v % 2 ^ 32 }
  | 0x29 => { x with pstall := v % 2 ^ 32 }
  | 0x2A => { x with xerb := keep v 5 52 }
  | 0x2B => { x with xern := v % 2 ^ 16 }
  | 0x2C => { x with rspb := keep v 7 52 }
  | 0x2D => { x with rspn := v % 2 ^ 16 }
  | 0x2E => { x with nlogb := v }
  | 0x2F => { x with nlogn := v }
  | 0x30 => { x with nlogi := v }
  | 0x31 => { x with nlogLoss := bit v 2, nlogExhaust := bit v 3 }
  | _ => x

/-- A register takes a value by its field table (23 R487); read-only bits keep theirs. -/
def csrWrite (s : State) (u : Nat) (t : Strand) (n v : Nat) : State :=
  match n with
  | 0x00 => s.setStrand u { t with pword := v % 2 ^ 16 / 2 * 2 }
  | 0x01 => s.setStrand u { t with wsp := w64 v }
  | 0x03 => s.setStrand u (t.setVstat v)
  | 0x04 => s.setStrand u (t.setMstat v)
  | 0x05 => s.setStrand u { t with dseed := w64 v }
  | 0x13 => s.setStrand u { t with trap := { t.trap with tres := w64 v } }
  | _ => (s.modCtx t.ctx fun x => ctxWrite x n v).setStrand u t

/-- Is a predicate bit pending (04 R113)? -/
def Strand.predPending (t : Strand) : Bool := t.pend.any fun l => match l with | .pred _ => true | _ => false

/-- A CSR instruction (23 R487) with its access column: privilege, then the operand, then a number that names no register or f (02
R59: CLOSURE comes before a cause of the entry). -/
def csrOp (h : Hdr) (rd : Reg) (n : Nat) (acc : Nat → Bool → Option CsrAcc) (f : Exe → CsrAcc → Eff) (s : State) : Outcome :=
  match acc n (s.strand s.cur).sup with
  | none => issue h { len := lenShort, refs := [.r rd] } (fun _ => .trap { code := 1 }) s
  | some .none => issue h { len := lenShort } (fun _ => .trap { code := 3 }) s
  | some a =>
    issue h { len := lenShort, refs := [.r rd] } (fun x =>
      if n = 0 ∧ x.t.predPending = true then .trap { code := 2 } else f x a) s

def execCsrr (h : Hdr) (rd : Reg) (imm : BitVec 8) : State → Outcome :=
  csrOp h rd imm.toNat csrAcc fun x _ => x.upd (x.t.setReg rd (w64 (csrRead x.s x.t imm.toNat)))

/-- A write of v at a privilege that may only read changes nothing (23 R487). -/
def csrPut (x : Exe) (a : CsrAcc) (n v : Nat) : Eff :=
  if a = .r then .ok x.s else .ok (csrWrite x.s x.u x.t n v)

def execCsrw (h : Hdr) (rd : Reg) (imm : BitVec 8) : State → Outcome :=
  csrOp h rd imm.toNat csrAcc fun x a => csrPut x a imm.toNat (x.t.reg rd).toNat

/-- SHOOT and SLICE have no CSRS or CSRC (23 R487). -/
def noSet (n : Nat) : Bool := n == 0x25 || n == 0x0C

def execCsrs (h : Hdr) (rd : Reg) (imm : BitVec 8) : State → Outcome :=
  csrOp h rd imm.toNat csrAcc fun x a =>
    if noSet imm.toNat then .trap { code := 1 }
    else csrPut x a imm.toNat (Nat.lor (csrRead x.s x.t imm.toNat) (x.t.reg rd).toNat)
def execCsrc (h : Hdr) (rd : Reg) (imm : BitVec 8) : State → Outcome :=
  csrOp h rd imm.toNat csrAcc fun x a =>
    if noSet imm.toNat then .trap { code := 1 }
    else csrPut x a imm.toNat (w64 (csrRead x.s x.t imm.toNat) &&& ~~~(x.t.reg rd)).toNat

end Sys2Proof.Machine
end

