-- ==== Sys2Proof/Machine/Frame.lean ====
section
/-! DEFINITION. Continuation records and hardware frames, CONTW, CONTR, and restartable slices (04 R117 to R119, 10 R260, 20
R444 to R446). -/

namespace Sys2Proof.Machine
open Sys2Proof

/-- Register code of wN. -/
def wreg (n : Nat) : Reg := Fin.ofNat 32 (8 + n)

/-- Words of the resident older frames, oldest first (04 R108, R118). -/
def residentWords (t : Strand) : List (List Byte) :=
  (physRun (t.cwp + 96 - t.wres) t.wres).map fun l => leBytes 8 (t.getLoc l).toNat

/-- The 22 words of a hardware frame (04 R118, 09 R217). -/
def frameWords (t : Strand) : List (List Byte) :=
  ((upto 7).map fun i => leBytes 8 (t.getLoc (.s (i + 1))).toNat) ++
    ((upto 14).map fun i => leBytes 8 (t.reg (wreg (10 + i))).toNat) ++ [leBytes 8 t.frameStat]

/-- The 128 bytes of a continuation record (04 R117). -/
def recordBytes (t : Strand) (pc wsp : Nat) (full : Bool) : List Byte :=
  leBytes 8 pc ++ leBytes 8 wsp ++ leBytes 8 t.dseed.toNat ++ leBytes 2 t.pw ++ leBytes 2 (b2n full) ++ leBytes 4 0 ++
    ((upto 10).flatMap fun i => leBytes 8 (t.reg (wreg i)).toNat) ++ leBytes 16 0

/-- Does a record meet R117? -/
def recordOk (b : List Byte) : Bool :=
  recLE b 112 16 == 0 && recLE b 28 4 == 0 && recLE b 26 2 / 2 == 0 && recLE b 24 2 % 2 == 0 && recLE b 8 8 % 8 == 0 &&
    recLE b 0 8 / 2 ^ 56 == 0 && recLE b 0 8 % 4 == 0

/-- Registers from a list of values. -/
def Strand.setRegs (t : Strand) : List (Reg × Word) → Strand
  | [] => t
  | p :: ps => (t.setReg p.1 p.2).setRegs ps

/-- A strand takes what a record holds, and a frame's words if it has one (04 R117, R118, 20 R446). -/
def takeRecord (t : Strand) (b : List Byte) (frame : Option (List Word)) : Strand :=
  let word (i : Nat) : Word := match frame with | some ws => ws.getD i 0 | none => 0
  let t := t.setRegs ((upto 10).map fun i => (wreg i, w64 (recLE b (32 + 8 * i) 8)))
  let t := t.setRegs ((upto 14).map fun i => (wreg (10 + i), word (7 + i)))
  let t := { t with sregs := (upto 7).map fun i => (i + 1, word i) }
  let t := match frame with | some ws => t.setFrameStat (ws.getD 21 0).toNat | none => t
  { t with pc := recLE b 0 8, wsp := w64 (recLE b 8 8) - (if frame.isSome then 176 else 0), dseed := w64 (recLE b 16 8),
           pword := recLE b 24 2 / 2 * 2, wres := 0, pend := [], ptrs := [], mboxes := [], plats := [], portWait := none,
           noBreak := false, noWatch := none, close := none, yielded := false, ending := false }

/-- Is an operation of the strand pending, or its repetition buffer busy (04 R119, 10 R260, 20 R445)? -/
def Strand.engagedNow (t : Strand) : Bool := t.rep.isSome || !t.pend.isEmpty || t.ops.any fun o => o.phase != .late

/-- Consecutive 8-byte accesses. -/
def wordsAt (va n : Nat) : List (Nat × Nat) := (upto n).map fun i => (va + 8 * i, 8)

/-- The precise causes of a spill of every resident frame: ALIGN, as WSPILL (04 R108). -/
def spillAlign (t : Strand) : Option Cause :=
  if t.wres ≠ 0 ∧ t.wsp.toNat % 8 ≠ 0 then some { code := 6, addr := t.wsp.toNat, acc := 2 } else none

/-- The gathers of a strand signal its lines no more (16 R370): END and CONTW have freed them. -/
def dropSignals (s : State) (u : Nat) : State :=
  let off (e : Nat × Spill) : Nat × Spill := match e.2 with | .signal v l r ls => if v = u then (e.1, .signal v 4 r ls) else (e.1, .signal v l r ls) | _ => e
  { s with gathers := s.gathers.map fun g => if g.uid = u then { g with line := 4 } else g
           ctxs := s.ctxs.map fun x => (x.1, { x.2 with spill := x.2.spill.map off, refused := x.2.refused.map off }) }

/-- The strand after CONTW (20 R445). -/
def contwSaved (t : Strand) (a : Nat) : Strand :=
  { t with wsp := t.wsp + w64 (8 * t.wres), wres := 0, claims := [], glines := [], clines := [], slice := none,
           st := .saved (.contw a) none false }

/-- CONTW (20 R445). -/
def contwEff (a : Nat) (x : Exe) : Eff :=
  let wsp := x.t.wsp.toNat
  if x.t.engagedNow then .trap { code := 2 }
  else if a % 128 ≠ 0 then .trap { code := 6, addr := a, acc := 2 }
  else
    match spillAlign x.t with
    | some c => .trap c
    | none =>
      let addrs := wordsAt a 16 ++ wordsAt wsp x.t.wres
      let r := sitesOf x.s x.t .write addrs
      match r.2 with
      | .error c => .trap c
      | .ok ws =>
        if ws.any (·.wb) || !x.t.vq.isEmpty || (ws.zip addrs).any fun p => p.1.loc && localBehind r.1 x.u p.2.1 p.2.2 p.1.pa then
          .wait r.1
        else
          match watchHit r.1 x.t.ctx x.skip a 128 .write false, watchHit r.1 x.t.ctx x.skip wsp (8 * x.t.wres) .write false with
          | some k, _ => .trap { code := 12, sub := k, addr := a, acc := 2 }
          | none, some k => .trap { code := 12, sub := k, addr := wsp, acc := 2 }
          | none, none =>
            let rec' := recordBytes x.t x.t.pc ((x.t.wsp + w64 (8 * x.t.wres)).toNat) false
            let q := closeHandles r.1 x.u
            if !q.2 then .wait q.1
            else
              let s := dropSignals q.1 x.u
              let stop := stopHit r.1 x.t.ctx x.skip a 128 .write || stopHit r.1 x.t.ctx x.skip wsp (8 * x.t.wres) .write
              let s := storePieces s x.u x.t stop wsp ((ws.drop 16).zip (residentWords x.t))
              let s := storePieces s x.u x.t stop a ((ws.take 16).zip ((upto 16).map fun i => (rec'.drop (8 * i)).take 8))
              .ok (stopAfter (s.modStrand x.u fun t => contwSaved t a) x.u stop)

def execContw (h : Hdr) (rd : Reg) : State → Outcome :=
  issue h { len := lenShort, refs := [.r rd] ++ (upto 10).map fun i => .r (wreg i) } fun x =>
    contwEff (x.t.reg rd).toNat x

/-- CONTR (20 R446): the record is read, and the slot restored, later. -/
def execContr (h : Hdr) (rd : Reg) (slot : Fin 16) : State → Outcome :=
  issue h { len := lenShort, pendingClass := true, refs := [.r rd] } fun x =>
    let a := (x.t.reg rd).toNat
    if a % 128 ≠ 0 then .trap { code := 6, addr := a, acc := 1 } else x.send (.contr a slot.val) .s (x.t.dest rd)

/-- The strand of a group that CONTW has saved at a logical position, its writes performed (20 R446). -/
def contwAt (s : State) (t : Strand) (slot : Nat) : Option Nat :=
  (s.strands.find? fun q => q.2.kern == t.kern && q.2.grp == t.grp && q.2.lcore == t.lcore && q.2.lslot == slot &&
    (match q.2.st with | .saved (.contw _) _ _ => true | _ => false) && !(s.writes.any fun w => w.uid == q.1)).map (·.1)

/-- The strand that CONTR restores: no claim, every handle closed, every line free (04 R94, 20 R446). -/
def contrRestored (t : Strand) : Strand :=
  { t with claims := [], vq := [], vout := none, handles := [], glines := [], clines := [], slice := none, rep := none, st := .ready }

/-- The slot takes the strand: it is READY at its next turn, or STOPPED where a precise stop waits (04 R94, 20 R446, 25 R503). -/
def intoSlot (s : State) (m : Nat) (t : Strand) : State :=
  if t.stopWaits then stopStrand (s.setStrand m t) m t.stopDbg else s.setStrand m { t with turn := slotClock s t + 1 }

/-- CONTR performed (20 R446). -/
def performContr (s : State) (u : Nat) (o : Op) (va slot : Nat) : State :=
  let a := readFor s u o va 64 false
  match a.2 with
  | .error c => settle a.1 u o c
  | .ok b0 =>
    let b := readFor a.1 u o (va + 64) 64 false
    match b.2 with
    | .error c => settle b.1 u o c
    | .ok b1 =>
      let rec' := b0 ++ b1
      match contwAt b.1 (s.strand u) slot with
      | none => opReturn b.1 u { o with res := [1] }
      | some m =>
        if !recordOk rec' then opFault b.1 u o { code := 3 }
        else if (b.1.writes.any fun w => w.uid == u && decide (w.seq < o.seq)) || atomicsBefore b.1 u o.seq ||
            (b.1.cores.any fun c => c.2.relq.any fun r => r.uid == u && decide (r.seq < o.seq)) then b.1
        else if bit (recLE rec' 26 2) 0 then
          let f := fillFor b.1 u o false ((upto 22).map fun i => (recLE rec' 8 8 + 2 ^ 64 - 176 + 8 * i) % 2 ^ 64)
          match f.2 with
          | .error c => settle f.1 u o c
          | .ok ws => opReturn (intoSlot f.1 m (contrRestored (takeRecord (f.1.strand m) rec' (some ws)))) u { o with res := [0] }
        else opReturn (intoSlot b.1 m (contrRestored (takeRecord (b.1.strand m) rec' none))) u { o with res := [0] }

/-- The checkpoint of a strand's slice (10 R260, 20 R436). -/
def checkpointOf (s : State) (t : Strand) : Nat :=
  readLE s ((s.ctx t.ctx).saveb + 8 * t.lcore) 8 + 0x150000 + 128 * t.lslot

/-- CSRW of SLICE (10 R260): its writes are performed before the strand's next turn. -/
def sliceEff (v : Nat) (x : Exe) : Eff :=
  let k := x.s.kern x.t.kern
  let wsp := x.t.wsp.toNat
  if !bit v 63 then x.upd { x.t with slice := none }
  else if x.t.engagedNow then .trap { code := 2 }
  else if !k.restart || decide (k.slices ≤ v % 2 ^ 32) then .trap { code := 1 }
  else
    match spillAlign x.t with
    | some c => .trap c
    | none =>
      let r := sitesOf x.s x.t .write (wordsAt wsp x.t.wres)
      match r.2 with
      | .error c => .trap c
      | .ok ws =>
        if ws.any (fun w => w.wb || reachPA r.1 x.t.ctx w.pa != .open) || r.1.writes.any fun w => w.uid == x.u then .wait r.1
        else
          match watchHit r.1 x.t.ctx x.skip wsp (8 * x.t.wres) .write false with
          | some c => .trap { code := 12, sub := c, addr := wsp, acc := 2 }
          | none =>
            let t := { x.t with wsp := x.t.wsp + w64 (8 * x.t.wres), wres := 0, slice := some (v % 2 ^ 32) }
            let t := watchStop r.1 x.t.ctx x.skip wsp (8 * x.t.wres) .write t
            let put (s : State) (p : Site × List Byte) : State := landWrite s x.t.ctx x.u p.1.pa p.2
            let s := (ws.zip (residentWords x.t)).foldl put (r.1.setStrand x.u t)
            .ok (homeWrite s (checkpointOf s x.t) (recordBytes x.t x.t.pc t.wsp.toNat false))

def execSliceWrite (h : Hdr) (rd : Reg) : State → Outcome := csrOp h rd 0x0C csrAcc fun x _ => sliceEff (x.t.reg rd).toNat x

/-- A partition loses what the engine had of a strand; tiles that only it held are LIVE (10 R260). -/
def Part.dropStrand (p : Part) (u : Nat) : Part :=
  let mine := ((p.eq ++ p.streams).filter fun e => e.uid == u && e.heldAt == 2).filterMap fun e => e.kind.tile?
  let others (a : Nat) : Bool := (p.eq ++ p.streams).any fun e => e.uid != u && e.heldAt == 2 && e.kind.tile? == some a
  let q := mine.foldl (fun q a => if others a then q else q.setTile a { q.tile a with st := .live }) p
  { q with eq := q.eq.filter fun e => e.uid != u, streams := q.streams.filter fun e => e.uid != u }

/-- The strand at its checkpoint (10 R260): its claim and its handles stay. -/
def rerunStrand (t : Strand) (b : List Byte) : Strand :=
  { takeRecord t b none with
    ops := [], rep := none, vq := [], vout := none, st := .ready, slice := t.slice, rerunWaits := false
    claims := (t.claims.filter fun c => c.grant != 0 && c.freed.isNone).map fun c => { c with rens := [], owed := [] } }

/-- A drain of a restartable slice has failed its check: the command processor reruns the slice (10 R260), READY at a later turn. -/
def execSliceRerun (core ctx seq : Nat) (s : State) : Outcome :=
  .next (
    match (s.part core ctx).eq.find? fun e => e.seq == seq && e.heldAt == 3 &&
        (match (s.strand e.uid).st with | .ready | .parked _ => true | _ => false) with
    | none => s
    | some e =>
      let t := s.strand e.uid
      let s := { s.mapParts fun p => p.dropStrand e.uid with watches := s.watches.filter fun w => w.uid != e.uid }
      s.setStrand e.uid { rerunStrand t (readBytes s (checkpointOf s t) 128) with turn := slotClock s t + 1 })

end Sys2Proof.Machine
end

