-- ==== Sys2Proof/Machine/Kernel.lean ====
section
/-! DEFINITION. KSIG, KLAUNCH and KEOS (19 R409, R426 to R429). -/

namespace Sys2Proof.Machine
open Sys2Proof

/-- KSIG (19 R427): a release that adds to a word. -/
def execKsig (h : Hdr) (rd ra rb : Reg) : State → Outcome :=
  issue h { len := lenShort, pendingClass := true, refs := [.r rd, .r ra, .r rb] } fun x =>
    let va := (x.t.reg ra).toNat
    match syncCheck x va .both with
    | some c => .trap c
    | none => queueRelease x va .system (.ksig va (x.t.reg rb).toNat) .ksig (x.t.dest rd) []

/-- KLAUNCH (19 R428). -/
def execKlaunch (h : Hdr) (rd ra rb : Reg) : State → Outcome :=
  issue h { len := lenShort, pendingClass := true, refs := [.r rd, .r ra, .r rb] } fun x =>
    let va := (x.t.reg ra).toNat
    if va % 128 ≠ 0 then .trap { code := 6, addr := va, acc := 1 }
    else queueRelease x va .system (.klaunch va ((x.t.reg rb).toNat % 64)) .klaunch (x.t.dest rd) []

/-- KEOS (19 R429): the command processor performs it later. -/
def execKeos (h : Hdr) (rd : Reg) : State → Outcome :=
  issue h { len := lenShort, pendingClass := true, refs := [.r rd] } fun x => x.send .keos .s (x.t.dest rd)

/-- KEOS at the command processor (19 R429). -/
def performKeos (s : State) (u : Nat) (o : Op) : State :=
  let kid := (s.strand u).kern
  if !(s.kern kid).standing then opReturn s u { o with res := [w64 (2 ^ 64 - 1)] }
  else
    let s := passEnd s u
    let s := s.modKern kid fun k => { k with eosStart := if k.eosStart.isNone then some s.cycle else k.eosStart }
    opReturn s u { o with res := [w64 (s.kern kid).eosLeft] }

end Sys2Proof.Machine
end

