-- ==== Sys2Proof/Machine/Admit.lean ====
section
/-! DEFINITION. Taking a launch record, and admission against the reservation calendar (19 R405, R410 to R414, R417, 21
R447 to R452). -/

namespace Sys2Proof.Machine
open Sys2Proof

/-- What a launch asks for on each core of a group (19 R410, R413). -/
structure Need where
  ctx : Nat
  kind : Nat
  span : Nat
  n : Nat
  tiles : Nat
  ow : Nat
  trees : Nat
  nb : Nat
  sz : Nat
  rn : Nat
  ent : Nat
  bws : Nat
  excl : Bool
  image : Bool
  deriving DecidableEq, Repr

/-- A reservation of the calendar on one core (19 R413). -/
structure Resv where
  /-- the kernel and the group that reserve -/
  kern : Nat
  grp : Nat
  ctx : Nat
  core : Nat
  slots : List Nat
  start : Nat
  fin : Nat
  part : Partn
  ent : Nat
  bws : Nat
  excl : Bool
  /-- its kernel has a scratchpad image (01 R35) -/
  image : Bool
  deriving DecidableEq, Repr

/-- The end of an open-ended reservation: past every cycle. -/
def openEnd : Nat := 2 ^ 66

def Kernel.partNb (k : Kernel) : Nat := 16 * k.costLE 27 1
def Kernel.ent (k : Kernel) : Nat := k.costLE 28 1
def Kernel.bws (k : Kernel) : Nat := k.costLE 29 1

/-- The scratchpad image of a kernel's object (01 R35). -/
def Kernel.image (s : State) (k : Kernel) : List Byte :=
  (((s.ctx k.ctx).loaded.find? fun l => l.addr == k.kaddr).map (·.image)).getD []

/-- Do two partitions share anything (10 R230)? -/
def Partn.meets (p q : Partn) : Bool :=
  let clash (a n b m : Nat) : Bool := decide (a < b + m) && decide (b < a + n)
  p.tiles.any q.tiles.contains || p.trees.any q.trees.contains || clash p.ob p.ow q.ob q.ow || clash p.bb p.nb q.bb q.nb ||
    clash p.sb p.sz q.sb q.sz || clash p.rb p.rn q.rb q.rn

/-- Reservations of the groups that have not ended (19 R413, 17 R375); one that outlives its window still holds what it has. -/
def groupResvs (s : State) (kid : Nat) (k : Kernel) (g : Group) : List Resv :=
  g.cores.map fun c =>
    { kern := kid, grp := g.num, ctx := k.ctx, core := c, slots := g.slots, start := g.start,
      fin := if k.standing then openEnd else if g.st == .resident then max (g.start + g.window) (s.cycle + 1) else g.start + g.window,
      part := ((g.plan.find? fun p => p.1 == c).map (·.2)).getD Partn.init,
      ent := k.ent, bws := k.bws, excl := k.det, image := !(Kernel.image s k).isEmpty }
def calendar (s : State) : List Resv :=
  s.kernels.flatMap fun k =>
    if k.2.st == .admitted || k.2.st == .running then
      (k.2.groups.filter fun g => g.st != .ended).flatMap (groupResvs s k.1 k.2)
    else []

def Resv.meets (r : Resv) (t w : Nat) : Bool := decide (r.start < t + w) && decide (t < r.fin)

/-- The lowest multiple of a step at which n units are free below a limit. -/
def placeRun (lim step n : Nat) (used : List (Nat × Nat)) : Option Nat :=
  if n = 0 then some 0
  else
    (firstFrom (lim / step) 0 fun i =>
      decide (i * step + n ≤ lim) && used.all fun u => decide (u.1 + u.2 ≤ i * step) || decide (i * step + n ≤ u.1)).map (· * step)

def placeSome (lim n : Nat) (used : List Nat) : Option (List Nat) :=
  let f := (upto lim).filter fun i => !used.contains i
  if f.length < n then none else some (f.take n)

/-- The whole core as a partition (10 R230, 14 R318, 18 R388). -/
def wholeCore : Partn :=
  { tiles := upto 8, ob := 0, ow := 0x40000, trees := upto 8, bb := 0, nb := 256, sb := 0, sz := 0x60000, rb := 0, rn := 16 }

/-- The partition of a core in a window with a barrier run at bb, the same on every core of a group (18 R388, 19 R419): the context's own
that is there, unless another context has reserved of it in the window, and not beside a group when either has an image (01 R35); the
whole core when no other context is; or the declared
amounts first fit. -/
def planCore (nd : Need) (rs : List Resv) (bb : Nat) : Option Partn :=
  match rs.find? fun r => r.ctx == nd.ctx with
  | some r =>
    let p := r.part
    if nd.tiles ≤ p.tiles.length ∧ nd.ow ≤ p.ow ∧ nd.trees ≤ p.trees.length ∧ nd.nb ≤ p.nb ∧ nd.sz ≤ p.sz ∧ nd.rn ≤ p.rn ∧
        p.bb = bb ∧ (rs.all fun q => q.ctx == nd.ctx || !(q.part.meets p)) = true ∧ (rs.all fun r => r.ctx != nd.ctx || !(nd.image || r.image)) = true then some p
    else none
  | none =>
    if rs.isEmpty then (if bb = 0 then some wholeCore else none)
    else
      let ps := rs.map (·.part)
      match placeSome 8 nd.tiles (ps.flatMap (·.tiles)), placeSome 8 nd.trees (ps.flatMap (·.trees)),
          placeRun 0x40000 0x8000 nd.ow (ps.map fun p => (p.ob, p.ow)), placeRun 0x60000 0x8000 nd.sz (ps.map fun p => (p.sb, p.sz)),
          placeRun 16 1 nd.rn (ps.map fun p => (p.rb, p.rn)) with
      | some ti, some tr, some ob, some sb, some rb =>
        let free := nd.nb == 0 || decide (bb + nd.nb ≤ 256) &&
          ps.all fun p => decide (p.bb + p.nb ≤ bb) || decide (bb + nd.nb ≤ p.bb)
        if free then
          some { tiles := ti, ob := ob, ow := nd.ow, trees := tr, bb := bb, nb := nd.nb, sb := sb, sz := nd.sz, rb := rb, rn := nd.rn }
        else none
      | _, _, _, _, _ => none

/-- May a context be placed on a core at all: the core works, in its world, with a save block (00 R15, 20 R436, 24 R496)? -/
def coreUsable (s : State) (ctx core : Nat) : Bool :=
  bit (cfgLE s (0x40 + core / 8) 1) (core % 8) && cfgBit s core == (s.ctx ctx).secure &&
    readLE s ((s.ctx ctx).saveb + 8 * core) 8 != 0

/-- The most that some reservations take together in any one cycle from t on (19 R413): their sum at t and where each of them begins. -/
def peak (t : Nat) (rs : List Resv) (amount : List Resv → Nat) : Nat :=
  ((t :: (rs.filter fun r => decide (t < r.start)).map (·.start)).map fun i =>
    amount (rs.filter fun r => decide (r.start ≤ i) && decide (i < r.fin))).foldl max 0

/-- Slot-table entries, and slice shares of the groups, that reservations take (19 R413). -/
def entsOf (rs : List Resv) : Nat := (rs.map (·.ent)).foldl (· + ·) 0
def sharesOf (rs : List Resv) : Nat := ((rs.map fun r => (r.kern, r.grp, r.bws)).eraseDups.map fun r => r.2.2).foldl (· + ·) 0

/-- Do some cores have everything a group asks for from t to t + w, cycle by cycle: its slots and partitions (19 R413)? -/
def fitSet (s : State) (rs : List Resv) (nd : Need) (cores : List Nat) (t w : Nat) : Option (List Nat × List (Nat × Partn)) :=
  let live := rs.filter (·.meets t w)
  let on (c : Nat) : List Resv := live.filter fun r => r.core == c
  let same (c : Nat) : List Resv := live.filter fun r => coreCluster r.core == coreCluster c
  let ok := cores.all fun c =>
    coreUsable s nd.ctx c && decide (peak t (on c) entsOf + nd.ent ≤ 64) &&
    (if nd.excl then (same c).isEmpty else !((same c).any (·.excl)))
  let common := (upto 16).filter fun k => cores.all fun c => !((on c).any fun r => r.slots.contains k)
  if !ok || decide (common.length < nd.n) || decide (64 < peak t live sharesOf + nd.bws) then none
  else
    ((upto 16).findSome? fun i => cores.mapM fun c => (planCore nd (on c) (16 * i)).map fun p => (c, p)).map
      fun plan => (common.take nd.n, plan)

/-- The core map (24 R492). -/
def coreMap (s : State) : Nat := cfgLE s 0x40 64

/-- m of some clusters by the fixed function of the core map and a deterministic kernel's group g (19 R423). -/
def detPick (map g : Nat) : Nat → List Nat → List Nat
  | 0, _ => []
  | m + 1, cs =>
    match cs[Config.detPlace map g m % cs.length]? with
    | some c => c :: detPick map g m (cs.filter (· != c))
    | none => []

/-- The same in ascending cluster number, as a span ranks them (17 R373). -/
def detClusters (map g m : Nat) : List Nat := (upto 64).filter (detPick map g m (upto 64)).contains

/-- The lowest-numbered set of cores that fits (19 R413); a span takes the lowest clusters that fit together. -/
def findSet (s : State) (rs : List Resv) (nd : Need) (g t w : Nat) : Option (List Nat × List Nat × List (Nat × Partn)) :=
  let try' (cores : List Nat) := (fitSet s rs nd cores t w).map fun q => (cores, q.1, q.2)
  match nd.excl, nd.kind with
  | true, 0 => try' [Config.detPlace (coreMap s) g 0 % 512]
  | true, 1 => try' ((detClusters (coreMap s) g 1).flatMap clusterCores)
  | true, _ => try' ((detClusters (coreMap s) g nd.span).flatMap clusterCores)
  | false, 0 => (upto 512).findSome? fun c => try' [c]
  | false, 1 => (upto 64).findSome? fun c => try' (clusterCores c)
  | false, _ =>
    let cs := (upto 64).foldl (fun acc c =>
      if acc.length < 8 * nd.span ∧ (fitSet s rs nd (acc ++ clusterCores c) t w).isSome = true then acc ++ clusterCores c
      else acc) []
    if cs.length < 8 * nd.span then none else try' cs

def Group.init (g : Nat) : Group :=
  { num := g, st := .pending, cores := [], start := 0, window := 0, cyc := 0, bytes := 0, thermal := 0, stall := 0, idle := [],
    notes := [], view := [], slots := [], plan := [], ents := [], busy := true, began := none }

/-- The groups of a launch in ascending number, each at its earliest start (19 R413); none is NOFIT. -/
def admitGroups (s : State) (k : Kernel) (nd : Need) (now w : Nat) : Nat → Nat → List Resv → Option (List Group)
  | 0, _, _ => some []
  | n + 1, g, rs =>
    let span := if k.standing then openEnd else w
    let times := (now :: rs.map (·.fin)).filter fun t => decide (now ≤ t) && decide (t + w ≤ now + 2 ^ 32)
    let fits := times.filter fun t => (findSet s rs nd g t span).isSome
    match fits with
    | [] => none
    | t0 :: _ =>
      let t := fits.foldl min t0
      match findSet s rs nd g t span with
      | none => none
      | some q =>
        let grp := { Group.init g with cores := q.1, start := t, window := w, slots := q.2.1, plan := q.2.2 }
        (admitGroups s k nd now w n (g + 1) (groupResvs s s.nextKern k grp ++ rs)).map (grp :: ·)

/-- A cost record that breaks R410. -/
def badCost (k : Kernel) (kind span : Nat) (image : Nat) : Bool :=
  let c (off n : Nat) : Nat := k.costLE off n
  let cores := if kind = 0 then 1 else if kind = 1 then 8 else 8 * span
  c 0 8 == 0 || decide (2 ^ 48 < c 0 8) || decide (2 ^ 48 < c 8 8) || k.width == 0 || decide (k.coords < k.width) ||
  decide (16 ≤ c 24 1) || decide (8 < c 25 1) || decide (8 < fld (c 26 1) 0 4) || decide (8 < fld (c 26 1) 4 4) ||
  decide (16 < c 27 1) || decide (64 < c 28 1) || decide (64 < c 29 1) || decide (12 < c 30 1) || decide (16 < c 31 1) ||
  (k.usesDeques && decide (64 * cores < k.slices)) || (fld (c 26 1) 0 4 == 0) != (c 25 1 == 0) || decide (c 30 1 * 0x8000 < image)

/-- The cycle budget of a group (19 R411). -/
def Kernel.bcyc (k : Kernel) : Nat :=
  (if k.xform != 0 then 1 else k.slices + b2n k.restart) * k.costLE 0 8
def Kernel.bbyte (k : Kernel) : Nat :=
  (if k.xform != 0 then 1 else k.slices + b2n k.restart) * k.costLE 8 8
/-- The window that admission gives (19 R413). -/
def Kernel.win (s : State) (k : Kernel) : Nat := cdiv (k.bcyc * (64 + cfgLE s 13 1)) 64

/-- First fit in the argument heap (19 R405). -/
def heapFit (x : Ctx) (len : Nat) : Option Nat :=
  if x.arglg = 0 then none
  else
    let starts := x.argb :: x.args.map fun a => a.1 + a.2
    let fits := starts.filter fun a => decide (a + len ≤ x.argb + 2 ^ x.arglg) &&
      x.args.all fun b => decide (b.1 + b.2 ≤ a) || decide (a + len ≤ b.1)
    match fits with
    | [] => none
    | a :: _ => some (fits.foldl min a)

/-- Consecutive 8-byte pieces. -/
def words8 (bs : List Byte) : List (List Byte) := (upto (cdiv bs.length 8)).map fun i => (bs.drop (8 * i)).take 8

/-- Do n bytes translate for writing by the command processor (19 R417)? -/
def cpWritable (s : State) (ctx va n : Nat) : Bool :=
  (sectorPieces va n).all fun p => match checkLeaf s ctx p.1 .write true (walk s ctx p.1) with | .ok _ => true | .error _ => false

/-- Does a launch record break R451 (and, for a transform, its control block R454)? -/
def badRec (r : List Byte) : Bool :=
  let f (off n : Nat) : Nat := recLE r off n
  f 96 24 != 0 || decide (4096 < f 2 2) || f 16 8 % 64 != 0 || f 24 8 % 32 != 0 || f 48 8 % 8 != 0 || f 40 8 % 8 != 0 ||
  (match f 0 1 with
  | 1 => f 1 1 != 0 || f 4 4 == 0
  | 2 => f 1 1 == 0 || decide (4 < f 1 1) || f 2 2 != 0 || decide (3 < f 4 4) || f 8 8 % 64 != 0 || f 120 8 != 0 || f 80 16 != 0
  | _ => true)

/-- A transform's control block (21 R454). -/
def badXform (kind : Nat) (b : List Byte) : Bool :=
  recLE b 48 16 != 0 || recLE b 24 8 / 2 ^ 14 != 0 || (kind == 4 && recLE b 40 8 != 0)

/-- The kernel that a record describes, before admission. -/
def kernelOf (ctx : Nat) (r : List Byte) : Kernel :=
  { Kernel.init with
    ctx := ctx, kaddr := recLE r 120 8, cost := (r.drop 64).take 32, g := recLE r 4 4, argn := recLE r 2 2,
    adma := recLE r 16 8, cmpa := recLE r 24 8, siga := recLE r 48 8, sigv := recLE r 56 8, par := recLE r 8 8,
    xform := if recLE r 0 1 = 2 then recLE r 1 1 else 0 }

/-- What admission answers: the kernel as accepted, or a refusal code (19 R414, 21 R451). -/
def admitKernel (s : State) (k : Kernel) (r : List Byte) (argv : Option Nat) : Except Nat Kernel :=
  let deadl := recLE r 32 8
  let late (t : Nat) : Bool := deadl != 0 && decide (deadl < t)
  let w := Kernel.win s k
  if k.xform ≠ 0 then
    let tp := s.cycle + w + 65536
    if k.costLE 0 8 = 0 ∨ 2 ^ 48 < k.costLE 0 8 ∨ 2 ^ 48 < k.costLE 8 8 then .error 1
    else if late tp then .error 3
    else .ok { k with st := .admitted, tprom := tp, groups := [{ Group.init 0 with start := s.cycle, window := w }] }
  else
    match (s.ctx k.ctx).loaded.find? fun l => l.addr == k.kaddr with
    | none => .error 4
    | some l =>
      if k.det && l.noise && (s.ctx k.ctx).nlogMode != 2 then .error 4
      else if badCost k l.kind l.span l.image.length then .error 1
      else
        let nd : Need :=
          { ctx := k.ctx, kind := l.kind, span := l.span, n := l.strands, tiles := fld (k.costLE 26 1) 0 4,
            ow := 0x8000 * k.costLE 25 1, trees := fld (k.costLE 26 1) 4 4, nb := k.partNb, sz := 0x8000 * k.costLE 30 1,
            rn := k.costLE 31 1, ent := k.ent, bws := k.bws, excl := k.det, image := !l.image.isEmpty }
        match admitGroups s k nd s.cycle w k.g 0 (calendar s) with
        | none => .error 2
        | some gs =>
          let tp := if k.standing then 0 else (gs.map fun g => g.start + g.window).foldl max 0 + 65536
          if late tp then .error 3
          else
            let per := if l.kind = 0 then 1 else if l.kind = 1 then 8 else 8 * l.span
            .ok { k with st := .admitted, kind := l.kind, span := l.span, strands := l.strands, argv := argv.getD 0,
                         tprom := tp, groups := gs, eosLeft := if k.standing then k.g * per * l.strands else 0 }

/-- The admission record, its start table first and its word 0 last (21 R452). -/
def writeAdmission (s : State) (k : Kernel) (code ta : Nat) : Option State :=
  let ok := code == 0
  let body := leBytes 8 ta ++ leBytes 8 (if ok then k.tprom else 0) ++ leBytes 8 0 ++
    leBytes 8 (if ok && k.det then Config.detLatency k.kaddr else 0) ++ leBytes 8 (if ok then k.argv else 0) ++ leBytes 16 0
  let table := if ok then k.groups.flatMap fun g => leBytes 8 g.start else []
  match cpWrite s k.ctx (k.adma + 64) (words8 table) with
  | none => none
  | some s =>
    match cpWrite s k.ctx (k.adma + 8) (words8 body) with
    | none => none
    | some s => cpRelease s k.ctx k.adma (if ok then 1 else 2 + code * 2 ^ 8)

/-- Arguments copied at admission (19 R405): the state with the copy, and its address; none is NOMEM. -/
def copyArgs (s : State) (k : Kernel) : Option (State × Option Nat) :=
  if k.argn = 0 then some (s, none)
  else
    let len := cdiv k.argn 64 * 64
    match readVA s k.ctx (sectorPieces k.par k.argn), heapFit (s.ctx k.ctx) len with
    | .ok bs, some a =>
      (match cpWrite s k.ctx a (words8 bs) with
      | some s => some (s.modCtx k.ctx fun x => { x with args := x.args ++ [(a, len)] }, some a)
      | none => none)
    | _, _ => none

/-- Space of an argument copy goes back to the heap (19 R405). -/
def freeArgs (s : State) (ctx argv : Nat) : State :=
  s.modCtx ctx fun x => { x with args := x.args.filter fun a => a.1 != argv }

/-- The argument copy of a kernel that ends: one without arguments has none (19 R405). -/
def freeCopy (s : State) (k : Kernel) : State := if k.argn = 0 then s else freeArgs s k.ctx k.argv

/-- Refusal of a record, or its acceptance as a kernel (19 R414, 21 R450). An ADMA that is not aligned breaks the table (21 R451): the refusal
is written there if it is a multiple of 8, and is reported otherwise (log entry 59). -/
def admitRecord (s : State) (ctx : Nat) (r : List Byte) : State :=
  let k := kernelOf ctx r
  let lost (s : State) : State := report s 8 ctx 33 0xFF 0xFFFF k.adma
  let refuse (s : State) (code : Nat) : State := (writeAdmission s k code s.cycle).getD (lost s)
  if k.adma % 8 ≠ 0 ∨ cpWritable s ctx k.adma 64 = false then lost s
  else if k.adma % 64 ≠ 0 ∨ badRec r = true then refuse s 5
  else
    let cb := if k.xform = 0 then .ok [] else readVA s ctx (sectorPieces k.par 64)
    match cb with
    | .error _ => refuse (logVA s ctx (sectorPieces k.par 64)) 6
    | .ok b =>
      if k.xform ≠ 0 ∧ badXform k.xform b = true then refuse s 5
      else if !cpWritable s ctx k.cmpa 32 then refuse s 6
      else
        match copyArgs s k with
        | none => refuse (if k.argn = 0 then s else logVA s ctx (sectorPieces k.par k.argn)) 6
        | some (s1, argv) =>
          match admitKernel s1 k r argv with
          | .error c => refuse (match argv with | some a => freeArgs s1 ctx a | none => s1) c
          | .ok k' =>
            match writeAdmission s1 k' 0 s.cycle with
            | none => lost (match argv with | some a => freeArgs s1 ctx a | none => s1)
            | some s2 => ({ s2 with nextKern := s2.nextKern + 1 }.setKern s2.nextKern k').modCtx ctx fun x => { x with st := .active }

/-- Where a dependency counter lies (21 R450). -/
def depSite (s : State) (ctx depa : Nat) : Option Nat :=
  match checkLeaf s ctx depa .read true (walk s ctx depa) with | .ok x => some x.pa | .error _ => none

/-- Does a record wait for its dependency counter (21 R450)? It is read as an acquire at SYSTEM scope, which has to reach its releaser. -/
def depWaits (s : State) (ctx depa : Nat) : Bool :=
  depa != 0 && depa % 8 == 0 && (match cpRead s ctx depa 8, depSite s ctx depa with
    | some v, some pa => decide (0 < sgn 64 v) || tagMiss (tagOf s pa) cpParty .system
    | _, _ => true)

/-- That acquire finds itself outside the releaser's scope: a scope miss goes to the releaser, once (08 R194). -/
def depMiss (s : State) (ctx depa : Nat) : State :=
  match depSite s ctx depa with
  | none => s
  | some pa =>
    let tag := tagOf s pa
    let a := fld tag 3 10
    let m : ScopeMiss := ⟨ctx, a, pa, jointScope a cpParty⟩
    if depa % 8 = 0 ∧ tagMiss tag cpParty .system = true ∧ a < 512 ∧ (s.core a).misses.contains m = false ∧ (s.core a).misses.length < 16 then
      s.modCore a fun k => { k with misses := k.misses ++ [m] }
    else s

/-- Does the admission of a record wait for a write-blocked page (07 R181): of its admission record, or of the copy of its arguments? -/
def admitHeld (s : State) (ctx : Nat) (r : List Byte) : Bool :=
  let k := kernelOf ctx r
  cpHeld s ctx k.adma (64 + 8 * k.g) || k.argn != 0 && (match heapFit (s.ctx ctx) (cdiv k.argn 64 * 64) with
    | some a => cpHeld s ctx a k.argn
    | none => false)

/-- Records posted to a queue (21 R449): a device queue's by KLAUNCH alone, a host queue's by its write index. -/
def postedAt (s : State) (ctx qn blk : Nat) : Nat :=
  if readLE s (blk + 33) 1 = 2 then tget 0 (s.ctx ctx).posted qn else readLE s (blk + 16) 8

/-- A record that cannot be read whole (21 R451): where its ADMA can be read, and aligned, it is refused with NOMEM; otherwise it is
reported. -/
def recordFault (s : State) (ctx va : Nat) : State :=
  let rest := report s 5 ctx 33 0xFF 0xFFFF va
  match readVA s ctx [(va + 16, 8)] with
  | .error _ => rest
  | .ok b =>
    let k := { Kernel.init with ctx := ctx, adma := leNat b }
    if k.adma % 64 ≠ 0 then rest
    else if !cpWritable s ctx k.adma 64 then report s 8 ctx 33 0xFF 0xFFFF k.adma
    else (writeAdmission s k 6 s.cycle).getD (report s 8 ctx 33 0xFF 0xFFFF k.adma)

/-- The command processor takes the next posted record of a queue (21 R449 to R451). -/
def execQueueTake (ctx qn : Nat) (s : State) : Outcome :=
  .next (
    match if (s.ctx ctx).live then tget? (s.ctx ctx).queues qn else none with
    | none => s
    | some blk =>
      let wi := postedAt s ctx qn blk
      let ri := readLE s (blk + 24) 8
      let va := readLE s blk 8 + 128 * (ri % 2 ^ readLE s (blk + 32) 1)
      let adv (s : State) : State := releaseWrite s (blk + 24) ((ri + 1) % 2 ^ 64) (mkTag .system cpParty)
      if wi ≤ ri then s
      else
        match readVA s ctx (sectorPieces va 128) with
        | .error _ => adv (recordFault (logVA s ctx (sectorPieces va 128)) ctx va)
        | .ok r =>
          if depWaits s ctx (recLE r 40 8) then depMiss s ctx (recLE r 40 8)
          else if admitHeld s ctx r then s else adv (admitRecord s ctx r))

end Sys2Proof.Machine
end

