-- ==== Sys2Proof/Machine/Port.lean ====
section
/-! DEFINITION. Neighbour ports (15 R330 to R345). -/

namespace Sys2Proof.Machine
open Sys2Proof

/-- The incoming queue in which a bearing's values land (15 R330). -/
def opposite (b : Nat) : Nat := match b with | 0 => 1 | 1 => 0 | 2 => 3 | 3 => 2 | 4 => 5 | _ => 4

/-- The logical position that a bearing reaches, if the grid has it (15 R330). -/
def reached (core slot b : Nat) : Option (Nat × Nat) :=
  match b with
  | 0 => if coreCol core = 31 then none else some (core + 1, slot)
  | 1 => if coreCol core = 0 then none else some (core - 1, slot)
  | 2 => if coreRow core = 0 then none else some (core - 32, slot)
  | 3 => if coreRow core = 15 then none else some (core + 32, slot)
  | 4 => some (core, (slot + 1) % 16)
  | _ => some (core, (slot + 15) % 16)

/-- The strand of a group at a logical position; it stays a member when it has ended (15 R331). -/
def strandAt (kern grp core slot : Nat) : Table Strand → Option Nat
  | [] => none
  | (u, t) :: m =>
    if t.kern = kern ∧ t.grp = grp ∧ t.lcore = core ∧ t.lslot = slot then some u else strandAt kern grp core slot m

def memberOf (s : State) (t : Strand) (b : Nat) : Option Nat :=
  match reached t.lcore t.lslot b with
  | none => none
  | some q => strandAt t.kern t.grp q.1 q.2 s.strands

def Strand.port (t : Strand) (b : Nat) : Port := tget Port.init t.ports b
def Strand.setPort (t : Strand) (b : Nat) (p : Port) : Strand := { t with ports := tput t.ports b p }

/-- PPUSH and PEOS (15 R336): the edge, a closed bearing, the wait for a credit, and the send. -/
def pushEff (x : Exe) (b : Nat) (tok : Bool) (v : Word) : Eff :=
  let p := x.t.port b
  match memberOf x.s x.t b with
  | none => if p.sink then .ok x.s else .trap { code := 20 }
  | some m =>
    if p.closed then .ok x.s
    else if p.credit = 0 then .wait (x.s.setStrand x.u { x.t with portWait := some b })
    else
      let msg : PortMsg := ⟨x.u, b, m, opposite b, tok, v⟩
      .ok ({ x.s with pushes := x.s.pushes ++ [msg] }.setStrand x.u
        (x.t.setPort b { p with credit := p.credit - 1 }))

def execPpush (h : Hdr) (b : Bearing) (rd : Reg) : State → Outcome :=
  issue h { len := lenShort, refs := [.r rd] } fun x => pushEff x b.code false (x.t.reg rd)
def execPeos (h : Hdr) (b : Bearing) : State → Outcome :=
  issue h { len := lenShort } fun x => pushEff x b.code true 0

/-- Results of a queue read by destination: the value in a register, the token flag in a predicate bit (15 R337). -/
def popRes (dests : List Loc) (tok : Bool) (v : Word) : List Word :=
  dests.map fun l => match l with | .pred _ => w64 (b2n tok) | _ => if tok then 0 else v

/-- PPOP and PPEEK (15 R337): without a member a sink reads as an end token at once. -/
def popEff (x : Exe) (b : Nat) (rd : Reg) (cd : Pr) (kind : OpKind) : Eff :=
  let ds := x.t.dest rd ++ (match predLoc cd.val with | some l => [l] | none => [])
  let t := x.t.send kind .p x.pc x.len x.s.steps ds
  match memberOf x.s x.t b with
  | some _ => x.upd t
  | none =>
    if (x.t.port b).sink then
      let s := x.s.setStrand x.u t
      .ok (match s.op x.u x.t.nextOp with | some o => opReturn s x.u { o with res := popRes ds true 0 } | none => s)
    else .trap { code := 20 }

def execPpop (h : Hdr) (b : Bearing) (rd : Reg) (cd : Pr) : State → Outcome :=
  issue h { len := lenShort, pendingClass := true, refs := [.r rd, .p cd] } fun x => popEff x b.code rd cd (.pop b.code)
def execPpeek (h : Hdr) (b : Bearing) (rd : Reg) (cd : Pr) : State → Outcome :=
  issue h { len := lenShort, pendingClass := true, refs := [.r rd, .p cd] } fun x => popEff x b.code rd cd (.peek b.code)

/-- Entries of a queue that outstanding PPOPs have claimed (15 R337, R338). -/
def Strand.claimed (t : Strand) (b : Nat) : Nat :=
  min (t.port b).q.length (t.ops.filter fun o => o.kind == .pop b && o.phase == .sent).length

/-- PCOUNT (15 R338). -/
def execPcount (h : Hdr) (b : Bearing) (rd : Reg) : State → Outcome :=
  issue h { len := lenShort, refs := [.r rd] } fun x =>
    let p := x.t.port b.code
    let k := x.t.claimed b.code
    let tok := match p.q[k]? with | some e => e.1 | none => false
    x.upd (x.t.setReg rd (w64 ((p.q.length - k) + b2n tok * 2 ^ 4 + p.credit * 2 ^ 8 +
      b2n (memberOf x.s x.t b.code).isSome * 2 ^ 12 + b2n p.sink * 2 ^ 13 + b2n p.closed * 2 ^ 14)))

/-- The credit of an entry that has left a queue goes back to its source (15 R333). -/
def giveCredits (s : State) (t : Strand) (b n : Nat) : State :=
  match memberOf s t b with
  | some m => { s with credits := s.credits ++ List.replicate n (m, opposite b) }
  | none => s

/-- A PPOP or PPEEK that has its entry returns (15 R337): reads of one queue in issue order. -/
def portReturn (s : State) (u : Nat) (o : Op) (b : Nat) (take : Bool) : State :=
  let t := s.strand u
  let p := t.port b
  if (t.ops.takeWhile fun x => x.id != o.id).any fun x => x.kind == .pop b || x.kind == .peek b then s
  else
    match p.q with
    | [] => s
    | e :: rest =>
      let s := if take then (giveCredits s t b 1).setStrand u (t.setPort b { p with q := rest }) else s
      opReturn s u { o with res := popRes o.dests e.1 e.2 }

/-- The reads of a queue that have their entries return: they do so before the strand's next turn (15 R337). -/
def settleReads (s : State) (u b : Nat) : State :=
  (s.strand u).ops.foldl (fun s o =>
    if o.phase = .sent ∧ o.kind = .pop b then portReturn s u o b true
    else if o.phase = .sent ∧ o.kind = .peek b then portReturn s u o b false else s) s

/-- PCONF (15 R339): DRAIN discards what has landed and is not claimed; reads that have their entry have taken it by then. -/
def execPconf (h : Hdr) (b : Bearing) (rd : Reg) : State → Outcome :=
  issue h { len := lenShort, refs := [.r rd] } fun x =>
    let w := (x.t.reg rd).toNat
    let s := settleReads x.s x.u b.code
    let t := s.strand x.u
    let p := t.port b.code
    let q := if bit w 0 then [] else p.q
    .ok ((giveCredits s t b.code (p.q.length - q.length)).setStrand x.u (t.setPort b.code { p with q := q, sink := bit w 1 }))

/-- What a port message does when it reaches its strand (15 R332, R333, R340): a value or an end token, a credit, or a
CLOSED notice. What a strand waits for before a push makes it ready from the next cycle on (04 R94). -/
def landPort (s : State) (u b what : Nat) (v : Word) : State :=
  let t := s.strand u
  let p := t.port b
  if what = 3 then s.setStrand u { t.setPort b { p with closed := true } with turn := if t.portWait = some b then slotClock s t + 1 else t.turn }
  else if what = 2 then
    if p.closed then s
    else s.setStrand u { t.setPort b { p with credit := min 8 (p.credit + 1) } with turn := if t.portWait = some b then slotClock s t + 1 else t.turn }
  else if t.st == .ended then s
  else s.setStrand u (t.setPort b { p with q := p.q ++ [(what == 1, v)] })

/-- A port message at the core of its strand: delivered, diverted, or kept waiting (15 R344, 20 R439). -/
def sendPort (s : State) (u b what : Nat) (v : Word) : Option State :=
  let t := s.strand u
  if t.st == .ended then some (landPort s u b what v)
  else
    match reach s t.pcore t.ctx with
    | .open => some (landPort s u b what v)
    | .wait => none
    | .divert => if spillRoom s t.ctx then some (divert s t.ctx t.pcore (.port u b what v)) else none

/-- Message i of the channel lands, behind the earlier ones of its queue (15 R334). -/
def execPortValueLand (i : Nat) (s : State) : Outcome :=
  .next (
    match s.pushes[i]? with
    | none => s
    | some m =>
      if (s.pushes.take i).any fun x => x.dst == m.dst && x.into == m.into then s
      else (sendPort { s with pushes := ldel s.pushes i } m.dst m.into (b2n m.tok) m.v).getD s)

def execPortCreditReturn (i : Nat) (s : State) : Outcome :=
  .next (
    match s.credits[i]? with
    | none => s
    | some c => (sendPort { s with credits := ldel s.credits i } c.1 c.2 2 0).getD s)

/-- The strand that a bearing reaches has ended (15 R340); the notice travels behind the credits that it gave back (log entry 18). -/
def execPortClosedNotice (uid b : Nat) (s : State) : Outcome :=
  .next (
    let t := s.strand uid
    let sent := s.ctxs.any fun x => (x.2.spill ++ x.2.refused).any fun e => e.2 == .port uid b 3 0
    match memberOf s t b with
    | none => s
    | some m =>
      if (s.strand m).st != .ended || t.st == .ended || 6 ≤ b || (t.port b).closed || sent || s.credits.contains (uid, b) then s
      else (sendPort s uid b 3 0).getD s)

/-- Can an unreturned read of a close return now (15 R343)? -/
def readReady (t : Strand) (o : Op) : Bool :=
  match o.kind with
  | .pop b | .peek b =>
    !((t.ops.takeWhile fun x => x.id != o.id).any fun x => x.kind == .pop b || x.kind == .peek b) && !(t.port b).q.isEmpty
  | _ => true

def Op.isPortRead (o : Op) : Bool := match o.kind with | .pop _ | .peek _ => true | _ => false

/-- Is a strand port-parked (15 R343)? -/
def portParked (t : Strand) : Bool :=
  match t.st with
  | .parked _ =>
    if t.close.isSome then
      let ops := t.ops.filter Op.waits
      !ops.isEmpty && ops.all Op.isPortRead && !(ops.any (readReady t))
    else t.portWait.isSome && !portOpen t
  | _ => false

/-- The stall counters over dt cycles (15 R343). -/
def stallOf (s : State) (kid dt : Nat) (g : Group) : Group :=
  let us := groupStrands s kid g.num
  if g.st == .resident && !us.isEmpty && us.all (fun u => portParked (s.strand u)) &&
      !(s.strands.any fun q => q.2.kern == kid && q.2.grp == g.num && s.off q.2.pcore q.2.ctx) then { g with stall := g.stall + dt }
  else { g with stall := 0 }

/-- PORT_DEADLOCK to one member (15 R343): precise before a push, else the earliest unreturned read of its close faults, and the close
delivers its earliest fault (04 R102). -/
def deadlockAt (s : State) (u : Nat) : State :=
  let t := s.strand u
  let c : Cause := { code := 21 }
  if !portParked t then s else
  match t.close with
  | some (resume, _) =>
    (match t.ops.find? Op.waits with
    | some o =>
      let s := s.setOp u { o with phase := .faulted, cause := c }
      (match firstFault (s.strand u) with | some f => deliver s u f resume | none => s)
    | none => s)
  | none => trapAt s u t.pc lenShort c

/-- The counter of a group has reached its limit (15 R343): the passing of the cycle in which it does delivers the cause. -/
def portDeadlock (s : State) (kern grp : Nat) : State :=
  let k := s.kern kern
  let lim := (s.ctx k.ctx).pstall
  match k.groups.find? fun g => g.num == grp with
  | none => s
  | some g =>
    if lim = 0 ∨ g.stall < lim then s
    else
      let us := (groupStrands s kern grp).filter fun u => portParked (s.strand u)
      us.foldl deadlockAt
        (s.setKern kern { k with groups := k.groups.map fun g => if g.num = grp then { g with stall := 0 } else g })
def execPortDeadlock (kern grp : Nat) (s : State) : Outcome := .next (portDeadlock s kern grp)

end Sys2Proof.Machine
end

