-- ==== Sys2Proof/Machine/Trace.lean ====
section
/-! DEFINITION. Samples, the trace FIFOs and the trace lanes (25 R505 to R507). -/

namespace Sys2Proof.Machine
open Sys2Proof

/-- The GAP record of a die enters its FIFO when there is space (25 R507). -/
def fillGap (s : State) (die : Nat) : State :=
  let fifo := tget [] s.traces die
  let drop := tget 0 s.traceDrop die
  if drop = 0 ∨ 4096 ≤ fifo.length then s
  else { s with traces := tput s.traces die (fifo ++ [traceBytes s.cycle 0 0 15 drop]), traceDrop := tput s.traceDrop die 0 }

/-- The FIFOs feed the lanes in turn: n records leave (25 R507). -/
def drainTrace : Nat → State → State
  | 0, s => s
  | n + 1, s =>
    match ((upto 4).map fun i => (s.traceTurn + i) % 4).find? fun d => !(tget [] s.traces d).isEmpty with
    | none => s
    | some d =>
      drainTrace n (fillGap { s with traces := tput s.traces d ((tget [] s.traces d).drop 1), traceTurn := (d + 1) % 4 } d)

/-- What the lanes carry in dt cycles: two records in three cycles, none while the capture unit pushes back (25 R507). -/
def traceLanes (s : State) (dt : Nat) : State :=
  if s.pushback ∨ s.traces = [] then s
  else drainTrace (min (2 * (s.cycle + dt) / 3 - 2 * s.cycle / 3) (4 * 4097)) s

/-- A context's sample on a core (25 R505): every SAMP cycles of its placement there, once; a record where the slot offered issue in this
cycle holds a strand of it. -/
def samplePart (s : State) (p : Part) : State :=
  let samp := (s.ctx p.ctx).samp
  let slot := s.cycle % 16
  if p.st != .placed || samp == 0 || (s.cycle - p.since) % samp != 0 || s.cycle == p.since || p.sampled == s.cycle then s
  else
    let s := s.setPart p.core p.ctx { p with sampled := s.cycle }
    match s.strands.find? fun t => inSlot t.2 p.core slot && t.2.ctx == p.ctx && (match t.2.st with | .saved _ _ _ => false | _ => true) with
    | none => s
    | some t => traceRec s p.core slot 1 1 t.2.pc

/-- The samples of a core, or of every core, that are due (25 R505). -/
def takeSamples (s : State) (at' : Nat → Bool) : State :=
  (s.parts.filter fun p => at' p.2.core).foldl (fun s p => samplePart s (s.part p.2.core p.2.ctx)) s

/-- A sample of a core (25 R505). -/
def execSample (core : Nat) (s : State) : Outcome := .next (takeSamples s (· == core))

/-- The capture unit pushes back, or stops pushing back (25 R507). -/
def execTracePushback (s : State) : Outcome := .next { s with pushback := true }
def execTracePushbackRelease (s : State) : Outcome :=
  .next ((upto 4).foldl fillGap { s with pushback := false })

end Sys2Proof.Machine
end

