-- ==== Sys2Proof/Machine/Place.lean ====
section
/-! DEFINITION. Placement, budgets, completion and promises of groups and kernels (17 R373 to R379, 19 R405, R411 to R420),
and what the passing of time does to them (15 R343, 19 R412, R422). -/

namespace Sys2Proof.Machine
open Sys2Proof

def Group.planOn (g : Group) (c : Nat) : Partn := ((g.plan.find? fun p => p.1 == c).map (·.2)).getD Partn.init

/-- Are the reserved slots, partition items and deques of a group free on a core (17 R375, 19 R420)? What the context itself holds there
is the partition that the group has reserved, and no other group of it runs beside an image (01 R35). -/
def coreFree (s : State) (k : Kernel) (g : Group) (c : Nat) : Bool :=
  let here := (s.parts.filter fun p => p.2.core == c && p.2.st != .none && p.2.st != .saved).map (·.2)
  !s.off c k.ctx && (here.all fun p => p.st == .placed) &&
  (g.slots.all fun i => (s.slotStrand c i).isNone) &&
  (if (s.part c k.ctx).st == .none then here.all fun p => !(p.partn.meets (g.planOn c))
   else (s.part c k.ctx).partn == g.planOn c) &&
  ((Kernel.image s k).isEmpty || !ctxOnCore s k.ctx c) &&
  (!k.usesDeques || here.all fun p => p.deqGrp.isNone)

/-- A partition newly given to a context: every byte and tile of it is zero (10 R230). -/
def newPart (s : State) (ctx c : Nat) (p : Partn) : State :=
  let lo := winBase + c * winSize + p.sb
  let s := { s with mem := s.mem.filter fun m => !(decide (lo ≤ m.1) && decide (m.1 < lo + p.sz))
                    poison := s.poison.filter fun a => !inPartn c p a }
  let s := s.modCore c fun k =>
    { k with ptiles := k.ptiles.filter fun t => !p.tiles.contains t.1, binds := tput k.binds ctx (s.ctx ctx).binds }
  s.setPart c ctx { Part.init ctx c with st := .placed, partn := p, since := s.cycle }

/-- A slot that thermal control had disabled is enabled for the group, and the core freezes instead (19 R421). -/
def enableSlots (k : CoreSt) (slots : List Nat) : CoreSt :=
  if slots.any (bit k.disabled) then
    { k with disabled := slots.foldl (fun d i => setFld d i 1 0) k.disabled, frozen := min 7 (k.frozen + 1) }
  else k

/-- The slices that a group's core of ordinal o gets, oldest first (17 R379). -/
def slicesFor (k : Kernel) (m o : Nat) : List Nat :=
  ((upto k.slices).filter fun j => j % m == o).map fun j =>
    rangeOf (j * k.width) (min k.coords ((j + 1) * k.width))

/-- Group index of the strand of slot rank j on the core of ordinal o (17 R374). -/
def groupIndex (k : Kernel) (n o j : Nat) : Nat := if k.kind = 0 then j else 8 * n * (o / 8) + 8 * j + o % 8

/-- The strand of a group at a core and slot, as at its first turn (04 R95, 19 R405, 20 R430). -/
def freshStrand (s : State) (k : Kernel) (kid g idx core slot : Nat) : Strand :=
  let x := s.ctx k.ctx
  { Strand.init with
    ctx := k.ctx, kern := kid, grp := g, index := idx, lcore := core, lslot := slot, pcore := core, pslot := slot,
    st := .ready, pc := k.kaddr, phys := [(0, w64 idx), (1, w64 k.argv)], wsp := w64 (x.wspb + (16 * core + slot) * 2 ^ x.wsplg),
    dseed := x.seed }

/-- One core of a group: its partition, image, deque, slot-table entries and strands (17 R376, 19 R419). Its lines of the context end, so that
what has been published to the command processor is to the strands (21 R450). -/
def placeCore (s : State) (k : Kernel) (kid : Nat) (g : Group) (o c : Nat) : State :=
  let s := if (s.part c k.ctx).st == .none then newPart s k.ctx c (g.planOn c) else s
  let s := rawWrite s (spadPA s c k.ctx 0) (Kernel.image s k)
  let s := if k.usesDeques then s.modPart c k.ctx fun p =>
      { p with deque := slicesFor k g.cores.length o, deqGrp := some (kid * 2 ^ 32 + g.num) } else s
  let es := ((upto 64).filter fun e => !bit (tget 0 (s.core c).stab e) 15).take k.ent
  let s := s.modCore c fun q => enableSlots { q with stab := es.foldl (fun m e => tput m e (k.ctx + 2 ^ 15)) q.stab
                                                     rbuf := q.rbuf.filter fun l => l.ctx != k.ctx } g.slots
  let s := modGroup s kid g.num fun g =>
    { g with ents := g.ents ++ es.map (fun e => (c, e)), view := if k.usesDeques ∧ slicesFor k g.cores.length o ≠ [] then g.view ++ [c] else g.view }
  (g.slots.zip (upto g.slots.length)).foldl (fun s q =>
    { s with nextUid := s.nextUid + 1 }.setStrand s.nextUid
      (freshStrand s k kid g.num (groupIndex k g.slots.length o q.2) c q.1)) s

/-- The cycle by which a kernel's groups are placed and counted: the package's, or that of the common sequence, which begins with the start of
its first group. -/
def Kernel.clock (s : State) (k : Kernel) : Nat :=
  if k.lockstep then (k.groups.map (·.start)).min?.getD 0 + k.detCyc else s.cycle

/-- May a group's placement begin: it is the next of its kernel, and what it reserved is free (19 R420)? -/
def placeable (s : State) (k : Kernel) (g : Group) : Bool :=
  let first (h : Group) : Bool := decide (h.start < g.start) || h.start == g.start && decide (h.num < g.num)
  g.st == .pending && k.xform == 0 && (k.st == .admitted || k.st == .running) &&
    !(k.groups.any fun h => h.st == .pending && first h) && g.cores.all (coreFree s k g)

/-- Placement of a group at or after its start (19 R419, R420); it counts from the cycle in which its placement began (R412). -/
def execGroupPlacement (kern grp : Nat) (s : State) : Outcome :=
  .next (
    let k := s.kern kern
    match k.groups.find? fun g => g.num == grp with
    | none => s
    | some g =>
      let now := Kernel.clock s k
      if !placeable s k g || decide (now < g.start) then s
      else
        let s := (g.cores.zip (upto g.cores.length)).foldl (fun s q => placeCore s k kern g q.2 q.1) s
        let s := modGroup s kern grp fun g =>
          { g with st := .resident, cyc := if g.began.isSome then g.cyc else 1, began := some (g.began.getD now) }
        s.modKern kern fun k =>
          { k with st := .running, detFree := if k.st = .running then k.detFree else 2 ^ 64 * (k.kaddr + 1) })

/-- Is a group over its budget (19 R411, R412): resident, or being placed? A transform is held to its own (21 R454). -/
def overBudget (k : Kernel) (g : Group) : Bool :=
  (k.st == .admitted || k.st == .running) && (g.st == .resident || g.st == .pending && g.began.isSome || k.xform != 0) &&
    (decide (k.bcyc < g.cyc) || decide (k.bbyte < g.bytes))

/-- A group that is over its budget ends its kernel (19 R415). -/
def overrun (s : State) (kern grp : Nat) : State :=
  let k := s.kern kern
  match k.groups.find? fun g => g.num == grp with
  | none => s
  | some g => if overBudget k g then abortKernel s kern 31 grp else s

def execOverrun (kern grp : Nat) (s : State) : Outcome := .next (overrun s kern grp)

/-- Every kernel that is over a budget is ended, in the cycle in which the excess is counted (19 R415). -/
def overrunAll (s : State) : State :=
  s.kernels.foldl (fun s k => k.2.groups.foldl (fun s g => if overBudget k.2 g then overrun s k.1 g.num else s) s) s

/-- KSIG's effect by the command processor (19 R427, 21 R453): on a word that may be a sync word (08 R184) and can be read and written; none
where it waits for a write-blocked page (07 R181), or for the window of a pre-empted core (20 R439). -/
def cpSignal (s : State) (ctx va v : Nat) : Option State :=
  if va = 0 then some s
  else
    match checkLeaf s ctx va .both true (walk s ctx va) with
    | .error _ => some s
    | .ok x =>
      if !syncHome s x.pa then some s
      else if x.wb || reachPA s ctx x.pa != .open then none
      else
        let ro := match homeOf s x.pa with
          | .window c off => (winCheck s ctx c off true).isSome || (match regionOf off with | .spad _ => false | _ => true)
          | _ => false
        match homeRead s ctx x.pa 8 with
        | .ok b => some (if ro then s else releaseWrite s x.pa ((leNat b + v) % 2 ^ 64) (mkTag .system cpParty))
        | .error k => some (if k = 10 then logBad s x.pa else s)

/-- The completion signal of a kernel that is COMPLETE, once (21 R453). -/
def paySignal (s : State) (kern : Nat) : State :=
  let k := s.kern kern
  match cpSignal s k.ctx k.siga k.sigv with
  | some s' => s'.modKern kern fun k => { k with sigOwed := false }
  | none => s.modKern kern fun k => { k with sigOwed := true }

/-- Are a kernel's writes performed, as the release work of its completion asks (19 R417): on every core that ran it, those to which its
strands were displaced among them? -/
def kernelPublished (s : State) (kid : Nat) : Bool :=
  let mine (u : Nat) : Bool := (s.strand u).kern == kid
  let cores := ((s.kern kid).groups.flatMap (·.cores) ++ (s.strands.filter fun t => t.2.kern == kid).map fun t => t.2.pcore).eraseDups
  cores.all (fun c => releaseWorkDone s c .system && !((s.core c).relq.any fun r => mine r.uid)) &&
    !(s.writes.any fun w => mine w.uid)

/-- The end of CLOSING (19 R407, R417, 21 R453), or a completion record or signal that has waited (07 R181, 20 R439). -/
def execKernelCompletion (kern : Nat) (s : State) : Outcome :=
  .next (
    let k := s.kern kern
    if let some st := k.owes then writeCompletion s kern st
    else if k.sigOwed then paySignal s kern
    else if k.st != .closing || !kernelPublished s kern || cpHeld s k.ctx k.cmpa 32 then s
    else
      let s := freeCopy (s.setKern kern { k with st := .complete }) k
      settleCtx (paySignal (writeCompletion s kern 1) kern) k.ctx)

/-- The window of a group ends (19 R419): its passing clears what was written for it. -/
def windowEnd (s : State) (kern grp : Nat) : State :=
  match (s.kern kern).groups.find? fun g => g.num == grp with
  | some g => if g.start + g.window ≤ s.cycle ∧ (s.kern kern).standing = false ∧ g.ents ≠ [] then clearEnts s kern grp else s
  | none => s
def execWindowEnd (kern grp : Nat) (s : State) : Outcome := .next (windowEnd s kern grp)

/-- The cycle by which a kernel has to complete, if it has one (19 R413, R416). -/
def Kernel.bound (s : State) (k : Kernel) : Option Nat :=
  if k.standing then k.eosStart.map fun e => e + k.g * Kernel.win s k + 65536 else some k.tprom

/-- Has a standing kernel a group whose placement did not begin at its start (19 R416)? -/
def Kernel.placeLate (s : State) (k : Kernel) : Bool :=
  k.standing && k.groups.any fun g => g.st == .pending && decide (g.start < s.cycle) && g.began != some g.start

/-- A kernel's promise passes unmet and is reported once (19 R416). -/
def kernLate (s : State) (id : Nat) : State :=
  let k := s.kern id
  let live := k.st == .admitted || k.st == .running || k.st == .closing
  let missed := (match Kernel.bound s k with | some b => decide (b < s.cycle) | none => false) || Kernel.placeLate s k
  if live && !k.late && missed then report (s.setKern id { k with late := true }) 3 k.ctx 32 0xFF 0xFFFF 0 else s

/-- A core's resumption passes its bound for a context of it, and is reported once (20 R442). -/
def resumeLate (s : State) (core : Nat) : State :=
  (s.parts.filter fun p => p.2.core == core && p.2.off && !p.2.late && decide ((s.core core).since + (s.ctx p.2.ctx).rbound < s.cycle)).foldl
    (fun s p => report (s.modPart core p.2.ctx fun q => { q with late := true }) 3 p.2.ctx 32 0xFF core 0) s

/-- A promise passes unmet: a kernel's (which = 0), or a core's resumption (19 R416, 20 R442). -/
def execPromiseMissed (which id : Nat) (s : State) : Outcome := .next (if which = 0 then kernLate s id else resumeLate s id)

/-- Frozen cycles of a core with f frozen rotations in 8, among the cycles before c (19 R421). -/
def frozenBefore (f c : Nat) : Nat := c / 128 * (16 * f) + min (c % 128) (16 * f)

/-- A group over dt cycles: those that its placement takes from the cycle in which it begins, its thermal and budget counts and its stall counter (15 R343, 19
R411, R412, R420, R422). A standing group's busy run ends when all its strands are parked, and nothing counts until the next. -/
def tickGroup (s : State) (kid : Nat) (k : Kernel) (dt : Nat) (g : Group) : Group :=
  if k.xform != 0 then (if k.st == .running then { g with cyc := g.cyc + dt } else g)
  else if g.st == .pending then
    let now := Kernel.clock s k
    let f := (g.cores.map fun c => (s.core c).frozen).foldl max 0
    let th := if k.lockstep then 0 else frozenBefore f (s.cycle + dt) - frozenBefore f s.cycle
    if placeable s k g ∧ g.start ≤ now + dt then
      (match g.began with
      | none => { g with began := some (max g.start now), cyc := now + dt - max g.start now + 1 }
      | some _ => { g with cyc := g.cyc + (dt - th), thermal := g.thermal + th })
    else { g with began := none, cyc := 0 }
  else if g.st != .resident then g
  else
    let us := groupStrands s kid g.num
    let f := (g.cores.map fun c => (s.core c).frozen).foldl max 0
    let moving := us.any fun u => let t := s.strand u; t.displacing || (match t.st with | .saved .displaced _ _ => true | _ => false)
    let th := if k.lockstep then 0 else if moving then dt else frozenBefore f (s.cycle + dt) - frozenBefore f s.cycle
    let idle := !us.isEmpty && us.all fun u => (match (s.strand u).st with | .parked _ => true | _ => false)
    let off := g.cores.any fun c => s.off c k.ctx
    let g := stallOf s kid dt g
    if k.standing && (idle || !g.busy) then { g with busy := g.busy && !idle, thermal := g.thermal + th }
    else if off then g
    else { g with cyc := g.cyc + (dt - th), thermal := g.thermal + th }

end Sys2Proof.Machine
end

