-- ==== Sys2Proof/Machine/Tree.lean ====
section
/-! DEFINITION. Sum-tree registers and the tree unit (14 R318 to R329). -/

namespace Sys2Proof.Machine
open Sys2Proof

def TreeReg.lmax (r : TreeReg) : Nat := if r.m16 then 65535 else 2 ^ 32 - 1
def TreeReg.leaf (r : TreeReg) (i : Nat) : Nat := (tget 0 r.leaves i).toNat
def TreeReg.setLeaf (r : TreeReg) (i v : Nat) : TreeReg := { r with leaves := tput r.leaves i (w64 v) }

/-- The sum of leaves 0 to i - 1 (14 R319). -/
def TreeReg.before (r : TreeReg) (i : Nat) : Nat :=
  (r.leaves.map fun p => if p.1 < i then p.2.toNat else 0).foldl (· + ·) 0
def TreeReg.total (r : TreeReg) : Nat := r.before 1024

/-- The status word (14 R326). -/
def TreeReg.status (r : TreeReg) : Nat :=
  r.len + b2n r.m16 * 2 ^ 16 + b2n r.neg * 2 ^ 17 + b2n r.sat * 2 ^ 18 + b2n r.inexact * 2 ^ 19

/-- The largest leaf mass and the lowest index that holds it (14 R325). -/
def TreeReg.largest (r : TreeReg) : Nat × Nat :=
  r.leaves.foldl (fun m p => if m.1 < p.2.toNat then (p.2.toNat, p.1) else m) (0, 0)

/-- TFIND (14 R324). -/
def TreeReg.find (r : TreeReg) (x : Nat) : Nat :=
  if r.total ≤ x then 2 ^ 15 + r.len + r.total * 2 ^ 16
  else
    match firstFrom 1024 0 fun i => decide (x < r.before (i + 1)) with
    | some i => i + r.before i * 2 ^ 16
    | none => 0

/-- TCUT (14 R324). -/
def TreeReg.cut (r : TreeReg) (n : Nat) : TreeReg :=
  { r with len := min n 1024, leaves := r.leaves.filter fun p => decide (p.1 < n) }

/-- One value of a TLOAD: leaf, below zero, clamped, rounded (14 R327). -/
def leafOf (lmax : Nat) (y : Val) : Nat × Bool × Bool × Bool :=
  match y with
  | .nan => (0, false, false, false)
  | .inf neg => if neg then (0, true, false, false) else (lmax, false, true, true)
  | .fin neg n d =>
    if neg && n != 0 then (0, true, false, false)
    else
      let q := n / d + (if 2 * (n % d) > d ∨ 2 * (n % d) = d ∧ n / d % 2 = 1 then 1 else 0)
      if lmax < q then (lmax, false, true, true) else (q, false, false, n % d != 0)

/-- The tree that a TLOAD builds from FP32 codes (14 R327); none if one of them is NaN or they are too many. -/
def treeOf (m16 : Bool) (k : Int) (old : TreeReg) (xs : List Nat) : Option TreeReg :=
  let vs := xs.map (decodeFlt fp32)
  if 1024 < xs.length || vs.any Val.isNan then none
  else
    let base : TreeReg := { TreeReg.init with m16 := m16 }
    let ls := vs.map fun v => leafOf base.lmax (v.scale k)
    some { len := xs.length, m16 := m16, leaves := (upto xs.length).zip (ls.map fun l => w64 l.1),
           neg := old.neg || ls.any (·.2.1), sat := old.sat || ls.any (·.2.2.1), inexact := old.inexact || ls.any (·.2.2.2) }

/-- What an operation on a tree comes to: the tree and the result, or a cause (14 R323 to R325). -/
def treeWork (o : TOp) (r : TreeReg) (a b : Nat) : Except Nat (TreeReg × Nat) :=
  match o with
  | .tclr =>
    if 1024 < a % 2 ^ 11 then .error 18
    else .ok ({ TreeReg.init with len := a % 2 ^ 11, m16 := bit a 16 }, 0)
  | .tset =>
    if r.len ≤ a then .ok (r, 2 ^ 63)
    else if r.lmax < b then .error 18
    else .ok (r.setLeaf a b, r.leaf a)
  | .tadd =>
    if r.len ≤ a then .ok (r, 2 ^ 63)
    else
      let v := (r.leaf a : Int) + sgn 64 b
      if v < 0 ∨ (r.lmax : Int) < v then .error 19 else .ok (r.setLeaf a v.toNat, v.toNat)
  | .tpref => .ok (r, r.before (min a r.len))
  | .tfind => .ok (r, r.find a)
  | .tcut => .ok (r.cut a, (r.cut a).total)
  | .ttot =>
    match a % 8 with
    | 0 => .ok (r, r.total)
    | 1 => .ok (r, r.largest.1 + r.largest.2 * 2 ^ 32)
    | 2 => .ok (r, r.status)
    | 3 => .ok ({ r with neg := false, sat := false, inexact := false }, r.status)
    | _ => .ok (r, 0)
  | _ => .ok (r, 0)

/-- Entries of a core's tree queue, of every context that is on the core (14 R320): those of a pre-empted one are saved (R329). -/
def treesQueued (s : State) (core : Nat) : Nat :=
  ((s.parts.filter fun p => p.2.core == core && !p.2.off).map fun p => p.2.tq.length).foldl (· + ·) 0

/-- Queue an operation at the unit of its strand's logical core; a pre-empted core has it diverted (14 R320, R329). -/
def treeArrive (s : State) (u id : Nat) : State :=
  let t := s.strand u
  if reach s t.lcore t.ctx == .divert then divert s t.ctx t.lcore (.unit u id)
  else s.modPart t.lcore t.ctx fun p => { p with tq := p.tq ++ [(u, id, s.steps)] }

/-- Has the unit of a strand's logical core no entry free for it (14 R320)? -/
def treeFull (s : State) (t : Strand) : Bool := decide (16 ≤ treesQueued s t.lcore) && reach s t.lcore t.ctx != .divert

/-- The issue of a tree instruction: PRIV at or above T comes before any pending operand (14 R318), the unit's queue may
make the strand wait (R320). -/
def treeIssue (h : Hdr) (n : TreeR) (o : TOp) (regs : List Reg) (dest : Option Reg)
    (args : Exe → Except Cause (Nat × Nat)) (s : State) : Outcome :=
  let t := s.strand s.cur
  if (s.part t.lcore t.ctx).partn.trees.length ≤ n.val then
    issue h { len := lenShort } (fun _ => .trap { code := 3 }) s
  else
    issue h { len := lenShort, pendingClass := true, refs := regs.map .r } (fun x =>
      match args x with
      | .error c => .trap c
      | .ok q =>
        if treeFull x.s x.t || reach x.s x.t.lcore x.t.ctx == .wait then .wait x.s
        else
          let ds := match dest with | some rd => x.t.dest rd | none => []
          .ok (treeArrive (x.s.setStrand x.u (x.t.send (.tree o n.val q.1 q.2) .s x.pc x.len x.s.steps ds)) x.u x.t.nextOp)) s

/-- Operands rd and ra. -/
def treeRR (rd ra : Reg) (x : Exe) : Except Cause (Nat × Nat) := .ok ((x.t.reg rd).toNat, (x.t.reg ra).toNat)
def treeR (ra : Reg) (x : Exe) : Except Cause (Nat × Nat) := .ok ((x.t.reg ra).toNat, 0)

def execTclr (h : Hdr) (n : TreeR) (ra : Reg) (s : State) : Outcome := treeIssue h n .tclr [ra] none (treeR ra) s
def execTset (h : Hdr) (n : TreeR) (rd ra : Reg) (s : State) : Outcome :=
  treeIssue h n .tset [rd, ra] (some rd) (treeRR rd ra) s
def execTadd (h : Hdr) (n : TreeR) (rd ra : Reg) (s : State) : Outcome :=
  treeIssue h n .tadd [rd, ra] (some rd) (treeRR rd ra) s
def execTpref (h : Hdr) (n : TreeR) (rd ra : Reg) (s : State) : Outcome :=
  treeIssue h n .tpref [rd, ra] (some rd) (treeR ra) s
def execTfind (h : Hdr) (n : TreeR) (rd ra : Reg) (s : State) : Outcome :=
  treeIssue h n .tfind [rd, ra] (some rd) (treeR ra) s
def execTcut (h : Hdr) (n : TreeR) (rd ra : Reg) (s : State) : Outcome :=
  treeIssue h n .tcut [rd, ra] (some rd) (treeR ra) s
def execTtot (h : Hdr) (n : TreeR) (rd ra : Reg) (s : State) : Outcome :=
  treeIssue h n .ttot [rd, ra] (some rd) (treeR ra) s

/-- The range of a TLOAD or TSTORE (14 R327): its address in the local window; bits 23:0 of rb, and above them the scratchpad offset. -/
def treeRange (ra rb : Reg) (x : Exe) : Except Cause (Nat × Nat) :=
  let off := (x.t.reg ra).toNat % 2 ^ 19
  let b := (x.t.reg rb).toNat
  if off % 4 ≠ 0 then .error { code := 6 }
  else if min 0x60000 (spadSize x.s x.t.lcore x.t.ctx) < off + 4 * (b % 2 ^ 11) then .error { code := 7, sub := 3 }
  else .ok ((x.s.ctx x.t.ctx).lwin + off, b % 2 ^ 24 + off * 2 ^ 24)

def execTloadM32 (h : Hdr) (n : TreeR) (ra rb : Reg) (s : State) : Outcome :=
  treeIssue h n .tload32 [ra, rb] none (treeRange ra rb) s
def execTloadM16 (h : Hdr) (n : TreeR) (ra rb : Reg) (s : State) : Outcome :=
  treeIssue h n .tload16 [ra, rb] none (treeRange ra rb) s
def execTstore (h : Hdr) (n : TreeR) (ra rb : Reg) (s : State) : Outcome :=
  treeIssue h n .tstore [ra, rb] none (treeRange ra rb) s

/-- Has a strand an earlier operation on path S, not performed, whose bytes lie among n bytes at va or at pa? Those of the unit itself follow
its queue: one that ERET has sent to the end keeps nothing (14 R321). -/
def earlierAt (s : State) (u va pa n seq : Nat) : Bool :=
  (s.strand u).ops.any fun o =>
    o.phase == .sent && decide (o.seq < seq) && o.kind.treeAt.isNone && !(s.watches.any fun w => w.uid == u && w.opId == o.id) &&
      (match o.kind.range with
      | some r => decide (r.1 < va + n) && decide (va < r.1 + r.2) ||
        (match (siteOf s (s.strand u) r.1 r.2 .read).2 with
        | .ok w => decide (w.pa < pa + n) && decide (pa < w.pa + r.2)
        | .error _ => false)
      | none => false)

/-- Does a unit's access to the strand's scratchpad wait: for a line in flight (06 R157), or for the strand's own earlier
accesses to its bytes, releases among them (05 R140)? va is where they lay in its local window at issue. -/
def spadBehind (s : State) (u : Nat) (seq va off n : Nat) : Bool :=
  let t := s.strand u
  let pa := spadPA s t.lcore t.ctx off
  spadBusy s t.lcore t.ctx off n || earlierAt s u va pa n seq ||
    (s.writes.any fun w => w.uid == u && decide (w.seq < seq) && decide (w.pa < pa + n) && decide (pa < w.pa + w.bytes.length)) ||
    s.cores.any fun k => k.2.relq.any fun r => r.uid == u && decide (r.seq < seq) && decide (r.pa < pa + n) && decide (pa < r.pa + 8)

/-- TSTORE writes its leaves by 8-byte atoms (08 R203), each once its line is not in flight (06 R157); the operation counts them. -/
def storeTree (s : State) (u : Nat) (o : Op) (a off k : Nat) (r : TreeReg) : Option State :=
  let t := s.strand u
  let done (s : State) : State := opDone (markStop s u o a (4 * k) .write) u o []
  match (atomsOf off ((upto k).flatMap fun j => leBytes 4 (r.leaf j))).drop o.got.length with
  | [] => some (done s)
  | w :: ws =>
    if spadBusy s t.lcore t.ctx w.1 w.2.length then none
    else
      let s := spadWrite s t.lcore t.ctx w.1 w.2
      some (if ws.isEmpty then done s else s.setOp u { o with got := o.got ++ [0] })

/-- An operation performed by the unit (14 R320, R321), a TSTORE by one atom; none if it has to wait for its bytes. -/
def performTree (s : State) (u : Nat) (o : Op) : Option State :=
  match o.kind with
  | .tree op n a b =>
    let t := s.strand u
    let p := s.part t.lcore t.ctx
    let r := tget TreeReg.init p.trees n
    let off := b / 2 ^ 24
    let k := b % 2 ^ 11
    let set (q : TreeReg) : State := s.setPart t.lcore t.ctx { p with trees := tput p.trees n q }
    match op with
    | .tload32 | .tload16 =>
      if spadBehind s u o.seq a off (4 * k) then none
      else if spadPoisoned s t.lcore t.ctx off (4 * k) && k != 0 then some (opFault (logSpad s t.lcore t.ctx off) u o { code := 10 })
      else if let some w := opWatch s t o a (4 * k) .read then some (opFault s u o { code := 12, sub := w, addr := a, acc := 1 })
      else
        match treeOf (op == .tload16) (sgn 8 (fld b 16 8)) r ((upto k).map fun j => spadLE s t.lcore t.ctx (off + 4 * j) 4) with
        | none => some (opFault s u o { code := 18 })
        | some q => some (opDone (markStop (set q) u o a (4 * k) .read) u o [])
    | .tstore =>
      if !o.got.isEmpty then storeTree s u o a off k r
      else if spadBehind s u o.seq a off (4 * k) then none
      else if 1024 < k then some (opFault s u o { code := 18 })
      else if let some w := opWatch s t o a (4 * k) .write then some (opFault s u o { code := 12, sub := w, addr := a, acc := 2 })
      else storeTree s u o a off k r
    | _ =>
      match treeWork op r a b with
      | .error c => some (opFault s u o { code := c })
      | .ok q => some (opDone (set q.1) u o [w64 q.2])
  | _ => some s

/-- Did an operation of another context that is on the core arrive at its unit before a step (14 R320)? -/
def treeBefore (s : State) (core ctx at' : Nat) : Bool :=
  s.parts.any fun p => p.2.core == core && p.2.ctx != ctx && !p.2.off && (match p.2.tq with | e :: _ => decide (e.2.2 < at') | [] => false)

/-- The unit performs the operation that arrived first, unless the core is frozen (14 R320, 19 R421). -/
def execTreeUnitPerform (core ctx : Nat) (s : State) : Outcome :=
  .next (
    let p := s.part core ctx
    match p.tq with
    | [] => s
    | (u, id, at') :: rest =>
      if s.off core ctx || frozenNow s core || treeBefore s core ctx at' then s
      else
        match s.op u id with
        | some o =>
          if o.phase != .sent then s.setPart core ctx { p with tq := rest }
          else
            (match performTree s u o with
            | none => s
            | some s' =>
              let goesOn : Bool := match s'.op u id with | some x => x.phase == .sent | none => false
              if goesOn then s' else s'.modPart core ctx fun p => { p with tq := rest })
        | none => s.setPart core ctx { p with tq := rest })

end Sys2Proof.Machine
end

