-- ==== Sys2Proof/Machine/Preempt.lean ====
section
/-! DEFINITION. Pre-emption of a core, its save and restore, and the redelivery of diverted messages (08 R204, 15 R344, 16 R372, 20
R435 to R443). -/

namespace Sys2Proof.Machine
open Sys2Proof

/-- Parts that a core holds. -/
def heldParts (s : State) (core : Nat) : List Part :=
  (s.parts.filter fun p => p.2.core == core && p.2.st != .none).map (·.2)

/-- The interrupt arrives at a core: every context placed on it goes through SAVING (20 R435, R437). -/
def interruptCore (s : State) (core : Nat) : State :=
  let s := s.modCore core fun k => { k with since := s.cycle }
  let s := s.mapParts fun p => if p.core = core ∧ p.st = .placed then { p with st := .saving, late := false } else p
  traceRec s core 0 5 2 0

/-- The cores that a pre-emption of one takes: all of a deterministic kernel's together (19 R423). -/
def takenWith (s : State) (core : Nat) : List Nat :=
  match s.kernels.find? fun k => k.2.det && k.2.groups.any fun g => g.st == .resident && g.cores.contains core with
  | some k => ((k.2.groups.filter fun g => g.st == .resident).flatMap (·.cores)).eraseDups
  | none => [core]

/-- The mesh interrupt (20 R437). -/
def execMeshInterrupt (core : Nat) (s : State) : Outcome :=
  .next (
    let cs := takenWith s core
    if (cs.all fun c => !(heldParts s c).isEmpty && (heldParts s c).all fun p => p.st == .placed) then
      cs.foldl interruptCore s
    else s)

/-- Strands that a pre-emption of a core saves: those in its slots, of a context that is being saved. -/
def savedWith (s : State) (core : Nat) : List Nat :=
  (s.strands.filter fun t => t.2.pcore == core && s.off core t.2.ctx &&
    (match t.2.st with | .ready | .parked _ | .stopped _ => true | _ => false)).map (·.1)

/-- Is a sector in flight that an engine of a core is to accumulate: of its own loads, or of a cooperative load it is a member of (10 R254,
R262)? -/
def sectorsFly (s : State) (p : Part) : Bool :=
  p.streams.any fun e => !e.flight.isEmpty || (match e.kind with
    | .coop c n _ _ => (s.part c p.ctx).streams.any fun x => x.seq == n && !x.flight.isEmpty
    | _ => false)

/-- Does a save wait for an operation: a noise word drawn and not yet in its register, a port read that has claimed an entry (03 R91, 15
R344)? -/
def Op.holdsSave (t : Strand) (o : Op) : Bool :=
  o.kind == .rnoise && (o.phase == .sent || o.phase == .done) || o.phase == .sent && o.isPortRead && readReady t o

/-- Has a core come to rest: its releases and binding changes performed, its probes echoed, its writes performed, no sector and no
noise word in flight, no port read that has claimed an entry still to return (15 R344, 20 R437)? -/
def quiet (s : State) (core : Nat) : Bool :=
  let k := s.core core
  k.relq.isEmpty && k.bindOwed.isEmpty && releaseWorkDone s core .system && !(s.writes.any fun w => w.core == core) &&
    !((heldParts s core).any (sectorsFly s)) &&
    !((savedWith s core).any fun u => (s.strand u).ops.any (Op.holdsSave (s.strand u)))

/-- A store of the device at a virtual address of a context: none where it has to wait, a fault where it cannot be made. -/
def frameStore (s : State) (ctx uid : Nat) : Nat → List (List Byte) → State × Option Bool
  | _, [] => (s, none)
  | va, w :: ws =>
    match checkLeaf s ctx va .write false (walk s ctx va) with
    | .error _ => (s, some true)
    | .ok x =>
      if va % 8 ≠ 0 then (s, some true)
      else if x.wb || reachPA s ctx x.pa == .wait then (s, some false)
      else
        match reachPA s ctx x.pa, windowCore s x.pa with
        | .divert, some c =>
          frameStore (divert s ctx c (.write ⟨uid, (s.strand uid).pcore, ctx, .s, va, x.pa, w, none, s.steps, true, none, none, false⟩)) ctx uid (va + 8) ws
        | _, _ => frameStore (landWrite s ctx uid x.pa w) ctx uid (va + 8) ws

/-- The spilled frames and the hardware frame of a strand, at its WSP (04 R118). -/
def storeFrames (s : State) (u : Nat) : State × Option Bool :=
  let t := s.strand u
  frameStore s t.ctx u t.wsp.toNat (residentWords t ++ frameWords t)

/-- What ends a save before it is complete: a page that is write-blocked, or a fault of a context at an address (20 R437). -/
inductive SaveStop where
  | waits
  | fault (ctx va : Nat)
  deriving DecidableEq, Repr

/-- The save block of a context for a core, where its save map has one that may be written (20 R436). -/
def saveBlock (s : State) (ctx core : Nat) : Option Nat :=
  let x := s.ctx ctx
  let ent := x.saveb + 8 * core
  let blk := readLE s ent 8
  if isPoisoned s ent 8 || blk == 0 || blk % 2 ^ 21 != 0 || decide (2 ^ 39 ≤ blk) || granuleSecure s blk != x.secure then none
  else some blk

/-- What is written of a strand: its frames, and its record in the save block, where there is one (04 R117, 20 R436). -/
def saveStrand (blk : Option Nat) (a : State × Option SaveStop) (u : Nat) : State × Option SaveStop :=
  match a.2 with
  | some _ => a
  | none =>
    let t := a.1.strand u
    let r := storeFrames a.1 u
    match r.2, blk with
    | some true, _ => (r.1, some (.fault t.ctx t.wsp.toNat))
    | some false, _ => (r.1, some .waits)
    | none, some b =>
      (homeWrite r.1 (b + 0x130000 + 128 * t.pslot) (recordBytes t t.pc (t.wsp.toNat + 8 * t.wres + 176) true), none)
    | none, none => (r.1, none)

/-- Bytes of a layout private to the native revision (20 R436). -/
def privateBytes (a n : Nat) : List Byte := (upto n).map (Config.privateByte a)

/-- The save set of one context, written to its save block (20 R436); the answer is where a fault or a wait came up. -/
def savePart (core : Nat) (a : State × Option SaveStop) (p : Part) : State × Option SaveStop :=
  match a.2, saveBlock a.1 p.ctx core with
  | some _, _ => a
  | none, none => (a.1, some (.fault p.ctx ((a.1.ctx p.ctx).saveb + 8 * core)))
  | none, some blk =>
      let s := a.1
      let s := homeWrite s blk (spadRead s core p.ctx 0 p.partn.sz)
      let s := homeWrite s (blk + 0x60000 + p.partn.ob) ((upto p.partn.ow).map fun i => tget 0 p.ostore i)
      let s := p.partn.tiles.foldl (fun s j => homeWrite s (blk + 0xA0000 + 0x10000 * j)
        ((upto 8192).flatMap fun i => leBytes 8 (tget Lane.zero (tget PTile.init (s.core core).ptiles j).lanes i).g.toNat)) s
      let r := ((savedWith s core).filter fun u => (s.strand u).ctx == p.ctx).foldl (saveStrand (some blk)) (s, none)
      let s := homeWrite r.1 (blk + 0x120000) (privateBytes (blk + 0x120000) 0x10000)
      (homeWrite s (blk + 0x130800) (privateBytes (blk + 0x130800) 0x1F800), r.2)

/-- A strand displaced to the core, whose context has no partition there, is saved with the core: its frames, and its record where the save map
of its context has a block for the core (19 R421, 20 R437; log entry 111). -/
def saveGuest (core : Nat) (a : State × Option SaveStop) (u : Nat) : State × Option SaveStop :=
  saveStrand (saveBlock a.1 (a.1.strand u).ctx core) a u

/-- A context's part once it is saved: its physical tiles and poisoned words are its own. -/
def keepPart (s : State) (core : Nat) (p : Part) : Part :=
  { p with st := .saved
           kept := (s.core core).ptiles.filter fun t => p.partn.tiles.contains t.1
           keptBad := s.poison.filter (inPartn core p.partn) }

/-- An acquire that a save catches is issued again after resumption, whatever reply it had (08 R204, 20 R438). -/
def Op.reissued (o : Op) : Op :=
  match o.kind with
  | .acq _ _ | .waitw _ _ _ => if o.phase == .done then { o with phase := .sent, res := [] } else o
  | _ => o

/-- A strand that pre-emption has saved (04 R94, R118): its older frames are in memory, as they stand: a register of one that is still
pending goes as it is (log entry 77). -/
def preemptStrand (t : Strand) : Strand :=
  { t with wsp := t.wsp + w64 (8 * t.wres), wres := 0, ops := t.ops.map Op.reissued
           st := match t.st with
             | .parked w => .saved .preempted (some w) false
             | .stopped was => .saved .preempted was true
             | _ => .saved .preempted none false }

/-- The save of a core completes: masks and read buffer are cleared; watches of its strands at homes are cancelled, and those on words of
its contexts' scratchpads, which go with them; the watches of its barriers are saved (18 R402); and the core is free for other work (06 R158,
08 R204, 20 R437). A save block or a spill area that faults ends the save, and the core stays. -/
def saveCore (s : State) (core : Nat) : State :=
  let ps := (heldParts s core).filter Part.off
  let us := savedWith s core
  let guests := us.filter fun u => (s.part core (s.strand u).ctx).st == .none
  let r := guests.foldl (saveGuest core) (ps.foldl (savePart core) (s, none))
  match r.2 with
  | some .waits => s
  | some (.fault ctx va) =>
    report (r.1.mapParts fun p => if p.core = core ∧ p.st = .saving then { p with st := .placed } else p) 2 ctx 32 0xFF core va
  | none =>
    let s := ps.foldl (fun s p => s.modPart core p.ctx (keepPart s core)) r.1
    let lost (w : Watch) : Bool := us.contains w.uid ||
      windowCore s w.pa == some core && !inBarriers s w.pa && ps.any fun p => p.ctx == (s.strand w.uid).ctx
    let s := { s with watches := s.watches.filter fun w => !lost w
                      poison := s.poison.filter fun a => !(ps.any fun p => inPartn core p.partn a) }
    let s := s.modCore core fun k =>
      { k with touchS := 0, touchP := 0, echoS := 0, echoP := 0, rbuf := []
               ptiles := k.ptiles.filter fun t => !(ps.any fun p => p.partn.tiles.contains t.1) }
    us.foldl (fun s u => s.modStrand u preemptStrand) s

def execSaveComplete (core : Nat) (s : State) : Outcome :=
  .next (if (heldParts s core).any (·.st == .saving) && quiet s core then saveCore s core else s)

/-- The registers of a strand as its record and its frame hold them (04 R117, R118). -/
def reloadStrand (t : Strand) (b : List Byte) (ws : List Word) : Strand :=
  let t := t.setRegs ((upto 10).map fun i => (wreg i, w64 (recLE b (32 + 8 * i) 8)))
  let t := t.setRegs ((upto 14).map fun i => (wreg (10 + i), ws.getD (7 + i) 0))
  let q := t.setFrameStat (ws.getD 21 0).toNat
  { q with sregs := (upto 7).map fun i => (i + 1, ws.getD i 0)
           pc := recLE b 0 8, wsp := w64 (recLE b 8 8) - 176, dseed := w64 (recLE b 16 8), pword := recLE b 24 2 / 2 * 2
           engaged := t.engaged || q.engaged, outside := t.outside || q.outside }

/-- A pre-empted strand is restored in its slot: READY or PARKED as it was, or STOPPED; its waits are tested again (04 R94, 20 R438,
R441, 25 R503). -/
def restoreStrand (blk : Option Nat) (s : State) (u : Nat) : State :=
  let t := s.strand u
  let q := match blk with
    | none => (s, t)
    | some blk =>
      let b := readBytes s (blk + 0x130000 + 128 * t.pslot) 128
      let frame := (upto 22).map fun i => ((recLE b 8 8 + 2 ^ 64 - 176 + 8 * i) % 2 ^ 64, 8)
      match readVA s t.ctx frame with
      | .ok f => (s, reloadStrand t b ((upto 22).map fun i => w64 (recLE f (8 * i) 8)))
      | .error _ => (logVA s t.ctx frame, t)
  let s := q.1
  let t := q.2
  let held := match t.st with | .saved _ _ true => true | _ => false
  let s := s.setStrand u { t with
    stopWaits := t.stopWaits && !held
    st := (match t.st with
    | .saved _ was true => .stopped was
    | .saved _ (some w) false => .parked w
    | _ => .ready) }
  let s := t.ops.foldl (fun s o => swTest s u o) s
  if t.stopWaits && !held then stopStrand s u t.stopDbg else closeCheck s u

/-- Strands that pre-emption has saved on a core. -/
def savedOn (s : State) (core : Nat) : List Nat := (s.strands.filter fun t => t.2.pcore == core && t.2.preempted).map (·.1)

/-- A part is reloaded: scratchpad, lanes, and its column sums computed anew (20 R436, R441). -/
def restorePart (s : State) (core : Nat) (p : Part) : State :=
  let blk := readLE s ((s.ctx p.ctx).saveb + 8 * core) 8
  let s := rawWrite s (spadPA s core p.ctx 0) (readBytes s blk p.partn.sz)
  let s := { s with poison := p.keptBad ++ s.poison }
  let s := s.modCore core fun k => { k with ptiles := p.kept.foldl (fun m t => tput m t.1 t.2) k.ptiles }
  let s := s.setPart core p.ctx { p with st := .placed, kept := [], keptBad := []
                                         osum := match p.osumG with | some g => p.columnSums g | none => p.osum }
  ((savedOn s core).filter fun u => (s.strand u).ctx == p.ctx).foldl (restoreStrand (some blk)) s

/-- May the core be given back: nothing else is placed on it, and the slots of the saved strands are empty (20 R441, R442)? -/
def restorable (s : State) (core : Nat) : Bool :=
  let ps := heldParts s core
  !ps.isEmpty && (ps.all fun p => p.st == .saved) && s.strands.all fun t =>
    !(t.2.pcore == core && t.2.preempted && (s.slotStrand core t.2.pslot).isSome)

/-- The save set of a core is reloaded, its read buffer empty (05 R139, 20 R441); the strands that were displaced to it come with it. -/
def reload (s : State) (core : Nat) : State :=
  let s := (heldParts s core).foldl (fun s p => restorePart s core p) (s.modCore core fun k => { k with rbuf := [] })
  (savedOn s core).foldl (fun s u => restoreStrand (saveBlock s (s.strand u).ctx core) s u) s

/-- The restore of a core: at the calendar's time it begins, every part RESTORING; later it is complete, every part PLACED (20 R435, R441). -/
def execRestore (core : Nat) (s : State) : Outcome :=
  .next (
    let ps := heldParts s core
    if restorable s core then s.mapParts fun p => if p.core = core ∧ p.st = .saved then { p with st := .restoring } else p
    else if !ps.isEmpty && ps.all fun p => p.st == .restoring then traceRec (reload s core) core 0 5 2 1
    else s)

/-! ## Redelivery -/

/-- Has an operation been performed, or taken its place, so that its message is done with? -/
def taken (s : State) (u id : Nat) : Bool :=
  match s.op u id with
  | some o => o.phase != .sent || s.watches.any fun w => w.uid == u && w.opId == id
  | none => true

/-- A diverted write of a copy that its target refuses ends the copy in error; where the copy has moved all, its error record is posted now,
and its completion tells of the error where that is diverted too (16 R356, R372). Only the first refusal counts. -/
def copyRefused (s : State) (w : MemWrite) (code : Nat) : State :=
  match w.copy with
  | none => s
  | some c =>
    let mine (x : Copy) : Bool := x.id == c.id
    let late (e : Nat × Spill) : Nat × Spill :=
      match e.2 with
      | .complete x err => if mine x && err == 0 then (e.1, .complete x code) else e
      | .write v => if v.copy.any mine then (e.1, .write { v with copy := none }) else e
      | _ => e
    let off := w.va - cDst c.req
    let q := { s with copies := s.copies.map fun x => if mine x && x.err.isNone then { x with err := some (code, off), buf := [] } else x
                      ctxs := s.ctxs.map fun x => (x.1, { x.2 with spill := x.2.spill.map late, refused := x.2.refused.map late }) }
    if s.copies.any mine then q else postError q c code off

/-- A diverted write of a copy or a gather lands; one that ends its line clears it (06 R157, 16 R372). -/
def landEngine (s : State) (w : MemWrite) : State :=
  let q :=
    match homeOf s w.pa with
    | .window c off =>
      (match windowWrite s w.ctx c off w.pa w.bytes with
      | .done s' => s'
      | .outside => copyRefused s w 2
      | .engaged => copyRefused s w 6)
    | _ => homeWrite s w.pa w.bytes
  if w.hub then clearLines q [w.pa / 64] else q

/-- A diverted message is delivered; none where it still waits (20 R439, R441). -/
def redeliver (s : State) (ctx core : Nat) (m : Spill) : Option State :=
  let after (s : State) (u id : Nat) : Option State := if taken s u id then some s else none
  match m with
  | .write w =>
    some (match w.path with
      | .x | .g => landEngine s w
      | .k => landWrite s w.ctx w.uid w.pa w.bytes
      | _ => landStore s w)
  | .mem u id =>
    (match s.op u id with
    | some o =>
      if o.phase != .sent then some s
      else (match o.kind with
        | .contr va slot => after (performContr s u o va slot) u id
        | .handle _ _ _ _ => after (performHandle s u o true) u id
        | .acq _ _ | .waitw _ _ _ => if (s.strand u).preempted then some s else after (performMem s u o true) u id
        | _ => after (performMem s u o true) u id)
    | none => some s)
  | .unit u id =>
    (match s.op u id with
    | some o =>
      if o.phase != .sent then some s
      else (match o.kind with
        | .tree _ _ _ _ => if treeFull s (s.strand u) then none else some (treeArrive s u id)
        | .barrier .bwait _ _ _ => if (s.strand u).preempted then some s else after (performBar s u o true) u id
        | .barrier _ _ _ _ => after (performBar s u o true) u id
        | .deque _ _ => after (performDeque s u o true) u id
        | _ => some s)
    | none => some s)
  | .port u b what v => some (landPort s u b what v)
  | .complete c err => some (landComplete s c err)
  | .signal u line res ls => some (signalLine (clearLines s ls) u line res)
  | .reply u id => some (match s.op u id with | some o => (if o.phase == .done then opReturn s u o else s) | none => s)
  | .miss q => if (s.core core).misses.length < 16 then some (s.modCore core fun k => { k with misses := k.misses ++ [q] }) else none
  | .old e => landOld s core ctx e

/-- Remove the first entry for a core. -/
def dropFirst (core : Nat) : List (Nat × Spill) → List (Nat × Spill)
  | [] => []
  | e :: es => if e.1 = core then es else e :: dropFirst core es

/-- The read index of the ring in memory (20 R440). -/
def spillIndex (s : State) (ctx : Nat) : State :=
  let x := s.ctx ctx
  homeWrite s (x.spqb + 128 * x.spqn + 8) (leBytes 8 (x.spqSeq - x.spill.length))

/-- The next diverted message of a restored core, in SEQ order, and after them those that were refused (20 R440, R441). -/
def execRedelivery (ctx core : Nat) (s : State) : Outcome :=
  .next (
    let x := s.ctx ctx
    if s.off core ctx then s
    else
      match x.spill.find? fun e => e.1 == core with
      | some e =>
        (match redeliver s ctx core e.2 with
        | some s' => spillIndex (s'.modCtx ctx fun x => { x with spill := dropFirst core x.spill }) ctx
        | none => s)
      | none =>
        match x.refused.find? fun e => e.1 == core with
        | some e =>
          (match redeliver s ctx core e.2 with
          | some s' => s'.modCtx ctx fun x => { x with refused := dropFirst core x.refused }
          | none => s)
        | none => s)

/-- A sender whose message the full ring refused tries again (20 R440). -/
def execSpillRetry (ctx : Nat) (s : State) : Outcome :=
  .next (
    let x := s.ctx ctx
    match x.refused with
    | [] => s
    | e :: rest =>
      if s.off e.1 ctx && decide (x.spill.length < x.spqn) then
        (divert (s.setCtx ctx { x with refused := [] }) ctx e.1 e.2).modCtx ctx fun y => { y with refused := rest }
      else s)

end Sys2Proof.Machine
end

