-- ==== Sys2Proof/Machine/Thermal.lean ====
section
/-! DEFINITION. Thermal control: the steps of a core, and the displacement of a strand (04 R118, R119, 19 R421 to R423). -/

namespace Sys2Proof.Machine
open Sys2Proof

/-- A frozen rotation more or less, of at most 7 in every 8 (19 R421); the cores of a deterministic kernel freeze together (R423). -/
def freeze (s : State) (core : Nat) (more : Bool) : State :=
  (takenWith s core).foldl (fun s c => s.modCore c fun k =>
    { k with frozen := if more then min 7 (k.frozen + 1) else k.frozen - 1 }) s

def detCore (s : State) (core : Nat) : Bool :=
  s.kernels.any fun k => k.2.det && k.2.groups.any fun g => g.st == .resident && g.cores.contains core

/-- The highest enabled slot of a core but slot 0, and its lowest disabled one. -/
def topSlot (k : CoreSt) : Option Nat := (firstFrom 15 0 fun i => !bit k.disabled (15 - i)).map (15 - ·)
def lowDisabled (k : CoreSt) : Option Nat := firstFrom 16 0 (bit k.disabled)

def disableSlot (s : State) (core k : Nat) : State := s.modCore core fun c => { c with disabled := setFld c.disabled k 1 1 }

/-- A strand is chosen for displacement: it closes as if at a C = 1 instruction (04 R119); in a handler it does so after the return. -/
def chooseStrand (s : State) (u : Nat) : State :=
  let t := s.strand u
  let s := s.setStrand u { t with displacing := true }
  match t.st, t.close with
  | .ready, none | .parked .resource, none | .parked .portReady, none => if t.trap.intrap then s else closeAt s u t.pc false
  | _, _ => s

/-- The step of a core at or above THOT (19 R421). -/
def heatStep (s : State) (core : Nat) : State :=
  if detCore s core then freeze s core true
  else
    match topSlot (s.core core) with
    | none => freeze s core true
    | some k =>
      match s.slotStrand core k with
      | none => disableSlot s core k
      | some u =>
        let t := s.strand u
        if t.displacing then s
        else
          match t.st with
          | .ready | .parked _ => if t.ending then s else chooseStrand s u
          | _ => freeze s core true

/-- At or below TCOOL (19 R421). -/
def coolStep (s : State) (core : Nat) : State :=
  if (s.core core).frozen ≠ 0 then freeze s core false
  else
    match lowDisabled (s.core core) with
    | some k => s.modCore core fun c => { c with disabled := setFld c.disabled k 1 0 }
    | none => s

/-- The thresholds that the record's TRIM sets for a core (19 R421, 24 R492). -/
def trimOf (s : State) : Nat := cfgLE s 0xC0 1024
def thot (s : State) (core : Nat) : Nat := Config.thot (trimOf s) core
def tcool (s : State) (core : Nat) : Nat := Config.tcool (trimOf s) core

/-- A core reads its temperature and takes at most one step, once at the end of each interval of 2^14 cycles (19 R421). -/
def thermalStep (s : State) (core temp : Nat) : State :=
  if 512 ≤ core ∨ s.cycle = 0 ∨ s.cycle % 2 ^ 14 ≠ 0 ∨ (s.core core).thermAt = s.cycle then s
  else
    let s := s.modCore core fun c => { c with temp := temp, thermAt := s.cycle }
    if thot s core ≤ temp then heatStep s core
    else if temp ≤ tcool s core then coolStep s core
    else s
def execThermalInterval (core temp : Nat) (s : State) : Outcome := .next (thermalStep s core temp)

/-- Is core a before core b in the ranking table of their cluster, coolest first (19 R421)? -/
def cooler (s : State) (a b : Nat) : Bool :=
  decide ((s.core a).temp < (s.core b).temp) || (s.core a).temp == (s.core b).temp && decide (corePos a < corePos b)

/-- An EMPTY enabled slot that no pre-empted strand returns to. -/
def freeSlot (s : State) (core : Nat) : Option Nat :=
  firstFrom 16 0 fun k => !bit (s.core core).disabled k && (s.slotStrand core k).isNone &&
    !(s.strands.any fun t => t.2.pcore == core && t.2.pslot == k && t.2.preempted)

/-- Where a strand of a core is displaced to: the first core of the ranking, other than its own, below THOT, with a free slot. -/
def displaceTo (s : State) (core : Nat) : Option (Nat × Nat) :=
  let cs := (clusterCores (coreCluster core)).filter fun c =>
    c != core && decide ((s.core c).temp < thot s c) && (freeSlot s c).isSome
  match cs.find? fun c => cs.all fun d => d == c || cooler s c d with
  | some c => (freeSlot s c).map fun k => (c, k)
  | none => none

/-- The displacement does not happen: the core freezes in its place (19 R421). -/
def stayPut (s : State) (u : Nat) : State :=
  freeze (s.modStrand u fun t => { t with displacing := false }) (s.strand u).pcore true

/-- A strand arrives on a core: the core has the context's binding table (08 R188), and none of its lines is older than what the strand has
loaded (05 R140; log entry 70). -/
def arriveCore (s : State) (core ctx : Nat) : State :=
  s.modCore core fun k => { k with binds := tput k.binds ctx (s.ctx ctx).binds, rbuf := k.rbuf.filter fun l => l.ctx != ctx }

/-- A chosen strand has closed and its vector queue, stores and releases are performed on its core (log entry 26): its frames are spilled,
and its record goes to its new slot (04 R118, R119, 09 R220, 19 R421). One with an operation pending closes first. -/
def execThermalDisplacement (uid : Nat) (s : State) : Outcome :=
  .next (
    let t := s.strand uid
    if !t.displacing then s
    else
      match t.st with
      | .stopped _ => stayPut s uid
      | .ready =>
        if t.trap.intrap || t.close.isSome || t.ending || s.off t.pcore t.ctx then s
        else if t.engagedNow then closeAt s uid t.pc false
        else if !t.vq.isEmpty || (s.writes.any fun w => w.uid == uid) || (s.cores.any fun c => c.2.relq.any fun r => r.uid == uid) then s
        else
          match displaceTo s t.pcore with
          | none => stayPut s uid
          | some (c, k) =>
            let r := storeFrames s uid
            match r.2 with
            | some false => s
            | some true => stayPut (report r.1 2 t.ctx 32 t.pslot t.pcore t.wsp.toNat) uid
            | none =>
              (arriveCore (disableSlot r.1 t.pcore t.pslot) c t.ctx).modStrand uid fun t =>
                { t with pcore := c, pslot := k, wsp := t.wsp + w64 (8 * t.wres), wres := 0, displacing := false }
      | _ => s)

end Sys2Proof.Machine
end

