-- ==== Sys2Proof/Machine/Clock.lean ====
section
/-! DEFINITION. The passing of cycles: what the spec ties to the cycle counter happens in its cycle (00 R5, 10 R261, 15 R343, 19 R412, R415,
R416, R419, R421, R423, 20 R442, 25 R505, R507). -/

namespace Sys2Proof.Machine
open Sys2Proof

/-- A kernel over one cycle: a deterministic one counts the cycles of its own sequence, unless that stands still (19 R423). -/
def tickKernel (s : State) (kid : Nat) (k : Kernel) : Kernel :=
  if k.lockstep then
    if detStill s kid then { k with hold := k.hold - 1 }
    else { k with detCyc := k.detCyc + 1, groups := k.groups.map (tickGroup s kid k 1) }
  else { k with groups := k.groups.map (tickGroup s kid k 1) }

/-- One cycle passes; a slot-table frame begins every 16,384 (10 R261). -/
def oneCycle (s : State) : State :=
  { traceLanes s 1 with
    cycle := (s.cycle + 1) % 2 ^ 64
    cores := if (s.cycle + 1) % 2 ^ 14 = 0 then s.cores.map fun c => (c.1, c.2.newFrame) else s.cores
    kernels := s.kernels.map fun k => (k.1, tickKernel s k.1 k.2) }

/-- For every group of every kernel. -/
def eachGroup (s : State) (f : State → Nat → Nat → State) : State :=
  s.kernels.foldl (fun s k => k.2.groups.foldl (fun s g => f s k.1 g.num) s) s

/-- What a cycle brings about when it begins: excesses over budgets, samples, ends of windows, port deadlocks, and missed promises. -/
def cycleBegins (s : State) : State :=
  let s := takeSamples (overrunAll s) fun _ => true
  let s := eachGroup (eachGroup s windowEnd) portDeadlock
  let s := s.kernels.foldl (fun s k => kernLate s k.1) s
  s.cores.foldl (fun s c => resumeLate s c.1) s

/-- What is done before a cycle ends: where it ends a thermal interval, every core that has not yet read its temperature does (19 R421). -/
def cycleEnds (s : State) : State :=
  if s.cycle = 0 ∨ s.cycle % 2 ^ 14 ≠ 0 then s
  else (upto 512).foldl (fun s c => thermalStep s c (Config.reading c s.cycle)) s

/-- Cycles pass (log entry 4). -/
def passCycles : Nat → State → State
  | 0, s => s
  | n + 1, s => passCycles n (cycleBegins (oneCycle (cycleEnds s)))

/-- A new step begins after dt cycles; what the step before took over a budget ends first (19 R415). -/
def elapse (s : State) (dt : Nat) : State :=
  let s := passCycles dt (overrunAll s)
  { s with steps := s.steps + 1 }

end Sys2Proof.Machine
end

