-- ==== Sys2Proof/Machine/Collective.lean ====
section
/-! DEFINITION. Collective groups and collectives (22 R466 to R477). -/

namespace Sys2Proof.Machine
open Sys2Proof

def CollGroup.init : CollGroup := ⟨0, [], [], [], []⟩
def CLine.init : CLine := ⟨0, 0, 0⟩

/-- Fields of a member entry (22 R466). -/
def entryOk (e : Nat) : Bool := e / 2 ^ 48 == 0 && fld e 16 16 == 0 && fld e 9 3 == 0
def entryHere (s : State) (e : Nat) : Bool := fld e 32 16 == 0xFFFF || fld e 32 16 == cfgLE s 8 2
def entryIs (s : State) (t : Strand) (e : Nat) : Bool := entryHere s e && fld e 0 9 == t.lcore && fld e 12 4 == t.lslot

def collGroup (s : State) (ctx g : Nat) : CollGroup := tget CollGroup.init (s.ctx ctx).colls g
def setCollGroup (s : State) (ctx g : Nat) (c : CollGroup) : State :=
  s.modCtx ctx fun x => { x with colls := if c.st = 0 then tdel x.colls g else tput x.colls g c }

/-- Status words of the collective instructions. -/
def negW (n : Nat) : Word := w64 (2 ^ 64 - n)

/-- CGRP (22 R469): it goes to the command processor. -/
def cgrpEff (e : Ext) (x : Exe) : Eff :=
  x.send (.cgrp (e.imm.toNat % 256) (x.t.reg e.f1).toNat (x.t.reg e.f2).toNat) .n (x.t.dest e.f0)
def execCgrp (h : Hdr) (e : Ext) : State → Outcome :=
  issue h { len := lenExt, pendingClass := true, refs := [.r e.f0, .r e.f1, .r e.f2] } (cgrpEff e)

/-- A member leaves its group; the last frees it (22 R467, R469). -/
def leaveGroup (s : State) (ctx g : Nat) (c : CollGroup) (r : Nat) : State :=
  let left := c.left ++ [r]
  if left.length < c.joined.length then setCollGroup s ctx g { c with st := 3, left := left }
  else { setCollGroup s ctx g CollGroup.init with colls := s.colls.filter fun d => !(d.ctx == ctx && d.g == g) }

/-- A member joins a group that forms; the last makes it ACTIVE (22 R467). -/
def joinGroup (s : State) (ctx g : Nat) (c : CollGroup) (r : Nat) : State :=
  let j := c.joined ++ [r]
  setCollGroup s ctx g { c with st := if j.length = c.members.length then 2 else 1, joined := j }

/-- CGRP at the command processor (22 R467, R469): one that has joined a group that forms waits until the group is ACTIVE. -/
def performCgrp (s : State) (u : Nat) (o : Op) (g list n : Nat) : State :=
  let t := s.strand u
  let c := collGroup s t.ctx g
  let ret (s : State) (v : Word) : State := opReturn s u { o with res := [v] }
  if n = 0 then
    match c.members.findIdx? (entryIs s t) with
    | none => ret s 0
    | some r =>
      if s.colls.any fun d => d.ctx == t.ctx && d.g == g && d.abort.isNone && d.members.any fun m => m.uid == u then s
      else if !c.joined.contains r || c.left.contains r then ret s 0
      else ret (leaveGroup s t.ctx g c r) 0
  else
    match readVA s t.ctx (sectorPieces list (8 * n)) with
    | .error k => opFault (logVA s t.ctx (sectorPieces list (8 * n))) u o k
    | .ok bs =>
      let es := (upto n).map fun i => recLE bs (8 * i) 8
      if list % 8 ≠ 0 ∨ 1024 < n ∨ n = 1 ∨ es.all entryOk = false ∨ ¬ es.Nodup then ret s (negW 4)
      else
        match es.findIdx? (entryIs s t) with
        | none => ret s (negW 3)
        | some r =>
          let waits (s : State) : State := s.setOp u { o with prog := 1 }
          if o.prog = 1 ∧ c.st ≠ 1 then ret s (w64 r) else
          match c.st with
          | 0 => setCollGroup (waits s) t.ctx g { CollGroup.init with st := 1, members := es, joined := [r] }
          | 1 =>
            if c.members ≠ es then ret s (negW 5)
            else if c.joined.contains r then waits s
            else joinGroup (waits s) t.ctx g c r
          | 2 => if c.members ≠ es then ret s (negW 5) else ret s (w64 r)
          | _ => s

/-- Chunk bytes that break R470. -/
def badLen (l src dst : Nat) : Bool := l == 0 || l % 64 != 0 || decide (2 ^ 32 - 64 < l) || src % 64 != 0 || dst % 64 != 0

/-- The result word of a finished collective (22 R474). -/
def collWord (seq : Nat) (ab : Option (Nat × Nat × Nat)) : Word :=
  match ab with
  | none => w64 (seq % 2 ^ 16 * 2 ^ 48 + 0xFFFF * 2 ^ 32 + 1)
  | some (why, cause, rank) => w64 (seq % 2 ^ 16 * 2 ^ 48 + rank % 2 ^ 16 * 2 ^ 32 + cause * 2 ^ 16 + why * 2 ^ 8 + 2)

/-- The lines of a collective's members take its result; a line that has been freed drops it (22 R474). -/
def collFinish (s : State) (c : Coll) : State :=
  (c.members.filter fun m => m.away.isNone).foldl (fun s m => s.modStrand m.uid fun t =>
    let l := tget CLine.init t.clines m.line
    if l.st = 1 ∧ l.coll = c.id then { t with clines := tput t.clines m.line ⟨2, c.id, collWord c.seq c.abort⟩ } else t) s

def setColl (s : State) (c : Coll) : State := { s with colls := s.colls.map fun d => if d.id = c.id then c else d }
def dropColl (s : State) (id : Nat) : State := { s with colls := s.colls.filter fun d => d.id != id }

/-- Sectors of a chunk, and the flows of a collective (22 R471, R473). -/
def Coll.secs (c : Coll) : Nat := c.len / 64
def Coll.flows (c : Coll) : Nat := match c.op with | .ag => c.n | .a2a => c.n * c.n | .rs _ _ => c.n | .bar => 0

/-- Do the collectives of a group before this one still run (22 R476)? -/
def collTurn (s : State) (c : Coll) : Bool :=
  c.abort.isNone && !(s.colls.any fun d => d.ctx == c.ctx && d.g == c.g && decide (d.seq < c.seq) && d.abort.isNone)

/-- A collective that is complete, or aborted at every member, ends (22 R471, R475), those of its group before it having ended (22 R476). -/
def collEnd (s : State) (id : Nat) : State :=
  match s.colls.find? fun c => c.id == id with
  | none => s
  | some c =>
    if c.abort.isSome then (if c.members.length = c.n ∧ c.moving = [] then dropColl (collFinish s c) id else collFinish s c)
    else if collTurn s c ∧ c.members.length = c.n ∧ c.done.length = c.flows * c.secs then dropColl (collFinish s c) id
    else s

/-- A collective ends, and with it those of its group that wait for nothing else, in their order (22 R476). -/
def collSettle (s : State) (id : Nat) : State :=
  match s.colls.find? fun c => c.id == id with
  | none => s
  | some c => ((s.colls.filter fun d => d.ctx == c.ctx && d.g == c.g && decide (c.seq < d.seq) && d.abort.isNone).map (·.id)).foldl collEnd (collEnd s id)

/-- What goes on after an abort: a sector of a reduction of which a word is written, so that it is written whole (22 R475). -/
def Coll.goesOn (c : Coll) (q : CSector) : Bool := match c.op with | .rs _ _ => q.got != 0 | _ => false

/-- Abort of a collective (22 R475). -/
def collAbort (s : State) (id why cause rank : Nat) : State :=
  match s.colls.find? fun c => c.id == id with
  | none => s
  | some c => if c.abort.isSome then s else collSettle (setColl s { c with abort := some (why, cause, rank), moving := c.moving.filter c.goesOn, parts := [] }) id

/-- A member joins the collective of its sequence number (22 R470); one that differs aborts it, and which rank that names
is stated by no rule. -/
def collJoin (s : State) (ctx g n : Nat) (op : COp) (len seq : Nat) (m : CollMember) : State :=
  match s.colls.find? fun c => c.ctx == ctx && c.g == g && c.seq == seq with
  | some c =>
    let s := setColl s { c with members := c.members ++ [m] }
    if c.op = op ∧ c.len = len then collSettle s c.id
    else
      let f := s.openWord
      collSettle (collAbort f.1 c.id 2 0 (fld f.2.toNat 0 16)) c.id
  | none =>
    let c : Coll := { id := s.nextColl, ctx := ctx, g := g, seq := seq, op := op, len := len, n := n, members := [m],
                      resv := [], moving := [], parts := [], done := [], abort := none }
    collSettle { s with nextColl := s.nextColl + 1, colls := s.colls ++ [c] } c.id

/-- Is this a collective that a member may have issued (22 R470, R472)? -/
def collFits (op : COp) (len : Nat) : Bool :=
  match op with | .bar => len == 0 | .rs ty o => !badLen len 0 0 && decide (ty < 5) && decide (o < 3) && (ty != 0 || o == 0) | _ => !badLen len 0 0

/-- A member on another node acts (22 R466): the command processors of the packages that hold members act together on a group. A group of
which no member is here, or an act that the member cannot take, changes nothing here. -/
def peerAct (s : State) (ctx : Nat) (p : Peer) : State :=
  let away (c : CollGroup) (r : Nat) : Option Nat :=
    match c.members[r]? with
    | none => none
    | some e => if entryHere s e || !nodeUp s (s.ctx ctx).secure (fld e 32 16) then none else some (fld e 32 16)
  if (s.ctx ctx).st ≠ .active then s else
  match p with
  | .join g es r =>
    let c := collGroup s ctx g
    let c := if c.st = 0 then { CollGroup.init with st := 1, members := es } else c
    if es.length < 2 ∨ 1024 < es.length ∨ es.all entryOk = false ∨ ¬ es.Nodup ∨ es.any (entryHere s) = false ∨
        c.st ≠ 1 ∨ c.members ≠ es ∨ c.joined.contains r = true ∨ away c r = none then s
    else joinGroup s ctx g c r
  | .leave g r =>
    let c := collGroup s ctx g
    let busy := s.colls.any fun d => d.ctx == ctx && d.g == g && d.abort.isNone && d.members.any fun m => m.rank == r
    if c.st < 2 ∨ c.left.contains r = true ∨ away c r = none ∨ busy = true then s else leaveGroup s ctx g c r
  | .coll g r op len =>
    let c := collGroup s ctx g
    let held := (s.colls.filter fun d => d.ctx == ctx && d.g == g && d.members.any fun m => m.rank == r).length
    if c.st ≠ 2 ∨ 4 ≤ held ∨ collFits op len = false then s else
    match away c r with
    | none => s
    | some node =>
      let seq := tget 0 c.seqs r
      collJoin (setCollGroup s ctx g { c with seqs := tput c.seqs r (seq + 1) }) ctx g c.members.length op len seq ⟨r, 2 ^ 64, 4, 0, 0, some node⟩
  | .abort id why cause r =>
    match s.colls.find? fun d => d.id == id && d.ctx == ctx with
    | none => s
    | some d =>
      if (why = 1 ∨ why = 3 ∨ why = 4) ∧ cause < 2 ^ 16 ∧ (d.members.any fun m => m.rank == r && m.away.isSome) = true then
        collAbort s id why (if why = 1 then cause else 0) r
      else s

/-- A data or barrier collective at issue (22 R470): the status or the ticket returns at once. -/
def collEff (e : Ext) (op : COp) (src dst len : Nat) (x : Exe) : Eff :=
  let g := e.imm.toNat % 256
  let c := collGroup x.s x.t.ctx g
  let rank := c.members.findIdx? (entryIs x.s x.t)
  let line := firstFrom 4 0 fun i => (tget CLine.init x.t.clines i).st == 0
  let t := x.t.send (.coll 0) .n x.pc x.len x.s.steps (x.t.dest e.f0)
  let ret (s : State) (v : Word) : Eff :=
    .ok (match s.op x.u x.t.nextOp with | some o => opReturn s x.u { o with res := [v] } | none => s)
  match (if c.st = 2 then rank else none) with
  | none => ret (x.s.setStrand x.u t) (negW 2)
  | some r =>
    if op ≠ .bar ∧ badLen len src dst = true then ret (x.s.setStrand x.u t) (negW 3)
    else
      match line with
      | none => ret (x.s.setStrand x.u t) (negW 1)
      | some i =>
        let seq := tget 0 c.seqs r
        let id := match x.s.colls.find? fun d => d.ctx == x.t.ctx && d.g == g && d.seq == seq with | some d => d.id | none => x.s.nextColl
        let s := setCollGroup x.s x.t.ctx g { c with seqs := tput c.seqs r (seq + 1) }
        let s := s.setStrand x.u { t with clines := tput t.clines i ⟨1, id, 0⟩ }
        ret (collJoin s x.t.ctx g c.members.length op len seq ⟨r, x.u, i, src, dst, none⟩) (w64 i)

def collForm (e : Ext) (lit : Option Word) : Form :=
  { len := lenOf lit, pendingClass := true, refs := [.r e.f0, .r e.f1, .r e.f2] ++ refF3 e lit }
def collData (e : Ext) (lit : Option Word) (op : COp) (x : Exe) : Eff :=
  collEff e op (x.t.reg e.f1).toNat (x.t.reg e.f2).toNat (x.f3 e lit) x
def rsOp (e : Ext) : COp := .rs (e.mode.toNat % 8) (fld e.mode.toNat 3 2)

def execCag (h : Hdr) (e : Ext) : State → Outcome := issue h (collForm e none) (collData e none .ag)
def execCagLit (h : Hdr) (e : Ext) (lit : Word) : State → Outcome := issue h (collForm e (some lit)) (collData e (some lit) .ag)
def execCrs (h : Hdr) (e : Ext) : State → Outcome := issue h (collForm e none) (collData e none (rsOp e))
def execCrsLit (h : Hdr) (e : Ext) (lit : Word) : State → Outcome :=
  issue h (collForm e (some lit)) (collData e (some lit) (rsOp e))
def execCa2a (h : Hdr) (e : Ext) : State → Outcome := issue h (collForm e none) (collData e none .a2a)
def execCa2aLit (h : Hdr) (e : Ext) (lit : Word) : State → Outcome :=
  issue h (collForm e (some lit)) (collData e (some lit) .a2a)
def execCbar (h : Hdr) (e : Ext) : State → Outcome :=
  issue h { len := lenExt, pendingClass := true, refs := [.r e.f0] } (collEff e .bar 0 0 0)

/-- CWAIT, CTEST (22 R474). -/
def execCwait (h : Hdr) (rd ra : Reg) : State → Outcome :=
  issue h { len := lenShort, pendingClass := true, refs := [.r rd, .r ra] } fun x =>
    x.send (.cwait ((x.t.reg ra).toNat % 4)) .n (x.t.dest rd)
def execCtest (h : Hdr) (rd ra : Reg) : State → Outcome :=
  issue h { len := lenShort, pendingClass := true, refs := [.r rd, .r ra] } fun x =>
    let l := tget CLine.init x.t.clines ((x.t.reg ra).toNat % 4)
    let v : Word := match l.st with | 0 => negW 1 | 1 => 0 | _ => l.res
    let s := x.s.setStrand x.u (x.t.send (.coll 0) .n x.pc x.len x.s.steps (x.t.dest rd))
    .ok (match s.op x.u x.t.nextOp with | some o => opReturn s x.u { o with res := [v] } | none => s)

/-- CWAIT at its line (22 R474): an aborted collective is a held fault once, and its word is the result after ERET. -/
def cwaitReturn (s : State) (u : Nat) (o : Op) (line : Nat) : State :=
  let t := s.strand u
  let l := tget CLine.init t.clines line
  match l.st with
  | 0 => opReturn s u { o with res := [negW 1] }
  | 1 => s
  | _ =>
    if fld l.res.toNat 0 8 = 2 ∧ o.prog = 0 then opFault s u { o with prog := 1 } { code := 25, sub := fld l.res.toNat 8 8 }
    else opReturn (s.setStrand u { t with clines := tdel t.clines line }) u { o with res := [l.res] }

/-! ## Data -/

def Coll.member (c : Coll) (r : Nat) : Option CollMember := c.members.find? fun m => m.rank == r

/-- A message between this package and a member's node (22 R460): it waits for a port, and is lost in the end. -/
def collAway {α : Type} (s : State) (c : Coll) (node : Nat) (wr : Bool) (go : State → Touch α) : Touch α :=
  let w := (s.ctx c.ctx).secure
  if nodeUp s w node then go s
  else
    let q := discardIn s w (nodeMsg wr node c.id)
    if q.2 then .lost q.1 0 else .wait q.1

/-- A sector read from a member's source (22 R468, R477); what another node sends is open. -/
def collRead (s : State) (c : Coll) (m : CollMember) (off : Nat) : Touch (List Byte) :=
  match m.away with
  | some node => collAway s c node false fun s => let f := openBytes 8 s; .done f.1 f.2
  | none =>
    let t := s.strand m.uid
    engineRead s (tlbCore t.pcore) c.ctx (m.src + off) 64 t.kern t.grp []

/-- A member's part as the engine that writes for it. -/
def CollMember.engine (s : State) (c : Coll) (m : CollMember) : Copy :=
  let t := s.strand m.uid
  { id := 0, uid := m.uid, core := t.pcore, kern := t.kern, grp := t.grp, ctx := c.ctx, nb := false, req := [], engine := none,
    lines := [], moved := 0, slot := 0, hva := 0, hash := [], err := none }

/-- A word of a sector is written at a member's destination (08 R203, 22 R471); on another node it changes nothing here, and its address
is none of this package's. -/
def collWrite (s : State) (c : Coll) (m : CollMember) (off : Nat) (bs : List Byte) : Touch Nat :=
  match m.away with
  | some node => collAway s c node true fun s => .done s (2 ^ 52)
  | none => engineWrite s (tlbCore (s.strand m.uid).pcore) (m.engine s c) (m.dst + off) bs (off % 64 == 0) (off % 64 == 56) none

/-- The source rank, the offset in its source, the offset in a destination and the receivers of a flow (22 R471, R473). -/
def Coll.flow (c : Coll) (f : Nat) : Nat × Nat × Nat × List Nat :=
  match c.op with
  | .ag => (f, 0, f * c.len, (upto c.n).map fun i => (f + i) % c.n)
  | .a2a => (f / c.n, f % c.n * c.len, f / c.n * c.len, [f % c.n])
  | .rs _ _ => (f, 0, 0, [f])
  | .bar => (0, 0, 0, [])

/-- The last partial of a chunk's sector: what every member's element comes to (22 R472). -/
def Coll.whole (c : Coll) (chunk sec : Nat) : Option RPart :=
  c.parts.find? fun p => p.chunk == chunk && p.sec == sec && decide (c.n ≤ 2 ^ p.level)

/-- Elements of a sector under a reduction type: element bytes, and the bytes of one in a partial (22 R472). -/
def rsSizes (ty op : Nat) : Nat × Nat :=
  match ty with | 0 => (16, 16) | 1 => (4, 4) | 2 => (2, if op = 0 then 4 else 2) | 3 => (4, 4) | _ => (8, 8)

/-- Two elements combined (22 R472), as numbers of n little-endian bytes. -/
def rsCombine (ty op a b : Nat) : Nat :=
  let pick (f : FFmt) (nan : Nat) : Nat :=
    if (decodeFlt f a).isNan || (decodeFlt f b).isNan then nan else (fpPick f (op == 1) a b).1
  match ty with
  | 0 => (a % 2 ^ 64 + b % 2 ^ 64) % 2 ^ 64 + (gridCombine (BitVec.ofNat 2 (a / 2 ^ 64)) (BitVec.ofNat 2 (b / 2 ^ 64))).toNat * 2 ^ 64
  | 1 => if op = 0 then (fpResult ((decodeFlt fp32 a).add (decodeFlt fp32 b))).1 else pick fp32 0x7FC00000
  | 2 => if op = 0 then (fpResult ((decodeFlt fp32 a).add (decodeFlt fp32 b))).1 else pick bf16 0x7FC0
  | _ =>
    let n := if ty = 3 then 32 else 64
    if op = 0 then (a + b) % 2 ^ n
    else if (decide (sgn n a < sgn n b)) == (op == 1) then b else a

/-- A member's sector as a partial: BF16 under ADD is widened exactly (22 R472). -/
def rsWiden (ty op : Nat) (bs : List Byte) : List Byte :=
  if ty = 2 ∧ op = 0 then (upto 32).flatMap fun i => leBytes 4 (recLE bs (2 * i) 2 * 2 ^ 16) else bs

/-- The sector that a whole reduction gives. -/
def rsFinal (ty op : Nat) (bs : List Byte) : List Byte :=
  if ty = 2 ∧ op = 0 then
    (upto 32).flatMap fun i => leBytes 2 (convertFlt bf16 .rne false (decodeFlt fp32 (recLE bs (4 * i) 4))).1
  else bs

def rsBytes (ty op : Nat) (a b : List Byte) : List Byte :=
  let n := (rsSizes ty op).2
  (upto (a.length / n)).flatMap fun i => leBytes n (rsCombine ty op (recLE a (n * i) n) (recLE b (n * i) n))

/-- The next reservation along a flow's traverse (22 R473). -/
def execCollectiveReservation (id flow : Nat) (s : State) : Outcome :=
  .next (
    match s.colls.find? fun c => c.id == id with
    | none => s
    | some c =>
      if c.op ≠ .ag ∨ c.n ≤ flow ∨ (c.member flow).isNone = true ∨ collTurn s c = false then s
      else
        let k := tget 0 c.resv flow
        match c.member ((flow + k + 1) % c.n) with
        | none => s
        | some _ => if c.n - 1 ≤ k then s else setColl s { c with resv := tput c.resv flow (k + 1) })

/-- The next word of a sector goes to the first member that still waits for it; members take it in their order. -/
def collDeliver (s : State) (c : Coll) (q : CSector) : State :=
  match q.todo with
  | [] => s
  | r :: rest =>
    match c.member r with
    | none => s
    | some m =>
      let others := c.moving.filter fun x => !(x.flow == q.flow && x.sec == q.sec)
      match collWrite s c m ((c.flow q.flow).2.2.1 + 64 * q.sec + q.got) ((q.bytes.drop q.got).take 8) with
      | .wait s => s
      | .fault s k => collAbort (setColl s { c with moving := others }) c.id 1 k.code r
      | .lost s _ => collAbort (setColl s { c with moving := others }) c.id 4 0 r
      | .done s pa =>
        collSettle (if q.got + 8 < 64 then setColl s { c with moving := others ++ [{ q with got := q.got + 8 }] }
          else if rest.isEmpty then cleanWord (setColl s { c with moving := others, done := c.done ++ [(q.flow, q.sec)]
                                                                  parts := c.parts.filter fun p => !(p.chunk == q.flow && p.sec == q.sec) }) pa
          else cleanWord (setColl s { c with moving := others ++ [{ q with todo := rest, got := 0 }] }) pa) c.id

/-- A sector of a flow: it is read at its source, or taken from the whole reduction, and each event hands one word of it to a
receiver, the receivers in their order (08 R203, 22 R471, R473). -/
def execCollectiveChunk (id flow sec : Nat) (s : State) : Outcome :=
  .next (
    match s.colls.find? fun c => c.id == id with
    | none => s
    | some c =>
      if c.flows ≤ flow ∨ c.secs ≤ sec ∨ c.done.contains (flow, sec) = true then s
      else
        match c.moving.find? fun q => q.flow == flow && q.sec == sec with
        | some q => collDeliver s c q
        | none =>
          if collTurn s c = false then s else
          let f := c.flow flow
          match c.op with
          | .rs ty op =>
            (match c.whole flow sec with
            | none => s
            | some p => collDeliver s c ⟨flow, sec, rsFinal ty op p.bytes, f.2.2.2, 0⟩)
          | _ =>
            if c.op = .ag ∧ tget 0 c.resv flow < c.n - 1 then s
            else
              match c.member f.1 with
              | none => s
              | some m =>
                match collRead s c m (f.2.1 + 64 * sec) with
                | .wait s => s
                | .fault s k => collAbort s id 1 k.code f.1
                | .lost s _ => collAbort s id 4 0 f.1
                | .done s bs => collDeliver s c ⟨flow, sec, bs, f.2.2.2, 0⟩)

/-- Nodes at a level of the tree over n members (22 R472). -/
def nodesAt (n level : Nat) : Nat := cdiv n (2 ^ level)

/-- The router that holds a partial until its sibling comes: that of the logical core of the member that its list names, in that member's
package (22 R466, R472). -/
def partEntry (s : State) (c : Coll) (p : RPart) : Nat := (collGroup s c.ctx c.g).members.getD (2 ^ p.level * 2 * (p.ix / 2)) 0
def partRouter (s : State) (c : Coll) (p : RPart) : Nat :=
  let e := partEntry s c p
  fld e 0 9 + if entryHere s e then 0 else 2 ^ 9 * (1 + fld e 32 16)

/-- Has a router no slot free for a partial, of its 16, once those that the partial takes in are gone (22 R477)? -/
def routerFull (s : State) (c : Coll) (p : RPart) : Bool :=
  let child (q : RPart) : Bool := q.chunk == p.chunk && q.sec == p.sec && q.level + 1 == p.level && q.ix / 2 == p.ix
  decide (16 ≤ (s.colls.flatMap fun d => d.parts.filter fun q =>
    q.spill.isNone && partRouter s d q == partRouter s c p && !(d.id == c.id && child q)).length)

/-- A child of a node: a member's sector, or the partial below, read back if it was spilled (22 R472, R477). -/
def rsChild (s : State) (c : Coll) (ty op chunk sec level ix : Nat) : Touch (List Byte) :=
  match c.parts.find? fun p => p.chunk == chunk && p.sec == sec && p.level == level && p.ix == ix with
  | some p =>
    (match p.spill with
    | some k => if p.bytes.length = 64 then .done s (readBytes s ((s.ctx c.ctx).rspb + 128 * k + 64) 64) else .done s p.bytes
    | none => .done s p.bytes)
  | none =>
    match if level = 0 then c.member ix else none with
    | none => .wait s
    | some m =>
      match collRead s c m (chunk * c.len + 64 * sec) with
      | .done s bs => .done s (rsWiden ty op bs)
      | t => t

/-- A member's sector that has come before its sibling waits in a slot of its router, if one is free (22 R477). -/
def holdLeaf (s : State) (c : Coll) (chunk sec level ix : Nat) (bs : List Byte) : State :=
  let p : RPart := ⟨chunk, sec, level, ix, bs, s.cycle, none⟩
  if level ≠ 0 ∨ (c.parts.any fun q => q.chunk == chunk && q.sec == sec && q.level == 0 && q.ix == ix) = true ∨ routerFull s c p = true then s
  else setColl s { c with parts := c.parts ++ [p] }

/-- A router combines two children, or an unpaired last one moves up unchanged (22 R472); one that has come alone waits there (22 R477). -/
def execReductionCombine (id chunk sec level ix : Nat) (s : State) : Outcome :=
  .next (
    match s.colls.find? fun c => c.id == id with
    | none => s
    | some c =>
      match c.op with
      | .rs ty op =>
        let have' := c.parts.any fun p => p.chunk == chunk && p.sec == sec && p.level == level + 1 && p.ix == ix
        let full := routerFull s c ⟨chunk, sec, level + 1, ix, [], 0, none⟩
        let moving := c.moving.any fun q => q.flow == chunk && q.sec == sec
        if collTurn s c = false ∨ c.n ≤ chunk ∨ c.secs ≤ sec ∨ nodesAt c.n level ≤ 1 ∨ nodesAt c.n (level + 1) ≤ ix ∨
            have' = true ∨ c.done.contains (chunk, sec) = true ∨ moving = true ∨ full = true then s
        else
          match rsChild s c ty op chunk sec level (2 * ix) with
          | .wait s =>
            if nodesAt c.n level ≤ 2 * ix + 1 then s
            else
              (match rsChild s c ty op chunk sec level (2 * ix + 1) with
              | .wait s => s
              | .fault s k => collAbort s id 1 k.code (2 * ix + 1)
              | .lost s _ => collAbort s id 4 0 (2 * ix + 1)
              | .done s b => holdLeaf s c chunk sec level (2 * ix + 1) b)
          | .fault s k => collAbort s id 1 k.code (2 * ix)
          | .lost s _ => collAbort s id 4 0 (2 * ix)
          | .done s a =>
            let put (s : State) (bs : List Byte) : State :=
              let kept := c.parts.filter fun p => !(p.chunk == chunk && p.sec == sec && p.level == level && p.ix / 2 == ix)
              setColl s { c with parts := kept ++ [⟨chunk, sec, level + 1, ix, bs, s.cycle, none⟩] }
            if nodesAt c.n level ≤ 2 * ix + 1 then put s a
            else
              match rsChild s c ty op chunk sec level (2 * ix + 1) with
              | .wait s => holdLeaf s c chunk sec level (2 * ix) a
              | .fault s k => collAbort s id 1 k.code (2 * ix + 1)
              | .lost s _ => collAbort s id 4 0 (2 * ix + 1)
              | .done s b => put s (rsBytes ty op a b)
      | _ => s)

/-- A partial that has waited 65,536 cycles goes to a spill record, if one is free (22 R477). -/
def execReductionPartialSpill (id chunk sec level ix : Nat) (s : State) : Outcome :=
  .next (
    match s.colls.find? fun c => c.id == id with
    | none => s
    | some c =>
      let x := s.ctx c.ctx
      let used := s.colls.flatMap fun d => if d.ctx = c.ctx then d.parts.filterMap (·.spill) else []
      match c.parts.find? fun p => p.chunk == chunk && p.sec == sec && p.level == level && p.ix == ix && p.spill.isNone,
          firstFrom x.rspn 0 fun k => !used.contains k with
      | some p, some k =>
        if s.cycle < p.since + 65536 ∨ c.n ≤ 2 ^ p.level ∨ entryHere s (partEntry s c p) = false then s
        else
          let s := homeWrite s (x.rspb + 128 * k) ((upto 64).map (Config.privateByte (id * 2 ^ 32 + level)) ++ p.bytes.take 64)
          setColl s { c with parts := c.parts.map fun q => if q = p then { q with spill := some k } else q }
      | _, _ => s)

end Sys2Proof.Machine
end

