-- ==== Sys2Proof/Machine/Det.lean ====
section
/-! DEFINITION. Deterministic mode (19 R423, R424): the events of a kernel that runs in it, in one fixed order (log entry 97). -/

namespace Sys2Proof.Machine
open Sys2Proof

/-- Strands of a kernel in ascending logical core and slot (19 R423). -/
def byPlace (e : Nat × Nat) : List (Nat × Nat) → List (Nat × Nat)
  | [] => [e]
  | x :: l => if e.1 < x.1 then e :: x :: l else x :: byPlace e l
def detStrands (s : State) (kid : Nat) : List Nat :=
  ((s.strands.filter fun t => t.2.kern == kid && t.2.st != .ended).foldl
    (fun l t => byPlace (16 * t.2.lcore + t.2.lslot, t.1) l) []).map (·.2)

/-- What may become of an outstanding operation. -/
noncomputable def opMoves (u id : Nat) : List Instr :=
  [Instr.pendingReturn u id, Instr.readAtHome u id, Instr.atomicAtHome u id, Instr.acqAtHome u id, Instr.waitwRegister u id,
    Instr.watchPoll u id, Instr.handleHomePerform u id, Instr.dequeUnitPerform u id, Instr.barrierUnitPerform u id, Instr.barrierPoll u id]

/-- Events of a strand: its queues, its port neighbours, and its operations in issue order. -/
noncomputable def strandMoves (u : Nat) (t : Strand) : List Instr :=
  let queues : List Instr := [Instr.repIterationIssue u, Instr.vectorPerform u]
  let ports : List Instr := (upto 16).map (Instr.portClosedNotice u)
  let ops : List Instr := t.ops.flatMap fun o => opMoves u o.id
  List.flatten [queues, ports, ops]

/-- Events of a load that streams. -/
noncomputable def streamMoves (c ctx : Nat) (e : EngOp) : List Instr :=
  let heads : List Instr := [Instr.sectorRequest c ctx e.seq, Instr.traverseReservation c ctx e.seq, Instr.traverseData c ctx e.seq]
  let replies : List Instr := e.flight.map fun f => Instr.sectorReply c ctx e.seq f.t
  List.append heads replies

/-- Events of what a core's units hold for a context. -/
noncomputable def coreMoves (s : State) (ctx : Nat) (cs : List Nat) (c : Nat) : List Instr :=
  let p := s.part c ctx
  let cl := coreCluster c
  let units : List Instr := [Instr.releasePerform c, Instr.acqrelExchange c, Instr.scopeMissHandle c, Instr.treeUnitPerform c ctx,
    Instr.laneGrant cl, Instr.gatherPerform cl, Instr.noiseWordDelivery cl]
  let binds : List Instr := cs.map (Instr.bindPropagate c)
  let probes : List Instr := List.append ((upto 64).map (Instr.probeEcho c false)) ((upto 9).map (Instr.probeEcho c true))
  let queue : List Instr := p.eq.flatMap fun e => [Instr.engineOpPerform c ctx e.seq, Instr.sliceRerun c ctx e.seq]
  let streams : List Instr := p.streams.flatMap (streamMoves c ctx)
  List.flatten [units, binds, probes, queue, streams]

/-- Places in a list of the entries that some strands own. -/
def placesOf {α : Type} (l : List α) (own : α → Bool) : List Nat :=
  (upto l.length).filter fun i => match l[i]? with | some x => own x | none => false

/-- Events of a copy: on its engine, or taken by one of its die. -/
noncomputable def copyMoves (c : Copy) : List Instr :=
  match c.engine with
  | some e => [Instr.copyStart c.core e, Instr.copyComplete e, Instr.copyError e]
  | none => (upto 24).map fun i => Instr.copyStart c.core (24 * coreDie c.core + i)

/-- Events of a collective. -/
noncomputable def collMoves (c : Coll) : List Instr :=
  let resv : List Instr := (upto c.n).map (Instr.collectiveReservation c.id)
  let chunks : List Instr := (upto c.flows).flatMap fun f => (upto c.secs).map (Instr.collectiveChunk c.id f)
  let sums : List Instr := (upto c.n).flatMap fun ch => (upto c.secs).flatMap fun i => (upto 11).flatMap fun l =>
    (upto c.n).map (Instr.reductionCombine c.id ch i l)
  List.flatten [resv, chunks, sums]

/-- Events that carry messages of some strands: their writes, port values, credits, copies and collectives. -/
noncomputable def carryMoves (s : State) (us : List Nat) : List Instr :=
  let stores : List Instr := (placesOf s.writes fun w => us.contains w.uid).map fun i => Instr.storeAtHome i ⟨0, [], false, 0, false, false, 0, 0⟩
  let values : List Instr := (placesOf s.pushes fun m => us.contains m.src).map Instr.portValueLand
  let credits : List Instr := (placesOf s.credits fun m => us.contains m.1).map Instr.portCreditReturn
  let copies : List Instr := (s.copies.filter fun c => us.contains c.uid).flatMap copyMoves
  let colls : List Instr := (s.colls.filter fun c => c.members.any fun m => us.contains m.uid).flatMap collMoves
  List.flatten [stores, values, credits, copies, colls]

/-- Events of the fold engines for a context. -/
noncomputable def foldMoves (s : State) (ctx : Nat) : List Instr :=
  (s.folds.filter fun j => j.ctx == ctx).flatMap fun j => [Instr.foldJobStart j.die, Instr.foldCommit j.die, Instr.foldFail j.die]

/-- Events of a group's idle monitor: the notices on their way to it, then its strands' SUSPENDs (17 R385). -/
noncomputable def monitorMoves (kid : Nat) (us : List Nat) (g : Group) : List Instr :=
  List.append ((upto g.notes.length).map (Instr.idleMonitorTest kid g.num 0)) (us.map fun u => Instr.idleMonitorTest kid g.num u g.notes.length)

/-- Every event that is a deterministic kernel's own, in its fixed order: ascending logical core, logical slot and issue (19 R423). -/
noncomputable def detEvents (s : State) (kid : Nat) : List Instr :=
  let k := s.kern kid
  let us := detStrands s kid
  let cs := k.coresNow
  let groups : List Instr := k.groups.flatMap fun g => [Instr.groupPlacement kid g.num, Instr.portDeadlock kid g.num]
  let strands : List Instr := us.flatMap fun u => strandMoves u (s.strand u)
  let cores : List Instr := cs.flatMap (coreMoves s k.ctx cs)
  let monitors : List Instr := k.groups.flatMap (monitorMoves kid us)
  List.flatten [groups, [Instr.kernelCompletion kid], strands, monitors, cores, carryMoves s us, foldMoves s k.ctx]

/-- Is a move a deterministic kernel's own: a turn of one of its strands, or one of its events? -/
noncomputable def detMove (s : State) (kid : Nat) (m : Move) : Bool :=
  match m with
  | .issue u => (s.strand u).kern == kid && (s.strand u).st != .ended
  | .event i => (detEvents s kid).contains i
  | _ => false

/-- The deterministic kernel that a move belongs to. -/
noncomputable def detOwner (s : State) (m : Move) : Option Nat := (s.kernels.find? fun k => k.2.lockstep && detMove s k.1 m).map (·.1)

/-- Is a deterministic kernel pre-empted: what its cores have under way ends before they are saved (20 R437)? -/
def detOff (s : State) (kid : Nat) : Bool := let k := s.kern kid; k.coresNow.any fun c => s.off c k.ctx

/-- May a move be taken freely? One that belongs to a deterministic kernel comes in its fixed place only (19 R423). -/
noncomputable def freeMove (s : State) (m : Move) : Bool := match detOwner s m with | some kid => detOff s kid | none => true

/-- A sweep of a deterministic kernel is due: in every cycle of its common sequence that is a multiple of its fixed latency and one, all its
events come, each in its fixed place; late replies freeze its cores first (19 R423). -/
noncomputable def sweepKernel (s : State) (kid : Nat) (k : Kernel) : Kernel :=
  if k.lockstep && !detStill s kid && k.todo.isEmpty && decide (k.swept < k.detCyc) && k.detCyc % (Config.detLatency k.kaddr + 1) == 0 then
    { k with swept := k.detCyc, todo := detEvents s kid, hold := 16 * Config.detLate s.tick }
  else k
noncomputable def sweepDet (s : State) : State := { s with kernels := s.kernels.map fun k => (k.1, sweepKernel s k.1 k.2) }

/-- The next event of a sweep that has begun, and the state without it. -/
def sweepNext (s : State) : Option (Instr × State) :=
  match s.kernels.find? fun k => k.2.lockstep && !k.2.todo.isEmpty && !detStill s k.1 with
  | none => none
  | some k => k.2.todo.head?.map fun i => (i, s.setKern k.1 { k.2 with todo := k.2.todo.drop 1 })

/-- A move of a deterministic kernel takes the values that the spec leaves open from that kernel's own place among them, so that two runs take
the same (19 R424). -/
def inDet (s : State) (kid : Nat) (f : State → Outcome) : Outcome :=
  match f { s with free := (s.kern kid).detFree } with
  | .next t => .next { t.modKern kid fun k => { k with detFree := t.free } with free := s.free }
  | o => o

end Sys2Proof.Machine
end

