-- ==== Sys2Proof/Machine/Link.lean ====
section
/-! DEFINITION. Clavos ports, messages to unreachable nodes, and the mesh counts (22 R456 to R462). -/

namespace Sys2Proof.Machine
open Sys2Proof

/-- STATE and the words of a port-table entry (22 R457). -/
def ClavosSt.code : ClavosSt → Nat
  | .down => 0 | .training => 1 | .up => 2 | .narrowed => 3 | .fenced => 4
def Clavos.hi (c : Clavos) : Nat := c.rply % 2 ^ 32 + c.cerr % 2 ^ 32 * 2 ^ 32
def Clavos.lo (c : Clavos) (secure : Bool) : Nat :=
  c.st.code + c.lanes % 16 * 2 ^ 4 + b2n secure * 2 ^ 8 + c.chg % 2 ^ 8 * 2 ^ 16 + c.peer % 2 ^ 16 * 2 ^ 48

def State.clav (s : State) (p : Nat) : Clavos := tget Clavos.init s.clavos p
def portSecure (s : State) (p : Nat) : Bool := cfgBit s (1708 + p)

/-- The command processor rewrites an entry: its high atom, then its low one with the order tag (22 R457). -/
def writePort (s : State) (p : Nat) : State :=
  let a := cfgLE s (0x5C0 + 24) 8 + 16 * p
  releaseWrite (homeWrite s (a + 8) (leBytes 8 (s.clav p).hi)) a ((s.clav p).lo (portSecure s p)) (mkTag .system cpParty)

/-- Does a port carry traffic? -/
def Clavos.live (c : Clavos) : Bool := match c.st with | .up | .narrowed => true | _ => false

/-- A port changes its state (22 R457, R458); where it carries traffic from now on, messages of its world that waited may go (22 R460). -/
def portState (s : State) (p : Nat) (st : ClavosSt) (lanes peer : Nat) : State :=
  let c := s.clav p
  let c' := { c with st := st, lanes := lanes, peer := peer, chg := (c.chg + 1) % 2 ^ 8, since := s.cycle }
  writePort { s with clavos := tput s.clavos p c'
                     unreach := s.unreach.filter fun e => !(c'.live && bit (msgMask s e.2.1) p && e.1 == portSecure s p) } p

/-- LINKUP, or bring-up with the port enabled (22 R458). -/
def trainPort (s : State) (p : Nat) : State :=
  match (s.clav p).st with | .down | .fenced => portState s p .training 0 (s.clav p).peer | _ => s
def fencePort (s : State) (p : Nat) : State := if (s.clav p).live then portState s p .fenced 0 (s.clav p).peer else s
def downPort (s : State) (p : Nat) : State := if (s.clav p).st = .down then s else portState s p .down 0 0xFFFF

/-- Training ends: 8 lanes trained within 2^24 cycles, or fewer by then (22 R458). -/
def execPortTrainingEnd (port lanes peer : Nat) (s : State) : Outcome :=
  .next (
    let c := s.clav port
    let node := if peer < 0xFFFF then peer else 0xFFFF
    if 32 ≤ port ∨ c.st ≠ .training ∨ 8 < lanes then s
    else if lanes = 8 then portState s port .up 8 node
    else if s.cycle < c.since + 2 ^ 24 then s
    else if 4 ≤ lanes then portState s port .narrowed 4 node
    else if 2 ≤ lanes then portState s port .narrowed 2 node
    else downPort s port)

/-- A lane fails in service and so many still work (22 R458). -/
def execLaneFailure (port working : Nat) (s : State) : Outcome :=
  .next (
    let c := s.clav port
    if 32 ≤ port ∨ c.live = false ∨ c.lanes ≤ working then s
    else if working < 2 then downPort s port
    else portState s port .narrowed (if 4 ≤ working then 4 else 2) c.peer)

/-- A flit is corrected or replayed; the 4,096th replay between two dumps fences the port (22 R457, R458). -/
def execFlitReplay (port : Nat) (corrected : Bool) (s : State) : Outcome :=
  .next (
    let c := s.clav port
    if 32 ≤ port ∨ c.live = false then s
    else if corrected then { s with clavos := tput s.clavos port { c with cerr := (c.cerr + 1) % 2 ^ 32 } }
    else
      let s := { s with clavos := tput s.clavos port { c with rply := (c.rply + 1) % 2 ^ 32, recent := c.recent + 1 } }
      if 4096 ≤ c.recent + 1 then fencePort s port else s)

/-- A message found waiting is noted; after 2^20 cycles it is discarded and reported (22 R460, 23 R491). -/
def discard (s : State) (k : Bool × Nat × Nat) (ctx core pa : Nat) (f : State → State) : State :=
  let r := discarded s k pa
  if r.2 then report (f r.1) 4 ctx 33 0xFF core pa else r.1

/-- A read whose message was discarded returns bytes that the spec leaves open. -/
def endLost (s : State) (u : Nat) (o : Op) : State :=
  match o.kind with
  | .load _ n sx pair =>
    let r := openBytes 2 s
    opDone r.1 u o (loadRes (r.2.take n) n sx pair o.dests.length)
  | .wfill _ n =>
    let r := openBytes n s
    opDone r.1 u o ((upto n).map fun i => w64 (recLE r.2 (8 * i) 8))
  | .plnew q base va =>
    let r := openBytes 8 s
    let t := r.1.strand u
    (match platReason r.1 t.ctx r.2 base with
    | some k => opFault r.1 u o { code := 26, sub := k, addr := va }
    | none =>
      opDone (r.1.setStrand u { t with plats := tput t.plats q ⟨true, r.2, va, base, (upto 5).map (platBox r.2), false⟩ }) u o [])
  | _ => s

/-- The fabric address of a read, if it goes there and no port carries it. -/
def lostRead (s : State) (u : Nat) (o : Op) : Option Nat :=
  match o.kind with
  | .load va n _ _ =>
    (match (siteOf s (s.strand u) va n .read).2 with | .ok w => if homeOf s w.pa = .host ∧ w.loc = false then some w.pa else none | .error _ => none)
  | .wfill va _ =>
    (match (siteOf s (s.strand u) va 8 .read).2 with | .ok w => if homeOf s w.pa = .host ∧ w.loc = false then some w.pa else none | .error _ => none)
  | .plnew _ _ va =>
    (match (siteOf s (s.strand u) va 64 .read).2 with | .ok w => if homeOf s w.pa = .host ∧ w.loc = false then some w.pa else none | .error _ => none)
  | _ => none

/-- A message for a node with no port in UP or NARROWED (22 R460): write number id of the store paths, or the read of an
operation. -/
def execMessageDiscard (wr : Bool) (uid id : Nat) (s : State) : Outcome :=
  .next (
    if wr then
      match s.writes[id]? with
      | none => s
      | some w =>
        if homeOf s w.pa ≠ .host ∨ fabricUp s w.pa = true then s
        else discard s (true, w.uid, w.seq) w.ctx w.core w.pa fun s => { s with writes := ldel s.writes id }
    else
      onSent s uid id fun o =>
        match lostRead s uid o with
        | none => s
        | some pa =>
          if fabricUp s pa then s
          else discard s (false, uid, id) (s.strand uid).ctx (s.strand uid).pcore pa fun s => endLost s uid o)

/-- The host, or another node, writes its own memory, within a sector: no message reaches the package (06 R146; log entry 20). -/
def nodeWrite (s : State) (pa : Nat) (bs : List Byte) : State :=
  if homeOf s pa = .host ∧ pa % 64 + bs.length ≤ 64 then homeWrite s pa bs else s

/-- An error in an ECC word: one that is corrected counts at its slice or port, any other makes the word read poisoned (06
R159). -/
def upsetWord (s : State) (pa : Nat) (fixed : Bool) : State :=
  match homeOf s pa, fixed with
  | .hole, _ | .host, _ => s
  | .window _ _, true => s
  | _, true => { s with ecc := tput s.ecc (homeId s pa) (tget 0 s.ecc (homeId s pa) + 1) }
  | _, false => { s with poison := if s.poison.contains (eccWord pa) then s.poison else eccWord pa :: s.poison }

/-- Does the grid have a link from a router's core: 0 east, 1 west, 2 north, 3 south (22 R461, R462)? -/
def linkExists (n l : Nat) : Bool :=
  match l with | 0 => coreCol n != 31 | 1 => coreCol n != 0 | 2 => coreRow n != 0 | _ => coreRow n != 15

/-- The counts of a dump (22 R462): what a router has sent and stalled is a matter of timing. -/
def dumpBytes (k : Nat) : List Byte :=
  (upto 8192).flatMap fun i => leBytes 8 (if linkExists (i / 16) (i / 4 % 4) then (Config.meshCount k i).toNat else 0)

/-- The device dumps every count, and rewrites the port table (22 R457, R462). The dumps are numbered from 1. -/
def execMeshCountDump (s : State) : Outcome :=
  .next (
    let a := cfgLE s (0x5C0 + 32) 8
    let k := s.meshDump
    if a = 0 ∨ s.phase ≠ 5 ∨ s.cycle < (k + 1) * 2 ^ 20 then s
    else
      let s := homeWrite s (a + 64 + k % 2 * 65536) (dumpBytes k)
      let s := homeWrite s (a + 8) (leBytes 8 s.cycle ++ leBytes 8 (k % 2) ++ leBytes 40 0)
      let s := releaseWrite s a (k + 1) (mkTag .system cpParty)
      let s := { s with meshDump := k + 1, clavos := s.clavos.map fun c => (c.1, { c.2 with recent := 0 }) }
      (upto 32).foldl writePort s)

end Sys2Proof.Machine
end

