-- ==== Sys2Proof/Machine/Power.lean ====
section
/-! DEFINITION. The configuration record, bring-up, the management connector, and the removal of power (24 R492 to R499, 06 R512). -/

namespace Sys2Proof.Machine
open Sys2Proof

/-- Length of a record with its signatures (24 R492). -/
def recordLen (b : List Byte) : Nat := 0x7C0 + 16 * recLE b 10 2 + 64 * recLE b 12 1 + 128

/-- SIGD and SIGO of a record, under Decgor's key (24 R492). -/
def signedUnder (key : List Byte) (b : List Byte) : Bool :=
  let n := recordLen b
  ecdsaOk (sha256 (b.take 0xC0)) key ((b.drop (n - 128)).take 64) &&
    ecdsaOk (sha256 (b.take (n - 64))) ((b.drop 0x80).take 64) ((b.drop (n - 64)).take 64)

def signaturesOk (b : List Byte) : Bool := signedUnder Config.decgorKey b

/-- HDR (24 R492). -/
def hdrOk (b : List Byte) : Bool :=
  recLE b 0 4 == 0x31474643 && decide (recLE b 8 2 ≤ 65534) && decide (recLE b 10 2 ≤ 256) && decide (recLE b 12 1 ≤ 16) &&
    decide (recLE b 13 1 ≤ 32) && recLE b 15 49 == 0

/-- BWORLD (24 R493): the cores and the gather engine of a cluster share a world. -/
def worldsOk (b : List Byte) : Bool :=
  let w := recLE b 0x4C0 256
  ((upto 308).all fun i => !bit w (1740 + i)) && (upto 64).all fun c => (clusterCores c).all fun n => bit w n == bit w (612 + c)

/-- A granule range: its base, size and world (24 R494). -/
def rangeAt (b : List Byte) (i : Nat) : Nat × Nat := (recLE b (0x7C0 + 16 * i) 8, recLE b (0x7C0 + 16 * i + 8) 4 * 2 ^ 21)

/-- Does a range lie in the map of R146, outside on-chip windows and holes (24 R494)? -/
def rangeIn (base size : Nat) : Bool :=
  decide (base + size ≤ 2 ^ 39) || decide (0x200000000000 ≤ base) && decide (base + size ≤ 0x400000000000) ||
    decide (0x8000000000000 ≤ base) && decide (base + size ≤ 0x10000000000000)

def rangesOk (b : List Byte) : Bool :=
  let n := recLE b 10 2
  (upto n).all fun i =>
    let r := rangeAt b i
    r.1 % 2 ^ 21 == 0 && r.2 != 0 && decide (r.2 ≤ 2 ^ 52) && decide (recLE b (0x7C0 + 16 * i + 12) 1 < 2) &&
      recLE b (0x7C0 + 16 * i + 13) 3 == 0 && rangeIn r.1 r.2 &&
      (upto n).all fun j => j == i || decide (r.1 + r.2 ≤ (rangeAt b j).1) || decide ((rangeAt b j).1 + (rangeAt b j).2 ≤ r.1)

/-- The route entries of FABRIC: after the end of the list every entry is zero (24 R495). -/
def routesOk : Nat → List Byte → Bool → Bool
  | 0, _, _ => true
  | n + 1, b, ended =>
    let e := leNat (b.take 8)
    if ended then e == 0 && routesOk n (b.drop 8) true
    else e / 2 ^ 48 == 0 && routesOk n (b.drop 8) (e % 2 ^ 16 == 0xFFFF)

def fabricOk (b : List Byte) : Bool := recLE b (0x5C0 + 18) 6 == 0 && routesOk 58 (b.drop (0x5C0 + 48)) false

/-- The record meets R492 to R495. -/
def configOk (b : List Byte) : Bool :=
  decide (recordLen b ≤ b.length) && hdrOk b && worldsOk b && rangesOk b && fabricOk b

/-- The bytes that the devices behind a second-tier port hold: at most 1 TiB in DDR mode and 4 TiB in CXL mode (06 R512). -/
def portBytes (b : List Byte) (i gib : Nat) : Nat := min gib (if bit (recLE b 14 1) i then 4096 else 1024) * 2 ^ 30

/-- Does no range cover what a second-tier port's window holds above its memory (24 R494, 06 R146, R512)? -/
def rangesFilled (b : List Byte) (pop : List Nat) : Bool :=
  (upto (recLE b 10 2)).all fun i => (upto 8).all fun p =>
    let r := rangeAt b i
    let lo := 0x200000000000 + p * 2 ^ 42 + portBytes b p (pop.getD p 0)
    let hi := 0x200000000000 + (p + 1) * 2 ^ 42
    decide (r.1 + r.2 ≤ lo) || decide (hi ≤ r.1) || decide (hi ≤ lo)

/-- Bring-up ends in FAILED (24 R498). -/
def bringFail (s : State) (code : Nat) : State := { s with phase := 15, failCode := code }

/-- A firmware image ends in its signature under Decgor's key (24 R497; log entry 100). -/
def imageBody (b : List Byte) : List Byte := b.take (b.length - 64)
def imageOk (b : List Byte) : Bool := ecdsaOk (sha256 (imageBody b)) Config.decgorKey (b.drop (b.length - 64))
def firmwareOk (fw : List (List Byte)) : Bool := !fw.isEmpty && fw.all imageOk

/-- Bring-up with what it finds: the record and the firmware images in module flash, the memory behind each second-tier port in GiB, and
whether the key is derived and the memory trains (24 R498). -/
def bringUp (s : State) (flash : List Byte) (pop : List Nat) (ident : Bool) (fw : List (List Byte)) (train : Bool) : State :=
  if !ident then bringFail s 6
  else if !firmwareOk fw then bringFail s 1
  else if !signaturesOk flash then bringFail s 2
  else if !configOk flash || !rangesFilled flash pop then bringFail s 3
  else
    let s := { s with config := flash.take (recordLen flash), fwHash := sha256 (fw.flatMap imageBody) }
    if !train then bringFail s 5
    else
      let s := { s with populated := (upto 8).map fun i => (i, portBytes flash i (pop.getD i 0))
                        mem := s.mem.filter fun c => decide (2 ^ 39 ≤ c.1)
                        poison := s.poison.filter fun a => decide (2 ^ 39 ≤ a)
                        phase := 5 }
      (upto 32).foldl (fun s p => if bit (cfgLE s (0x5C0 + 40) 4) p then trainPort s p else s) s

/-- Power-up (24 R498). -/
def execPowerUp (flash : List Byte) (pop : List Nat) (ident : Bool) (fw : List (List Byte)) (train : Bool) (s : State) : Outcome :=
  .next (if s.phase = 0 then bringUp s flash pop ident fw train else s)

/-- Power is removed: what is on the dies is gone; memory beyond second tier is not the package's (24 R498). -/
def execPowerRemoval (s : State) : Outcome :=
  .next { State.reset with mem := s.mem.filter fun c => decide (0x8000000000000 ≤ c.1)
                           free := s.free, tick := s.tick, steps := s.steps, agenda := s.agenda }

/-- The status word of the management connector (24 R499). -/
def connectorStatus (s : State) : Nat :=
  s.phase % 16 + s.failCode % 256 * 2 ^ 8 + cfgLE s 4 4 % 2 ^ 16 * 2 ^ 16 +
    ((upto 512).filter fun n => bit (cfgLE s (0x40 + n / 8) 1) (n % 8)).length % 2 ^ 16 * 2 ^ 32

/-- The eight bytes that the management connector gives at an offset (24 R499): the status word, the key, the populated sizes, the
chain; NOTREADY elsewhere. -/
def connectorRead (s : State) (off : Nat) : Nat :=
  let known := decide (1 < s.phase) && s.failCode != 6
  if off = 0 then connectorStatus s
  else if 8 ≤ off ∧ off < 0x48 then (if known then recLE identityKey (off - 8) 8 else 0)
  else if 0x80 ≤ off ∧ off < 0xC0 then tget 0 s.populated ((off - 0x80) / 8)
  else if 0x100 ≤ off ∧ off < 0x100 + Config.certChain.length then (if known then recLE Config.certChain (off - 0x100) 8 else 0)
  else 0x09

end Sys2Proof.Machine
end

