-- ==== Sys2Proof/Machine/Commands.lean ====
section
/-! DEFINITION. The commands of the system queue, but for LOADOBJ (20 R430 to R434, 21 R447, R448, 22 R459, 23 R482, 25 R500 to R503). -/

namespace Sys2Proof.Machine
open Sys2Proof

/-- Status codes (20 R433, 25 R500). -/
def cOk : Nat := 0
def cBad : Nat := 1
def cBusy : Nat := 2
def cNoCtx : Nat := 3
def cWorld : Nat := 4
def cNoStrand : Nat := 10

/-- The control block of the system queue (24 R495); its slots lie at a physical BASE. -/
def sysBlock (s : State) : Nat := cfgLE s 0x5C0 8

/-- The posted command at the head of the system queue, which is open at READY (21 R449, R450, 24 R498). -/
def sysHead (s : State) : Option Nat :=
  let b := sysBlock s
  let wi := readLE s (b + 16) 8
  let ri := readLE s (b + 24) 8
  if s.phase = 5 ∧ ri < wi then some (readLE s b 8 + 128 * (ri % 2 ^ readLE s (b + 32) 1)) else none

/-- A command has been performed: its status, then RIDX, each with the order tag (20 R432, 21 R450). -/
def sysDone (s : State) (pa status : Nat) : State :=
  let b := sysBlock s
  let s := releaseWrite s (pa + 16) status (mkTag .system cpParty)
  releaseWrite s (b + 24) ((readLE s (b + 24) 8 + 1) % 2 ^ 64) (mkTag .system cpParty)

/-- The requester's world: that of the granule that holds the system queue, which only its own world can write. -/
def reqSecure (s : State) : Bool := granuleSecure s (sysBlock s)

/-- Performing command number n when it is at the head; f gives its effect, from the operand, and its status, or none while it has still to
wait at the head. A nonzero byte 31:24 is BADCCB. -/
def commandOf (n : Nat) (f : State → Nat → State × Option Nat) (s : State) : Outcome :=
  .next (
    match sysHead s with
    | none => s
    | some pa =>
      if readLE s pa 8 ≠ n then s
      else
        let r := if readLE s (pa + 24) 8 ≠ 0 then (s, some cBad) else f s (readLE s (pa + 8) 8)
        match r.2 with
        | some st => sysDone r.1 pa st
        | none => r.1)

/-- A command that is performed at once. -/
def command (n : Nat) (f : State → Nat → State × Nat) : State → Outcome := commandOf n fun s a => let r := f s a; (r.1, some r.2)

/-- A non-secure requester that names something secure. -/
def foreign (s : State) (secure : Bool) : Bool := secure && !reqSecure s

/-- A context that commands can name: BUILT or ACTIVE. -/
def liveCtx (s : State) (c : Nat) : Bool := (s.ctx c).live

/-! ## CREATE and DESTROY -/

/-- Fields of a context control block (20 R430). -/
def blkW (b : List Byte) (i : Nat) : Nat := recLE b (8 * i) 8

/-- Addresses of the block that are physical; a register's reserved bits are ignored (07 R175, 12 R282, 16 R357). -/
def blkAddrs (b : List Byte) : List Nat := ([1, 2, 5, 7, 10].map fun i => keep (blkW b i) 0 52) ++ [14, 17, 18].map (blkW b)

/-- A block that meets R430. -/
def blockOk (pa : Nat) (b : List Byte) : Bool :=
  pa % 256 == 0 && decide (pa < 2 ^ 39) && blkW b 0 == 0 && recLE b 208 48 == 0 && blkW b 21 / 2 ^ 13 == 0 &&
    (blkAddrs b).all (decide <| · < 2 ^ 39) && decide (blkW b 6 % 2 ^ 13 ≤ 4096) && (blkW b 24 == 0 || 16 ≤ blkW b 24 && blkW b 24 ≤ 30) &&
    (if blkW b 24 = 0 then blkW b 25 == 0 else blkW b 25 % 2 ^ blkW b 24 == 0) &&
    blkW b 23 % 4096 == 0 && 10 ≤ blkW b 22 && blkW b 22 ≤ 20 && 65536 ≤ blkW b 20 && decide (blkW b 20 < 2 ^ 32) &&
    4096 ≤ blkW b 19 && decide (blkW b 19 ≤ 2 ^ 24) && blkW b 18 % 4096 == 0 && blkW b 17 % 4096 == 0

/-- The context that a block describes (20 R430, R431). -/
def ctxOf (b : List Byte) : Ctx :=
  let regs := [(0x20, 1), (0x21, 2), (0x08, 3), (0x09, 4), (0x26, 5), (0x27, 6), (0x22, 7), (0x23, 8), (0x24, 9), (0x2A, 10),
    (0x2B, 11), (0x29, 12), (0x28, 13), (0x2E, 14), (0x2F, 15)]
  let x := regs.foldl (fun x r => ctxWrite x r.1 (blkW b r.2)) Ctx.init
  { x with st := .built, secure := bit (blkW b 21) 12, seed := w64 (blkW b 16), saveb := blkW b 17, spqb := blkW b 18,
           spqn := blkW b 19, rbound := blkW b 20, wsplg := blkW b 22, wspb := blkW b 23, arglg := blkW b 24, argb := blkW b 25 }

def execCreate : State → Outcome :=
  command 1 fun s pa =>
    let b := readBytes s pa 256
    let c := blkW b 21 % 2 ^ 12
    let w := bit (blkW b 21) 12
    if !blockOk pa b then (s, cBad)
    else if (s.ctx c).st ≠ .free then (s, cBusy)
    else if foreign s w || (pa :: blkAddrs b).any fun a => granuleSecure s a != w then (s, cWorld)
    else (s.setCtx c (ctxOf b), cOk)

/-- Every strand of a context, those that have ended among them; those that hold a slot or a record. -/
def allStrands (s : State) (c : Nat) : List Nat := (s.strands.filter fun t => t.2.ctx == c).map (·.1)
def ctxStrands (s : State) (c : Nat) : List Nat := (s.strands.filter fun t => t.2.ctx == c && t.2.st != .ended).map (·.1)

/-- A kernel of the context ends ABORTED, with no completion record (20 R434). -/
def stopKernel (s : State) (kid : Nat) : State := s.modKern kid fun k => { k with st := .aborted, owes := none, sigOwed := false }

/-- What a kernel had reserved is free (20 R434). -/
def freeKernel (s : State) (kid : Nat) : State :=
  let k := s.kern kid
  let s := k.groups.foldl (fun s g => clearEnts (if g.st == .resident then endGroup s kid g.num else s) kid g.num) s
  s.modKern kid fun k => { k with groups := k.groups.map fun g => { g with st := .ended } }

/-- Fold jobs of the context fail: FOLD is cleared, FRES is not written (13 R313). One that commits goes on, and one whose record lies on a
write-blocked page waits (07 R181). -/
def stopFolds (s : State) (c : Nat) : State :=
  (s.folds.filter fun j => j.ctx == c && j.st != 2).foldl (fun s j =>
    let a := hSite j.record (foldXl s j.die c j.record .both)
    let gone (s : State) : State := { s with folds := s.folds.erase j }
    match a.2 with
    | .ok pa => gone (hWriteRec a.1 pa ((hReadRec a.1 pa).setStat 1 1 0))
    | .error none => a.1
    | .error (some _) => gone a.1) s

/-- Copies end with CANCEL, which posts no record and performs no Complete(); a gather into a scratchpad that a pre-emption has saved ends with
it (16 R356, 20 R434). -/
def stopMoves (s : State) (c : Nat) : State :=
  let lost (g : Gather) : Bool := g.ctx == c && s.off g.core c
  let s' := (s.copies.filter fun x => x.ctx == c).foldl (fun s x => clearLines s x.lines) s
  let s' := (s.gathers.filter lost).foldl (fun s x => clearLines s x.lines) s'
  { s' with copies := s.copies.filter fun x => x.ctx != c, gathers := s.gathers.filter fun x => !lost x }

/-- Teardown begins: every strand of the context leaves its slot, its kernels are ABORTED, its copies are cancelled and its collectives aborted
(22 R475), its gathers signal nothing any more, its spill queue is discarded, and its parts that are pre-empted are not restored (20 R434). -/
def beginTeardown (s : State) (c : Nat) : State :=
  let us := ctxStrands s c
  let s := (allStrands s c).foldl (fun s u => if us.contains u then dropSignals (evict s u) u else s.modStrand u fun t => { t with handles := [] }) s
  let ks := (s.kernels.filter fun k => k.2.ctx == c && k.2.st != .complete && k.2.st != .aborted && k.2.st != .refused).map (·.1)
  let s := stopMoves (ks.foldl stopKernel s) c
  let s := (s.colls.filter fun q => q.ctx == c).foldl (fun s q => collAbort s q.id 3 0 0) s
  let s := { s with parts := s.parts.filter fun p => !(p.2.ctx == c && p.2.off) }
  s.modCtx c fun x => { x with st := .teardown, spill := [], refused := [] }

/-- What goes on while a teardown waits: handles are closed as HCLOSE would, and fold jobs fail (20 R434). -/
def tearOn (s : State) (c : Nat) : State := stopFolds ((allStrands s c).foldl (fun s u => (closeHandles s u).1) s) c

/-- Operations on their way that a teardown lets complete, for what they still write: no register takes their results (20 R434). -/
def Op.completes (s : State) (t : Strand) (o : Op) : Bool :=
  o.phase == .sent && (match o.kind with
    | .atomic _ _ _ _ _ | .agadd _ _ _ | .ksig _ _ | .acqrel _ _ _ | .klaunch _ _ => true
    | .handle h _ _ _ => h != .hbatch && h != .hclose && h != .hlist
    | .tree .tstore _ _ _ => (s.part t.lcore t.ctx).st == .placed
    | _ => false)

/-- Has an engine of the context accepted a drain or a row list whose writes are still to come, and which no cooperation with a part that is
gone can hold up (20 R434)? -/
def drainsLeft (s : State) (c : Nat) : Bool :=
  let joint (e : EngOp) : Bool := match e.kind with
    | .cld _ _ true | .old _ (some _) | .oldT _ _ _ _ _ (some _) | .member _ _ | .coop _ _ _ _ => true
    | _ => false
  s.parts.any fun p => p.2.ctx == c && !((p.2.eq ++ p.2.streams).any joint) && (p.2.eq ++ p.2.streams).any fun e =>
    e.heldAt == 0 && (match e.kind with | .adrain _ _ _ _ _ _ _ | .mseq _ _ _ _ => true | _ => false)

/-- Is something of a context that is being torn down still under way: its writes, releases, gathers, fold jobs, drains, operations, and handles
that wait for their records (20 R434)? -/
def tearBusy (s : State) (c : Nat) : Bool :=
  (s.writes.any fun w => w.ctx == c) || (s.cores.any fun k => k.2.relq.any fun r => r.ctx == c) || (s.gathers.any fun g => g.ctx == c) ||
    (s.folds.any fun j => j.ctx == c) || drainsLeft s c ||
    s.strands.any fun t => t.2.ctx == c && ((t.2.ops.any (Op.completes s t.2)) || t.2.handles.any fun h => h.2.op)

/-- What a core holds for a context is gone. -/
def CoreSt.forget (k : CoreSt) (c : Nat) : CoreSt :=
  { k with misses := k.misses.filter fun m => m.ctx != c, bindOwed := k.bindOwed.filter fun m => m.ctx != c, binds := tdel k.binds c
           rbuf := k.rbuf.filter fun l => l.ctx != c, stab := k.stab.filter fun e => e.2 != c + 2 ^ 15
           stabNew := k.stabNew.filter fun e => e.2 != c + 2 ^ 15 }

/-- Teardown ends: partitions, deques, slot-table entries and reservations are freed, and the context number is FREE (20 R434). -/
def endTeardown (s : State) (c : Nat) : State :=
  let ks := (s.kernels.filter fun k => k.2.ctx == c).map (·.1)
  let s := ks.foldl freeKernel s
  let s := (allStrands s c).foldl (fun s u => s.modStrand u fun t => { t with ops := [], pend := [], ports := [], glines := [], clines := [] }) s
  let mine (u : Nat) : Bool := (s.strand u).ctx == c
  let s := { s with
    cores := s.cores.map fun (k : Nat × CoreSt) => (k.1, k.2.forget c)
    parts := s.parts.filter fun p => p.2.ctx != c
    tlb := s.tlb.filter fun e => e.ctx != c
    hot := s.hot.filter fun h => h.1 != c
    colls := s.colls.filter fun q => q.ctx != c
    pushes := s.pushes.filter fun m => !mine m.src
    credits := s.credits.filter fun m => !mine m.1
    watches := s.watches.filter fun w => !mine w.uid
    noiseWait := s.noiseWait.map fun (w : Nat × List (Nat × Nat)) => (w.1, w.2.filter fun q => !mine q.1) }
  s.setCtx c Ctx.init

/-- DESTROY (20 R431, R433, R434): accepted, the context is in TEARDOWN; its status is written when the teardown is finished, until which it
stays at the head. -/
def execDestroy : State → Outcome :=
  commandOf 2 fun s a =>
    let c := a % 2 ^ 12
    if a / 2 ^ 12 ≠ 0 then (s, some cBad)
    else if (s.ctx c).st = .teardown then (if tearBusy s c then (tearOn s c, none) else (endTeardown s c, some cOk))
    else if !liveCtx s c then (s, some cNoCtx)
    else if foreign s (s.ctx c).secure then (s, some cWorld)
    else (tearOn (beginTeardown s c) c, none)

/-! ## Queues -/

/-- A queue control block that meets R448, but for its context. -/
def queueOk (pa : Nat) (b : List Byte) : Bool :=
  pa % 64 == 0 && decide (pa < 2 ^ 39) && recLE b 37 27 == 0 && decide (recLE b 36 1 < 64) && decide (recLE b 34 2 < 4096) &&
    (recLE b 33 1 == 1 || recLE b 33 1 == 2) && 1 ≤ recLE b 32 1 && recLE b 32 1 ≤ 16 && recLE b 8 8 == 0 && recLE b 0 8 % 128 == 0

def execQopen : State → Outcome :=
  command 3 fun s pa =>
    let b := readBytes s pa 64
    let c := recLE b 34 2
    let q := recLE b 36 1
    if !queueOk pa b then (s, cBad)
    else if !liveCtx s c then (s, cNoCtx)
    else if granuleSecure s pa != (s.ctx c).secure then (s, cBad)
    else if (tget? (s.ctx c).queues q).isSome then (s, cBusy)
    else if foreign s (s.ctx c).secure then (s, cWorld)
    else (s.modCtx c fun x => { x with queues := tput x.queues q pa, posted := tput x.posted q (readLE s (pa + 16) 8) }, cOk)

def execQclose : State → Outcome :=
  command 4 fun s a =>
    let c := a % 2 ^ 12
    if a / 2 ^ 22 ≠ 0 ∨ fld a 12 4 ≠ 0 then (s, cBad)
    else if !liveCtx s c then (s, cNoCtx)
    else if foreign s (s.ctx c).secure then (s, cWorld)
    else (s.modCtx c fun x => { x with queues := tdel x.queues (fld a 16 6) }, cOk)

/-! ## Links -/

/-- A command on a Clavos port (22 R459). -/
def portCommand (n : Nat) (f : State → Nat → State) : State → Outcome :=
  command n fun s a =>
    if a / 2 ^ 5 ≠ 0 then (s, cBad) else if foreign s (portSecure s a) then (s, cWorld) else (f s a, cOk)

def execLinkup : State → Outcome := portCommand 5 trainPort
def execLinkfence : State → Outcome := portCommand 6 fencePort
def execLinkdown : State → Outcome := portCommand 7 downPort

/-! ## Traps, debug and trace -/

/-- SETTVEC (23 R482). -/
def execSettvec : State → Outcome :=
  command 8 fun s a =>
    let c := a % 2 ^ 12
    if a / 2 ^ 56 ≠ 0 then (s, cBad)
    else if !liveCtx s c then (s, cNoCtx)
    else if foreign s (s.ctx c).secure then (s, cWorld)
    else (s.modCtx c fun x => ctxWrite x 0x15 a, cOk)

/-- Breakpoint k and watchpoint k of a debug block (25 R501). -/
def dbgBreak (b : List Byte) (k : Nat) : DbgPoint :=
  let w := recLE b (16 + 8 * k) 8
  ⟨bit w 0, bit w 1, keep w 2 56, 2, false, false⟩
def dbgWatch (b : List Byte) (k : Nat) : DbgPoint :=
  let w := recLE b (88 + 16 * k) 8
  ⟨bit w 9, bit w 8, recLE b (80 + 16 * k) 8, w % 2 ^ 6, bit w 6, bit w 7⟩

/-- A debug block that meets R501. -/
def dbgOk (pa : Nat) (b : List Byte) : Bool :=
  pa % 32 == 0 && recLE b 144 16 == 0 && recLE b 0 8 / 2 ^ 12 == 0 && recLE b 12 4 == 0 &&
    (recLE b 8 4 == 0 || 1024 ≤ recLE b 8 4) && ((upto 8).all fun k => recLE b (16 + 8 * k) 8 / 2 ^ 56 == 0) &&
    (upto 4).all fun k => recLE b (88 + 16 * k) 8 / 2 ^ 10 == 0 && (dbgWatch b k).lg ≤ 30 && (dbgWatch b k).base % 2 ^ (dbgWatch b k).lg == 0

def execDbgset : State → Outcome :=
  command 9 fun s pa =>
    let b := readBytes s pa 160
    let c := recLE b 0 8
    if !dbgOk pa b then (s, cBad)
    else if !liveCtx s c then (s, cNoCtx)
    else if foreign s (s.ctx c).secure || granuleSecure s pa != (s.ctx c).secure then (s, cWorld)
    else
      (s.modCtx c fun x => { x with samp := recLE b 8 4, breaks := (upto 8).map fun k => (k, dbgBreak b k),
                                    watches := (upto 4).map fun k => (k, dbgWatch b k) }, cOk)

/-- The strand in a slot, or that returns to it when its pre-emption ends. -/
def slotOwner (s : State) (core k : Nat) : Option Nat :=
  match s.slotStrand core k with
  | some u => some u
  | none => (s.strands.find? fun t => t.2.pcore == core && t.2.pslot == k && t.2.preempted).map (·.1)

/-- A command on a slot (25 R500). -/
def slotCommand (n : Nat) (f : State → Nat → State × Option Nat) : State → Outcome :=
  commandOf n fun s a =>
    let core := a % 2 ^ 9
    if a / 2 ^ 20 ≠ 0 ∨ fld a 9 7 ≠ 0 then (s, some cBad)
    else if foreign s (cfgBit s core) then (s, some cWorld)
    else match slotOwner s core (fld a 16 4) with | some u => f s u | none => (s, some cNoStrand)

/-- DSTOP (25 R503): the strand is to stop, at its first turn or where it is SAVED when it is restored, and the status is written once it is
STOPPED, until which the command stays at the head (log entry 112). -/
def execDstop : State → Outcome :=
  slotCommand 10 fun s u =>
    match (s.strand u).st with
    | .stopped _ => (s, some cOk)
    | .saved _ _ true => (s, some cOk)
    | _ => (s.modStrand u fun t => if t.stopWaits then t else { t with stopWaits := true, stopDbg := false }, none)

/-- DRESUME (25 R500, 04 R94). -/
def execDresume : State → Outcome :=
  slotCommand 11 fun s u =>
    let t := s.strand u
    match t.st with
    | .stopped was =>
      let st : StrandSt := match was with | some w => .parked w | none => .ready
      (closeCheck (traceRec (s.setStrand u { t with st := st }) t.pcore t.pslot 4 2 t.pc) u, some cOk)
    | _ => (s, some cNoStrand)

/-- TRCSET (25 R500). -/
def execTrcset : State → Outcome :=
  command 12 fun s a => if a / 2 ^ 4 ≠ 0 then (s, cBad) else ({ s with trcSel := a }, cOk)

end Sys2Proof.Machine
end

