-- ==== Sys2Proof/Machine/Legal.lean ====
section
/-! DEFINITION. Is a text legal: what a load decides by decoding every word of it (02 R56, R63), and the opcodes of the extended
forms. -/

namespace Sys2Proof.Machine
open Sys2Proof

/-- The operand bits that R48 to R56 allow, for the short forms of major opcodes 0x00 to 0x0F. -/
def legalShort0 (op x : Nat) : Bool :=
  match op with
  | 0x01 => true
  | 0x02 => true
  | 0x03 => true
  | 0x04 => decide (fld x 0 2 < 3)
  | 0x05 => true
  | 0x06 => decide (fld x 0 2 < 2)
  | 0x07 => decide (fld x 0 2 < 3) && fld x 2 5 == 0
  | 0x08 => true
  | 0x09 => decide (fld x 0 2 < 2)
  | 0x0A => true
  | 0x0B => true
  | 0x0C => true
  | 0x0D => true
  | 0x0E => true
  | 0x0F => true
  | _ => false

/-- The operand bits that R48 to R56 allow, for the short forms of major opcodes 0x10 to 0x1F. -/
def legalShort1 (op x : Nat) : Bool :=
  match op with
  | 0x10 => true
  | _ => false

/-- The operand bits that R48 to R56 allow, for the short forms of major opcodes 0x20 to 0x2F. -/
def legalShort2 (op x : Nat) : Bool :=
  match op with
  | 0x20 => true
  | 0x21 => (match fld x 0 2 with
    | 0 | 1 => true
    | 2 | 3 => fld x 2 5 == 0
    | _ => false)
  | 0x22 => decide (fld x 0 2 < 1)
  | 0x23 => (FCond.ofCode (fld x 0 3)).isSome
  | 0x24 => (CvtKind.ofCode (fld x 3 4)).isSome && (DRm.ofCode (fld x 1 2)).isSome
  | _ => false

/-- The operand bits that R48 to R56 allow, for the short forms of major opcodes 0x30 to 0x3F. -/
def legalShort3 (op x : Nat) : Bool :=
  match op with
  | 0x30 => true
  | 0x31 => true
  | 0x32 => (match fld x 0 2 with
    | 0 => fld x 2 5 == 0 && fld x 12 5 == 0
    | 1 => fld x 2 5 == 0 && fld x 12 3 == 0
    | 2 => fld x 2 15 == 0
    | _ => false)
  | 0x33 => (match fld x 14 3 with
    | 0 | 1 | 2 => fld x 0 14 == 0
    | 3 | 4 => fld x 0 12 == 0
    | _ => false)
  | 0x34 => (ICond.ofCode (fld x 0 3)).isSome
  | 0x35 => (ICond.ofCode (fld x 5 3)).any fun c => c.forImm
  | 0x36 => (match fld x 0 3 with
    | 0 | 1 | 2 => fld x 3 2 == 0
    | 3 | 4 => fld x 3 6 == 0
    | _ => false)
  | 0x37 => true
  | 0x38 => true
  | 0x39 => true
  | 0x3A => true
  | 0x3B => (match fld x 0 1 with
    | 0 => true
    | 1 => even (rg x 12)
    | _ => false)
  | 0x3C => decide (fld x 0 1 < 1)
  | 0x3D => decide (fld x 0 1 < 1)
  | 0x3E => decide (fld x 0 1 < 1)
  | 0x3F => (match fld x 0 1 with
    | 0 => true
    | 1 => even (rg x 12)
    | _ => false)
  | _ => false

/-- The operand bits that R48 to R56 allow, for the short forms of major opcodes 0x40 to 0x4F. -/
def legalShort4 (op x : Nat) : Bool :=
  match op with
  | 0x40 => true
  | 0x41 => true
  | 0x42 => true
  | 0x43 => true
  | 0x44 => decide (fld x 0 2 < 1)
  | 0x45 => (match fld x 0 2 with
    | 0 => true
    | 1 => fld x 2 10 == 0
    | _ => false)
  | 0x46 => fld x 2 2 == 0 && (Scope.ofCode (fld x 4 3)).isSome
  | 0x47 => fld x 0 7 == 0 && (Scope.ofCode (fld x 7 3)).isSome && (bv 7 x 10) != 0
  | 0x48 => (match fld x 0 2 with
    | 0 | 1 => fld x 2 5 == 0
    | 2 => fld x 2 15 == 0
    | _ => false)
  | 0x49 => (match fld x 0 2 with
    | 0 => fld x 12 2 == 0
    | 1 => fld x 2 5 == 0 && fld x 12 2 == 0
    | _ => false)
  | 0x4A => (ElTy.ofCode (fld x 0 3)).isSome
  | 0x4B => (ElTy.ofCode (fld x 0 3)).isSome
  | 0x4C => (ElTy.ofCode (fld x 0 3)).isSome
  | 0x4D => (ElTy.ofCode (fld x 0 3)).isSome
  | 0x4E => (ElTy.ofCode (fld x 0 3)).isSome
  | 0x4F => (ElTy.ofCode (fld x 0 3)).isSome
  | _ => false

/-- The operand bits that R48 to R56 allow, for the short forms of major opcodes 0x50 to 0x5F. -/
def legalShort5 (op x : Nat) : Bool :=
  match op with
  | 0x50 => (match fld x 8 3 with
    | 0 | 1 => (ElTy.ofCode (fld x 0 3)).isSome
    | 2 | 3 | 4 | 5 => (ElTy.ofCode (fld x 0 3)).any fun c => c.isFloat
    | 6 => (ElTy.ofCode (fld x 0 3)).isSome
    | _ => false)
  | 0x51 => decide (fld x 8 3 < 4) && fld x 16 1 == 0 && (ElTy.ofCode (fld x 0 3)).isSome
  | 0x58 => fld x 0 3 == 0
  | 0x59 => fld x 0 4 == 0 && datumOk (bv 9 x 4)
  | 0x5A => (match fld x 0 3 with
    | 0 => fld x 3 10 == 0
    | 1 | 2 => fld x 3 5 == 0
    | _ => false)
  | 0x5F => decide (fld x 0 2 < 1) && fld x 12 5 == 0
  | _ => false

/-- The operand bits that R48 to R56 allow, for the short forms of major opcodes 0x60 to 0x6F. -/
def legalShort6 (op x : Nat) : Bool :=
  match op with
  | 0x60 => (match fld x 0 3 with
    | 0 => fld x 3 2 == 0
    | 1 | 2 => fld x 3 7 == 0
    | 3 => fld x 3 2 == 0
    | _ => false)
  | 0x61 => (match fld x 0 3 with
    | 0 | 1 | 2 => fld x 3 2 == 0
    | 3 => fld x 3 7 == 0
    | 4 => fld x 3 2 == 0
    | _ => false)
  | 0x64 => (match fld x 0 4 with
    | 0 => fld x 9 5 == 0
    | 1 | 2 | 3 | 4 | 5 | 6 => true
    | _ => false)
  | 0x65 => (match fld x 0 4 with
    | 0 | 1 | 8 => true
    | _ => false)
  | 0x68 => (match fld x 0 3 with
    | 0 => fld x 3 6 == 0 && (Bearing.ofCode (fld x 14 3)).isSome
    | 1 | 2 => fld x 3 2 == 0 && (Bearing.ofCode (fld x 14 3)).isSome
    | 3 => fld x 3 6 == 0 && (Bearing.ofCode (fld x 14 3)).isSome
    | 4 => fld x 3 11 == 0 && (Bearing.ofCode (fld x 14 3)).isSome
    | 5 => fld x 3 6 == 0 && (Bearing.ofCode (fld x 14 3)).isSome
    | _ => false)
  | 0x69 => decide (fld x 0 2 < 2) && fld x 2 8 == 0
  | 0x6C => decide (fld x 0 3 < 3) && fld x 3 2 == 0
  | 0x6D => decide (fld x 0 2 < 2) && fld x 2 5 == 0 && quad (rg x 7)
  | 0x6E => decide (fld x 0 2 < 2) && fld x 12 5 == 0
  | 0x6F => decide (fld x 0 3 < 5)
  | _ => false

/-- The operand bits that R48 to R56 allow, for the short forms of major opcodes 0x70 to 0x7F. -/
def legalShort7 (op x : Nat) : Bool :=
  match op with
  | 0x70 => decide (fld x 0 2 < 2) && fld x 2 5 == 0
  | 0x74 => (match fld x 0 2 with
    | 0 | 1 => fld x 2 5 == 0
    | 2 => fld x 2 10 == 0
    | 3 => fld x 2 5 == 0
    | _ => false)
  | 0x75 => (match fld x 0 2 with
    | 0 => fld x 2 5 == 0
    | 1 => fld x 2 10 == 0
    | 2 | 3 => true
    | _ => false)
  | 0x76 => (match fld x 0 2 with
    | 0 | 1 | 2 => true
    | 3 => fld x 2 5 == 0
    | _ => false)
  | 0x77 => (match fld x 0 2 with
    | 0 | 1 => true
    | 2 => fld x 2 10 == 0
    | _ => false)
  | 0x79 => decide (fld x 0 2 < 2) && fld x 2 5 == 0
  | 0x7C => (match fld x 0 2 with
    | 0 => fld x 2 5 == 0 && fld x 12 5 == 0
    | 1 => true
    | 2 => fld x 2 10 == 0
    | 3 => fld x 2 5 == 0
    | _ => false)
  | 0x7E => (match fld x 13 4 with
    | 0 => fld x 8 5 == 0
    | 1 => fld x 1 12 == 0
    | 2 | 3 | 4 | 5 | 6 => true
    | 7 | 8 => fld x 0 8 == 0
    | 9 => fld x 4 4 == 0
    | _ => false)
  | _ => false

/-- Those of every short form. -/
def legalShort (op x : Nat) : Bool :=
  match op / 16 with
  | 0 => legalShort0 op x
  | 1 => legalShort1 op x
  | 2 => legalShort2 op x
  | 3 => legalShort3 op x
  | 4 => legalShort4 op x
  | 5 => legalShort5 op x
  | 6 => legalShort6 op x
  | 7 => legalShort7 op x
  | _ => false

/-- The operand bits of a literal form: those of the field that the literal replaces are zero (02 R52). -/
def legalLit (op x : Nat) (lit : Word) : Bool :=
  match op with
  | 0x09 => decide (fld x 0 2 < 2) && fld x 2 5 == 0 && bfLit lit
  | 0x0A => fld x 0 7 == 0
  | 0x0B => fld x 0 12 == 0
  | 0x10 => fld x 0 12 == 0
  | 0x30 => fld x 0 17 == 0
  | 0x31 => fld x 0 15 == 0
  | 0x35 => fld x 0 5 == 0 && (ICond.ofCode (fld x 5 3)).any fun c => c.forImm
  | 0x38 => fld x 1 6 == 0
  | 0x39 => fld x 1 6 == 0
  | 0x3A => fld x 1 6 == 0
  | 0x3B => (match fld x 0 1 with
    | 0 => fld x 1 6 == 0
    | 1 => fld x 1 6 == 0 && even (rg x 12)
    | _ => false)
  | 0x3C => decide (fld x 0 1 < 1) && fld x 1 6 == 0
  | 0x3D => decide (fld x 0 1 < 1) && fld x 1 6 == 0
  | 0x3E => decide (fld x 0 1 < 1) && fld x 1 6 == 0
  | 0x3F => (match fld x 0 1 with
    | 0 => fld x 1 6 == 0
    | 1 => fld x 1 6 == 0 && even (rg x 12)
    | _ => false)
  | _ => false

/-- The extended operation of a major opcode and SUB8 (02 R51, R55). -/
def extOpOf (op sub8 : Nat) : Option ExtOp :=
  match op, sub8 with
  | 0x52, 0 => some .vcmp
  | 0x52, 1 => some .vsel
  | 0x52, 2 => some .vscale
  | 0x52, 3 => some .vfill
  | 0x52, 4 => some .vrand
  | 0x52, 5 => some .vnzc
  | 0x52, 6 => some .vchain
  | 0x53, 0 => some .vcvt
  | 0x53, 1 => some .vqmx
  | 0x53, 2 => some .vdqmx
  | 0x53, 3 => some .vqa
  | 0x5B, 0 => some .cld
  | 0x5B, 1 => some .cldc
  | 0x5B, 2 => some .cldSp
  | 0x5C, 0 => some .old
  | 0x5C, 1 => some .oldT
  | 0x5C, 2 => some .ocols
  | 0x5D, 0 => some .adrain
  | 0x78, 0 => some .cgrp
  | 0x78, 1 => some .cag
  | 0x78, 2 => some .crs
  | 0x78, 3 => some .ca2a
  | 0x78, 4 => some .cbar
  | 0x7D, 0 => some .mseq
  | _, _ => none

/-- Extended operations that have a literal form (02 R54). -/
def extHasLit (o : ExtOp) : Bool :=
  match o with
  | .vscale | .vfill | .vrand | .vchain | .vcvt | .vqmx | .vqa | .cld | .cldc | .cldSp | .old | .oldT | .adrain | .cag | .crs | .ca2a | .mseq => true
  | _ => false

/-- An extended instruction of some words: its operation, fields, literal and length in bytes; none where they are illegal (02 R54 to
R56). -/
def extAt (ws : List Nat) : Option (ExtOp × Ext × Option Word × Nat) :=
  match ws with
  | w :: a :: b :: rest =>
    (match extOpOf (fld w 17 7) (fld w 9 8) with
    | none => none
    | some o =>
      let e := extOf a b
      if fld w 0 9 ≠ 0 ∨ 2 ^ 32 ≤ w ∨ 2 ^ 32 ≤ a ∨ 2 ^ 32 ≤ b then none
      else
        match fld w 30 2, rest with
        | 2, _ => if extWf o false e then some (o, e, none, 12) else none
        | 3, l :: u :: _ =>
          if extHasLit o && extWf o true e && decide (l < 2 ^ 32) && decide (u < 2 ^ 32) then some (o, e, some (litOf l u), 20) else none
        | _, _ => none)
  | _ => none

/-- Do words begin with an instruction that R56 does not reject? -/
def legalWords (ws : List Nat) : Bool :=
  match ws with
  | [] => false
  | w :: rest =>
    decide (w < 2 ^ 32) &&
    (match fld w 30 2, rest with
    | 0, _ => legalShort (fld w 17 7) (fld w 0 17)
    | 1, l :: u :: _ => decide (l < 2 ^ 32) && decide (u < 2 ^ 32) && legalLit (fld w 17 7) (fld w 0 17) (litOf l u)
    | 1, _ => false
    | _, _ => (extAt ws).isSome)

/-- Is a word the base word of RNOISE (02 R62, 19 R425)? -/
def isNoise (w : Nat) : Bool := fld w 30 2 == 0 && fld w 17 7 == 0x7C && fld w 0 2 == 2

end Sys2Proof.Machine
end

