-- ==== Sys2Proof/Machine/Load.lean ====
section
/-! DEFINITION. Code objects and their load: LOADOBJ and the cache of finalised text (02 R60 to R65). -/

namespace Sys2Proof.Machine
open Sys2Proof

/-- What a load answers beside its effect: a code of R64, and the offending item's offset. -/
abbrev LoadRes := Nat × Nat

/-- Sections of the header (02 R61): where the table is, its entries, and the bytes of an entry (R62). -/
def sectAt (o : List Byte) (i : Nat) : Nat := recLE o (16 + 8 * i) 4
def sectN (o : List Byte) (i : Nat) : Nat := recLE o (20 + 8 * i) 4
def sectLen (i : Nat) : Nat := [32, 24, 36, 24, 24, 16].getD i 0

/-- Offsets of a section's entries. -/
def entries (o : List Byte) (i : Nat) : List Nat := (upto (sectN o i)).map fun k => sectAt o i + sectLen i * k

/-- Fields of a kernel entry: text offset and bytes, image offset and bytes. -/
def kText (o : List Byte) (e : Nat) : Nat := recLE o (e + 8) 4
def kTextN (o : List Byte) (e : Nat) : Nat := recLE o (e + 12) 4
def kImg (o : List Byte) (e : Nat) : Nat := recLE o (e + 16) 4
def kImgN (o : List Byte) (e : Nat) : Nat := recLE o (e + 20) 4

/-- Length of the main image: as far as its last run goes. -/
def mainLen (o : List Byte) : Nat := ((entries o 1).map fun e => recLE o e 8 + recLE o (e + 8) 8).foldl max 0

/-- The main image: the last bytes of the object (log entry 16). -/
def mainImage (o : List Byte) : List Byte := o.drop (o.length - mainLen o)

/-- Is an entry of a section as R62 and R170 have it? -/
def objEntryOk (o : List Byte) (i e : Nat) : Bool :=
  let n := o.length
  match i with
  | 0 =>
    let kind := recLE o (e + 4) 1
    let span := recLE o (e + 5) 1
    recLE o e 4 < sectN o 5 && kind ≤ 2 && (if kind = 2 then 1 ≤ span && span ≤ 8 else span == 0) &&
      1 ≤ recLE o (e + 6) 1 && recLE o (e + 6) 1 ≤ 16 && recLE o (e + 7) 1 < 2 && recLE o (e + 24) 8 == 0 &&
      kText o e + kTextN o e ≤ n && kImg o e + kImgN o e ≤ n
  | 1 =>
    recLE o e 8 + recLE o (e + 8) 8 ≤ n && recLE o (e + 16) 1 ≤ 2 && recLE o (e + 17) 1 < 64 && recLE o (e + 18) 1 ≤ 2 &&
      recLE o (e + 19) 5 == 0
  | 2 =>
    let d : Desc := ⟨recLE o (e + 4) 8, recLE o (e + 12) 8, recLE o (e + 20) 16⟩
    1 ≤ recLE o e 1 && recLE o e 1 < 64 && recLE o (e + 1) 3 == 0 && d.valid
  | 3 =>
    let m := mainLen o
    recLE o e 8 + 8 ≤ m && recLE o e 8 % 8 == 0 && recLE o (e + 8) 8 + recLE o (e + 16) 8 ≤ m && recLE o (e + 16) 8 != 0
  | 4 => recLE o (e + 9) 3 == 0
  | _ => sectAt o 5 + 16 * sectN o 5 + recLE o e 4 < n && recLE o (e + 4) 1 ≤ 3 && recLE o (e + 5) 3 == 0

/-- The first offset of some that fails a test. -/
def lowest (bad : Nat → Bool) (es : List Nat) : Option Nat :=
  es.foldl (fun a e => if bad e then some (match a with | none => e | some b => min b e) else a) none

/-- The offset that a BAD_HEADER names (02 R61, R62, 07 R170). -/
def headerBad (o : List Byte) : Option Nat :=
  if recLE o 6 2 ≠ 0 then some 6
  else if o.length < 64 ∨ recLE o 8 8 ≠ o.length then some 8
  else
    match (upto 6).find? fun i => decide (o.length < sectAt o i + sectLen i * sectN o i) with
    | some i => some (16 + 8 * i)
    | none => ((upto 6).filterMap fun i => lowest (fun e => !objEntryOk o i e) (entries o i)).min?

/-- Bytes that a relocation's kind writes; none for an unknown kind (02 R62). -/
def relocLen (kind : Nat) : Option Nat := match kind with | 1 | 2 => some 4 | 3 => some 8 | _ => none

/-- Is a relocation one that R64 allows? -/
def relocOk (o : List Byte) (e : Nat) : Bool :=
  let loc := recLE o e 8 % 2 ^ 63
  let y := sectAt o 5 + 16 * recLE o (e + 12) 4
  match relocLen (recLE o (e + 8) 1) with
  | none => false
  | some w =>
    recLE o (e + 12) 4 < sectN o 5 && recLE o (y + 4) 1 == 2 &&
      (if recLE o e 8 < 2 ^ 63 then
        (entries o 0).any fun k => kText o k ≤ loc && loc + w ≤ kText o k + kTextN o k
      else loc + w ≤ mainLen o)

/-- The first n little-endian words of some bytes. -/
def wordsOf (n : Nat) (bs : List Byte) : List Nat := (upto n).map fun i => leNat ((bs.drop (4 * i)).take 4)


/-- The walk of a kernel's text (02 R63): the offset of the first word that is refused, or whether RNOISE was met. -/
def walkText (o : List Byte) : Nat → Nat → Nat → Bool → Except Nat Bool
  | 0, _, _, noise => .ok noise
  | fuel + 1, a, n, noise =>
    if n = 0 then .ok noise
    else if n < 4 then .error a
    else
      let w := recLE o a 4
      let k := numWords w
      if n < 4 * k ∨ legalWords (wordsOf k (o.drop a)) = false then .error a
      else walkText o fuel (a + 4 * k) (n - 4 * k) (noise || isNoise w)

/-- Finalisation of a portable object (02 R63): the NOISE bits by kernel, or the offset of the first word refused. -/
def finalise (o : List Byte) : Except Nat (List Bool) :=
  let rs := (entries o 0).map fun e => walkText o (kTextN o e + 1) (kText o e) (kTextN o e) false
  match (rs.filterMap fun r => match r with | .error a => some a | .ok _ => none).min? with
  | some a => .error a
  | none => .ok (rs.map fun r => match r with | .ok b => b | .error _ => false)

/-- Replace bytes of a list from an offset on. -/
def putAt (bs : List Byte) (a : Nat) (v : List Byte) : List Byte := bs.take a ++ v ++ bs.drop (a + v.length)

/-- What a relocation writes (02 R62, 01 R42): its place and bytes, with the main image at an address. -/
def relocBytes (o : List Byte) (base e : Nat) : List Byte :=
  let y := sectAt o 5 + 16 * recLE o (e + 12) 4
  let v := (recLE o (y + 8) 8 + base + recLE o (e + 16) 8) % 2 ^ 64
  match recLE o (e + 8) 1 with
  | 1 => leBytes 4 v
  | 2 => leBytes 4 (v / 2 ^ 32)
  | _ => leBytes 8 v

/-- The object's text, or its main image, with the relocations applied. -/
def relocated (o : List Byte) (base : Nat) (main : Bool) : List Byte :=
  (entries o 4).foldl (fun b e =>
    if (2 ^ 63 ≤ recLE o e 8 : Bool) == main then putAt b (recLE o e 8 % 2 ^ 63) (relocBytes o base e) else b)
    (if main then mainImage o else o)

/-- Memory bytes from a to a + n - 1 become zero: a new node of a page table holds invalid entries only. -/
def clearRange (s : State) (a n : Nat) : State := { s with mem := s.mem.filter fun c => !(decide (a ≤ c.1) && decide (c.1 < a + n)) }

/-- A first-tier range that firmware may use for a context: aligned to its size, every granule of the context's world. -/
def usable (s : State) (ctx a n : Nat) : Bool :=
  a % n == 0 && decide (a + n ≤ 2 ^ 39) &&
    (upto (n / 2 ^ 21 + 1)).all fun i => granuleSecure s (a + min (i * 2 ^ 21) (n - 1)) == (s.ctx ctx).secure

/-- Install a leaf at a level, with the nodes that its path lacks (07 R162, R163); none where the address is mapped already or a
node's place, which the spec leaves to firmware, does not do. -/
def mapLeaf (ctx va target w0 w1 : Nat) : Nat → Nat → Nat → State → Option State
  | 0, _, _, _ => none
  | fuel + 1, lv, node, s =>
    let epa := node + 16 * levelIndex lv va
    let e := readLE s epa 8
    if lv = target then (if e % 4 = 0 then some (rawWrite s epa (leBytes 8 w0 ++ leBytes 8 w1)) else none)
    else if e % 4 = 1 then mapLeaf ctx va target w0 w1 fuel (lv + 1) (fld (readLE s (epa + 8) 8) 0 48 * 16) s
    else if e % 4 = 0 then
      let (s, a) := s.openWord
      if usable s ctx a.toNat (nodeBytes (lv + 1)) then
        mapLeaf ctx va target w0 w1 fuel (lv + 1) a.toNat
          (rawWrite (clearRange s a.toNat (nodeBytes (lv + 1))) epa (leBytes 8 1 ++ leBytes 8 (a.toNat / 16)))
      else none
    else none

/-- A page that a load maps: its address, size code, cadastre index, R, W and X, and what is written at the start of its frame
from an offset on. -/
structure LoadPage where
  va : Nat
  code : Nat
  cad : Nat
  rwx : Nat
  off : Nat
  bytes : List Byte

def LoadPage.size (p : LoadPage) : Nat := match p.code with | 0 => 2 ^ 16 | 1 => 2 ^ 21 | _ => 2 ^ 30

/-- Map one page into a frame of the context's world in first tier, and write what it holds. -/
def mapPage (ctx : Nat) (s : State) (p : LoadPage) : Option State :=
  let (s, a) := s.openWord
  let pa := a.toNat
  if p.va % p.size ≠ 0 ∨ 2 ^ 56 < p.va + p.size ∨ usable s ctx pa p.size = false then none
  else
    (mapLeaf ctx p.va (3 - p.code) (2 + p.code * 2 ^ 2 + p.rwx * 2 ^ 4 + b2n (s.ctx ctx).secure * 2 ^ 7 + p.cad * 2 ^ 8)
      (pa / 2 ^ 16) 4 0 (s.ctx ctx).ptroot s).map fun s => rawWrite s (pa + p.off) p.bytes

/-- Pages of a size that hold bytes lo to hi - 1 of an image of which they hold the start of each page. -/
def pagesOf (base lo hi code cad rwx : Nat) (bs : List Byte) : List LoadPage :=
  let sz := match code with | 0 => 2 ^ 16 | 1 => 2 ^ 21 | _ => 2 ^ 30
  if hi ≤ lo then [] else
  (upto ((hi - 1) / sz - lo / sz + 1)).map fun i =>
    let p := (lo / sz + i) * sz
    let a := max lo p
    ⟨base + p, code, cad, rwx, a - p, (bs.drop a).take (min hi (p + sz) - a)⟩

/-- The pages of a load: the runs of the main image, and 64 KiB pages of the text, which can be fetched and not stored to. A byte of
the text is at the text's base plus its offset in the object. -/
def loadPages (o : List Byte) (mbase tbase : Nat) : List LoadPage :=
  let m := relocated o mbase true
  let runs := (entries o 1).flatMap fun e =>
    pagesOf mbase (recLE o e 8) (recLE o e 8 + recLE o (e + 8) 8) (recLE o (e + 16) 1) (recLE o (e + 17) 1)
      (match recLE o (e + 18) 1 with | 0 => 1 | 1 => 3 | _ => 4) m
  let ks := (entries o 0).filter fun e => kTextN o e ≠ 0
  let lo := (ks.map (kText o)).min?.getD 0
  let hi := (ks.map fun e => kText o e + kTextN o e).foldl max 0
  runs ++ pagesOf tbase lo hi 0 0 4 (relocated o mbase false)

/-- A descriptor's place in the cadastre and its bytes. -/
def descAt (s : State) (ctx : Nat) (o : List Byte) (e : Nat) : Nat := (s.ctx ctx).cadb + 32 * recLE o e 1
def descBytes (o : List Byte) (e : Nat) : List Byte := (o.drop (e + 4)).take 32

/-- A descriptor index that is installed with different contents, or twice in the object with different contents (02 R64). -/
def fmtConflict (s : State) (ctx : Nat) (o : List Byte) : Option Nat :=
  let es := entries o 2
  lowest (fun e =>
    let held := readBytes s (descAt s ctx o e) 32
    (leNat held != 0 && held != descBytes o e) ||
      es.any fun f => decide (f < e) && recLE o f 1 == recLE o e 1 && descBytes o f != descBytes o e) es

/-- A binding of the object, and the bindings of a context with one more, as BIND makes it (08 R187); none over 64. -/
def objBinding (o : List Byte) (base e : Nat) : Binding := ⟨base + recLE o e 8, base + recLE o (e + 8) 8, recLE o (e + 16) 8⟩
def addBinding (m : Table Binding) (b : Binding) : Option (Table Binding) :=
  if m.any (·.2 == b) then some m
  else (firstFrom 64 0 fun i => (tget? m i).isNone).map fun i => tput m i b

/-- All bindings of an object, or the entry that would be one too many. -/
def addBindings (o : List Byte) (base : Nat) : List Nat → Table Binding → Except Nat (Table Binding)
  | [], m => .ok m
  | e :: es, m =>
    match addBinding m (objBinding o base e) with
    | none => .error e
    | some m => addBindings o base es m

/-- The kernels of a loaded object. -/
def loadedKernels (o : List Byte) (tbase : Nat) (noise : List Bool) : List LoadedKernel :=
  (entries o 0).zipIdx.map fun (e, i) =>
    { addr := (tbase + kText o e) % 2 ^ 64, bytes := kTextN o e, kind := recLE o (e + 4) 1, span := recLE o (e + 5) 1,
      strands := recLE o (e + 6) 1, noise := noise.getD i false, image := (o.drop (kImg o e)).take (kImgN o e) }

/-- Step 5 of R63: pages, descriptors, bindings, relocations and scratchpad images; a load that is refused changes nothing. -/
def install (s : State) (ctx : Nat) (o : List Byte) (noise : List Bool) : State × LoadRes :=
  let (s0, mb) := s.openWord
  let (s1, tb) := s0.openWord
  match fmtConflict s ctx o with
  | some e => (s, (7, e))
  | none =>
    match addBindings o mb.toNat (entries o 3) (s.ctx ctx).binds with
    | .error e => (s1, (6, e))
    | .ok binds =>
      match (loadPages o mb.toNat tb.toNat).foldlM (mapPage ctx) s1 with
      | none => (s1, (9, 0))
      | some s2 =>
        let s2 := (entries o 2).foldl (fun s e => rawWrite s (descAt s ctx o e) (descBytes o e)) s2
        let s2 := s2.modCtx ctx fun x => { x with binds := binds, loaded := loadedKernels o tb.toNat noise ++ x.loaded }
        ((ctxCores s2 ctx).foldl (fun s c => s.modCore c fun k => { k with binds := tput k.binds ctx binds }) s2, (0, 0))

/-- The load of an object (02 R63, R64), with the checks in R64's order. -/
def loadObject (s : State) (ctx : Nat) (o : List Byte) : State × LoadRes :=
  let portable := recLE o 0 4 == 0x3146504C
  if !portable && recLE o 0 4 != 0x54414E46 then (s, (1, 0))
  else if recLE o 4 2 ≠ (if portable then 0 else 1) then (s, (2, 4))
  else
    match headerBad o with
    | some e => (s, (3, e))
    | none =>
      match lowest (fun e => decide (0x60000 < kImgN o e)) (entries o 0) with
      | some e => (s, (8, e))
      | none =>
        match lowest (fun e => !relocOk o e) (entries o 4) with
        | some e => (s, (5, e))
        | none =>
          if !portable then install s ctx o ((entries o 0).map fun e => recLE o (e + 7) 1 == 1)
          else
            let d := sha256 o
            match s.textCache.find? fun t => t.1 == d with
            | some t => install s ctx o t.2
            | none =>
              match finalise o with
              | .error a => (s, (4, a))
              | .ok noise => install { s with textCache := s.textCache ++ [(d, noise)] } ctx o noise

/-- The object's bytes as SIZE has them; only the header where SIZE runs past first tier, which breaks R61. -/
def objectBytes (s : State) (a : Nat) : List Byte :=
  let n := readLE s (a + 8) 8
  readBytes s a (if n < 64 ∨ 2 ^ 39 < a + n then 64 else n)

/-- LOADOBJ (02 R65): the load status with the order tag, then the command's own status. -/
def execLoadobj : State → Outcome :=
  command 13 fun s pa =>
    let c := readLE s pa 8
    let a := readLE s (pa + 8) 8
    let t := readLE s (pa + 16) 8
    if pa % 32 ≠ 0 ∨ 2 ^ 39 ≤ pa ∨ readLE s (pa + 24) 8 ≠ 0 ∨ t % 16 ≠ 0 ∨ 2 ^ 39 ≤ t ∨ a % 64 ≠ 0 ∨ 2 ^ 39 ≤ a ∨ 2 ^ 12 ≤ c then
      (s, cBad)
    else if !liveCtx s c then (s, cNoCtx)
    else
      let w := (s.ctx c).secure
      let o := objectBytes s a
      if foreign s w || granuleSecure s pa != w || granuleSecure s t != w ||
          (upto (o.length / 2 ^ 21 + 1)).any fun i => granuleSecure s (a + min (i * 2 ^ 21) (o.length - 1)) != w then (s, cWorld)
      else
        let r := loadObject s c o
        (releaseWrite (homeWrite r.1 (t + 8) (leBytes 8 r.2.2)) t r.2.1 (mkTag .system cpParty), cOk)

/-- The cache of finalised text drops an entry (02 R63). -/
def execFinalisedCacheDrop (i : Nat) (s : State) : Outcome := .next { s with textCache := ldel s.textCache i }

end Sys2Proof.Machine
end

