-- ==== Sys2Proof/Machine/Plat.lean ====
section
/-! DEFINITION. Plat registers (16 R346 to R351). -/

namespace Sys2Proof.Machine
open Sys2Proof

/-- PLNEW (16 R350): the record is read at its home later. -/
def execPlnew (h : Hdr) (o : Obj2) (rd ra : Reg) : State → Outcome :=
  issue h { len := lenShort, pendingClass := true, refs := [.r rd, .r ra, .l (.qreg o.val)] } fun x =>
    let a := (x.t.reg ra).toNat
    if a % 64 ≠ 0 then .trap { code := 6, addr := a, acc := 1 }
    else x.send (.plnew o.val (x.t.reg rd).toNat a) .s [.qreg o.val]

/-- PLSET (16 R351). -/
def execPlset (h : Hdr) (o : Obj2) (rd ra : Reg) : State → Outcome :=
  issue h { len := lenShort, refs := [.r rd, .r ra, .l (.qreg o.val)] } fun x =>
    let q := tget Plat.init x.t.plats o.val
    let v := (x.t.reg rd).toNat
    let sel := (x.t.reg ra).toNat % 16
    let set (q : Plat) : Eff := x.upd { x.t with plats := tput x.t.plats o.val { q with linked := false } }
    if !q.valid then x.upd x.t
    else if sel = 0 then
      if platBaseOk q.cad (readDesc x.s x.t.ctx q.cad) v then set { q with base := v } else .trap { code := 26 }
    else if sel ≤ 5 then set { q with ext := lset q.ext (sel - 1) (v % 2 ^ 32) }
    else x.upd x.t

/-- What PLGET returns (16 R351). -/
def platGet (q : Plat) (sel : Nat) : Word :=
  if sel = 0 then w64 q.base
  else if sel ≤ 5 then w64 (q.ext.getD (sel - 1) 0)
  else if sel = 6 then w64 q.raddr
  else if sel = 7 then
    w64 (q.cad + (if q.valid then platRank q.record else 0) % 8 * 2 ^ 8 + b2n q.linked * 2 ^ 16 + b2n q.valid * 2 ^ 17)
  else 0

/-- PLGET (16 R351). -/
def execPlget (h : Hdr) (o : Obj2) (rd ra : Reg) : State → Outcome :=
  issue h { len := lenShort, refs := [.r rd, .r ra, .l (.qreg o.val)] } fun x =>
    x.upd (x.t.setReg rd (platGet (tget Plat.init x.t.plats o.val) ((x.t.reg ra).toNat % 16)))

end Sys2Proof.Machine
end

