-- ==== Sys2Proof/Machine/Random.lean ====
section
/-! DEFINITION. Random numbers and the noise source (03 R89 to R92, 19 R425). -/

namespace Sys2Proof.Machine
open Sys2Proof

/-- RSEED, RGEN (03 R90). -/
def execRseed (h : Hdr) (ra : Reg) : State → Outcome :=
  issue h { len := lenShort, refs := [.r ra] } fun x => x.upd { x.t with dseed := x.t.reg ra }
def execRgen (h : Hdr) (rd ra rb : Reg) : State → Outcome :=
  regOp h lenShort rd [ra, rb] fun t =>
    let a := (t.reg ra).toNat
    let b := dcg t.dseed.toNat (a % 2 ^ 32) (t.reg rb).toNat
    w64 (if bit a 32 then b / 2 ^ 64 else b % 2 ^ 64)

/-- RNOISE (03 R91): a request to the cluster's source; in a deterministic kernel PRIV outside replay mode (19 R425). -/
def execRnoise (h : Hdr) (rd : Reg) : State → Outcome :=
  issue h { len := lenShort, pendingClass := true, refs := [.r rd] } fun x =>
    if (x.s.kern x.t.kern).det && (x.s.ctx x.t.ctx).nlogMode != 2 then .trap { code := 3 }
    else
      let cl := coreCluster x.t.pcore
      let s := x.s.setStrand x.u (x.t.send .rnoise .s x.pc x.len x.s.steps (x.t.dest rd))
      .ok { s with noiseWait := tput s.noiseWait cl (tget [] s.noiseWait cl ++ [(x.u, x.t.nextOp)]) }

/-- RLOG (03 R92). -/
def execRlog (h : Hdr) (rd ra : Reg) : State → Outcome :=
  issue h { len := lenShort, priv := true, refs := [.r rd, .r ra] } fun x =>
    let m := (x.t.reg ra).toNat % 4
    let old := (x.s.ctx x.t.ctx).nlogMode
    .ok ((x.s.modCtx x.t.ctx fun c => { c with nlogMode := if m = 3 then c.nlogMode else m }).setStrand x.u
      (x.t.setReg rd (w64 old)))

/-- A fresh word of a source (03 R91). -/
def freshNoise (s : State) : State × Word := ({ s with free := s.free + 1 }, Config.noise s.free)

/-- Does a request read or write an entry of the noise log, by its address, and does it lie in a granule of the other world (24 R496)? The
access, if so. -/
def noiseWorld (s : State) (u : Nat) : Option (Nat × Nat) :=
  let x := s.ctx (s.strand u).ctx
  let e := x.nlogb + 16 * x.nlogi
  if (x.nlogMode = 1 ∨ x.nlogMode = 2) ∧ x.nlogi < x.nlogn ∧ granuleSecure s e ≠ x.secure then some (e, if x.nlogMode = 2 then 1 else 2)
  else none

/-- The word that a strand receives under its context's noise-log mode (03 R92). -/
def noiseWord (s : State) (u : Nat) : State × Word :=
  let t := s.strand u
  let x := s.ctx t.ctx
  let e := x.nlogb + 16 * x.nlogi
  if x.nlogMode = 2 ∧ x.nlogi < x.nlogn then
    (s.setCtx t.ctx { x with nlogi := x.nlogi + 1 }, w64 (readLE s e 8))
  else
    let f := freshNoise s
    if x.nlogMode = 2 then (f.1.setCtx t.ctx { x with nlogMode := 0, nlogExhaust := true }, f.2)
    else if x.nlogMode ≠ 1 then f
    else if x.nlogn ≤ x.nlogi then (f.1.setCtx t.ctx { x with nlogLoss := true }, f.2)
    else
      (homeWrite (f.1.setCtx t.ctx { x with nlogi := x.nlogi + 1 }) e
        (leBytes 8 f.2.toNat ++ leBytes 4 (t.lcore + t.lslot * 2 ^ 16) ++ leBytes 4 t.noiseSeq), f.2)

/-- A cluster's source delivers a word to the request that arrived first (03 R91). -/
def execNoiseWordDelivery (cl : Nat) (s : State) : Outcome :=
  .next (
    match tget [] s.noiseWait cl with
    | [] => s
    | (u, id) :: rest =>
      if tget false s.noiseBad cl then s
      else
        let s := { s with noiseWait := tput s.noiseWait cl rest }
        match s.op u id with
        | none => s
        | some o =>
          match noiseWorld s u with
          | some a => opFault s u o { code := 9, addr := a.1, acc := a.2 }
          | none =>
          let r := noiseWord s u
          opDone (r.1.modStrand u fun t => { t with noiseSeq := (t.noiseSeq + 1) % 2 ^ 32 }) u o [r.2])

/-- The health test of a source fails, and is reported; or passes again (03 R91, 23 R491). -/
def execNoiseHealthFail (cl : Nat) (s : State) : Outcome :=
  .next (
    if 64 ≤ cl ∨ tget false s.noiseBad cl = true then s
    else report { s with noiseBad := tput s.noiseBad cl true } 1 0xFFFF 33 0xFF 0xFFFF 0)
def execNoiseHealthPass (cl : Nat) (s : State) : Outcome := .next { s with noiseBad := tput s.noiseBad cl false }

end Sys2Proof.Machine
end

