-- ==== Sys2Proof/Machine/Rep.lean ====
section
/-! DEFINITION. REP and its sequencer (04 R114 to R116). -/

namespace Sys2Proof.Machine
open Sys2Proof

/-- The operands of an extended operation that its issue checks. -/
def extRefs (o : ExtOp) (e : Ext) (lit : Option Word) : List Ref :=
  match o with
  | .vcmp | .vsel | .vscale | .vfill | .vrand | .vnzc | .vchain | .vcvt | .vqmx | .vdqmx | .vqa => vecRefs o e lit
  | .cld | .cldc | .cldSp => cldRefs e lit
  | .old | .oldT => oldRefs e lit
  | .ocols => []
  | .adrain => adrainRefs e lit
  | .cgrp => [.r e.f0, .r e.f1, .r e.f2]
  | .cag | .crs | .ca2a => (collForm e lit).refs
  | .cbar => [.r e.f0]
  | .mseq => mseqRefs e lit

/-- The effect of an extended operation. -/
def extEff (o : ExtOp) (e : Ext) (lit : Option Word) : Exe → Eff :=
  match o with
  | .vcmp => vcmpEff e
  | .vsel => vselEff e
  | .vscale => vscaleEff e lit
  | .vfill => vfillEff e lit
  | .vrand => vrandEff e lit
  | .vnzc => vnzcEff e
  | .vchain => vchainEff e lit
  | .vcvt => vcvtEff e lit
  | .vqmx => vqmxEff e lit
  | .vdqmx => vdqmxEff e
  | .vqa => vqaEff e lit
  | .cld => cldEff e lit
  | .cldc => cldcEff e lit
  | .cldSp => cldSpEff e lit
  | .old => oldEff e lit
  | .oldT => oldTEff e lit
  | .ocols => ocolsEff e
  | .adrain => adrainEff e lit
  | .cgrp => cgrpEff e
  | .cag => collData e lit .ag
  | .crs => collData e lit (rsOp e)
  | .ca2a => collData e lit .a2a
  | .cbar => collEff e .bar 0 0 0
  | .mseq => mseqEff e lit

/-- How many codes the classes of OBJ0 and OBJ1 have (02 R49). -/
def objCodes (o : ExtOp) : Nat × Nat :=
  match o with
  | .cld | .cldc | .cldSp | .adrain => (16, 4)
  | .old | .oldT => (4, 16)
  | _ => (8, 8)

/-- A code after i iterations of a stride. -/
def strode (v i : Nat) (stride : Int) : Int := v + i * stride

/-- Do the marked fields stay in their classes at an iteration (04 R114)? -/
def markedOk (o : ExtOp) (e : Ext) (i : Nat) (stride : Int) : Bool :=
  let c := objCodes o
  let ok (b : Bool) (v n : Nat) : Bool := !b || decide (0 ≤ strode v i stride) && decide (strode v i stride < n)
  ok (e.mark.getLsbD 3) e.f0.val 32 && ok (e.mark.getLsbD 2) e.f1.val 32 && ok (e.mark.getLsbD 1) e.obj0.val c.1 &&
    ok (e.mark.getLsbD 0) e.obj1.val c.2

/-- The fields of an iteration (04 R115). -/
def fieldsAt (e : Ext) (i : Nat) (stride : Int) : Ext :=
  { e with
    f0 := if e.mark.getLsbD 3 then Fin.ofNat 32 (strode e.f0.val i stride).toNat else e.f0
    f1 := if e.mark.getLsbD 2 then Fin.ofNat 32 (strode e.f1.val i stride).toNat else e.f1
    obj0 := if e.mark.getLsbD 1 then Fin.ofNat 16 (strode e.obj0.val i stride).toNat else e.obj0
    obj1 := if e.mark.getLsbD 0 then Fin.ofNat 16 (strode e.obj1.val i stride).toNat else e.obj1 }

/-- One body instruction captured (04 R114): it, or its breach. -/
def captureOne (s : State) (t : Strand) (k : Nat) (stride : Int) (a : Nat) : State × Except Cause BodyInstr :=
  let r := fetchInstr s t.pcore t.ctx a
  let bad : State × Except Cause BodyInstr := (r.1, .error { code := 1, addr := a })
  match r.2 with
  | .error _ => bad
  | .ok ws =>
    match extAt ws with
    | none => bad
    | some (o, e, lit, len) =>
      let w := ws.headD 0
      let p : Pr := Fin.ofNat 16 (fld w 25 4)
      if bit w 29 || !markedOk o e (k - 1) stride then bad
      else if t.refPending (.p p) then (r.1, .error { code := 2, addr := a })
      else (r.1, .ok ⟨o, e, lit, a, len, t.predBit p != bit w 24⟩)

/-- The body of a REP: the next n instructions in memory order. -/
def captureBody (t : Strand) (k : Nat) (stride : Int) : Nat → Nat → State → State × Except Cause (List BodyInstr × Nat)
  | 0, a, s => (s, .ok ([], a))
  | n + 1, a, s =>
    let r := captureOne s t k stride a
    match r.2 with
    | .error c => (r.1, .error c)
    | .ok b =>
      let q := captureBody t k stride n ((a + b.len) % 2 ^ 64) r.1
      (q.1, match q.2 with | .ok (bs, z) => .ok (b :: bs, z) | .error c => .error c)

/-- Everything that any iteration of a body instruction reads or writes. -/
def bodyRefs (b : BodyInstr) (k : Nat) (stride : Int) : List Ref :=
  if b.on then (upto k).flatMap fun i => extRefs b.op (fieldsAt b.e i stride) b.lit else []

/-- The registers among some operands. -/
def regsOf (t : Strand) (rs : List Ref) : List Loc := rs.flatMap fun r => match r with | .r x => t.dest x | _ => []

/-- REP (04 R114, R115): the body is captured, and its registers become pending. -/
def repEff (n k : Nat) (stride : Int) (x : Exe) : Eff :=
  if x.t.rep.isSome then .wait x.s
  else
    let r := captureBody x.t k stride n x.t.pc x.s
    match r.2 with
    | .error c => .trap c
    | .ok (body, z) =>
      let refs := body.flatMap fun b => bodyRefs b k stride
      match body.find? fun b => (bodyRefs b k stride).any x.t.refPending with
      | some b => .trap { code := 2, addr := b.addr }
      | none =>
        let t := x.t.send .rep .w x.pc x.len x.s.steps (regsOf x.t refs).eraseDups
        .ok (r.1.setStrand x.u
          { t with pc := z, rep := some { cwp := x.t.cwp, body := body, k := k, stride := stride, iter := 0, idx := 0, opId := x.t.nextOp } })

def execRep (h : Hdr) (n : BitVec 3) (k : BitVec 8) (stride : BitVec 6) : State → Outcome :=
  issue h { len := lenShort, pendingClass := true } fun x =>
    if h.c then .trap { code := 1 } else repEff (n.toNat + 1) (k.toNat + 1) stride.toInt x

/-- The position after one instruction. -/
def Rep.next (r : Rep) : Rep :=
  if r.idx + 1 < r.body.length then { r with idx := r.idx + 1 } else { r with iter := r.iter + 1, idx := 0 }

/-- The strand as the effect of a body instruction sees it: the window of the capture, and no operation but its own. -/
def repView (t : Strand) (r : Rep) : Strand := { t with ops := [], close := none, cwp := r.cwp }

/-- The strand after it: what is new in it belongs to the iteration. -/
def repMerge (t q : Strand) (r : Rep) : Strand :=
  let mark (o : Op) : Op := { o with child := some (r.opId, r.iter, r.idx) }
  { q with
    ops := t.ops ++ q.ops.map mark
    vq := q.vq.map fun v => if t.nextOp ≤ v.opId then { v with iter := r.iter, bidx := r.idx } else v
    close := t.close, cwp := t.cwp, pc := t.pc, st := t.st, rep := some r.next }

/-- A body instruction has faulted: it is held at its position, and the sequencer stops (04 R116). -/
def repFault (s : State) (u : Nat) (r : Rep) (b : BodyInstr) (c : Cause) : State :=
  closeCheck (s.modStrand u fun t =>
    let o : Op := { id := t.nextOp, kind := .rep, path := .w, tpc := b.addr, len := b.len, dests := [], phase := .faulted,
                    cause := { c with iter := r.iter, bidx := r.idx }, seq := s.steps, child := some (r.opId, r.iter, r.idx) }
    stopRep { t with ops := t.ops ++ [o], nextOp := t.nextOp + 1 } r.opId) u

/-- The sequencer issues the next instruction of a repetition (04 R115). -/
def execRepIterationIssue (uid : Nat) (s : State) : Outcome :=
  .next (
    let t := s.strand uid
    match t.rep with
    | none => s
    | some r =>
      if r.stopped || decide (r.k ≤ r.iter) || t.st == .ended || t.rerunWaits || s.off t.pcore t.ctx then s
      else
        match r.body[r.idx]? with
        | none => s
        | some b =>
          if !b.on then s.setStrand uid { t with rep := some r.next }
          else
            let v := repView t r
            match extEff b.op (fieldsAt b.e r.iter r.stride) b.lit ⟨s.setStrand uid v, uid, v, b.addr, b.len, none⟩ with
            | .wait _ => s
            | .trap c => repFault s uid r b c
            | .trapIn s' c => repFault (s'.setStrand uid t) uid r b c
            | .ok s' => s'.setStrand uid (repMerge t (s'.strand uid) r))

end Sys2Proof.Machine
end

