-- ==== Sys2Proof/Machine/System.lean ====
section
/-! DEFINITION. WCALL, SLEEP and CSRW of SHOOT (07 R180, 23 R488, R489, 24 R497). -/

namespace Sys2Proof.Machine
open Sys2Proof

/-- WCALL (23 R488): the firmware performs it later. -/
def execWcall (h : Hdr) (rd : Reg) (imm : BitVec 8) : State → Outcome :=
  issue h { len := lenShort, pendingClass := true, refs := [.r rd] } fun x =>
    x.send (.wcall imm.toNat (x.t.reg rd).toNat) .s (x.t.dest rd)

/-- SLEEP (23 R489). -/
def execSleep (h : Hdr) (rd : Reg) : State → Outcome :=
  issue h { len := lenShort, pendingClass := true, refs := [.r rd] } fun x => x.send (.sleep (x.t.reg rd).toNat) .w []

/-- A buffer of n bytes is aligned and translates with W (24 R497). -/
def wcallBuf (s : State) (ctx va align n : Nat) : Bool :=
  va % align == 0 &&
    (sectorPieces va n).all fun p => match checkLeaf s ctx p.1 .write false (walk s ctx p.1) with | .ok _ => true | .error _ => false

/-- The signed part of an ATTEST report (24 R497). -/
def attestBody (s : State) (ctx : Nat) (nonce : List Byte) : List Byte :=
  nonce ++ sha256 s.config ++ s.fwHash.take 32 ++ List.replicate (32 - s.fwHash.length) 0 ++
    leBytes 8 (ctx + b2n (s.ctx ctx).secure * 2 ^ 12) ++ leBytes 8 s.cycle ++ List.replicate 16 0

/-- A service of the firmware (24 R497): the state, and the result or a cause. -/
def wcallRun (s : State) (ctx n a : Nat) : State × Except Cause Word :=
  let bad : State × Except Cause Word := (s, .ok (negW' 2))
  match n with
  | 1 =>
    if !wcallBuf s ctx a 4096 4096 then bad
    else
      let c := Config.certChain.take 4096
      match cpWrite s ctx a (words8 c) with
      | some s' => (s', .ok (w64 c.length))
      | none => bad
  | 2 =>
    if !wcallBuf s ctx a 64 192 then bad
    else
      let nonce := match checkLeaf s ctx a .write false (walk s ctx a) with
        | .ok x => homeRead s ctx x.pa 32
        | .error c => .error c.code
      match nonce with
      | .error k => (s, .error { code := k, addr := a, acc := 1 })
      | .ok b =>
        let r := attestBody s ctx b
        match cpWrite s ctx a (words8 (r ++ identitySign (sha256 r))) with
        | some s' => (s', .ok 0)
        | none => bad
  | 3 => (s, .ok (w64 (cfgLE s 4 4)))
  | 4 => (s, .ok (if a < 8 then w64 (tget 0 s.populated a) else negW' 2))
  | _ => (s, .ok (negW' 1))
where
  /-- Minus n. -/
  negW' (n : Nat) : Word := w64 (2 ^ 64 - n)

/-- WCALL performed, once (23 R488); a write-blocked page of its buffer makes it wait (07 R181). -/
def performWcall (s : State) (u : Nat) (o : Op) (n a : Nat) : State :=
  if decide (n = 1) && cpHeld s (s.strand u).ctx a Config.certChain.length || decide (n = 2) && cpHeld s (s.strand u).ctx a 192 then s else
  let r := wcallRun s (s.strand u).ctx n a
  match r.2 with
  | .ok v => opReturn r.1 u { o with res := [v] }
  | .error c => opFault r.1 u o c

/-- SLEEP returns (23 R489). -/
def performSleep (s : State) (u : Nat) (o : Op) (until_ : Nat) : State :=
  if until_ ≤ strandCycle s (s.strand u) then opReturn s u o else s

/-- Bits that a write of SHOOT must leave zero (07 R180). -/
def shootBad (v : Nat) : Bool := fld v 56 8 != 0 || fld v 4 12 != 0 || fld v 0 2 != 0

/-- The range of a shootdown (07 R180): its base and size. -/
def shootRange (v : Nat) : Nat × Nat :=
  match fld v 2 2 with
  | 0 => (keep v 16 56, 2 ^ 16)
  | 1 => (keep v 21 56, 2 ^ 21)
  | 2 => (keep v 30 56, 2 ^ 30)
  | _ => (0, 2 ^ 56)

/-- Does an address lie in the range of a shootdown (07 R180)? -/
def shootHits (v va n : Nat) : Bool := let r := shootRange v; decide (va < r.1 + r.2) && decide (r.1 < va + n)

/-- The leaves of a context that a shootdown drops, as ranges (07 R180): a leaf larger than the shootdown goes whole. -/
def dropped (s : State) (ctx v : Nat) : List (Nat × Nat) :=
  let r := shootRange v
  ((s.tlb.filter fun e => e.ctx == ctx && decide (e.va < r.1 + r.2) && decide (r.1 < e.va + e.size)).map fun e => (e.va, e.size)).eraseDups

/-- The bytes that an operation at a pre-empted core was translated for, if it was: of path S, or at a unit (07 R180). -/
def OpKind.reachVA : OpKind → Option (Nat × Nat)
  | .barrier _ a _ _ => if a < 256 then none else some (a, 16)
  | k => k.range

/-- Accesses of a context that were translated through a leaf that a shootdown drops and have not been performed (07 R180): writes on their
way or at a pre-empted core's spill queue, operations there, releases, engine sectors in flight, a sector that a fold engine writes. A
release that waits on write-block has issued against no leaf. -/
def shootWaits (s : State) (ctx v seq : Nat) (leaves : List (Nat × Nat)) : Bool :=
  let hits (va n : Nat) : Bool := shootHits v va n || leaves.any fun l => decide (va < l.1 + l.2) && decide (l.1 < va + n)
  let late (w : MemWrite) : Bool := w.ctx == ctx && decide (w.seq ≤ seq) && w.path != .g && hits w.va w.bytes.length
  let lateOp (u id : Nat) : Bool := (s.op u id).any fun o =>
    o.phase == .sent && decide (o.seq ≤ seq) && (match o.kind.reachVA with | some r => hits r.1 r.2 | none => false)
  s.writes.any late ||
  ((s.ctx ctx).spill ++ (s.ctx ctx).refused).any (fun e => match e.2 with | .write w => late w | .mem u id | .unit u id => lateOp u id | _ => false) ||
  (s.cores.any fun c => c.2.relq.any fun q => q.ctx == ctx && decide (q.seq ≤ seq) && q.pa != 0 && !q.wb && hits q.va 8) ||
  (s.folds.any fun j => j.ctx == ctx && !j.out.isEmpty && hits j.outVA 64) ||
  s.parts.any fun p => p.2.ctx == ctx && p.2.streams.any fun e => e.flight.any fun f => hits f.va 64

/-- The virtual address of the word a WAITW has registered a watch on. -/
def watchVA (s : State) (w : Watch) : Option Nat :=
  (s.op w.uid w.opId).bind fun o => match o.kind with | .waitw va _ _ => some va | _ => none

/-- A watch of the context that stands on a word of a dropped leaf ends: its WAITW translates and registers again (07 R180, 08 R199). -/
def dropWatches (s : State) (ctx v : Nat) : State :=
  { s with watches := s.watches.filter fun w =>
      !((s.strand w.uid).ctx == ctx && (match watchVA s w with | some va => shootHits v va 8 | none => false)) }

/-- Descriptors of a context that the engines hold are dropped (07 R173). -/
def dropDescs (s : State) (ctx : Nat) : State := { s with descs := s.descs.filter fun d => d.1 / 64 % 4096 != ctx }

/-- CSRW of SHOOT (07 R180): the matching leaves are dropped everywhere, and the operation, which remembers them, returns later. -/
def execShoot (h : Hdr) (rd : Reg) : State → Outcome :=
  csrOp h rd 0x25 csrAcc fun x _ =>
    let v := (x.t.reg rd).toNat
    let r := shootRange v
    if shootBad v then .trap { code := 1 }
    else if 32 ≤ x.t.outstanding then .wait x.s
    else
      .ok ((dropWatches (tlbDrop x.s fun e => e.ctx == x.t.ctx && decide (e.va < r.1 + r.2) && decide (r.1 < e.va + e.size))
          x.t.ctx v).setStrand x.u
        (x.t.sendBound (.shoot v) x.pc x.len x.s.steps [] (dropped x.s x.t.ctx v)))

/-- CSRW of SHOOT returns (07 R180). -/
def performShoot (s : State) (u : Nat) (o : Op) (v : Nat) : State :=
  if shootWaits s (s.strand u).ctx v o.seq o.parcels then s else opReturn (dropDescs s (s.strand u).ctx) u o

end Sys2Proof.Machine
end

