-- ==== Sys2Proof/Machine/Return.lean ====
section
/-! DEFINITION. The return of a pending-class operation, and the waits that end in one (04 R98, R100, R115, 09 R219, 15 R337, 16
R360, R366, R368, R370). -/

namespace Sys2Proof.Machine
open Sys2Proof

/-- MBR (09 R218): the full mailbox is emptied; reads of one mailbox in issue order. -/
def mbrReturn (s : State) (u : Nat) (o : Op) (m : Nat) : State :=
  let t := s.strand u
  let b := tget Mailbox.init t.mboxes m
  if !b.full || (t.ops.takeWhile fun x => x.id != o.id).any (fun x => x.kind == .mbr m) then s
  else opReturn (s.setStrand u { t with mboxes := tput t.mboxes m ⟨false, b.v⟩ }) u { o with res := [b.v] }

/-- GWAIT (16 R370): a free line answers at once, a signalled one is freed. -/
def gwaitReturn (s : State) (u : Nat) (o : Op) (line : Nat) : State :=
  let t := s.strand u
  let l := tget (⟨0, 0⟩ : GLine) t.glines line
  match l.st with
  | 0 => opReturn s u { o with res := [w64 (2 ^ 64 - 1)] }
  | 1 => s
  | _ => opReturn (s.setStrand u { t with glines := tdel t.glines line }) u { o with res := [l.res] }

/-- Does a REP have nothing left to issue, and has every iteration returned (04 R115)? -/
def repDone (t : Strand) (o : Op) : Bool :=
  match t.rep with
  | some r => r.opId == o.id && r.k ≤ r.iter && !r.stopped &&
    !(t.ops.any fun x => (match x.child with | some c => c.1 == o.id | none => false) && x.phase != .late)
  | none => false

/-- A wait of a strand is tested, or an operation that its strand or the command processor performs is performed. -/
def waitReturn (s : State) (u : Nat) (o : Op) : State :=
  let t := s.strand u
  match o.kind with
  | .mbr m => mbrReturn s u o m
  | .pop b => portReturn s u o b true
  | .peek b => portReturn s u o b false
  | .rawait g a =>
    (match rawaitRes (tget RingSt.init (s.part t.lcore t.ctx).rings g) a with
    | some v => opReturn s u { o with res := [v] }
    | none => s)
  | .gpost line d => postGather s u o line d
  | .gwait line => gwaitReturn s u o line
  | .cwait line => cwaitReturn s u o line
  | .sleep c => performSleep s u o c
  | .keos => performKeos s u o
  | .wcall n a => performWcall s u o n a
  | .cgrp g list n => performCgrp s u o g list n
  | .shoot v => performShoot s u o v
  | .acqrel _ _ _ | .ksig _ _ | .klaunch _ _ => requeueRel s u o
  | .contr va slot => performContr s u o va slot
  | .rep => if repDone t o then opReturn (s.setStrand u { t with rep := none }) u o else s
  | _ => s

/-- The reply of a strand that pre-emption has saved goes to its context's spill queue, once (20 R438, R439). -/
def replyDiverted (s : State) (u id : Nat) : State :=
  let t := s.strand u
  let x := s.ctx t.ctx
  if (x.spill ++ x.refused).any fun e => e.2 == .reply u id then s else divert s t.ctx t.pcore (.reply u id)

/-- A pending-class operation returns (04 R98): a register file that a copy has written in part keeps it waiting (06 R154). -/
def execPendingReturn (uid id : Nat) (s : State) : Outcome :=
  .next (
    let t := s.strand uid
    match s.op uid id with
    | none => s
    | some o =>
      if t.st == .ended || frozenNow s t.pcore then s
      else
        match o.phase with
        | .done => if t.preempted then replyDiverted s uid id else if regHeld s t then s else opReturn s uid o
        | .sent => if t.preempted || regHeld s t then s else waitReturn s uid o
        | _ => s)

end Sys2Proof.Machine
end

