-- ==== Sys2Proof/Machine/Scalar.lean ====
section
/-! DEFINITION. Scalar integer and floating-point instructions (05 R120 to R132). -/

namespace Sys2Proof.Machine
open Sys2Proof

/-- The shift count rb[5:0] (05 R122). -/
def shiftBy (b : Word) : Nat := b.toNat % 64

def minS (a b : Word) : Word := if a.slt b then a else b
def minU (a b : Word) : Word := if a.ult b then a else b
def maxS (a b : Word) : Word := if a.slt b then b else a
def maxU (a b : Word) : Word := if a.ult b then b else a
def mulHi (a b : Word) : Word := BitVec.ofInt 64 (a.toInt * b.toInt / 2 ^ 64)
def mulHiU (a b : Word) : Word := w64 (a.toNat * b.toNat / 2 ^ 64)

/-- Division truncates toward zero; the fixed results of 05 R123. -/
def divS (a b : Word) : Word := if b = 0 then w64 (2 ^ 64 - 1) else BitVec.ofInt 64 (a.toInt.tdiv b.toInt)
def divU (a b : Word) : Word := if b = 0 then w64 (2 ^ 64 - 1) else w64 (a.toNat / b.toNat)
def remS (a b : Word) : Word := if b = 0 then a else BitVec.ofInt 64 (a.toInt.tmod b.toInt)
def remU (a b : Word) : Word := if b = 0 then a else w64 (a.toNat % b.toNat)

/-- Leading zeros of the low n bits, trailing zeros from bit i on, and one bits (05 R122). -/
def lead0 : Nat → Nat → Nat
  | 0, _ => 0
  | n + 1, w => if bit w n then 0 else lead0 n w + 1
def trail0 : Nat → Nat → Nat → Nat
  | 0, _, _ => 0
  | n + 1, i, w => if bit w i then 0 else trail0 n (i + 1) w + 1
def ones : Nat → Nat → Nat
  | 0, _ => 0
  | n + 1, w => b2n (bit w n) + ones n w

def clzW (a : Word) : Word := w64 (lead0 64 a.toNat)
def ctzW (a : Word) : Word := w64 (trail0 64 0 a.toNat)
def popcW (a : Word) : Word := w64 (ones 64 a.toNat)

/-- The low n + 1 bits of a, sign- or zero-extended (05 R124). -/
def sextW (a : Word) (n : BitVec 6) : Word := BitVec.ofInt 64 (sgn (n.toNat + 1) a.toNat)
def zextW (a : Word) (n : BitVec 6) : Word := w64 (a.toNat % 2 ^ (n.toNat + 1))

/-- Position and length of a bit field (05 R125). -/
def bfPos (b : Word) : Nat := fld b.toNat 0 6
def bfLen (b : Word) : Nat := if fld b.toNat 8 6 = 0 then 64 else fld b.toNat 8 6
def bfxW (a b : Word) : Word := (a >>> bfPos b) &&& w64 (2 ^ bfLen b - 1)
def bfiW (d a b : Word) : Word :=
  let m := w64 ((2 ^ bfLen b - 1) * 2 ^ bfPos b)
  (d &&& ~~~m) ||| ((a <<< bfPos b) &&& m)

def execAdd (h : Hdr) (rd ra rb : Reg) : State → Outcome := regOp h lenShort rd [ra, rb] fun t => t.reg ra + t.reg rb
def execSub (h : Hdr) (rd ra rb : Reg) : State → Outcome := regOp h lenShort rd [ra, rb] fun t => t.reg ra - t.reg rb
def execMin (h : Hdr) (rd ra rb : Reg) : State → Outcome := regOp h lenShort rd [ra, rb] fun t => minS (t.reg ra) (t.reg rb)
def execMinu (h : Hdr) (rd ra rb : Reg) : State → Outcome := regOp h lenShort rd [ra, rb] fun t => minU (t.reg ra) (t.reg rb)
def execAnd (h : Hdr) (rd ra rb : Reg) : State → Outcome := regOp h lenShort rd [ra, rb] fun t => t.reg ra &&& t.reg rb
def execOr (h : Hdr) (rd ra rb : Reg) : State → Outcome := regOp h lenShort rd [ra, rb] fun t => t.reg ra ||| t.reg rb
def execXor (h : Hdr) (rd ra rb : Reg) : State → Outcome := regOp h lenShort rd [ra, rb] fun t => t.reg ra ^^^ t.reg rb
def execAndn (h : Hdr) (rd ra rb : Reg) : State → Outcome := regOp h lenShort rd [ra, rb] fun t => t.reg ra &&& ~~~t.reg rb
def execShl (h : Hdr) (rd ra rb : Reg) : State → Outcome :=
  regOp h lenShort rd [ra, rb] fun t => t.reg ra <<< shiftBy (t.reg rb)
def execShr (h : Hdr) (rd ra rb : Reg) : State → Outcome :=
  regOp h lenShort rd [ra, rb] fun t => t.reg ra >>> shiftBy (t.reg rb)
def execSar (h : Hdr) (rd ra rb : Reg) : State → Outcome :=
  regOp h lenShort rd [ra, rb] fun t => (t.reg ra).sshiftRight (shiftBy (t.reg rb))
def execRol (h : Hdr) (rd ra rb : Reg) : State → Outcome :=
  regOp h lenShort rd [ra, rb] fun t => (t.reg ra).rotateLeft (shiftBy (t.reg rb))
def execMul (h : Hdr) (rd ra rb : Reg) : State → Outcome := regOp h lenShort rd [ra, rb] fun t => t.reg ra * t.reg rb
def execMulh (h : Hdr) (rd ra rb : Reg) : State → Outcome := regOp h lenShort rd [ra, rb] fun t => mulHi (t.reg ra) (t.reg rb)
def execMulhu (h : Hdr) (rd ra rb : Reg) : State → Outcome := regOp h lenShort rd [ra, rb] fun t => mulHiU (t.reg ra) (t.reg rb)
def execDiv (h : Hdr) (rd ra rb : Reg) : State → Outcome := regOp h lenShort rd [ra, rb] fun t => divS (t.reg ra) (t.reg rb)
def execDivu (h : Hdr) (rd ra rb : Reg) : State → Outcome := regOp h lenShort rd [ra, rb] fun t => divU (t.reg ra) (t.reg rb)
def execRem (h : Hdr) (rd ra rb : Reg) : State → Outcome := regOp h lenShort rd [ra, rb] fun t => remS (t.reg ra) (t.reg rb)
def execRemu (h : Hdr) (rd ra rb : Reg) : State → Outcome := regOp h lenShort rd [ra, rb] fun t => remU (t.reg ra) (t.reg rb)
def execMax (h : Hdr) (rd ra rb : Reg) : State → Outcome := regOp h lenShort rd [ra, rb] fun t => maxS (t.reg ra) (t.reg rb)
def execMaxu (h : Hdr) (rd ra rb : Reg) : State → Outcome := regOp h lenShort rd [ra, rb] fun t => maxU (t.reg ra) (t.reg rb)
def execClz (h : Hdr) (rd ra : Reg) : State → Outcome := regOp h lenShort rd [ra] fun t => clzW (t.reg ra)
def execCtz (h : Hdr) (rd ra : Reg) : State → Outcome := regOp h lenShort rd [ra] fun t => ctzW (t.reg ra)
def execPopc (h : Hdr) (rd ra : Reg) : State → Outcome := regOp h lenShort rd [ra] fun t => popcW (t.reg ra)
def execSext (h : Hdr) (rd ra : Reg) (n : BitVec 6) : State → Outcome := regOp h lenShort rd [ra] fun t => sextW (t.reg ra) n
def execZext (h : Hdr) (rd ra : Reg) (n : BitVec 6) : State → Outcome := regOp h lenShort rd [ra] fun t => zextW (t.reg ra) n
def execBfx (h : Hdr) (rd ra rb : Reg) : State → Outcome := regOp h lenShort rd [ra, rb] fun t => bfxW (t.reg ra) (t.reg rb)
def execBfxLit (h : Hdr) (rd ra : Reg) (lit : Word) : State → Outcome := regOp h lenLit rd [ra] fun t => bfxW (t.reg ra) lit
def execBfi (h : Hdr) (rd ra rb : Reg) : State → Outcome :=
  regOp h lenShort rd [ra, rb] fun t => bfiW (t.reg rd) (t.reg ra) (t.reg rb)
def execBfiLit (h : Hdr) (rd ra : Reg) (lit : Word) : State → Outcome :=
  regOp h lenLit rd [ra] fun t => bfiW (t.reg rd) (t.reg ra) lit
def execAddi (h : Hdr) (rd ra : Reg) (imm : BitVec 7) : State → Outcome := regOp h lenShort rd [ra] fun t => t.reg ra + immW imm
def execAddiLit (h : Hdr) (rd ra : Reg) (lit : Word) : State → Outcome := regOp h lenLit rd [ra] fun t => t.reg ra + lit
def execLi (h : Hdr) (rd : Reg) (imm : BitVec 12) : State → Outcome := regOp h lenShort rd [] fun _ => immW imm
def execLiLit (h : Hdr) (rd : Reg) (lit : Word) : State → Outcome := regOp h lenLit rd [] fun _ => lit

/-- SEL (05 R126): c0 always selects ra; a pending cN raises CLOSURE. -/
def execSel (h : Hdr) (cs : Pr) (rd ra rb : Reg) : State → Outcome :=
  issue h { len := lenShort, refs := [.r rd, .r ra, .r rb, .p cs] } fun x =>
    x.upd (x.t.setReg rd (if x.t.predBit cs then x.t.reg ra else x.t.reg rb))

/-- ADR (05 R127). -/
def execAdr (h : Hdr) (rd : Reg) (imm : BitVec 12) : State → Outcome :=
  issue h { len := lenShort, refs := [.r rd] } fun x => x.upd (x.t.setReg rd (w64 (wordTarget x.pc imm)))
def execAdrLit (h : Hdr) (rd : Reg) (lit : Word) : State → Outcome :=
  issue h { len := lenLit, refs := [.r rd] } fun x =>
    if lit.toNat % 4 ≠ 0 then .trap { code := 6, addr := byteTarget x.pc lit }
    else x.upd (x.t.setReg rd (w64 (byteTarget x.pc lit)))

def execFadd (h : Hdr) (rd ra rb : Reg) : State → Outcome :=
  fpOp h rd [ra, rb] fun t => fpResult ((fpOf (t.reg ra)).add (fpOf (t.reg rb)))
def execFsub (h : Hdr) (rd ra rb : Reg) : State → Outcome :=
  fpOp h rd [ra, rb] fun t => fpResult ((fpOf (t.reg ra)).add (fpOf (t.reg rb)).neg)
def execFmul (h : Hdr) (rd ra rb : Reg) : State → Outcome :=
  fpOp h rd [ra, rb] fun t => fpResult ((fpOf (t.reg ra)).mul (fpOf (t.reg rb)))
def execFdiv (h : Hdr) (rd ra rb : Reg) : State → Outcome :=
  fpOp h rd [ra, rb] fun t => fpResult ((fpOf (t.reg ra)).div (fpOf (t.reg rb)))
def execFmin (h : Hdr) (rd ra rb : Reg) : State → Outcome :=
  fpOp h rd [ra, rb] fun t => fpPick fp32 false ((t.reg ra).toNat % 2 ^ 32) ((t.reg rb).toNat % 2 ^ 32)
def execFmax (h : Hdr) (rd ra rb : Reg) : State → Outcome :=
  fpOp h rd [ra, rb] fun t => fpPick fp32 true ((t.reg ra).toNat % 2 ^ 32) ((t.reg rb).toNat % 2 ^ 32)
def execFsqrt (h : Hdr) (rd ra : Reg) : State → Outcome := fpOp h rd [ra] fun t => fpResult (fpOf (t.reg ra)).sqrt
def execFfma (h : Hdr) (rd ra rb : Reg) : State → Outcome :=
  fpOp h rd [ra, rb] fun t => fpResult (((fpOf (t.reg ra)).mul (fpOf (t.reg rb))).add (fpOf (t.reg rd)))

/-- The class mask of an FP32 code (05 R131). -/
def fclassOf (c : Nat) : Nat :=
  let neg := bit c 31
  let e := fld c 23 8
  let m := fld c 0 23
  if e = 255 then (if m ≠ 0 then (if bit c 22 then 2 ^ 8 else 2 ^ 9) else if neg then 1 else 2 ^ 7)
  else if e ≠ 0 then (if neg then 2 else 2 ^ 6)
  else if m ≠ 0 then (if neg then 2 ^ 2 else 2 ^ 5)
  else if neg then 2 ^ 3 else 2 ^ 4
def execFclass (h : Hdr) (rd ra : Reg) : State → Outcome :=
  regOp h lenShort rd [ra] fun t => w64 (fclassOf ((t.reg ra).toNat % 2 ^ 32))

/-- A floating comparison (05 R130). -/
def fcmpOf (c : FCond) (a b : Val) : Bool × Nat :=
  let nan := a.isNan || b.isNan
  ((match c with
    | .eq => a.eq b | .ne => nan || !a.eq b | .lt => a.lt b | .le => a.lt b || a.eq b
    | .gt => b.lt a | .ge => b.lt a || a.eq b | .un => nan | .ord => !nan),
   if nan then fNan else 0)
def execFcmp (h : Hdr) (cd : Pr) (ra rb : Reg) (cond : FCond) : State → Outcome :=
  predOp h lenShort cd [.r ra, .r rb] fun t => fcmpOf cond (fpOf (t.reg ra)) (fpOf (t.reg rb))

/-- Deterministic rounding of FCVT. -/
def detRnd : DRm → Rnd
  | .rne => .rne | .rtz => .rtz | .rdn => .rdn | .rup => .rup

/-- FCVT (05 R132): the source's value, the target's code extended as the target is written, and the flags. -/
def fcvtOf (k : CvtKind) (rm : DRm) (sat : Bool) (a : Nat) : Nat × Nat :=
  let r := detRnd rm
  let i32 (v : Val) : Nat × Nat := let q := convertInt 32 true r v; (unsgn 64 (sgn 32 q.1), q.2)
  match k with
  | .f32I64 => convertFlt fp32 r sat (.ofInt (sgn 64 a))
  | .f32U64 => convertFlt fp32 r sat (.fin false (a % 2 ^ 64) 1)
  | .i64F32 => convertInt 64 true r (decodeFlt fp32 (a % 2 ^ 32))
  | .u64F32 => convertInt 64 false r (decodeFlt fp32 (a % 2 ^ 32))
  | .f32F16 => convertFlt fp32 r sat (decodeFlt fp16 (a % 2 ^ 16))
  | .f16F32 => convertFlt fp16 r sat (decodeFlt fp32 (a % 2 ^ 32))
  | .f32Bf16 => convertFlt fp32 r sat (decodeFlt bf16 (a % 2 ^ 16))
  | .bf16F32 => convertFlt bf16 r sat (decodeFlt fp32 (a % 2 ^ 32))
  | .i32F32 => i32 (decodeFlt fp32 (a % 2 ^ 32))
  | .u32F32 => convertInt 32 false r (decodeFlt fp32 (a % 2 ^ 32))
  | .f32I32 => convertFlt fp32 r sat (.ofInt (sgn 32 a))
  | .f32U32 => convertFlt fp32 r sat (.fin false (a % 2 ^ 32) 1)
def execFcvt (h : Hdr) (rd ra : Reg) (kind : CvtKind) (rm : DRm) (sat : Bool) : State → Outcome :=
  fpOp h rd [ra] fun t => fcvtOf kind rm sat (t.reg ra).toNat

end Sys2Proof.Machine
end

