-- ==== Sys2Proof/Machine/Transform.lean ====
section
/-! DEFINITION. Transform nodes of a launch queue (21 R454). -/

namespace Sys2Proof.Machine
open Sys2Proof

/-- Where a transform runs: its engine's translation cache, its context and its kernel. -/
structure XRun where
  who : Nat
  ctx : Nat
  kern : Nat

/-- A step of a transform: the state it leaves, and its result, a cause, or that it waits (no cause). What it has written before a cause stays
written (21 R454). -/
abbrev XRes (α : Type) := State × Except (Option Cause) α
def XRes.bind {α β : Type} (r : XRes α) (f : State → α → XRes β) : XRes β :=
  match r.2 with
  | .error c => (r.1, .error c)
  | .ok a => f r.1 a

/-- The sector, and the place in it, of element e from a base (03 R70, R73, 16 R348). -/
def elemPlace (d : Desc) (base e : Nat) : Nat × Nat :=
  let b := base % 64
  let k := e + (match d.bits with | 4 => 2 * b | 6 => b / 3 * 4 | n => b / (n / 8))
  (base / 64 * 64 + 64 * (k / d.per), k % d.per)

/-- Bytes of a transform at an address, translated: one that waits for a page, a line or a home has no cause. -/
def xBytesAt (s : State) (x : XRun) (va n : Nat) (acc : Acc) (note : Bool) : XRes Xl :=
  let r := xlateBy s (some x.who) x.ctx va acc false
  match r.2 with
  | .error c => (r.1, .error (some c))
  | .ok y =>
    if acc == .write && y.wb || linesBusy r.1 y.pa n [] || reachPA r.1 x.ctx y.pa != .open then (r.1, .error none)
    else (if note then charge (gatherCount r.1 x.who x.ctx va 1) x.kern 0 y.pa 64 else r.1, .ok y)

/-- A sector of a transform under the descriptor of its range (07 R172, R183). -/
def xSector (s : State) (x : XRun) (va ref : Nat) (acc : Acc) (note : Bool) : XRes Xl :=
  (xBytesAt s x va 64 acc note).bind fun s y =>
    let d := readDesc s x.ctx y.leaf.cad
    (s, if y.leaf.cad ≠ ref ∨ ref = 0 ∨ d.valid = false ∨ shadowBad d (y.pa - y.leaf.base) y.leaf.size = true then
      .error (some { code := 11, addr := va, acc := acc.code }) else .ok y)

/-- The descriptor index and descriptor of the page at an address. -/
def xRef (s : State) (x : XRun) (va : Nat) (acc : Acc) : XRes (Nat × Desc) :=
  let r := xlateBy s (some x.who) x.ctx va acc false
  (r.1, match r.2 with
    | .error c => .error (some c)
    | .ok y => .ok (y.leaf.cad, readDesc r.1 x.ctx y.leaf.cad))

/-- Plain bytes read by a transform, sector by sector. -/
def xGet (s : State) (x : XRun) : List (Nat × Nat) → XRes (List Byte)
  | [] => (s, .ok [])
  | p :: ps =>
    (xBytesAt s x p.1 p.2 .read true).bind fun s y =>
      match homeRead s x.ctx y.pa p.2 with
      | .error k => (if k = 10 then logBad s y.pa else s, .error (some { code := k, addr := p.1, acc := 1 }))
      | .ok b => (xGet s x ps).bind fun s bs => (s, .ok (b ++ bs))

/-- A value under its scale; QA is (q - z) times s (03 R72, R76). -/
def codeVal (d : Desc) (scale code : Nat) : Val :=
  if d.qa then (Val.ofInt ((code : Int) - (fld scale 16 (if d.elem = 16 then 4 else 8) : Int))).mul (decodeFlt fp16 (fld scale 0 16))
  else elemVal d.elem (d.block != 0) scale code

/-- Codes and scales of the elements at some offsets; a sector is counted once for the elements of it that follow each other. -/
def xRead (s : State) (x : XRun) (d : Desc) (ref base : Nat) : Option Nat → List Nat → XRes (List (Nat × Nat))
  | _, [] => (s, .ok [])
  | last, e :: es =>
    let p := elemPlace d base e
    (xSector s x p.1 ref .read (last != some p.1)).bind fun s y =>
      match storedSector s x.ctx y.leaf.base (y.pa - y.leaf.base) y.leaf.size none d with
      | .error k => (if k = 10 then logBad s y.pa else s, .error (some { code := k, addr := p.1, acc := 1 }))
      | .ok q => (xRead s x d ref base (some p.1) es).bind fun s l => (s, .ok ((q.1.getD p.2 0, q.2.getD p.2 0) :: l))

/-- Where a code lies in the bytes of its sector (03 R73): first byte, byte count, bit within them. -/
def codeSpan (bits idx : Nat) : Nat × Nat × Nat :=
  match bits with
  | 4 => (idx / 2, 1, 4 * (idx % 2))
  | 6 => (3 * (idx / 4), 3, 6 * (idx % 4))
  | n => (idx * (n / 8), n / 8, 0)

/-- A transform's write at its home; what a window does not take is a cause (06 R153). -/
def xStore (s : State) (x : XRun) (va pa : Nat) (bs : List Byte) : XRes Unit :=
  match tryWrite s x.ctx pa bs with
  | none => (s, .error (some { code := 8, addr := va, acc := 2 }))
  | some s => (s, .ok ())

/-- Do the elements of a sector fill its 64 bytes? -/
def Desc.fills (d : Desc) : Bool := d.per * d.bits + (if d.bits = 6 then 8 else 0) == 512

/-- The writes of codes at element offsets, in order, with the scale of the block that each lies in. -/
def xCodes (d : Desc) (base : Nat) (es : List Nat) : Option Nat → List (Nat × Nat × Option Nat) → List XOut
  | _, [] => []
  | last, (e, c, sc) :: l =>
    let p := elemPlace d base e
    .code e c sc (last != some p.1) (d.fills && p.2 + 1 == d.per && decide (p.2 ≤ e) && (upto d.per).all fun i => es.contains (e - i)) ::
      xCodes d base es (some p.1) l
def xCodesOf (d : Desc) (base : Nat) (l : List (Nat × Nat × Option Nat)) : List XOut := xCodes d base (l.map (·.1)) none l

/-- The writes of plain bytes, by 8-byte atoms (08 R203). -/
def xPlain (va : Nat) (bs : List Byte) : List XOut := (atomsOf va bs).map fun a => .bytes a.1 a.2 (a.1 == va || a.1 % 64 == 0)

/-- One write of a transform: a code, its block's scale, and byte 63 of its sector of 6-bit elements, which is written as zero (03 R73); a
sector that is written whole is clean (06 R160). -/
def xPut (s : State) (x : XRun) (d : Desc) (ref base : Nat) : XOut → XRes Unit
  | .bytes va bs first => (xBytesAt s x va bs.length .write first).bind fun s y => xStore s x va y.pa bs
  | .code e c sc first whole =>
    let p := elemPlace d base e
    (xSector s x p.1 ref .write first).bind fun s y =>
      let k := codeSpan d.bits p.2
      let pe := (y.pa - y.leaf.base) / 64 * d.per + p.2
      (xStore s x p.1 (y.pa + k.1) (leBytes k.2.1 (setFld (readLE s (y.pa + k.1) k.2.1) k.2.2 d.bits c))).bind fun s _ =>
        (if d.bits = 6 then xStore s x p.1 (y.pa + 63) [0] else (s, .ok ())).bind fun s _ =>
          ((match sc with
            | some v => xStore s x p.1 (y.leaf.base + d.shoff + pe / 32) [BitVec.ofNat 8 v]
            | none => (s, .ok ())) : XRes Unit).bind fun s _ =>
            (if whole then { s with poison := poisonAfter s.poison y.pa 64 } else s, .ok ())

/-- Is a write of the same 8-byte word as another: one atom (08 R203)? -/
def sameWord (d : Desc) (base : Nat) : XOut → XOut → Bool
  | .code e _ _ _ _, .code f _ _ _ _ =>
    let w (e : Nat) : Nat := let p := elemPlace d base e; (p.1 + (codeSpan d.bits p.2).1) / 8
    w e == w f
  | _, _ => false

/-- The next atom of what is to be written. -/
def xAtom (s : State) (x : XRun) (d : Desc) (ref base : Nat) : List XOut → XRes (List XOut)
  | [] => (s, .ok [])
  | o :: l =>
    let g := o :: l.takeWhile (sameWord d base o)
    let r := g.foldl (fun (a : XRes Unit) o => a.bind fun s _ => xPut s x d ref base o) (s, .ok ())
    r.bind fun s _ => (s, .ok (l.drop (g.length - 1)))

/-- Element offsets of the rows of a box (dimensions 1 to 4), ascending. -/
def boxRows (p : List Byte) : List Nat :=
  (upto (platBox p 4)).flatMap fun a => (upto (platBox p 3)).flatMap fun b => (upto (platBox p 2)).flatMap fun c =>
    (upto (platBox p 1)).map fun y => a * platStr p 4 + b * platStr p 3 + c * platStr p 2 + y * platStr p 1

/-- Lists of at most n elements. -/
def chunks {α : Type} (n : Nat) : Nat → List α → List (List α)
  | 0, _ => []
  | fuel + 1, l => if l.isEmpty then [] else l.take n :: chunks n fuel (l.drop n)

/-- Codes of one row under the target (03 R77, R79): each element on its own, or 32 at a time under one scale. -/
def convertRow (d : Desc) (rm : Nat) (sat : Bool) (seed stream : Nat) (es : List Nat) (vs : List Val) :
    List (Nat × Nat × Option Nat) :=
  let rnd (e : Nat) : Rnd := rndOf rm seed stream e
  if d.block = 0 then (es.zip vs).map fun q => (q.1, (convertNum (elemFmt d.elem) (rnd q.1) sat q.2).1, none)
  else
    (chunks 32 (es.length + 1) (es.zip vs)).flatMap fun ch =>
      let m := mxScale (ch.map (·.2)) d.elem (ch.map fun q => rnd q.1) sat
      (ch.zip m.2.1).map fun q => (q.1.1, q.2, some m.1)

/-- Codes that the spec does not state: the elements of a QA target (log entry 63). -/
def openCodes (s : State) (bits : Nat) : List Nat → State × List (Nat × Nat × Option Nat)
  | [] => (s, [])
  | e :: es => let f := s.openWord; let r := openCodes f.1 bits es; (r.1, (e, fld f.2.toNat 0 bits, none) :: r.2)

/-- Scale codes that the spec does not state, one for each block of 32 elements of a block format (log entry 63). -/
def openScales (s : State) (d : Desc) (es : List Nat) : State × (Nat → Option Nat) :=
  if d.block = 0 then (s, fun _ => none)
  else
    let lo := es.foldl min (es.headD 0) / 32
    let hi := es.foldl max 0 / 32
    ({ s with free := s.free + (hi - lo + 1) }, fun e => some (fld (Config.freeWord (s.free + (e / 32 - lo))).toNat 0 8))

/-- What a row comes to: its writes, and the sectors that a compressed row takes; none after the last row. -/
abbrev XRow := Option (List XOut × Nat)

/-- A row of CONVERT (21 R454). -/
def xConvert (s : State) (x : XRun) (p : List Byte) (src dst mode row : Nat) : XRes (List XOut) :=
  (xRef s x src .read).bind fun s rs => (xRef s x dst .write).bind fun s rd =>
    let es := (upto (platBox p 0)).map fun i => row + i * platStr p 0
    (xRead s x rs.2 rs.1 src none es).bind fun s cs =>
      if rd.2.qa then let f := openCodes s rd.2.bits es; (f.1, .ok (xCodesOf rd.2 dst f.2))
      else
        (s, .ok (xCodesOf rd.2 dst (convertRow rd.2 (fld mode 0 3) (bit mode 3) (s.ctx x.ctx).seed.toNat (fld mode 4 10) es
          (cs.map fun c => codeVal rs.2 c.2 c.1))))

/-- Bits of a map record by position (11 R273). -/
def mapWords (l0 : Nat) (on : Nat → Bool) : List Nat :=
  (upto (cdiv l0 64)).map fun m => ((upto 64).map fun b => if 64 * m + b < l0 ∧ on (64 * m + b) = true then 2 ^ b else 0).foldl (· + ·) 0

/-- A row of COMPRESS (21 R454): its nonzero codes packed into whole sectors from one on, and its map record. A block format's scales
of packed codes are stated by no rule. -/
def xCompress (s : State) (x : XRun) (p : List Byte) (src dst map y row soff : Nat) : XRes (List XOut × Nat) :=
  (xRef s x src .read).bind fun s rs => (xRef s x dst .write).bind fun s rd =>
    let d := rd.2
    if !d.bmp || d.elem != rs.2.elem || rs.2.bmp then (s, .error (some { code := 11, addr := dst, acc := 2 }))
    else
      let l0 := platBox p 0
      (xRead s x rs.2 rs.1 src none ((upto l0).map fun i => row + i * platStr p 0)).bind fun s cs =>
        let keep := cs.filter fun c => codeNonzero d.elem c.1
        let ns := cdiv keep.length d.per
        let es := (upto (ns * d.per)).map (soff * d.per + ·)
        let free := openScales s d es
        let codes := es.map fun e => (e, (keep.map (·.1)).getD (e - soff * d.per) 0, free.2 e)
        let rec' := leBytes 8 (keep.length * 2 ^ 32 + soff % 2 ^ 32) ++
          (mapWords l0 fun i => codeNonzero d.elem ((cs.map (·.1)).getD i 0)).flatMap (leBytes 8)
        (free.1, .ok (xCodesOf d dst codes ++ xPlain (map + y * (8 + 8 * cdiv l0 64)) rec', ns))

/-- A row of EXPAND (21 R454). -/
def xExpand (s : State) (x : XRun) (p : List Byte) (src dst map y row : Nat) : XRes (List XOut) :=
  (xRef s x src .read).bind fun s rs => (xRef s x dst .write).bind fun s rd =>
    if !rs.2.bmp || rd.2.elem != rs.2.elem || rd.2.bmp then (s, .error (some { code := 11, addr := src, acc := 1 }))
    else
      let l0 := platBox p 0
      let n := 8 + 8 * cdiv l0 64
      let ra := map + y * n
      (xGet s x (sectorPieces ra n)).bind fun s r =>
        let nnz := recLE r 4 2
        let pos := (upto (64 * cdiv l0 64)).filter fun i => bit (recLE r (8 + i / 64 * 8) 8) (i % 64)
        if recLE r 6 2 ≠ 0 ∨ pos.length ≠ nnz ∨ pos.any (decide <| l0 ≤ ·) = true then
          (s, .error (some { code := 30, addr := ra, acc := 1 }))
        else
          (xRead s x rs.2 rs.1 src none ((upto nnz).map fun k => recLE r 0 4 * rs.2.per + k)).bind fun s cs =>
            let at' (i : Nat) : Nat := row + i * platStr p 0
            let free := openScales s rd.2 ((upto l0).map at')
            let code (i : Nat) : Nat := match pos.findIdx? (· == i) with | some k => (cs.map (·.1)).getD k 0 | none => 0
            (free.1, .ok (xCodesOf rd.2 dst ((upto l0).map fun i => (at' i, code i, free.2 (at' i)))))

/-- DIGEST (21 R454). -/
def xDigest (s : State) (x : XRun) (src dst len : Nat) : XRes (List XOut) :=
  (xGet s x (sectorPieces src len)).bind fun s b => (s, .ok (xPlain dst (sha256 b)))

/-- The engine that runs a transform: its cache, if one of the die is of the context's world (24 R496). -/
def xEngine (s : State) (k : Kernel) : Option Nat :=
  let sec := (s.ctx k.ctx).secure
  if k.xform = 4 then
    ((upto 24).find? fun e => cfgBit s (512 + 24 * k.g + e) == sec).map fun e => tlbCopy (24 * k.g + e)
  else if cfgBit s (608 + k.g) == sec then some (tlbFold k.g) else none

/-- The control block, and for a tensor its plat record, as the engine reads them before anything else. -/
def xBlock (s : State) (x : XRun) (k : Kernel) : XRes (List Byte) :=
  (xGet s x (sectorPieces k.par 64)).bind fun s b =>
    if k.xform = 4 then (s, .ok b)
    else
      (xGet s x (sectorPieces (recLE b 40 8) 64)).bind fun s p =>
        if platRecOk p then (s, .ok (b ++ p)) else (s, .error (some { code := 11, addr := recLE b 40 8, acc := 1 }))

/-- The next row of a transform, or its digest; none when there is no more. -/
def xNext (s : State) (x : XRun) (k : Kernel) : XRes XRow :=
  let b := k.xblk
  let p := b.drop 64
  let src := recLE b 0 8
  let dst := recLE b 8 8
  let one (r : XRes (List XOut)) : XRes XRow := r.bind fun s l => (s, .ok (some (l, 0)))
  if k.xform = 4 then (if k.xpos = 0 then one (xDigest s x src dst (recLE b 16 8)) else (s, .ok none))
  else
    match (boxRows p)[k.xpos]? with
    | none => (s, .ok none)
    | some row =>
      match k.xform with
      | 1 => one (xConvert s x p src dst (recLE b 24 8) row)
      | 2 => (xCompress s x p src dst (recLE b 32 8) k.xpos row k.xsoff).bind fun s q => (s, .ok (some q))
      | _ => one (xExpand s x p src dst (recLE b 32 8) k.xpos row)

/-- A piece of a transform's work (21 R454): its block is read; then, row by row, a row is read and computed in one piece, and what it writes
goes to memory atom by atom. Its answer is how the transform changes. -/
def xWork (s : State) (kid : Nat) (k : Kernel) : XRes (Kernel → Kernel) :=
  match xEngine s k with
  | none => (s, .error (some { code := 9 }))
  | some who =>
    let x : XRun := ⟨who, k.ctx, kid⟩
    if k.xblk.isEmpty then (xBlock s x k).bind fun s b => (s, .ok fun k => { k with xblk := b })
    else if k.xout.isEmpty then
      (xNext s x k).bind fun s r =>
        (s, .ok (match r with
          | none => fun k => { k with st := .closing }
          | some q => fun k => { k with xpos := k.xpos + 1, xsoff := k.xsoff + q.2, xout := q.1 }))
    else
      let dst := recLE k.xblk 8 8
      (if k.xform = 4 then (s, .ok (0, ⟨0, 0, 0⟩)) else xRef s x dst .write : XRes (Nat × Desc)).bind fun s rd =>
        (xAtom s x rd.2 rd.1 dst k.xout).bind fun s l => (s, .ok fun k => { k with xout := l })

/-- An engine starts a transform, and in later steps performs it piece by piece; a cause ends it ABORTED, and one over its budget with OVERRUN
(21 R454). -/
def execTransformRun (kern : Nat) (s : State) : Outcome :=
  .next (
    let k := s.kern kern
    if k.xform = 0 ∨ (k.groups.any fun g => decide (s.cycle < g.start)) = true then s
    else if k.st == .admitted then s.setKern kern { k with st := .running }
    else if k.st == .running then
      match k.groups.find? (overBudget k) with
      | some g => overrun s kern g.num
      | none =>
        let r := xWork s kern k
        match r.2 with
        | .ok f => r.1.modKern kern f
        | .error none => r.1
        | .error (some c) =>
          settleCtx (writeCompletion (r.1.modKern kern fun k => { k with st := .aborted, cause := c.code }) kern 2) k.ctx
    else s)

end Sys2Proof.Machine
end

