-- ==== Sys2Proof/Machine/Trap.lean ====
section
/-! DEFINITION. TRAP, and the return from a trap: what ERET and ERET.AB do with a held operation (04 R102, R116, 05 R144, 09
R216, 10 R233, R236, 11 R268 to R270, 23 R485, R486). -/

namespace Sys2Proof.Machine
open Sys2Proof

/-- TRAP (23 R486). -/
def execTrap (h : Hdr) (imm : BitVec 8) : State → Outcome :=
  issue h { len := lenShort } fun _ => .trap { code := 14, sub := imm.toNat }

/-- Is an entry of an engine part of an operation of a strand? -/
def EngOp.isOf (e : EngOp) (u id : Nat) : Bool := e.uid == u && e.opId == id

/-- Tiles of a partition that an operation holds (10 R232). -/
def Part.heldBy (p : Part) (u id : Nat) : List (Nat × Bool) :=
  ((p.eq ++ p.streams).filter fun e => e.isOf u id && e.heldAt == 2).filterMap fun e => e.kind.tile?.map fun a => (a, e.kind.isLoad)

/-- Is a tile held by another operation as well? -/
def Part.heldElse (p : Part) (u id a : Nat) : Bool :=
  (p.eq ++ p.streams).any fun e => !e.isOf u id && e.heldAt == 2 && e.kind.tile? == some a

/-- ERET of an engine's operation in one partition (10 R233, 11 R268): it runs again, and its tile is as before. -/
def Part.resumeOp (p : Part) (u id : Nat) : Part :=
  let go (e : EngOp) : EngOp := if e.isOf u id then { e with heldAt := 0, bad := [], out := [], line := none, words := [], kept := [] } else e
  let q := (p.heldBy u id).foldl (fun q a =>
    let t := q.tile a.1
    if p.heldElse u id a.1 || t.st != .held then q else q.setTile a.1 { t with st := t.was }) p
  { q with eq := q.eq.map go, streams := q.streams.map go }

/-- ERET with abandon in one partition (10 R233, R249, R258, 11 R269): the operation is gone, and a tile that it held is LIVE, and
PARTIAL after a load. -/
def Part.abandonOp (p : Part) (u id : Nat) : Part :=
  let q := (p.heldBy u id).foldl (fun q a =>
    let t := q.tile a.1
    let t := if p.heldElse u id a.1 then t else { t with st := .live }
    q.setTile a.1 { t with part := t.part || a.2 }) p
  { q with eq := q.eq.filter fun e => !e.isOf u id, streams := q.streams.filter fun e => !e.isOf u id }

/-- The repetition of a faulted instruction may go on, unless another of its instructions has faulted (04 R116). -/
def resumeRep (t : Strand) (id : Nat) : Strand :=
  let more := t.ops.any fun o => (o.phase == .faulted || o.phase == .held) && (match o.child with | some k => k.1 == id | none => false)
  { t with rep := t.rep.map fun r => if r.opId = id then { r with stopped := more } else r
           ops := t.ops.map fun o => if o.id = id then { o with phase := if more then .held else .sent } else o }

/-- Abandon ends the repetition (04 R116). -/
def endRep (t : Strand) (id : Nat) : Strand :=
  { t with rep := t.rep.filter fun r => r.opId != id, ops := t.ops.filter fun o => o.id != id }

/-- A held operation goes on its way again: one of the release queue takes a place there (08 R198, 19 R427, R428), an atomic issues
anew (05 R144, 06 R158), a request for noise arrives again at its cluster's source (03 R91). -/
def requeue (s : State) (u : Nat) (o : Op) : State :=
  match o.kind with
  | .acqrel _ _ _ | .ksig _ _ | .klaunch _ _ => requeueRel s u o
  | .atomic _ va n _ _ => atomicIssue s (s.strand u) va n
  | .agadd va _ _ => atomicIssue s (s.strand u) va 16
  | .tree _ _ _ _ => treeArrive s u o.id
  | .rnoise =>
    let cl := coreCluster (s.strand u).pcore
    { s with noiseWait := tput s.noiseWait cl (tget [] s.noiseWait cl ++ [(u, o.id)]) }
  | .engine => s.mapParts fun p => p.resumeOp u o.id
  | _ => s

/-- ERET continues a held operation (04 R102): after WATCH that watchpoint is suppressed once (23 R483). -/
def resumeHeld (s : State) (u : Nat) (o : Op) : State :=
  let o' := { o with phase := .sent, outer := false, prog := if o.cause.code = 12 then o.cause.sub + 1 else o.prog }
  let s := match o.kind with
    | .rep => s.modStrand u fun t => { t with ops := t.ops.filter fun x => x.id != o.id }
    | _ => requeue (s.setOp u o') u o'
  match o.child with
  | some k => s.modStrand u fun t => resumeRep t k.1
  | none => s

/-- ERET with abandon ends a held operation (04 R102): zero in each destination, and the further effects of its entry. -/
def abandonHeld (s : State) (u : Nat) (o : Op) : State :=
  let s := s.modStrand u fun t =>
    { t.writeDests o.dests (o.dests.map fun _ => 0) with ops := t.ops.filter fun x => x.id != o.id }
  let s := match o.kind with
    | .engine => s.mapParts fun p => p.abandonOp u o.id
    | .cwait line => s.modStrand u fun t => { t with clines := tdel t.clines line }
    | _ => s
  match o.child with
  | some k => s.modStrand u fun t => endRep t k.1
  | none => s

/-- The close that a trap interrupted goes on, and its strand with it at TRES (04 R102, 23 R485). -/
def reenterClose (s : State) (u : Nat) (t : TrapRegs) : State :=
  closeCheck (s.modStrand u fun x =>
    { x with st := .parked .close, close := some (t.tres.toNat, t.tend), ops := x.ops.map fun o => { o with outer := false } }) u

/-- A tree operation: ERET sends it to the end of the unit's queue, which must have room (14 R320, R321). -/
def OpKind.isTree : OpKind → Bool
  | .tree _ _ _ _ => true
  | _ => false

/-- The close that an ERET goes back into takes the place of its own (04 R102): its form at a state. -/
def eretForm (s : State) : Form :=
  let c := (s.strand s.cur).trap.tcause.toNat
  { len := lenShort, reenters := (s.strand s.cur).trap.intrap && (bit c 16 || bit c 17) }

/-- ERET, ERET.AB (23 R485). -/
def eretEff (abandon : Bool) (x : Exe) : Eff :=
  let r := x.t.trap
  let c := r.tcause.toNat
  let t := { x.t with sup := r.ppriv, trap := { r with intrap := false } }
  let s := x.s.setStrand x.u t
  if !r.intrap then .trap { code := 1 }
  else if bit c 17 then
    match s.op x.u r.held with
    | some o =>
      if !abandon && o.kind.isTree && treeFull s x.t then .wait x.s
      else .ok (reenterClose (if abandon then abandonHeld s x.u o else resumeHeld s x.u o) x.u r)
    | none => .ok (reenterClose s x.u r)
  else if bit c 16 then .ok (reenterClose s x.u r)
  else if abandon then x.upd { t with pc := (r.tpc.toNat + r.tlen) % 2 ^ 64 }
  else
    x.upd { t with pc := r.tres.toNat, noWatch := if fld c 0 8 = 12 then some (fld c 8 8) else none,
                   noBreak := fld c 0 8 == 13 }

def execEret (h : Hdr) (s : State) : Outcome := issue h (eretForm s) (eretEff false) s
def execEretAb (h : Hdr) (s : State) : Outcome := issue h (eretForm s) (eretEff true) s

end Sys2Proof.Machine
end

