-- ==== Sys2Proof/Machine/VecPerform.lean ====
section
/-! DEFINITION. Performing the vector instruction at the head of a strand's queue (09 R211 to R229). -/

namespace Sys2Proof.Machine
open Sys2Proof

/-- What an instruction has done so far: memory, poisoned ECC words, the words it has poisoned, and flags. -/
structure VRes where
  mem : List Host.Cell
  poison : List Nat
  taint : List Nat
  flags : Nat
  deriving DecidableEq, Repr

/-- Does a range read poisoned (09 R216)? -/
def VRes.bad (r : VRes) (a n : Nat) : Bool :=
  (r.poison ++ r.taint).any fun w => decide (w < a + n) && decide (a < w + eccLen w)

/-- Write bytes that were computed from poisoned sources or not. -/
def VRes.put (r : VRes) (a : Nat) (bs : List Byte) (bad : Bool) : VRes :=
  { r with mem := memPut r.mem a bs
           taint := if bad then (upto bs.length).foldl (fun t i => if t.contains (eccWord (a + i)) then t else eccWord (a + i) :: t) r.taint
                    else r.taint }
def VRes.flag (r : VRes) (f : Nat) : VRes := { r with flags := Nat.lor r.flags f }

/-- The bytes that hold element i of packed elements of an ELEM code from a on (03 R73). -/
def elemSpan (el a i : Nat) : Nat × Nat :=
  match (elemFmt el).bits with
  | 4 => (a + i / 2, 1)
  | 6 => (a + 64 * (i / 84) + 3 * (i % 84 / 4), 3)
  | b => (a + b / 8 * i, b / 8)

/-- Read element i. -/
def VRes.get (r : VRes) (el a i : Nat) : Nat := elemAt el (fun k => memGet r.mem (a + k)) i
def VRes.badElem (r : VRes) (el a i : Nat) : Bool := let q := elemSpan el a i; r.bad q.1 q.2

/-- Write element i of n: bits of the last byte or group past element n - 1 are zero, and so is byte 63 of every sector
of a 6-bit operand (09 R227). -/
def VRes.set (r : VRes) (el a n i v : Nat) (bad : Bool) : VRes :=
  let q := elemSpan el a i
  match (elemFmt el).bits with
  | 4 =>
    let old := (memGet r.mem q.1).toNat
    let new := setFld old (4 * (i % 2)) 4 v
    r.put q.1 [BitVec.ofNat 8 (if i + 1 = n then new % 2 ^ (4 * (i % 2 + 1)) else new)] bad
  | 6 =>
    let old := leNat [memGet r.mem q.1, memGet r.mem (q.1 + 1), memGet r.mem (q.1 + 2)]
    let k := i % 84 % 4
    let new := setFld old (6 * k) 6 v
    (r.put q.1 (leBytes 3 (if i + 1 = n then new % 2 ^ (6 * (k + 1)) else new)) bad).put (a + 64 * (i / 84) + 63) [0] false
  | b => r.put q.1 (leBytes (b / 8) v) bad

/-- Bit i of a bitmap, and writing one (09 R225). -/
def VRes.getBit (r : VRes) (a i : Nat) : Bool := bit (memGet r.mem (a + i / 8)).toNat (i % 8)
def VRes.setBit (r : VRes) (a n i : Nat) (v bad : Bool) : VRes :=
  let new := setFld (memGet r.mem (a + i / 8)).toNat (i % 8) 1 (b2n v)
  r.put (a + i / 8) [BitVec.ofNat 8 (if i + 1 = n then new % 2 ^ (i % 8 + 1) else new)] bad

/-- One element, in ascending order (09 R214). -/
def eachElem (n : Nat) (r : VRes) (f : VRes → Nat → VRes) : VRes := (upto n).foldl f r

/-- FADD, FSUB and the like in a float format (09 R221, 05 R129): code and flags. -/
def fltBin (op : Nat) (f : FFmt) (a b d : Nat) : Nat × Nat :=
  let va := decodeFlt f a
  let vb := decodeFlt f b
  match op with
  | 0x4A => convertFlt f .rne false (va.add vb)
  | 0x4B => convertFlt f .rne false (va.add vb.neg)
  | 0x4C => convertFlt f .rne false (va.mul vb)
  | 0x4D => convertFlt f .rne false ((va.mul vb).add (decodeFlt f d))
  | 0x4E => fpPick f false a b
  | _ => fpPick f true a b

/-- Integer arithmetic of a width wraps (09 R221). -/
def intBin (op bits a b d : Nat) : Nat :=
  match op with
  | 0x4A => (a + b) % 2 ^ bits
  | 0x4B => (a + 2 ^ bits - b % 2 ^ bits) % 2 ^ bits
  | 0x4C => a * b % 2 ^ bits
  | 0x4D => (a * b + d) % 2 ^ bits
  | 0x4E => if sgn bits b < sgn bits a then b else a
  | _ => if sgn bits a < sgn bits b then b else a

/-- The one-source functions on a float (09 R221): 0 ABS, 1 NEG, 2 EXP2, 3 LOG2, 4 RCP, 5 RSQ. -/
def fltUn (sel : Nat) (f : FFmt) (a : Nat) : Nat × Nat :=
  let v := decodeFlt f a
  convertFlt f .rne false (match sel with
    | 0 => v.abs | 1 => v.neg | 2 => v.exp2 | 3 => v.log2 | 4 => (Val.fin false 1 1).div v | _ => v.rsqrt)
def intUn (sel bits a : Nat) : Nat :=
  match sel with
  | 0 => if sgn bits a < 0 then (2 ^ bits - a % 2 ^ bits) % 2 ^ bits else a
  | _ => (2 ^ bits - a % 2 ^ bits) % 2 ^ bits

/-- Pairwise combination (09 R223). -/
def pairs {α : Type} (f : α → α → α) : List α → List α
  | a :: b :: l => f a b :: pairs f l
  | l => l
def pairwise {α : Type} (f : α → α → α) : Nat → List α → Option α
  | _, [] => none
  | _, [a] => some a
  | 0, _ => none
  | fuel + 1, l => pairwise f fuel (pairs f l)

/-- Slices of 16 (09 R223). -/
def slices {α : Type} (l : List α) : List (List α) := (upto (cdiv l.length 16)).map fun j => (l.drop (16 * j)).take 16
def reduceBy {α : Type} (f : α → α → α) (l : List α) : Option α :=
  pairwise f 20 ((slices l).filterMap fun q => pairwise f 5 q)

/-- A reduction of floats widened to F32 codes: the mailbox value and the flags (09 R222, R223). -/
def fltReduce (sel : Nat) (xs : List Nat) : Nat × Nat :=
  let nan := xs.any fun c => (decodeFlt fp32 c).isNan
  match sel with
  | 0 =>
    (match reduceBy (fun a b => let q := fpResult ((decodeFlt fp32 a.1).add (decodeFlt fp32 b.1)); (q.1, Nat.lor (Nat.lor a.2 b.2) q.2))
        (xs.map fun c => (c, 0)) with
    | some q => if (decodeFlt fp32 q.1).isNan then (0x7FC00000, Nat.lor q.2 fNan) else q
    | none => (0, 0))
  | 1 | 2 =>
    if nan then (0x7FC00000, fNan)
    else
      (match reduceBy (fun a b => (fpPick fp32 (sel == 1) a b).1) xs with
      | some c => (c, 0)
      | none => (if sel = 1 then 0xFF800000 else 0x7F800000, 0))
  | _ =>
    let gt (a b : Nat) : Bool :=
      !(decodeFlt fp32 b).isNan && ((decodeFlt fp32 a).isNan || decide (a ≠ b) && (fpPick fp32 true a b).1 == a)
    match reduceBy (fun a b => if gt b.2 a.2 then b else a) ((upto xs.length).zip xs) with
    | some q => (q.1 * 2 ^ 32 + (if (decodeFlt fp32 q.2).isNan then 0x7FC00000 else q.2), if nan then fNan else 0)
    | none => (0xFFFFFFFF * 2 ^ 32 + 0xFF800000, 0)

/-- A reduction of integers of a width. -/
def intReduce (sel bits : Nat) (xs : List Nat) : Nat :=
  let vs := xs.map (sgn bits)
  let low : Int := -(2 ^ (bits - 1) : Nat)
  let high : Int := (2 ^ (bits - 1) : Nat) - 1
  match sel with
  | 0 => unsgn 64 (vs.foldl (· + ·) 0)
  | 1 => unsgn 64 ((reduceBy max vs).getD low)
  | 2 => unsgn 64 ((reduceBy min vs).getD high)
  | _ =>
    match reduceBy (fun (a b : Nat × Int) => if a.2 < b.2 then b else a) ((upto vs.length).zip vs) with
    | some q => q.1 * 2 ^ 32 + unsgn 32 q.2
    | none => 0xFFFFFFFF * 2 ^ 32 + unsgn 32 low

/-- One stage of a chain on an F32 value (09 R226). -/
def stageRun (w v a b : Nat) : Nat × Nat :=
  let x := match stageSrc w with | 1 => b | 2 => stageK w | 3 => a | _ => 0
  match stageOp w with
  | 0 => fltBin 0x4A fp32 v x 0
  | 1 => fltBin 0x4B fp32 v x 0
  | 2 => fltBin 0x4B fp32 x v 0
  | 3 => fltBin 0x4C fp32 v x 0
  | 4 => fltBin 0x4E fp32 v x 0
  | 5 => fltBin 0x4F fp32 v x 0
  | 12 => fltBin 0x4D fp32 v x (stageK w)
  | o => fltUn (o - 6) fp32 v

/-- Widening to F32 (09 R222, R226). -/
def widen (et c : Nat) : Nat × Nat := convertFlt fp32 .rne false (decodeFlt (etFlt et) c)

/-- Is a value smaller, for the group limits of VQA? -/
def valMin (a b : Val) : Val := if b.lt a then b else a
def valMax (a b : Val) : Val := if a.lt b then b else a

/-- The quantisation of a group (09 R229): the record, the codes and the flags. -/
def qaQuant (b : Nat) (xs : List Val) (rs : List Rnd) : Nat × List Nat × Nat :=
  if xs.any fun v => match v with | .fin _ _ _ => false | _ => true then (0x7E00, xs.map fun _ => 0, fNan)
  else
    let lo := xs.foldl valMin (.fin false 0 1)
    let hi := xs.foldl valMax (.fin false 0 1)
    if hi.eq lo then (0, xs.map fun _ => 0, 0)
    else
      let sc := convertFlt fp16 .rup true ((hi.add lo.neg).div (.fin false (2 ^ b - 1) 1))
      let s := decodeFlt fp16 sc.1
      let z := convertInt b false .rne (lo.neg.div s)
      let qs := (xs.zip rs).map fun p => convertInt b false p.2 ((p.1.div s).add (.fin false z.1 1))
      (sc.1 + z.1 * 2 ^ 16, qs.map (·.1), qs.foldl (fun f q => Nat.lor f q.2) (Nat.lor sc.2 z.2))

/-- What an instruction leaves: memory, flags, and a mailbox value. -/
def vecRun (v : VecOp) (t : Strand) (base : Nat) (r : VRes) : VRes × Option Word × Bool :=
  let el := etElem v.et
  let z := etSize v.et
  let bits := 8 * z
  let f := etFlt v.et
  let d := base + v.pd
  let a := base + v.pa
  let b := base + v.pb
  let src := fld v.imm 0 5
  let tgt := fld v.imm 5 5
  let sat := bit v.mode 3
  let rnd (i : Nat) : Rnd := rndOf (fld v.mode 0 3) v.seed (fld v.imm 10 10) ((v.y + i) % 2 ^ 64)
  let mb := (tget Mailbox.init t.mboxes v.mb).v.toNat
  let ok (r : VRes) : VRes × Option Word × Bool := (r, none, !r.taint.isEmpty)
  match v.ext with
  | none =>
    if v.op < 0x100 then
      ok (eachElem v.n r fun r i =>
        let p := r.get el a i
        let q := r.get el b i
        let w := r.get el d i
        let bad := r.badElem el a i || r.badElem el b i || (v.op == 0x4D && r.badElem el d i)
        let o := if etIsFloat v.et then fltBin v.op f p q w else (intBin v.op bits p q w, 0)
        (r.set el d v.n i o.1 bad).flag o.2)
    else if v.op < 0x510 then
      ok (eachElem v.n r fun r i =>
        let p := r.get el a i
        let o := if v.op = 0x506 then (p, 0) else if etIsFloat v.et then fltUn (v.op - 0x500) f p
          else (intUn (v.op - 0x500) bits p, 0)
        (r.set el d v.n i o.1 (r.badElem el a i)).flag o.2)
    else if v.n != 0 && r.bad a (v.n * z) then (r, none, true)
    else
      let xs := (upto v.n).map fun i => r.get el a i
      if etIsFloat v.et then
        let ws := xs.map (widen v.et)
        let o := fltReduce (v.op - 0x510) (if v.et = 0 then xs else ws.map (·.1))
        (r.flag o.2, some (w64 o.1), false)
      else (r, some (w64 (intReduce (v.op - 0x510) bits xs)), false)
  | some .vcmp =>
    ok (eachElem v.n r fun r i =>
      let p := r.get el a i
      let q := r.get el b i
      let c := (FCond.ofCode (fld v.mode 0 3)).getD .eq
      let o := if etIsFloat v.et then fcmpOf c (decodeFlt f p) (decodeFlt f q)
        else fcmpOf c (.ofInt (sgn bits p)) (.ofInt (sgn bits q))
      (r.setBit d v.n i o.1 (r.badElem el a i || r.badElem el b i)).flag o.2)
  | some .vsel =>
    ok (eachElem v.n r fun r i =>
      let m := base + v.pm
      let k := r.getBit m i
      let bad := r.bad (m + i / 8) 1 || (if k then r.badElem el a i else r.badElem el b i)
      r.set el d v.n i (if k then r.get el a i else r.get el b i) bad)
  | some .vscale =>
    let s := decodeFlt fp32 ((if fld v.mode 6 2 = 1 then mb else v.x) % 2 ^ 32)
    let k := decodeFlt fp32 ((if fld v.mode 6 2 = 2 then mb else v.y) % 2 ^ 32)
    ok (eachElem v.n r fun r i =>
      let o := convertFlt f .rne false (((decodeFlt f (r.get el a i)).mul s).add k)
      (r.set el d v.n i o.1 (r.badElem el a i)).flag o.2)
  | some .vfill =>
    let w := if bit v.mode 6 then mb else v.y
    ok (eachElem v.n r fun r i => r.set el d v.n i (w % 2 ^ bits) false)
  | some .vrand =>
    ok (eachElem v.n r fun r i =>
      let w := dcg v.seed v.imm ((v.y + i) % 2 ^ 64) % 2 ^ 32
      r.set el d v.n i (if v.et = 0 then (convertFlt fp32 .rne false (.fin false (w / 2 ^ 8) (2 ^ 24))).1 else w) false)
  | some .vnzc =>
    let c := fld v.mode 0 5
    let bad := (upto v.n).any fun i => r.badElem c a i
    let nz (r : VRes) (i : Nat) : Bool := codeNonzero c (r.get c a i)
    let q := (upto v.n).foldl (fun (q : VRes × Nat) i =>
      let k := nz q.1 i
      (if bit v.mode 5 then q.1.setBit d v.n i k (q.1.badElem c a i) else q.1, q.2 + b2n k)) (r, 0)
    (q.1, if bad ∨ v.n = 0 then none else some (w64 q.2), bad)
  | some .vchain =>
    ok (eachElem v.n r fun r i =>
      let usesB := v.chain.any fun w => stageSrc w == 1
      let p := widen v.et (r.get el a i)
      let q := if usesB then widen v.et (r.get el b i) else (0, 0)
      let o := v.chain.foldl (fun (o : Nat × Nat) w => let s := stageRun w o.1 p.1 q.1; (s.1, Nat.lor o.2 s.2))
        (p.1, Nat.lor p.2 q.2)
      let w := convertFlt f .rne false (decodeFlt fp32 o.1)
      (r.set el d v.n i w.1 (r.badElem el a i || (usesB && r.badElem el b i))).flag (Nat.lor o.2 w.2))
  | some .vcvt =>
    ok (eachElem v.n r fun r i =>
      let o := convertNum (elemFmt tgt) (rnd i) sat (decodeNum (elemFmt src) (r.get src a i))
      (r.set tgt d v.n i o.1 (r.badElem src a i)).flag o.2)
  | some .vqmx =>
    ok ((upto (cdiv v.n 32)).foldl (fun r k =>
      let is := (upto (min 32 (v.n - 32 * k))).map fun j => 32 * k + j
      let bad := is.any fun i => r.badElem src a i
      let o := mxScale (is.map fun i => decodeNum (elemFmt src) (r.get src a i)) tgt (is.map rnd) sat
      let r := (is.zip o.2.1).foldl (fun r p => r.set tgt d v.n p.1 p.2 bad) r
      (r.put (b + k) [BitVec.ofNat 8 o.1] bad).flag o.2.2) r)
  | some .vdqmx =>
    ok (eachElem v.n r fun r i =>
      let o := convertNum (elemFmt tgt) (rnd i) sat (mxVal src (memGet r.mem (b + i / 32)).toNat (r.get src a i))
      (r.set tgt d v.n i o.1 (r.badElem src a i || r.bad (b + i / 32) 1)).flag o.2)
  | some .vqa =>
    let g := qaGroup v.mode
    if bit v.mode 4 then
      ok (eachElem v.n r fun r i =>
        let rc := leNat ((upto 4).map fun j => memGet r.mem (b + 4 * (i / g) + j))
        let s := decodeFlt fp16 (rc % 2 ^ 16)
        let zp := if src = 16 then fld rc 16 4 else fld rc 16 8
        let q : Int := (r.get src a i : Int) - (zp : Int)
        let o := convertNum (elemFmt tgt) (rnd i) sat ((Val.ofInt q).mul s)
        (r.set tgt d v.n i o.1 (r.badElem src a i || r.bad (b + 4 * (i / g)) 4)).flag o.2)
    else
      ok ((upto (cdiv v.n g)).foldl (fun r k =>
        let is := (upto (min g (v.n - g * k))).map fun j => g * k + j
        let bad := is.any fun i => r.badElem src a i
        let o := qaQuant (if tgt = 16 then 4 else 8) (is.map fun i => decodeNum (elemFmt src) (r.get src a i)) (is.map rnd)
        let r := (is.zip o.2.1).foldl (fun r p => r.set tgt d v.n p.1 p.2 bad) r
        (r.put (b + 4 * k) (leBytes 4 o.1) bad).flag o.2.2) r)
  | some _ => ok r

/-- Does an instruction read a mailbox (09 R225)? One that works on no element reads nothing (09 R213). -/
def VecOp.readsMb (v : VecOp) : Bool :=
  v.n != 0 && match v.ext with | some .vscale => fld v.mode 6 2 != 0 | some .vfill => bit v.mode 6 | _ => false

/-- May the head of a strand's queue go on (09 R210, R211, R215, R218)? Once it has computed, the line of its next atom or its core can
keep it (06 R157). -/
def vecReady (s : State) (t : Strand) (v : VecOp) : Bool :=
  (match t.vout with
  | some o => !(o.left.take 1).any fun w => spadBusy s t.lcore t.ctx (w.1 - spadPA s t.lcore t.ctx 0) w.2.length
  | none =>
    (match t.claims.find? fun c => c.id == v.cid with
    | some c => c.grant != 0 && !(c.rens.any fun r => decide (r.seq < v.seq))
    | none => false) &&
    (!v.readsMb || (tget Mailbox.init t.mboxes v.mb).full) &&
    !(v.spans.any fun p => spadBusy s t.lcore t.ctx p.1 p.2)) && !s.off t.pcore t.ctx &&
  (match t.st with | .ended => false | .saved _ _ _ => false | _ => true)

/-- Put an operation in its place by issue order. -/
def insertOp (o : Op) : List Op → List Op
  | [] => [o]
  | x :: l => if o.id < x.id then o :: x :: l else x :: insertOp o l

/-- Byte 63 of the last sector of a 6-bit destination, where its elements end before it: it is written zero (09 R227). -/
def VecOp.pad (v : VecOp) : List (Nat × Nat) :=
  let conv : Bool := match v.ext with | some .vcvt | some .vqmx | some .vdqmx | some .vqa => true | _ => false
  if conv ∧ (elemFmt (fld v.imm 5 5)).bits = 6 ∧ v.n % 84 ≠ 0 then [(v.pd + 64 * (v.n / 84) + 63, 1)] else []

/-- The operands that an instruction writes: the first, and the scales or records of a quantisation. -/
def VecOp.written (v : VecOp) : List (Nat × Nat) :=
  (match v.ext with
  | none => if v.op < 0x510 then v.spans.take 1 else []
  | some .vnzc => if bit v.mode 5 then v.spans.take 1 else []
  | some .vqmx => v.spans.take 1 ++ v.spans.drop 2
  | some .vqa => if bit v.mode 4 then v.spans.take 1 else v.spans.take 1 ++ v.spans.drop 2
  | some _ => v.spans.take 1) ++ v.pad

/-- The head of a strand's vector queue computes (09 R214): what it has then to do, its writes as 8-byte atoms (08 R203). All its sources
are read in this one step (DESIGN CHOICE, log 114). -/
def vecCompute (s : State) (t : Strand) (v : VecOp) : VecOut :=
  let base := spadPA s t.lcore t.ctx 0
  let q := vecRun v t base ⟨s.mem, s.poison, [], 0⟩
  ⟨v.written.flatMap fun p => atomsOf (base + p.1) ((upto p.2).map fun i => memGet q.1.mem (base + p.1 + i)), q.1.taint, q.1.flags, q.2.1, q.2.2⟩

/-- One atom of what it writes: watches are tested, and poison follows its sources (09 R216). -/
def vecWrite (s : State) (w : Nat × List Byte) (taint : List Nat) : State :=
  let s := homeWrite s w.1 w.2
  if taint.contains (eccWord w.1) && !s.poison.contains (eccWord w.1) then { s with poison := eccWord w.1 :: s.poison } else s

/-- The instruction is finished: flags and mailbox are set, it leaves the queue, and a POISON waits for the first close that completes
afterwards (09 R216). -/
def vecFinish (s : State) (u : Nat) (v : VecOp) (o : VecOut) : State :=
  let t := (s.strand u).addFlags o.flags
  let t := match o.mb with | some w => mbWrite t v.mb w | none => t
  let fault : Op :=
      { id := v.opId, kind := .vector, path := .v, tpc := v.tpc, len := v.len, dests := [], phase := .faulted, holds := false,
        cause := { code := 10, iter := v.iter, bidx := v.bidx }, seq := v.seq }
  closeCheck (settleFree (s.setStrand u
    { t with vq := t.vq.drop 1, vout := none, ops := if o.bad then insertOp fault t.ops else t.ops }) u) u

/-- The core logs the first of its poisoned operand words (06 R159). -/
def vecLog (s : State) (t : Strand) (v : VecOp) : State :=
  let base := spadPA s t.lcore t.ctx 0
  match s.poison.find? fun w => v.spans.any fun p => decide (w < base + p.1 + p.2) && decide (base + p.1 < w + eccLen w) with
  | some w => logBad s w
  | none => s

/-- A piece of the work of the instruction at the head of a strand's vector queue: it computes, or one more of its atoms is written; after
the last it is finished. -/
def performVec (s : State) (u : Nat) (v : VecOp) : State :=
  match (s.strand u).vout with
  | none =>
    let o := vecCompute s (s.strand u) v
    let s := if o.bad then vecLog s (s.strand u) v else s
    if o.left.isEmpty then vecFinish s u v o else s.modStrand u fun t => { t with vout := some o }
  | some o =>
    match o.left with
    | [] => vecFinish s u v o
    | w :: rest =>
      let s := vecWrite s w o.taint
      if rest.isEmpty then vecFinish s u v { o with left := [] } else s.modStrand u fun t => { t with vout := some { o with left := rest } }

def execVectorPerform (uid : Nat) (s : State) : Outcome :=
  .next (
    match (s.strand uid).vq with
    | [] => s
    | v :: _ => if vecReady s (s.strand uid) v then performVec s uid v else s)

end Sys2Proof.Machine
end

