-- ==== Sys2Proof/Machine/Dispatch.lean ====
section
/-! DEFINITION. The one dispatch: each instruction, command and event to its meaning. -/

namespace Sys2Proof.Machine
open Sys2Proof

def exec (i : Instr) (s : State) : Host.Outcome State Fault Refusal :=
  match i with
  | .add h rd ra rb => Sys2Proof.Machine.execAdd h rd ra rb s
  | .sub h rd ra rb => Sys2Proof.Machine.execSub h rd ra rb s
  | .min h rd ra rb => Sys2Proof.Machine.execMin h rd ra rb s
  | .minu h rd ra rb => Sys2Proof.Machine.execMinu h rd ra rb s
  | .and h rd ra rb => Sys2Proof.Machine.execAnd h rd ra rb s
  | .or h rd ra rb => Sys2Proof.Machine.execOr h rd ra rb s
  | .xor h rd ra rb => Sys2Proof.Machine.execXor h rd ra rb s
  | .andn h rd ra rb => Sys2Proof.Machine.execAndn h rd ra rb s
  | .shl h rd ra rb => Sys2Proof.Machine.execShl h rd ra rb s
  | .shr h rd ra rb => Sys2Proof.Machine.execShr h rd ra rb s
  | .sar h rd ra rb => Sys2Proof.Machine.execSar h rd ra rb s
  | .rol h rd ra rb => Sys2Proof.Machine.execRol h rd ra rb s
  | .mul h rd ra rb => Sys2Proof.Machine.execMul h rd ra rb s
  | .mulh h rd ra rb => Sys2Proof.Machine.execMulh h rd ra rb s
  | .mulhu h rd ra rb => Sys2Proof.Machine.execMulhu h rd ra rb s
  | .div h rd ra rb => Sys2Proof.Machine.execDiv h rd ra rb s
  | .divu h rd ra rb => Sys2Proof.Machine.execDivu h rd ra rb s
  | .rem h rd ra rb => Sys2Proof.Machine.execRem h rd ra rb s
  | .remu h rd ra rb => Sys2Proof.Machine.execRemu h rd ra rb s
  | .max h rd ra rb => Sys2Proof.Machine.execMax h rd ra rb s
  | .maxu h rd ra rb => Sys2Proof.Machine.execMaxu h rd ra rb s
  | .clz h rd ra => Sys2Proof.Machine.execClz h rd ra s
  | .ctz h rd ra => Sys2Proof.Machine.execCtz h rd ra s
  | .popc h rd ra => Sys2Proof.Machine.execPopc h rd ra s
  | .sext h rd ra n => Sys2Proof.Machine.execSext h rd ra n s
  | .zext h rd ra n => Sys2Proof.Machine.execZext h rd ra n s
  | .bfx h rd ra rb => Sys2Proof.Machine.execBfx h rd ra rb s
  | .bfxLit h rd ra lit => Sys2Proof.Machine.execBfxLit h rd ra lit s
  | .bfi h rd ra rb => Sys2Proof.Machine.execBfi h rd ra rb s
  | .bfiLit h rd ra lit => Sys2Proof.Machine.execBfiLit h rd ra lit s
  | .addi h rd ra imm => Sys2Proof.Machine.execAddi h rd ra imm s
  | .addiLit h rd ra lit => Sys2Proof.Machine.execAddiLit h rd ra lit s
  | .li h rd imm => Sys2Proof.Machine.execLi h rd imm s
  | .liLit h rd lit => Sys2Proof.Machine.execLiLit h rd lit s
  | .sel h cs rd ra rb => Sys2Proof.Machine.execSel h cs rd ra rb s
  | .adr h rd imm => Sys2Proof.Machine.execAdr h rd imm s
  | .adrLit h rd lit => Sys2Proof.Machine.execAdrLit h rd lit s
  | .fadd h rd ra rb => Sys2Proof.Machine.execFadd h rd ra rb s
  | .fsub h rd ra rb => Sys2Proof.Machine.execFsub h rd ra rb s
  | .fmul h rd ra rb => Sys2Proof.Machine.execFmul h rd ra rb s
  | .fdiv h rd ra rb => Sys2Proof.Machine.execFdiv h rd ra rb s
  | .fmin h rd ra rb => Sys2Proof.Machine.execFmin h rd ra rb s
  | .fmax h rd ra rb => Sys2Proof.Machine.execFmax h rd ra rb s
  | .fsqrt h rd ra => Sys2Proof.Machine.execFsqrt h rd ra s
  | .fclass h rd ra => Sys2Proof.Machine.execFclass h rd ra s
  | .ffma h rd ra rb => Sys2Proof.Machine.execFfma h rd ra rb s
  | .fcmp h cd ra rb cond => Sys2Proof.Machine.execFcmp h cd ra rb cond s
  | .fcvt h rd ra kind rm sat => Sys2Proof.Machine.execFcvt h rd ra kind rm sat s
  | .br h off => Sys2Proof.Machine.execBr h off s
  | .brLit h lit => Sys2Proof.Machine.execBrLit h lit s
  | .call h kc off => Sys2Proof.Machine.execCall h kc off s
  | .callLit h kc lit => Sys2Proof.Machine.execCallLit h kc lit s
  | .jr h ra => Sys2Proof.Machine.execJr h ra s
  | .callr h kc ra => Sys2Proof.Machine.execCallr h kc ra s
  | .ret h => Sys2Proof.Machine.execRet h s
  | .nop h => Sys2Proof.Machine.execNop h s
  | .yield h => Sys2Proof.Machine.execYield h s
  | .endStrand h => Sys2Proof.Machine.execEndStrand h s
  | .wspill h kc => Sys2Proof.Machine.execWspill h kc s
  | .wfill h kc => Sys2Proof.Machine.execWfill h kc s
  | .cmp h cd ra rb cond => Sys2Proof.Machine.execCmp h cd ra rb cond s
  | .cmpi h cd ra cond imm => Sys2Proof.Machine.execCmpi h cd ra cond imm s
  | .cmpiLit h cd ra cond lit => Sys2Proof.Machine.execCmpiLit h cd ra cond lit s
  | .pand h cd ca cb => Sys2Proof.Machine.execPand h cd ca cb s
  | .por h cd ca cb => Sys2Proof.Machine.execPor h cd ca cb s
  | .pxor h cd ca cb => Sys2Proof.Machine.execPxor h cd ca cb s
  | .pnot h cd ca => Sys2Proof.Machine.execPnot h cd ca s
  | .pmov h cd ca => Sys2Proof.Machine.execPmov h cd ca s
  | .rep h n k stride => Sys2Proof.Machine.execRep h n k stride s
  | .ldB h rd base disp => Sys2Proof.Machine.execLdB h rd base disp s
  | .ldBLit h rd base lit => Sys2Proof.Machine.execLdBLit h rd base lit s
  | .ldBu h rd base disp => Sys2Proof.Machine.execLdBu h rd base disp s
  | .ldBuLit h rd base lit => Sys2Proof.Machine.execLdBuLit h rd base lit s
  | .ldH h rd base disp => Sys2Proof.Machine.execLdH h rd base disp s
  | .ldHLit h rd base lit => Sys2Proof.Machine.execLdHLit h rd base lit s
  | .ldHu h rd base disp => Sys2Proof.Machine.execLdHu h rd base disp s
  | .ldHuLit h rd base lit => Sys2Proof.Machine.execLdHuLit h rd base lit s
  | .ldW h rd base disp => Sys2Proof.Machine.execLdW h rd base disp s
  | .ldWLit h rd base lit => Sys2Proof.Machine.execLdWLit h rd base lit s
  | .ldWu h rd base disp => Sys2Proof.Machine.execLdWu h rd base disp s
  | .ldWuLit h rd base lit => Sys2Proof.Machine.execLdWuLit h rd base lit s
  | .ldD h rd base disp => Sys2Proof.Machine.execLdD h rd base disp s
  | .ldDLit h rd base lit => Sys2Proof.Machine.execLdDLit h rd base lit s
  | .ldp h rd base disp => Sys2Proof.Machine.execLdp h rd base disp s
  | .ldpLit h rd base lit => Sys2Proof.Machine.execLdpLit h rd base lit s
  | .stB h rd base disp => Sys2Proof.Machine.execStB h rd base disp s
  | .stBLit h rd base lit => Sys2Proof.Machine.execStBLit h rd base lit s
  | .stH h rd base disp => Sys2Proof.Machine.execStH h rd base disp s
  | .stHLit h rd base lit => Sys2Proof.Machine.execStHLit h rd base lit s
  | .stW h rd base disp => Sys2Proof.Machine.execStW h rd base disp s
  | .stWLit h rd base lit => Sys2Proof.Machine.execStWLit h rd base lit s
  | .stD h rd base disp => Sys2Proof.Machine.execStD h rd base disp s
  | .stDLit h rd base lit => Sys2Proof.Machine.execStDLit h rd base lit s
  | .stp h rd base disp => Sys2Proof.Machine.execStp h rd base disp s
  | .stpLit h rd base lit => Sys2Proof.Machine.execStpLit h rd base lit s
  | .aaddD h rd ra rb => Sys2Proof.Machine.execAaddD h rd ra rb s
  | .aandD h rd ra rb => Sys2Proof.Machine.execAandD h rd ra rb s
  | .aorD h rd ra rb => Sys2Proof.Machine.execAorD h rd ra rb s
  | .axorD h rd ra rb => Sys2Proof.Machine.execAxorD h rd ra rb s
  | .aaddW h rd ra rb => Sys2Proof.Machine.execAaddW h rd ra rb s
  | .aandW h rd ra rb => Sys2Proof.Machine.execAandW h rd ra rb s
  | .aorW h rd ra rb => Sys2Proof.Machine.execAorW h rd ra rb s
  | .axorW h rd ra rb => Sys2Proof.Machine.execAxorW h rd ra rb s
  | .aminD h rd ra rb => Sys2Proof.Machine.execAminD h rd ra rb s
  | .amaxD h rd ra rb => Sys2Proof.Machine.execAmaxD h rd ra rb s
  | .axchgD h rd ra rb => Sys2Proof.Machine.execAxchgD h rd ra rb s
  | .acasD h rd ra rb => Sys2Proof.Machine.execAcasD h rd ra rb s
  | .aminW h rd ra rb => Sys2Proof.Machine.execAminW h rd ra rb s
  | .amaxW h rd ra rb => Sys2Proof.Machine.execAmaxW h rd ra rb s
  | .axchgW h rd ra rb => Sys2Proof.Machine.execAxchgW h rd ra rb s
  | .acasW h rd ra rb => Sys2Proof.Machine.execAcasW h rd ra rb s
  | .agadd h rd ra rb => Sys2Proof.Machine.execAgadd h rd ra rb s
  | .bind h rd ra rb => Sys2Proof.Machine.execBind h rd ra rb s
  | .unbind h rd => Sys2Proof.Machine.execUnbind h rd s
  | .acq h rd ra scope => Sys2Proof.Machine.execAcq h rd ra scope s
  | .rel h rd ra scope => Sys2Proof.Machine.execRel h rd ra scope s
  | .acqrel h rd ra scope => Sys2Proof.Machine.execAcqrel h rd ra scope s
  | .waitw h rd ra scope => Sys2Proof.Machine.execWaitw h rd ra scope s
  | .fence h paths scope => Sys2Proof.Machine.execFence h paths scope s
  | .vclaim h rd ra => Sys2Proof.Machine.execVclaim h rd ra s
  | .vreneg h rd ra => Sys2Proof.Machine.execVreneg h rd ra s
  | .vfree h => Sys2Proof.Machine.execVfree h s
  | .pset h p ra rb => Sys2Proof.Machine.execPset h p ra rb s
  | .pget h p ra => Sys2Proof.Machine.execPget h p ra s
  | .vadd h pd pa pb rn et => Sys2Proof.Machine.execVadd h pd pa pb rn et s
  | .vsub h pd pa pb rn et => Sys2Proof.Machine.execVsub h pd pa pb rn et s
  | .vmul h pd pa pb rn et => Sys2Proof.Machine.execVmul h pd pa pb rn et s
  | .vfma h pd pa pb rn et => Sys2Proof.Machine.execVfma h pd pa pb rn et s
  | .vmin h pd pa pb rn et => Sys2Proof.Machine.execVmin h pd pa pb rn et s
  | .vmax h pd pa pb rn et => Sys2Proof.Machine.execVmax h pd pa pb rn et s
  | .vabs h pd pa rn et => Sys2Proof.Machine.execVabs h pd pa rn et s
  | .vneg h pd pa rn et => Sys2Proof.Machine.execVneg h pd pa rn et s
  | .vexp2 h pd pa rn et => Sys2Proof.Machine.execVexp2 h pd pa rn et s
  | .vlog2 h pd pa rn et => Sys2Proof.Machine.execVlog2 h pd pa rn et s
  | .vrcp h pd pa rn et => Sys2Proof.Machine.execVrcp h pd pa rn et s
  | .vrsq h pd pa rn et => Sys2Proof.Machine.execVrsq h pd pa rn et s
  | .vcopy h pd pa rn et => Sys2Proof.Machine.execVcopy h pd pa rn et s
  | .vsum h mb pa rn et => Sys2Proof.Machine.execVsum h mb pa rn et s
  | .vmaxr h mb pa rn et => Sys2Proof.Machine.execVmaxr h mb pa rn et s
  | .vminr h mb pa rn et => Sys2Proof.Machine.execVminr h mb pa rn et s
  | .vargmax h mb pa rn et => Sys2Proof.Machine.execVargmax h mb pa rn et s
  | .vcmp h e => Sys2Proof.Machine.execVcmp h e s
  | .vsel h e => Sys2Proof.Machine.execVsel h e s
  | .vscale h e => Sys2Proof.Machine.execVscale h e s
  | .vscaleLit h e lit => Sys2Proof.Machine.execVscaleLit h e lit s
  | .vfill h e => Sys2Proof.Machine.execVfill h e s
  | .vfillLit h e lit => Sys2Proof.Machine.execVfillLit h e lit s
  | .vrand h e => Sys2Proof.Machine.execVrand h e s
  | .vrandLit h e lit => Sys2Proof.Machine.execVrandLit h e lit s
  | .vnzc h e => Sys2Proof.Machine.execVnzc h e s
  | .vchain h e => Sys2Proof.Machine.execVchain h e s
  | .vchainLit h e lit => Sys2Proof.Machine.execVchainLit h e lit s
  | .vcvt h e => Sys2Proof.Machine.execVcvt h e s
  | .vcvtLit h e lit => Sys2Proof.Machine.execVcvtLit h e lit s
  | .vqmx h e => Sys2Proof.Machine.execVqmx h e s
  | .vqmxLit h e lit => Sys2Proof.Machine.execVqmxLit h e lit s
  | .vdqmx h e => Sys2Proof.Machine.execVdqmx h e s
  | .vqa h e => Sys2Proof.Machine.execVqa h e s
  | .vqaLit h e lit => Sys2Proof.Machine.execVqaLit h e lit s
  | .ashape h a rows cc => Sys2Proof.Machine.execAshape h a rows cc s
  | .adatum h a d => Sys2Proof.Machine.execAdatum h a d s
  | .azero h a => Sys2Proof.Machine.execAzero h a s
  | .astat h a rd => Sys2Proof.Machine.execAstat h a rd s
  | .achk h a rd => Sys2Proof.Machine.execAchk h a rd s
  | .cld h e => Sys2Proof.Machine.execCld h e s
  | .cldLit h e lit => Sys2Proof.Machine.execCldLit h e lit s
  | .cldc h e => Sys2Proof.Machine.execCldc h e s
  | .cldcLit h e lit => Sys2Proof.Machine.execCldcLit h e lit s
  | .cldSp h e => Sys2Proof.Machine.execCldSp h e s
  | .cldSpLit h e lit => Sys2Proof.Machine.execCldSpLit h e lit s
  | .old h e => Sys2Proof.Machine.execOld h e s
  | .oldLit h e lit => Sys2Proof.Machine.execOldLit h e lit s
  | .oldT h e => Sys2Proof.Machine.execOldT h e s
  | .oldTLit h e lit => Sys2Proof.Machine.execOldTLit h e lit s
  | .ocols h e => Sys2Proof.Machine.execOcols h e s
  | .adrain h e => Sys2Proof.Machine.execAdrain h e s
  | .adrainLit h e lit => Sys2Proof.Machine.execAdrainLit h e lit s
  | .slotw h ra rb => Sys2Proof.Machine.execSlotw h ra rb s
  | .hopen h o rd ra => Sys2Proof.Machine.execHopen h o rd ra s
  | .hclose h o rd => Sys2Proof.Machine.execHclose h o rd s
  | .hbatch h o rd => Sys2Proof.Machine.execHbatch h o rd s
  | .hlist h o rd ra => Sys2Proof.Machine.execHlist h o rd ra s
  | .hattach h o rd ra => Sys2Proof.Machine.execHattach h o rd ra s
  | .hdetach h o rd ra => Sys2Proof.Machine.execHdetach h o rd ra s
  | .hswap h o rd ra => Sys2Proof.Machine.execHswap h o rd ra s
  | .hverify h o rd => Sys2Proof.Machine.execHverify h o rd s
  | .hfold h o rd ra => Sys2Proof.Machine.execHfold h o rd ra s
  | .tclr h t ra => Sys2Proof.Machine.execTclr h t ra s
  | .tset h t rd ra => Sys2Proof.Machine.execTset h t rd ra s
  | .tadd h t rd ra => Sys2Proof.Machine.execTadd h t rd ra s
  | .tpref h t rd ra => Sys2Proof.Machine.execTpref h t rd ra s
  | .tfind h t rd ra => Sys2Proof.Machine.execTfind h t rd ra s
  | .tcut h t rd ra => Sys2Proof.Machine.execTcut h t rd ra s
  | .ttot h t rd ra => Sys2Proof.Machine.execTtot h t rd ra s
  | .tloadM32 h t ra rb => Sys2Proof.Machine.execTloadM32 h t ra rb s
  | .tloadM16 h t ra rb => Sys2Proof.Machine.execTloadM16 h t ra rb s
  | .tstore h t ra rb => Sys2Proof.Machine.execTstore h t ra rb s
  | .ppush h b rd => Sys2Proof.Machine.execPpush h b rd s
  | .ppop h b rd cd => Sys2Proof.Machine.execPpop h b rd cd s
  | .ppeek h b rd cd => Sys2Proof.Machine.execPpeek h b rd cd s
  | .pcount h b rd => Sys2Proof.Machine.execPcount h b rd s
  | .peos h b => Sys2Proof.Machine.execPeos h b s
  | .pconf h b rd => Sys2Proof.Machine.execPconf h b rd s
  | .mbw h mb rd => Sys2Proof.Machine.execMbw h mb rd s
  | .mbr h mb rd => Sys2Proof.Machine.execMbr h mb rd s
  | .plnew h o rd ra => Sys2Proof.Machine.execPlnew h o rd ra s
  | .plset h o rd ra => Sys2Proof.Machine.execPlset h o rd ra s
  | .plget h o rd ra => Sys2Proof.Machine.execPlget h o rd ra s
  | .cpy h rd ra => Sys2Proof.Machine.execCpy h rd ra s
  | .cpynb h rd ra => Sys2Proof.Machine.execCpynb h rd ra s
  | .swinit h ra rb => Sys2Proof.Machine.execSwinit h ra rb s
  | .swwait h ra rb => Sys2Proof.Machine.execSwwait h ra rb s
  | .rinit h g rd ra => Sys2Proof.Machine.execRinit h g rd ra s
  | .rawait h g rd ra => Sys2Proof.Machine.execRawait h g rd ra s
  | .rrel h g rd ra => Sys2Proof.Machine.execRrel h g rd ra s
  | .rseq h g rd ra => Sys2Proof.Machine.execRseq h g rd ra s
  | .reos h g rd ra => Sys2Proof.Machine.execReos h g rd ra s
  | .gpost h rd ra => Sys2Proof.Machine.execGpost h rd ra s
  | .gwait h rd ra => Sys2Proof.Machine.execGwait h rd ra s
  | .gid h rd ra => Sys2Proof.Machine.execGid h rd ra s
  | .dqpush h rd ra => Sys2Proof.Machine.execDqpush h rd ra s
  | .dqpop h rd => Sys2Proof.Machine.execDqpop h rd s
  | .dqsplit h rd ra => Sys2Proof.Machine.execDqsplit h rd ra s
  | .dqsteal h rd ra => Sys2Proof.Machine.execDqsteal h rd ra s
  | .suspend h rd => Sys2Proof.Machine.execSuspend h rd s
  | .btest h rd ra rb => Sys2Proof.Machine.execBtest h rd ra rb s
  | .stb h rd ra rb => Sys2Proof.Machine.execStb h rd ra rb s
  | .binit h rd ra rb => Sys2Proof.Machine.execBinit h rd ra rb s
  | .bexp h rd ra rb => Sys2Proof.Machine.execBexp h rd ra rb s
  | .barv h rd ra rb => Sys2Proof.Machine.execBarv h rd ra rb s
  | .bwait h rd ra => Sys2Proof.Machine.execBwait h rd ra s
  | .ksig h rd ra rb => Sys2Proof.Machine.execKsig h rd ra rb s
  | .klaunch h rd ra rb => Sys2Proof.Machine.execKlaunch h rd ra rb s
  | .keos h rd => Sys2Proof.Machine.execKeos h rd s
  | .cgrp h e => Sys2Proof.Machine.execCgrp h e s
  | .cag h e => Sys2Proof.Machine.execCag h e s
  | .cagLit h e lit => Sys2Proof.Machine.execCagLit h e lit s
  | .crs h e => Sys2Proof.Machine.execCrs h e s
  | .crsLit h e lit => Sys2Proof.Machine.execCrsLit h e lit s
  | .ca2a h e => Sys2Proof.Machine.execCa2a h e s
  | .ca2aLit h e lit => Sys2Proof.Machine.execCa2aLit h e lit s
  | .cbar h e => Sys2Proof.Machine.execCbar h e s
  | .cwait h rd ra => Sys2Proof.Machine.execCwait h rd ra s
  | .ctest h rd ra => Sys2Proof.Machine.execCtest h rd ra s
  | .rseed h ra => Sys2Proof.Machine.execRseed h ra s
  | .rgen h rd ra rb => Sys2Proof.Machine.execRgen h rd ra rb s
  | .rnoise h rd => Sys2Proof.Machine.execRnoise h rd s
  | .rlog h rd ra => Sys2Proof.Machine.execRlog h rd ra s
  | .mseq h e => Sys2Proof.Machine.execMseq h e s
  | .mseqLit h e lit => Sys2Proof.Machine.execMseqLit h e lit s
  | .trap h imm => Sys2Proof.Machine.execTrap h imm s
  | .eret h => Sys2Proof.Machine.execEret h s
  | .eretAb h => Sys2Proof.Machine.execEretAb h s
  | .csrr h rd imm => Sys2Proof.Machine.execCsrr h rd imm s
  | .csrw h rd imm => Sys2Proof.Machine.execCsrw h rd imm s
  | .csrs h rd imm => Sys2Proof.Machine.execCsrs h rd imm s
  | .csrc h rd imm => Sys2Proof.Machine.execCsrc h rd imm s
  | .wcall h rd imm => Sys2Proof.Machine.execWcall h rd imm s
  | .sleep h rd => Sys2Proof.Machine.execSleep h rd s
  | .contw h rd => Sys2Proof.Machine.execContw h rd s
  | .contr h rd slot => Sys2Proof.Machine.execContr h rd slot s
  | .shoot h rd => Sys2Proof.Machine.execShoot h rd s
  | .sliceWrite h rd => Sys2Proof.Machine.execSliceWrite h rd s
  | .create => Sys2Proof.Machine.execCreate s
  | .destroy => Sys2Proof.Machine.execDestroy s
  | .qopen => Sys2Proof.Machine.execQopen s
  | .qclose => Sys2Proof.Machine.execQclose s
  | .linkup => Sys2Proof.Machine.execLinkup s
  | .linkfence => Sys2Proof.Machine.execLinkfence s
  | .linkdown => Sys2Proof.Machine.execLinkdown s
  | .settvec => Sys2Proof.Machine.execSettvec s
  | .dbgset => Sys2Proof.Machine.execDbgset s
  | .dstop => Sys2Proof.Machine.execDstop s
  | .dresume => Sys2Proof.Machine.execDresume s
  | .trcset => Sys2Proof.Machine.execTrcset s
  | .loadobj => Sys2Proof.Machine.execLoadobj s
  | .finalisedCacheDrop ix => Sys2Proof.Machine.execFinalisedCacheDrop ix s
  | .powerUp flash pop ident fw train => Sys2Proof.Machine.execPowerUp flash pop ident fw train s
  | .pendingReturn uid id => Sys2Proof.Machine.execPendingReturn uid id s
  | .repIterationIssue uid => Sys2Proof.Machine.execRepIterationIssue uid s
  | .thermalInterval core temp => Sys2Proof.Machine.execThermalInterval core temp s
  | .thermalDisplacement uid => Sys2Proof.Machine.execThermalDisplacement uid s
  | .noiseWordDelivery cl => Sys2Proof.Machine.execNoiseWordDelivery cl s
  | .noiseHealthFail cl => Sys2Proof.Machine.execNoiseHealthFail cl s
  | .noiseHealthPass cl => Sys2Proof.Machine.execNoiseHealthPass cl s
  | .storeAtHome ix m => Sys2Proof.Machine.execStoreAtHome ix m s
  | .readAtHome uid id => Sys2Proof.Machine.execReadAtHome uid id s
  | .atomicAtHome uid id => Sys2Proof.Machine.execAtomicAtHome uid id s
  | .pageWalk core ctx va => Sys2Proof.Machine.execPageWalk core ctx va s
  | .sliceScrub slice fixed bad => Sys2Proof.Machine.execSliceScrub slice fixed bad s
  | .accessCountFlush who ctx va => Sys2Proof.Machine.execAccessCountFlush who ctx va s
  | .hotPageRecord ix => Sys2Proof.Machine.execHotPageRecord ix s
  | .wbRetranslate who ctx va => Sys2Proof.Machine.execWbRetranslate who ctx va s
  | .releasePerform core => Sys2Proof.Machine.execReleasePerform core s
  | .acqAtHome uid id => Sys2Proof.Machine.execAcqAtHome uid id s
  | .acqrelExchange core => Sys2Proof.Machine.execAcqrelExchange core s
  | .waitwRegister uid id => Sys2Proof.Machine.execWaitwRegister uid id s
  | .watchPoll uid id => Sys2Proof.Machine.execWatchPoll uid id s
  | .scopeMissHandle core => Sys2Proof.Machine.execScopeMissHandle core s
  | .bindPropagate src dst => Sys2Proof.Machine.execBindPropagate src dst s
  | .probeEcho core isPort ix => Sys2Proof.Machine.execProbeEcho core isPort ix s
  | .laneGrant cl => Sys2Proof.Machine.execLaneGrant cl s
  | .vectorPerform uid => Sys2Proof.Machine.execVectorPerform uid s
  | .engineOpPerform core ctx seq => Sys2Proof.Machine.execEngineOpPerform core ctx seq s
  | .sectorRequest core ctx seq => Sys2Proof.Machine.execSectorRequest core ctx seq s
  | .sectorReply core ctx seq t => Sys2Proof.Machine.execSectorReply core ctx seq t s
  | .traverseReservation core ctx seq => Sys2Proof.Machine.execTraverseReservation core ctx seq s
  | .traverseData core ctx seq => Sys2Proof.Machine.execTraverseData core ctx seq s
  | .slotFrameBoundary core => Sys2Proof.Machine.execSlotFrameBoundary core s
  | .sliceRerun core ctx seq => Sys2Proof.Machine.execSliceRerun core ctx seq s
  | .handleHomePerform uid id => Sys2Proof.Machine.execHandleHomePerform uid id s
  | .handleScrub ctx va shard => Sys2Proof.Machine.execHandleScrub ctx va shard s
  | .foldJobStart die => Sys2Proof.Machine.execFoldJobStart die s
  | .foldCommit die => Sys2Proof.Machine.execFoldCommit die s
  | .foldFail die => Sys2Proof.Machine.execFoldFail die s
  | .treeUnitPerform core ctx => Sys2Proof.Machine.execTreeUnitPerform core ctx s
  | .portValueLand ix => Sys2Proof.Machine.execPortValueLand ix s
  | .portCreditReturn ix => Sys2Proof.Machine.execPortCreditReturn ix s
  | .portClosedNotice uid b => Sys2Proof.Machine.execPortClosedNotice uid b s
  | .portDeadlock kern grp => Sys2Proof.Machine.execPortDeadlock kern grp s
  | .copyStart core e => Sys2Proof.Machine.execCopyStart core e s
  | .copyError e => Sys2Proof.Machine.execCopyError e s
  | .copyComplete e => Sys2Proof.Machine.execCopyComplete e s
  | .gatherPerform cl => Sys2Proof.Machine.execGatherPerform cl s
  | .groupPlacement kern grp => Sys2Proof.Machine.execGroupPlacement kern grp s
  | .dequeUnitPerform uid id => Sys2Proof.Machine.execDequeUnitPerform uid id s
  | .idleMonitorTest kern grp uid ix => Sys2Proof.Machine.execIdleMonitorTest kern grp uid ix s
  | .barrierUnitPerform uid id => Sys2Proof.Machine.execBarrierUnitPerform uid id s
  | .barrierPoll uid id => Sys2Proof.Machine.execBarrierPoll uid id s
  | .queueTake ctx qn => Sys2Proof.Machine.execQueueTake ctx qn s
  | .overrun kern grp => Sys2Proof.Machine.execOverrun kern grp s
  | .kernelCompletion kern => Sys2Proof.Machine.execKernelCompletion kern s
  | .transformRun kern => Sys2Proof.Machine.execTransformRun kern s
  | .meshInterrupt core => Sys2Proof.Machine.execMeshInterrupt core s
  | .saveComplete core => Sys2Proof.Machine.execSaveComplete core s
  | .restore core => Sys2Proof.Machine.execRestore core s
  | .redelivery ctx core => Sys2Proof.Machine.execRedelivery ctx core s
  | .spillRetry ctx => Sys2Proof.Machine.execSpillRetry ctx s
  | .portTrainingEnd port lanes peer => Sys2Proof.Machine.execPortTrainingEnd port lanes peer s
  | .laneFailure port working => Sys2Proof.Machine.execLaneFailure port working s
  | .messageDiscard wr uid id => Sys2Proof.Machine.execMessageDiscard wr uid id s
  | .meshCountDump => Sys2Proof.Machine.execMeshCountDump s
  | .collectiveReservation id flow => Sys2Proof.Machine.execCollectiveReservation id flow s
  | .collectiveChunk id flow sec => Sys2Proof.Machine.execCollectiveChunk id flow sec s
  | .reductionCombine id chunk sec level ix => Sys2Proof.Machine.execReductionCombine id chunk sec level ix s
  | .reductionPartialSpill id chunk sec level ix => Sys2Proof.Machine.execReductionPartialSpill id chunk sec level ix s
  | .sample core => Sys2Proof.Machine.execSample core s
  | .tracePushback => Sys2Proof.Machine.execTracePushback s
  | .flitReplay port corrected => Sys2Proof.Machine.execFlitReplay port corrected s
  | .powerRemoval => Sys2Proof.Machine.execPowerRemoval s
  | .promiseMissed which id => Sys2Proof.Machine.execPromiseMissed which id s
  | .tracePushbackRelease => Sys2Proof.Machine.execTracePushbackRelease s
  | .windowEnd kern grp => Sys2Proof.Machine.execWindowEnd kern grp s

end Sys2Proof.Machine
end

