-- ==== Sys2Proof/Machine/Step.lean ====
section
/-! DEFINITION. One step of the machine. -/

namespace Sys2Proof.Machine
open Sys2Proof

/-- Cycles until a strand's next turn, when dt have passed: its slot is offered issue once in 16 cycles (00 R5), not in a frozen rotation
(19 R421), and not before it may take a turn. -/
def toTurn (s : State) (t : Strand) (dt : Nat) : Nat :=
  let now := slotClock s t
  let d := max dt (t.turn - now)
  let d := d + (t.pslot + 16 - (now + d) % 16) % 16
  d + 16 * ((s.core t.pcore).frozen - (s.cycle + d) % 128 / 16)

/-- Cycles until a turn that a strand must be offered, if it has something to issue or a stop to take (00 R5, 25 R503). A deterministic
kernel's come with the cycles of its common sequence: one is due only in its own cycle. -/
def turnIn (s : State) (t : Strand) : Option Nat :=
  if (wantsTurn t || t.stopWaits && (match t.st with | .ready | .parked _ => true | _ => false)) && offered s t then
    let d := toTurn s t 0
    if (s.kern t.kern).lockstep && d != 0 then none else some d
  else none

/-- The strand whose turn comes first, and when; of turns in one cycle the one at the lowest logical core and slot (19 R423). -/
def firstDue (s : State) : Option (Nat × Nat) :=
  let place (u : Nat) : Nat := 16 * (s.strand u).lcore + (s.strand u).lslot
  s.strands.foldl (fun b q =>
    match turnIn s q.2, b with
    | none, _ => b
    | some d, none => some (d, q.1)
    | some d, some r => if d < r.1 ∨ d = r.1 ∧ place q.1 < place r.2 then some (d, q.1) else b) none

/-- A turn that a strand takes: where it has waited for input a busy run begins (19 R411), and it has no other turn in this cycle. -/
def beginTurn (s : State) (u : Nat) : State :=
  let s := wakeRun s (s.strand u)
  { s.modStrand u fun t => { t with turn := slotClock s t + 1 } with cur := u }

/-- A turn of a strand (04 R94, R110, 02 R59): a stop that waits, or fetch, BREAK, ILLEGAL, then the instruction. The turn is wasted while the strand is not
ready, and while a copy that has written its register file in part has not landed (06 R154). -/
noncomputable def turn (u : Nat) (s : State) : Outcome :=
  let t := s.strand u
  let had : Strand := { t with turn := slotClock s t + 1 }
  if stopDue s t then .next (stopStrand s u t.stopDbg)
  else if canIssue s t = false ∨ t.st ≠ .ready ∧ regHeld s t = true then .next (s.setStrand u had)
  else if t.yielded then .next (s.setStrand u { had with yielded := false })
  else if t.ending then .next (endTurn (s.setStrand u had) u)
  else
    let r := fetchInstr (beginTurn s u) t.pcore t.ctx t.pc
    match r.2 with
    | .error e => .next (trapAt r.1 u t.pc e.2 e.1)
    | .ok ws =>
      match breakHit r.1 t with
      | some b =>
        if b.2.stop then .next (stopStrand r.1 u true)
        else .next (trapAt r.1 u t.pc (4 * ws.length) { code := 13, sub := b.1 })
      | none =>
        match decode ws with
        | .error _ => .next (trapAt r.1 u t.pc (4 * ws.length) { code := 1 })
        | .ok i => exec i r.1

/-- The move that is chosen, the cycles before it, and the state in which it was chosen: the agenda's first, at once; otherwise a free
choice, after a free time (log entries 3 and 4). A move of a deterministic kernel that is chosen so is none (19 R423). -/
noncomputable def plan (s : State) : Move × Nat × State :=
  match s.agenda with
  | m :: ms => (if freeMove s m then m else .idle, 0, { s with agenda := ms })
  | [] => (if freeMove s (nextMove s.tick) then nextMove s.tick else .idle, Config.elapsed s.steps, { s with tick := s.tick + 1 })

/-- Cycles that pass before a move; before a turn, up to the cycle in which the slot is offered issue (00 R5). -/
def moveIn (s : State) (m : Move) (dt : Nat) : Nat := match m with | .issue u => toTurn s (s.strand u) dt | _ => dt

/-- A move, unless a turn comes before it (00 R5), or, where a deterministic kernel runs, a cycle of its sequence (19 R423). -/
noncomputable def beforeTurn (s : State) (q : Move × Nat × State) : Move × Nat × State :=
  let d := moveIn s q.1 q.2.1
  let next : Move × Nat × State :=
    match firstDue s with
    | some r => if r.1 < d then (.issue r.2, r.1, { s with tick := s.tick + 1 }) else (q.1, d, q.2.2)
    | none => (q.1, d, q.2.2)
  if 1 < next.2.1 ∧ (s.kernels.any fun k => k.2.lockstep) = true then (.idle, 1, { s with tick := s.tick + 1 }) else next

/-- The move that comes next, the cycles before it, and the state in which it was chosen: an event of a deterministic kernel's sweep, or the
planned one. -/
noncomputable def takeMove (s : State) : Move × Nat × State :=
  let s := sweepDet s
  match sweepNext s with
  | some q => (.event q.1, 0, q.2)
  | none => beforeTurn s (plan s)

/-- A move is made whole. An instruction, which has an encoding, runs only in a turn of its strand; as a move of its own it is not enabled
(log entry 8). -/
noncomputable def makeMove (s : State) (m : Move) : Outcome :=
  match m with
  | .issue u => turn u s
  | .event i => if encode i = [] then exec i s else .next s
  | .node a bs => .next (nodeWrite s a bs)
  | .upset a f => .next (upsetWord s a f)
  | .guard b => .next (selectGuard s b)
  | .lineError c k va => .next (lineError s c k va)
  | .residue c k a => .next (residueError s c k a)
  | .peer c p => .next (peerAct s c p)
  | .idle => .next s

/-- One step of the machine: time passes, then one move is made (log entries 3 and 4). -/
noncomputable def step (s : State) : Outcome :=
  let q := takeMove s
  let s' := elapse q.2.2 q.2.1
  match detOwner s' q.1 with
  | some kid => inDet s' kid fun s => makeMove s q.1
  | none => makeMove s' q.1

/-- The state in which step fetches and runs exactly the instruction whose bits are w. -/
def State.withFetchWord (s : State) (nbits w : Nat) : State := placeWord s nbits w

end Sys2Proof.Machine
end

