-- ==== Sys2Proof/Header.lean ====
section
/-! DEFINITION. The header of an instruction, for statements over all of them. -/

namespace Sys2Proof

/-- The header of an instruction; a command or an event has none. -/
def Instr.hdr? : Instr → Option Hdr
  | .add h _ _ _ => some h
  | .sub h _ _ _ => some h
  | .min h _ _ _ => some h
  | .minu h _ _ _ => some h
  | .and h _ _ _ => some h
  | .or h _ _ _ => some h
  | .xor h _ _ _ => some h
  | .andn h _ _ _ => some h
  | .shl h _ _ _ => some h
  | .shr h _ _ _ => some h
  | .sar h _ _ _ => some h
  | .rol h _ _ _ => some h
  | .mul h _ _ _ => some h
  | .mulh h _ _ _ => some h
  | .mulhu h _ _ _ => some h
  | .div h _ _ _ => some h
  | .divu h _ _ _ => some h
  | .rem h _ _ _ => some h
  | .remu h _ _ _ => some h
  | .max h _ _ _ => some h
  | .maxu h _ _ _ => some h
  | .clz h _ _ => some h
  | .ctz h _ _ => some h
  | .popc h _ _ => some h
  | .sext h _ _ _ => some h
  | .zext h _ _ _ => some h
  | .bfx h _ _ _ => some h
  | .bfxLit h _ _ _ => some h
  | .bfi h _ _ _ => some h
  | .bfiLit h _ _ _ => some h
  | .addi h _ _ _ => some h
  | .addiLit h _ _ _ => some h
  | .li h _ _ => some h
  | .liLit h _ _ => some h
  | .sel h _ _ _ _ => some h
  | .adr h _ _ => some h
  | .adrLit h _ _ => some h
  | .fadd h _ _ _ => some h
  | .fsub h _ _ _ => some h
  | .fmul h _ _ _ => some h
  | .fdiv h _ _ _ => some h
  | .fmin h _ _ _ => some h
  | .fmax h _ _ _ => some h
  | .fsqrt h _ _ => some h
  | .fclass h _ _ => some h
  | .ffma h _ _ _ => some h
  | .fcmp h _ _ _ _ => some h
  | .fcvt h _ _ _ _ _ => some h
  | .br h _ => some h
  | .brLit h _ => some h
  | .call h _ _ => some h
  | .callLit h _ _ => some h
  | .jr h _ => some h
  | .callr h _ _ => some h
  | .ret h => some h
  | .nop h => some h
  | .yield h => some h
  | .endStrand h => some h
  | .wspill h _ => some h
  | .wfill h _ => some h
  | .cmp h _ _ _ _ => some h
  | .cmpi h _ _ _ _ => some h
  | .cmpiLit h _ _ _ _ => some h
  | .pand h _ _ _ => some h
  | .por h _ _ _ => some h
  | .pxor h _ _ _ => some h
  | .pnot h _ _ => some h
  | .pmov h _ _ => some h
  | .rep h _ _ _ => some h
  | .ldB h _ _ _ => some h
  | .ldBLit h _ _ _ => some h
  | .ldBu h _ _ _ => some h
  | .ldBuLit h _ _ _ => some h
  | .ldH h _ _ _ => some h
  | .ldHLit h _ _ _ => some h
  | .ldHu h _ _ _ => some h
  | .ldHuLit h _ _ _ => some h
  | .ldW h _ _ _ => some h
  | .ldWLit h _ _ _ => some h
  | .ldWu h _ _ _ => some h
  | .ldWuLit h _ _ _ => some h
  | .ldD h _ _ _ => some h
  | .ldDLit h _ _ _ => some h
  | .ldp h _ _ _ => some h
  | .ldpLit h _ _ _ => some h
  | .stB h _ _ _ => some h
  | .stBLit h _ _ _ => some h
  | .stH h _ _ _ => some h
  | .stHLit h _ _ _ => some h
  | .stW h _ _ _ => some h
  | .stWLit h _ _ _ => some h
  | .stD h _ _ _ => some h
  | .stDLit h _ _ _ => some h
  | .stp h _ _ _ => some h
  | .stpLit h _ _ _ => some h
  | .aaddD h _ _ _ => some h
  | .aandD h _ _ _ => some h
  | .aorD h _ _ _ => some h
  | .axorD h _ _ _ => some h
  | .aaddW h _ _ _ => some h
  | .aandW h _ _ _ => some h
  | .aorW h _ _ _ => some h
  | .axorW h _ _ _ => some h
  | .aminD h _ _ _ => some h
  | .amaxD h _ _ _ => some h
  | .axchgD h _ _ _ => some h
  | .acasD h _ _ _ => some h
  | .aminW h _ _ _ => some h
  | .amaxW h _ _ _ => some h
  | .axchgW h _ _ _ => some h
  | .acasW h _ _ _ => some h
  | .agadd h _ _ _ => some h
  | .bind h _ _ _ => some h
  | .unbind h _ => some h
  | .acq h _ _ _ => some h
  | .rel h _ _ _ => some h
  | .acqrel h _ _ _ => some h
  | .waitw h _ _ _ => some h
  | .fence h _ _ => some h
  | .vclaim h _ _ => some h
  | .vreneg h _ _ => some h
  | .vfree h => some h
  | .pset h _ _ _ => some h
  | .pget h _ _ => some h
  | .vadd h _ _ _ _ _ => some h
  | .vsub h _ _ _ _ _ => some h
  | .vmul h _ _ _ _ _ => some h
  | .vfma h _ _ _ _ _ => some h
  | .vmin h _ _ _ _ _ => some h
  | .vmax h _ _ _ _ _ => some h
  | .vabs h _ _ _ _ => some h
  | .vneg h _ _ _ _ => some h
  | .vexp2 h _ _ _ _ => some h
  | .vlog2 h _ _ _ _ => some h
  | .vrcp h _ _ _ _ => some h
  | .vrsq h _ _ _ _ => some h
  | .vcopy h _ _ _ _ => some h
  | .vsum h _ _ _ _ => some h
  | .vmaxr h _ _ _ _ => some h
  | .vminr h _ _ _ _ => some h
  | .vargmax h _ _ _ _ => some h
  | .vcmp h _ => some h
  | .vsel h _ => some h
  | .vscale h _ => some h
  | .vscaleLit h _ _ => some h
  | .vfill h _ => some h
  | .vfillLit h _ _ => some h
  | .vrand h _ => some h
  | .vrandLit h _ _ => some h
  | .vnzc h _ => some h
  | .vchain h _ => some h
  | .vchainLit h _ _ => some h
  | .vcvt h _ => some h
  | .vcvtLit h _ _ => some h
  | .vqmx h _ => some h
  | .vqmxLit h _ _ => some h
  | .vdqmx h _ => some h
  | .vqa h _ => some h
  | .vqaLit h _ _ => some h
  | .ashape h _ _ _ => some h
  | .adatum h _ _ => some h
  | .azero h _ => some h
  | .astat h _ _ => some h
  | .achk h _ _ => some h
  | .cld h _ => some h
  | .cldLit h _ _ => some h
  | .cldc h _ => some h
  | .cldcLit h _ _ => some h
  | .cldSp h _ => some h
  | .cldSpLit h _ _ => some h
  | .old h _ => some h
  | .oldLit h _ _ => some h
  | .oldT h _ => some h
  | .oldTLit h _ _ => some h
  | .ocols h _ => some h
  | .adrain h _ => some h
  | .adrainLit h _ _ => some h
  | .slotw h _ _ => some h
  | .hopen h _ _ _ => some h
  | .hclose h _ _ => some h
  | .hbatch h _ _ => some h
  | .hlist h _ _ _ => some h
  | .hattach h _ _ _ => some h
  | .hdetach h _ _ _ => some h
  | .hswap h _ _ _ => some h
  | .hverify h _ _ => some h
  | .hfold h _ _ _ => some h
  | .tclr h _ _ => some h
  | .tset h _ _ _ => some h
  | .tadd h _ _ _ => some h
  | .tpref h _ _ _ => some h
  | .tfind h _ _ _ => some h
  | .tcut h _ _ _ => some h
  | .ttot h _ _ _ => some h
  | .tloadM32 h _ _ _ => some h
  | .tloadM16 h _ _ _ => some h
  | .tstore h _ _ _ => some h
  | .ppush h _ _ => some h
  | .ppop h _ _ _ => some h
  | .ppeek h _ _ _ => some h
  | .pcount h _ _ => some h
  | .peos h _ => some h
  | .pconf h _ _ => some h
  | .mbw h _ _ => some h
  | .mbr h _ _ => some h
  | .plnew h _ _ _ => some h
  | .plset h _ _ _ => some h
  | .plget h _ _ _ => some h
  | .cpy h _ _ => some h
  | .cpynb h _ _ => some h
  | .swinit h _ _ => some h
  | .swwait h _ _ => some h
  | .rinit h _ _ _ => some h
  | .rawait h _ _ _ => some h
  | .rrel h _ _ _ => some h
  | .rseq h _ _ _ => some h
  | .reos h _ _ _ => some h
  | .gpost h _ _ => some h
  | .gwait h _ _ => some h
  | .gid h _ _ => some h
  | .dqpush h _ _ => some h
  | .dqpop h _ => some h
  | .dqsplit h _ _ => some h
  | .dqsteal h _ _ => some h
  | .suspend h _ => some h
  | .btest h _ _ _ => some h
  | .stb h _ _ _ => some h
  | .binit h _ _ _ => some h
  | .bexp h _ _ _ => some h
  | .barv h _ _ _ => some h
  | .bwait h _ _ => some h
  | .ksig h _ _ _ => some h
  | .klaunch h _ _ _ => some h
  | .keos h _ => some h
  | .cgrp h _ => some h
  | .cag h _ => some h
  | .cagLit h _ _ => some h
  | .crs h _ => some h
  | .crsLit h _ _ => some h
  | .ca2a h _ => some h
  | .ca2aLit h _ _ => some h
  | .cbar h _ => some h
  | .cwait h _ _ => some h
  | .ctest h _ _ => some h
  | .rseed h _ => some h
  | .rgen h _ _ _ => some h
  | .rnoise h _ => some h
  | .rlog h _ _ => some h
  | .mseq h _ => some h
  | .mseqLit h _ _ => some h
  | .trap h _ => some h
  | .eret h => some h
  | .eretAb h => some h
  | .csrr h _ _ => some h
  | .csrw h _ _ => some h
  | .csrs h _ _ => some h
  | .csrc h _ _ => some h
  | .wcall h _ _ => some h
  | .sleep h _ => some h
  | .contw h _ => some h
  | .contr h _ _ => some h
  | .shoot h _ => some h
  | .sliceWrite h _ => some h
  | .create => none
  | .destroy => none
  | .qopen => none
  | .qclose => none
  | .linkup => none
  | .linkfence => none
  | .linkdown => none
  | .settvec => none
  | .dbgset => none
  | .dstop => none
  | .dresume => none
  | .trcset => none
  | .loadobj => none
  | .finalisedCacheDrop _ => none
  | .powerUp _ _ _ _ _ => none
  | .pendingReturn _ _ => none
  | .repIterationIssue _ => none
  | .thermalInterval _ _ => none
  | .thermalDisplacement _ => none
  | .noiseWordDelivery _ => none
  | .noiseHealthFail _ => none
  | .noiseHealthPass _ => none
  | .storeAtHome _ _ => none
  | .readAtHome _ _ => none
  | .atomicAtHome _ _ => none
  | .pageWalk _ _ _ => none
  | .sliceScrub _ _ _ => none
  | .accessCountFlush _ _ _ => none
  | .hotPageRecord _ => none
  | .wbRetranslate _ _ _ => none
  | .releasePerform _ => none
  | .acqAtHome _ _ => none
  | .acqrelExchange _ => none
  | .waitwRegister _ _ => none
  | .watchPoll _ _ => none
  | .scopeMissHandle _ => none
  | .bindPropagate _ _ => none
  | .probeEcho _ _ _ => none
  | .laneGrant _ => none
  | .vectorPerform _ => none
  | .engineOpPerform _ _ _ => none
  | .sectorRequest _ _ _ => none
  | .sectorReply _ _ _ _ => none
  | .traverseReservation _ _ _ => none
  | .traverseData _ _ _ => none
  | .slotFrameBoundary _ => none
  | .sliceRerun _ _ _ => none
  | .handleHomePerform _ _ => none
  | .handleScrub _ _ _ => none
  | .foldJobStart _ => none
  | .foldCommit _ => none
  | .foldFail _ => none
  | .treeUnitPerform _ _ => none
  | .portValueLand _ => none
  | .portCreditReturn _ => none
  | .portClosedNotice _ _ => none
  | .portDeadlock _ _ => none
  | .copyStart _ _ => none
  | .copyError _ => none
  | .copyComplete _ => none
  | .gatherPerform _ => none
  | .groupPlacement _ _ => none
  | .dequeUnitPerform _ _ => none
  | .idleMonitorTest _ _ _ _ => none
  | .barrierUnitPerform _ _ => none
  | .barrierPoll _ _ => none
  | .queueTake _ _ => none
  | .overrun _ _ => none
  | .kernelCompletion _ => none
  | .transformRun _ => none
  | .meshInterrupt _ => none
  | .saveComplete _ => none
  | .restore _ => none
  | .redelivery _ _ => none
  | .spillRetry _ => none
  | .portTrainingEnd _ _ _ => none
  | .laneFailure _ _ => none
  | .messageDiscard _ _ _ => none
  | .meshCountDump => none
  | .collectiveReservation _ _ => none
  | .collectiveChunk _ _ _ => none
  | .reductionCombine _ _ _ _ _ => none
  | .reductionPartialSpill _ _ _ _ _ => none
  | .sample _ => none
  | .tracePushback => none
  | .flitReplay _ _ => none
  | .powerRemoval => none
  | .promiseMissed _ _ => none
  | .tracePushbackRelease => none
  | .windowEnd _ _ => none

end Sys2Proof
end

