-- ==== Sys2Proof/Safety.lean ====
section
/-! DEFINITION. What statements speak of: the strand whose turn it is, an instruction that passes its issue, the state that
it leaves, and the results of the rules, written from the rules and not from the meanings. -/

namespace Sys2Proof.Machine
open Sys2Proof

/-- The strand whose turn it is. -/
def State.me (s : State) : Strand := s.strand s.cur

/-- The guard bit is not pending and is on, and no operand is pending (02 R47, R59, 04 R99). -/
abbrev State.passes (s : State) (h : Hdr) (refs : List Ref) : Prop :=
  s.me.refPending (.p h.pred) = false ∧ s.me.predBit h.pred ≠ h.pn ∧ ∀ r ∈ refs, s.me.refPending r = false

/-- Fewer than 32 operations are outstanding (04 R101). -/
abbrev State.room (s : State) : Prop := s.me.outstanding < 32

/-- The state in which an instruction has left its strand, closing where its close bit says so (04 R100). -/
def State.leave (s : State) (h : Hdr) (t : Strand) : State := closing h { len := 0 } s.cur (s.setStrand s.cur t)

/-- The same over a state that the instruction has changed elsewhere. -/
def State.leaveIn (s : State) (h : Hdr) (s' : State) (t : Strand) : State :=
  closing h { len := 0 } s.cur (s'.setStrand s.cur t)

/-- A bit field of BFX and BFI (05 R125): its position is bits [5:0], its length bits [13:8], 0 meaning 64. -/
def fieldAt (b : Word) : Nat := b.toNat % 64
def fieldLen (b : Word) : Nat := if b.toNat / 256 % 64 = 0 then 64 else b.toNat / 256 % 64

/-- The word whose bit i is f i. -/
def wordOf (f : Nat → Bool) : Word := BitVec.ofFnLE fun i : Fin 64 => f i.val

/-- The field of a that b names; and d with that field replaced by the low bits of a. -/
def fieldOf (a b : Word) : Word := wordOf fun i => decide (i < fieldLen b) && a.getLsbD (fieldAt b + i)
def fieldInto (d a b : Word) : Word :=
  wordOf fun i => if fieldAt b ≤ i ∧ i < fieldAt b + fieldLen b then a.getLsbD (i - fieldAt b) else d.getLsbD i

/-- What an integer instruction writes, by 05 R121 to R127: its header and length, its destination, the operands that it checks,
and the result in integer arithmetic. -/
inductive IntRule (t : Strand) : Instr → Hdr → Nat → Reg → List Ref → Word → Prop where
  | add (h : Hdr) (rd ra rb : Reg) : IntRule t (.add h rd ra rb) h 4 rd [.r rd, .r ra, .r rb]
    (BitVec.ofInt 64 ((t.reg ra).toInt + (t.reg rb).toInt))
  | sub (h : Hdr) (rd ra rb : Reg) : IntRule t (.sub h rd ra rb) h 4 rd [.r rd, .r ra, .r rb]
    (BitVec.ofInt 64 ((t.reg ra).toInt - (t.reg rb).toInt))
  | min (h : Hdr) (rd ra rb : Reg) : IntRule t (.min h rd ra rb) h 4 rd [.r rd, .r ra, .r rb]
    (BitVec.ofInt 64 (min (t.reg ra).toInt (t.reg rb).toInt))
  | minu (h : Hdr) (rd ra rb : Reg) : IntRule t (.minu h rd ra rb) h 4 rd [.r rd, .r ra, .r rb]
    (BitVec.ofNat 64 (min (t.reg ra).toNat (t.reg rb).toNat))
  | max (h : Hdr) (rd ra rb : Reg) : IntRule t (.max h rd ra rb) h 4 rd [.r rd, .r ra, .r rb]
    (BitVec.ofInt 64 (max (t.reg ra).toInt (t.reg rb).toInt))
  | maxu (h : Hdr) (rd ra rb : Reg) : IntRule t (.maxu h rd ra rb) h 4 rd [.r rd, .r ra, .r rb]
    (BitVec.ofNat 64 (max (t.reg ra).toNat (t.reg rb).toNat))
  | and (h : Hdr) (rd ra rb : Reg) : IntRule t (.and h rd ra rb) h 4 rd [.r rd, .r ra, .r rb]
    (wordOf fun i => (t.reg ra).getLsbD i && (t.reg rb).getLsbD i)
  | or (h : Hdr) (rd ra rb : Reg) : IntRule t (.or h rd ra rb) h 4 rd [.r rd, .r ra, .r rb]
    (wordOf fun i => (t.reg ra).getLsbD i || (t.reg rb).getLsbD i)
  | xor (h : Hdr) (rd ra rb : Reg) : IntRule t (.xor h rd ra rb) h 4 rd [.r rd, .r ra, .r rb]
    (wordOf fun i => (t.reg ra).getLsbD i != (t.reg rb).getLsbD i)
  | andn (h : Hdr) (rd ra rb : Reg) : IntRule t (.andn h rd ra rb) h 4 rd [.r rd, .r ra, .r rb]
    (wordOf fun i => (t.reg ra).getLsbD i && !(t.reg rb).getLsbD i)
  | shl (h : Hdr) (rd ra rb : Reg) : IntRule t (.shl h rd ra rb) h 4 rd [.r rd, .r ra, .r rb]
    (BitVec.ofNat 64 ((t.reg ra).toNat * 2 ^ ((t.reg rb).toNat % 64)))
  | shr (h : Hdr) (rd ra rb : Reg) : IntRule t (.shr h rd ra rb) h 4 rd [.r rd, .r ra, .r rb]
    (BitVec.ofNat 64 ((t.reg ra).toNat / 2 ^ ((t.reg rb).toNat % 64)))
  | sar (h : Hdr) (rd ra rb : Reg) : IntRule t (.sar h rd ra rb) h 4 rd [.r rd, .r ra, .r rb]
    (BitVec.ofInt 64 ((t.reg ra).toInt / 2 ^ ((t.reg rb).toNat % 64)))
  | rol (h : Hdr) (rd ra rb : Reg) : IntRule t (.rol h rd ra rb) h 4 rd [.r rd, .r ra, .r rb]
    (wordOf fun i => (t.reg ra).getLsbD ((i + 64 - (t.reg rb).toNat % 64) % 64))
  | mul (h : Hdr) (rd ra rb : Reg) : IntRule t (.mul h rd ra rb) h 4 rd [.r rd, .r ra, .r rb]
    (BitVec.ofInt 64 ((t.reg ra).toInt * (t.reg rb).toInt))
  | mulh (h : Hdr) (rd ra rb : Reg) : IntRule t (.mulh h rd ra rb) h 4 rd [.r rd, .r ra, .r rb]
    (((t.reg ra).signExtend 128 * (t.reg rb).signExtend 128).extractLsb' 64 64)
  | mulhu (h : Hdr) (rd ra rb : Reg) : IntRule t (.mulhu h rd ra rb) h 4 rd [.r rd, .r ra, .r rb]
    (((t.reg ra).setWidth 128 * (t.reg rb).setWidth 128).extractLsb' 64 64)
  | sext (h : Hdr) (rd ra : Reg) (n : BitVec 6) : IntRule t (.sext h rd ra n) h 4 rd [.r rd, .r ra]
    (((t.reg ra).setWidth (n.toNat + 1)).signExtend 64)
  | zext (h : Hdr) (rd ra : Reg) (n : BitVec 6) : IntRule t (.zext h rd ra n) h 4 rd [.r rd, .r ra]
    (((t.reg ra).setWidth (n.toNat + 1)).setWidth 64)
  | bfx (h : Hdr) (rd ra rb : Reg) : IntRule t (.bfx h rd ra rb) h 4 rd [.r rd, .r ra, .r rb]
    (fieldOf (t.reg ra) (t.reg rb))
  | bfxLit (h : Hdr) (rd ra : Reg) (lit : Word) : IntRule t (.bfxLit h rd ra lit) h 12 rd [.r rd, .r ra]
    (fieldOf (t.reg ra) lit)
  | bfi (h : Hdr) (rd ra rb : Reg) : IntRule t (.bfi h rd ra rb) h 4 rd [.r rd, .r ra, .r rb]
    (fieldInto (t.reg rd) (t.reg ra) (t.reg rb))
  | bfiLit (h : Hdr) (rd ra : Reg) (lit : Word) : IntRule t (.bfiLit h rd ra lit) h 12 rd [.r rd, .r ra]
    (fieldInto (t.reg rd) (t.reg ra) lit)
  | addi (h : Hdr) (rd ra : Reg) (imm : BitVec 7) : IntRule t (.addi h rd ra imm) h 4 rd [.r rd, .r ra]
    (BitVec.ofInt 64 ((t.reg ra).toInt + imm.toInt))
  | addiLit (h : Hdr) (rd ra : Reg) (lit : Word) : IntRule t (.addiLit h rd ra lit) h 12 rd [.r rd, .r ra]
    (BitVec.ofInt 64 ((t.reg ra).toInt + lit.toInt))
  | li (h : Hdr) (rd : Reg) (imm : BitVec 12) : IntRule t (.li h rd imm) h 4 rd [.r rd]
    (BitVec.ofInt 64 imm.toInt)
  | liLit (h : Hdr) (rd : Reg) (lit : Word) : IntRule t (.liLit h rd lit) h 12 rd [.r rd]
    lit
  | adr (h : Hdr) (rd : Reg) (imm : BitVec 12) : IntRule t (.adr h rd imm) h 4 rd [.r rd]
    (BitVec.ofInt 64 (t.pc + 4 * imm.toInt))
  | sel (h : Hdr) (cs : Pr) (rd ra rb : Reg) : IntRule t (.sel h cs rd ra rb) h 4 rd [.r rd, .r ra, .r rb, .p cs]
    (if cs.val = 0 ∨ t.pword / 2 ^ cs.val % 2 = 1 then t.reg ra else t.reg rb)
  | adrLit (h : Hdr) (rd : Reg) (lit : Word) (aligned : lit.toNat % 4 = 0) : IntRule t (.adrLit h rd lit) h 12 rd [.r rd]
    (BitVec.ofInt 64 (t.pc + lit.toInt))

/-- What a division writes where the divisor is not zero and the quotient fits (05 R123). -/
inductive DivRule (t : Strand) : Instr → Hdr → Reg → List Ref → Word → Prop where
  | div (h : Hdr) (rd ra rb : Reg) (hz : t.reg rb ≠ 0) (hf : ¬((t.reg ra).toInt = -2 ^ 63 ∧ (t.reg rb).toInt = -1)) :
    DivRule t (.div h rd ra rb) h rd [.r rd, .r ra, .r rb] (BitVec.ofInt 64 ((t.reg ra).toInt.tdiv (t.reg rb).toInt))
  | rem (h : Hdr) (rd ra rb : Reg) (hz : t.reg rb ≠ 0) (hf : ¬((t.reg ra).toInt = -2 ^ 63 ∧ (t.reg rb).toInt = -1)) :
    DivRule t (.rem h rd ra rb) h rd [.r rd, .r ra, .r rb] (BitVec.ofInt 64 ((t.reg ra).toInt.tmod (t.reg rb).toInt))
  | divu (h : Hdr) (rd ra rb : Reg) (hz : t.reg rb ≠ 0) :
    DivRule t (.divu h rd ra rb) h rd [.r rd, .r ra, .r rb] (BitVec.ofNat 64 ((t.reg ra).toNat / (t.reg rb).toNat))
  | remu (h : Hdr) (rd ra rb : Reg) (hz : t.reg rb ≠ 0) :
    DivRule t (.remu h rd ra rb) h rd [.r rd, .r ra, .r rb] (BitVec.ofNat 64 ((t.reg ra).toNat % (t.reg rb).toNat))

/-- The outcome of a floating-point instruction: its result and its flags, which join the strand's (05 R120, R128). -/
def State.floatNext (s : State) (h : Hdr) (rd : Reg) (code flags : Nat) : Outcome :=
  .next (s.leave h (((s.me.past 4).addFlags flags).setReg rd (w64 code)))

/-- The source of a conversion, by 05 R132: which bits of the register it is, and the value that they hold. -/
def cvtSource (k : CvtKind) (a : Word) : Val :=
  match k with
  | .f32I64 => .ofInt a.toInt
  | .f32U64 => .fin false a.toNat 1
  | .f32I32 => .ofInt (a.setWidth 32).toInt
  | .f32U32 => .fin false (a.setWidth 32).toNat 1
  | .f32F16 => decodeFlt fp16 (a.setWidth 16).toNat
  | .f32Bf16 => decodeFlt bf16 (a.setWidth 16).toNat
  | .i64F32 | .u64F32 | .f16F32 | .bf16F32 | .i32F32 | .u32F32 => decodeFlt fp32 (a.setWidth 32).toNat

/-- How the result of a conversion is written, with its flags (05 R132, 03 R77, R78). -/
def cvtTarget (k : CvtKind) (r : Rnd) (sat : Bool) (v : Val) : Word × Nat :=
  match k with
  | .f32I64 | .f32U64 | .f32I32 | .f32U32 | .f32F16 | .f32Bf16 => low (convertFlt fp32 r sat v)
  | .f16F32 => low (convertFlt fp16 r sat v)
  | .bf16F32 => low (convertFlt bf16 r sat v)
  | .i64F32 => low (convertInt 64 true r v)
  | .u64F32 => low (convertInt 64 false r v)
  | .u32F32 => low (convertInt 32 false r v)
  | .i32F32 => ((BitVec.ofNat 32 (convertInt 32 true r v).1).signExtend 64, (convertInt 32 true r v).2)
where
  /-- Zero-extended. -/
  low (q : Nat × Nat) : Word × Nat := (w64 q.1, q.2)

/-- What a floating-point instruction writes, and its flags, by 05 R128 to R132. -/
inductive FloatRule (t : Strand) : Instr → Hdr → Reg → List Ref → Word → Nat → Prop where
  | fadd (h : Hdr) (rd ra rb : Reg) : FloatRule t (.fadd h rd ra rb) h rd [.r rd, .r ra, .r rb]
    (w64 (fpResult ((fpOf (t.reg ra)).add (fpOf (t.reg rb)))).1) (fpResult ((fpOf (t.reg ra)).add (fpOf (t.reg rb)))).2
  | fsub (h : Hdr) (rd ra rb : Reg) : FloatRule t (.fsub h rd ra rb) h rd [.r rd, .r ra, .r rb]
    (w64 (fpResult ((fpOf (t.reg ra)).add (fpOf (t.reg rb)).neg)).1)
    (fpResult ((fpOf (t.reg ra)).add (fpOf (t.reg rb)).neg)).2
  | fmul (h : Hdr) (rd ra rb : Reg) : FloatRule t (.fmul h rd ra rb) h rd [.r rd, .r ra, .r rb]
    (w64 (fpResult ((fpOf (t.reg ra)).mul (fpOf (t.reg rb)))).1) (fpResult ((fpOf (t.reg ra)).mul (fpOf (t.reg rb)))).2
  | fdiv (h : Hdr) (rd ra rb : Reg) : FloatRule t (.fdiv h rd ra rb) h rd [.r rd, .r ra, .r rb]
    (w64 (fpResult ((fpOf (t.reg ra)).div (fpOf (t.reg rb)))).1) (fpResult ((fpOf (t.reg ra)).div (fpOf (t.reg rb)))).2
  | fsqrt (h : Hdr) (rd ra : Reg) : FloatRule t (.fsqrt h rd ra) h rd [.r rd, .r ra]
    (w64 (fpResult (fpOf (t.reg ra)).sqrt).1) (fpResult (fpOf (t.reg ra)).sqrt).2
  | ffma (h : Hdr) (rd ra rb : Reg) : FloatRule t (.ffma h rd ra rb) h rd [.r rd, .r ra, .r rb]
    (w64 (fpResult (((fpOf (t.reg ra)).mul (fpOf (t.reg rb))).add (fpOf (t.reg rd)))).1)
    (fpResult (((fpOf (t.reg ra)).mul (fpOf (t.reg rb))).add (fpOf (t.reg rd)))).2
  | fcvt (h : Hdr) (rd ra : Reg) (k : CvtKind) (rm : DRm) (sat : Bool) : FloatRule t (.fcvt h rd ra k rm sat) h rd
    [.r rd, .r ra] (cvtTarget k (detRnd rm) sat (cvtSource k (t.reg ra))).1
    (cvtTarget k (detRnd rm) sat (cvtSource k (t.reg ra))).2

/-- The class of a code of FP32 (05 R131): the one bit that its mask sets. -/
def classBit (c : BitVec 32) : Nat :=
  let neg := c.getLsbD 31
  let e := (c.extractLsb' 23 8).toNat
  let m := (c.extractLsb' 0 23).toNat
  if e = 255 ∧ m = 0 then (if neg then 0 else 7)
  else if e = 255 then (if c.getLsbD 22 then 8 else 9)
  else if e = 0 ∧ m = 0 then (if neg then 3 else 4)
  else if e = 0 then (if neg then 2 else 5)
  else if neg then 1 else 6

/-- Integer comparisons (04 R111). -/
def intCond : ICond → Word → Word → Bool
  | .eq, a, b => decide (a = b)
  | .ne, a, b => decide (a ≠ b)
  | .lt, a, b => decide (a.toInt < b.toInt)
  | .ge, a, b => decide (b.toInt ≤ a.toInt)
  | .ltu, a, b => decide (a.toNat < b.toNat)
  | .geu, a, b => decide (b.toNat ≤ a.toNat)
  | .tst, a, b => decide (a &&& b ≠ 0)
  | .ntst, a, b => decide (a &&& b = 0)

/-- Floating-point comparisons (05 R130), and the flags. -/
def floatCond (c : FCond) (a b : Val) : Bool :=
  let nan := a.isNan || b.isNan
  match c with
  | .eq => !nan && a.eq b
  | .ne => nan || !a.eq b
  | .lt => !nan && a.lt b
  | .le => !nan && (a.lt b || a.eq b)
  | .gt => !nan && b.lt a
  | .ge => !nan && (b.lt a || a.eq b)
  | .un => nan
  | .ord => !nan

/-- What a predicate instruction writes, and its flags, by 04 R111, R112 and 05 R130. -/
inductive PredRule (t : Strand) : Instr → Hdr → Nat → Pr → List Ref → Bool → Nat → Prop where
  | cmp (h : Hdr) (cd : Pr) (ra rb : Reg) (c : ICond) :
    PredRule t (.cmp h cd ra rb c) h 4 cd [.p cd, .r ra, .r rb] (intCond c (t.reg ra) (t.reg rb)) 0
  | cmpi (h : Hdr) (cd : Pr) (ra : Reg) (c : ICond) (imm : BitVec 5) :
    PredRule t (.cmpi h cd ra c imm) h 4 cd [.p cd, .r ra] (intCond c (t.reg ra) (BitVec.ofInt 64 imm.toInt)) 0
  | cmpiLit (h : Hdr) (cd : Pr) (ra : Reg) (c : ICond) (lit : Word) :
    PredRule t (.cmpiLit h cd ra c lit) h 12 cd [.p cd, .r ra] (intCond c (t.reg ra) lit) 0
  | fcmp (h : Hdr) (cd : Pr) (ra rb : Reg) (c : FCond) :
    PredRule t (.fcmp h cd ra rb c) h 4 cd [.p cd, .r ra, .r rb] (floatCond c (fpOf (t.reg ra)) (fpOf (t.reg rb)))
      (if (fpOf (t.reg ra)).isNan ∨ (fpOf (t.reg rb)).isNan then 2 else 0)
  | pand (h : Hdr) (cd ca cb : Pr) : PredRule t (.pand h cd ca cb) h 4 cd [.p cd, .p ca, .p cb]
    (t.predBit ca && t.predBit cb) 0
  | por (h : Hdr) (cd ca cb : Pr) : PredRule t (.por h cd ca cb) h 4 cd [.p cd, .p ca, .p cb]
    (t.predBit ca || t.predBit cb) 0
  | pxor (h : Hdr) (cd ca cb : Pr) : PredRule t (.pxor h cd ca cb) h 4 cd [.p cd, .p ca, .p cb]
    (t.predBit ca ^^ t.predBit cb) 0
  | pnot (h : Hdr) (cd ca : Pr) : PredRule t (.pnot h cd ca) h 4 cd [.p cd, .p ca] (!t.predBit ca) 0
  | pmov (h : Hdr) (cd ca : Pr) : PredRule t (.pmov h cd ca) h 4 cd [.p cd, .p ca] (t.predBit ca) 0

/-- A signed byte offset from an address, modulo 2^64 (02 R53). -/
def offsetFrom (a : Nat) (off : Int) : Nat := (((a : Int) + off) % 2 ^ 64).toNat

/-- The target of a transfer (02 R53, 04 R109). -/
inductive JumpRule (t : Strand) : Instr → Hdr → Nat → List Ref → Nat → Prop where
  | br (h : Hdr) (off : BitVec 17) : JumpRule t (.br h off) h 4 [] (offsetFrom t.pc (4 * off.toInt))
  | brLit (h : Hdr) (lit : Word) : JumpRule t (.brLit h lit) h 12 [] (offsetFrom t.pc lit.toInt)
  | jr (h : Hdr) (ra : Reg) : JumpRule t (.jr h ra) h 4 [.r ra] (t.reg ra).toNat

/-- The slide code and the target of a call (04 R106). -/
inductive CallRule (t : Strand) : Instr → Hdr → Nat → List Ref → BitVec 2 → Nat → Prop where
  | call (h : Hdr) (kc : BitVec 2) (off : BitVec 15) :
    CallRule t (.call h kc off) h 4 [] kc (offsetFrom t.pc (4 * off.toInt))
  | callLit (h : Hdr) (kc : BitVec 2) (lit : Word) : CallRule t (.callLit h kc lit) h 12 [] kc (offsetFrom t.pc lit.toInt)
  | callr (h : Hdr) (kc : BitVec 2) (ra : Reg) : CallRule t (.callr h kc ra) h 4 [.r ra] kc (t.reg ra).toNat

/-- The window is legal (04 R104). -/
abbrev Strand.windowOk (t : Strand) : Prop := t.cwp < 96 ∧ t.wres ≤ 72 ∧ t.wres % 4 = 0

/-- The close of an instruction over a state that its effect has left (04 R100). -/
def closeOf (h : Hdr) (u : Nat) (s : State) : State := closing h { len := 0 } u s

/-- An operation that its close still waits for (04 R100). -/
abbrev Op.outstandingFor (o : Op) : Prop := o.outer = false ∧ (o.phase = .sent ∨ o.phase = .done)

/-- The strand can act: it is in its slot, and no stop has taken it (04 R93). -/
abbrev Strand.inRotation (t : Strand) : Prop := t.st = .ready ∨ ∃ w, t.st = .parked w

/-- The state as the effect of an instruction finds it: the strand is past the instruction (02 R59). -/
def State.entered (s : State) (len : Nat) : State := s.setStrand s.cur (s.me.past len)

/-- An operation of a strand that has been sent and not performed, and one that is done with its results (04 R97, R98). -/
abbrev State.sentOp (s : State) (u : Nat) (o : Op) : Prop := s.op u o.id = some o ∧ o.phase = .sent
abbrev State.doneOp (s : State) (u : Nat) (o : Op) (res : List Word) : Prop :=
  s.op u o.id = some { o with phase := .done, res := res }

/-- Memory after the bytes bs have been written at a: those bytes, and every other byte as it was. -/
abbrev wrote (m m' : List Host.Cell) (a : Nat) (bs : List Byte) : Prop :=
  ∀ x, memGet m' x = if a ≤ x ∧ x < a + bs.length then bs.getD (x - a) 0 else memGet m x

/-- A load's header and length, register, address, width, whether it sign-extends, and whether it is a pair (05 R133, R134,
R137, R138). -/
inductive LoadRule (t : Strand) : Instr → Hdr → Nat → Reg → Reg → Nat → Nat → Bool → Bool → Prop where
  | ldB (h : Hdr) (rd base : Reg) (disp : BitVec 6) : LoadRule t (.ldB h rd base disp) h 4 rd base
    (offsetFrom (t.reg base).toNat (disp.toInt * 1)) 1 true false
  | ldBLit (h : Hdr) (rd base : Reg) (lit : Word) : LoadRule t (.ldBLit h rd base lit) h 12 rd base
    (offsetFrom (t.reg base).toNat lit.toInt) 1 true false
  | ldBu (h : Hdr) (rd base : Reg) (disp : BitVec 6) : LoadRule t (.ldBu h rd base disp) h 4 rd base
    (offsetFrom (t.reg base).toNat (disp.toInt * 1)) 1 false false
  | ldBuLit (h : Hdr) (rd base : Reg) (lit : Word) : LoadRule t (.ldBuLit h rd base lit) h 12 rd base
    (offsetFrom (t.reg base).toNat lit.toInt) 1 false false
  | ldH (h : Hdr) (rd base : Reg) (disp : BitVec 6) : LoadRule t (.ldH h rd base disp) h 4 rd base
    (offsetFrom (t.reg base).toNat (disp.toInt * 2)) 2 true false
  | ldHLit (h : Hdr) (rd base : Reg) (lit : Word) : LoadRule t (.ldHLit h rd base lit) h 12 rd base
    (offsetFrom (t.reg base).toNat lit.toInt) 2 true false
  | ldHu (h : Hdr) (rd base : Reg) (disp : BitVec 6) : LoadRule t (.ldHu h rd base disp) h 4 rd base
    (offsetFrom (t.reg base).toNat (disp.toInt * 2)) 2 false false
  | ldHuLit (h : Hdr) (rd base : Reg) (lit : Word) : LoadRule t (.ldHuLit h rd base lit) h 12 rd base
    (offsetFrom (t.reg base).toNat lit.toInt) 2 false false
  | ldW (h : Hdr) (rd base : Reg) (disp : BitVec 6) : LoadRule t (.ldW h rd base disp) h 4 rd base
    (offsetFrom (t.reg base).toNat (disp.toInt * 4)) 4 true false
  | ldWLit (h : Hdr) (rd base : Reg) (lit : Word) : LoadRule t (.ldWLit h rd base lit) h 12 rd base
    (offsetFrom (t.reg base).toNat lit.toInt) 4 true false
  | ldWu (h : Hdr) (rd base : Reg) (disp : BitVec 6) : LoadRule t (.ldWu h rd base disp) h 4 rd base
    (offsetFrom (t.reg base).toNat (disp.toInt * 4)) 4 false false
  | ldWuLit (h : Hdr) (rd base : Reg) (lit : Word) : LoadRule t (.ldWuLit h rd base lit) h 12 rd base
    (offsetFrom (t.reg base).toNat lit.toInt) 4 false false
  | ldD (h : Hdr) (rd base : Reg) (disp : BitVec 6) : LoadRule t (.ldD h rd base disp) h 4 rd base
    (offsetFrom (t.reg base).toNat (disp.toInt * 8)) 8 false false
  | ldDLit (h : Hdr) (rd base : Reg) (lit : Word) : LoadRule t (.ldDLit h rd base lit) h 12 rd base
    (offsetFrom (t.reg base).toNat lit.toInt) 8 false false
  | ldp (h : Hdr) (rd base : Reg) (disp : BitVec 6) (hev : rd.val % 2 = 0) : LoadRule t (.ldp h rd base disp) h 4 rd base
    (offsetFrom (t.reg base).toNat (disp.toInt * 16)) 16 false true
  | ldpLit (h : Hdr) (rd base : Reg) (lit : Word) (hev : rd.val % 2 = 0) : LoadRule t (.ldpLit h rd base lit) h 12 rd base
    (offsetFrom (t.reg base).toNat lit.toInt) 16 false true

/-- A store's header and length, operands, address, and the pieces that it writes (05 R133, R134, R136, R138). -/
inductive StoreRule (t : Strand) : Instr → Hdr → Nat → List Ref → Nat → List (List Byte) → Prop where
  | stB (h : Hdr) (rd base : Reg) (disp : BitVec 6) : StoreRule t (.stB h rd base disp) h 4 [.r base, .r rd]
    (offsetFrom (t.reg base).toNat (disp.toInt * 1)) [leBytes 1 (t.reg rd).toNat]
  | stBLit (h : Hdr) (rd base : Reg) (lit : Word) : StoreRule t (.stBLit h rd base lit) h 12 [.r base, .r rd]
    (offsetFrom (t.reg base).toNat lit.toInt) [leBytes 1 (t.reg rd).toNat]
  | stH (h : Hdr) (rd base : Reg) (disp : BitVec 6) : StoreRule t (.stH h rd base disp) h 4 [.r base, .r rd]
    (offsetFrom (t.reg base).toNat (disp.toInt * 2)) [leBytes 2 (t.reg rd).toNat]
  | stHLit (h : Hdr) (rd base : Reg) (lit : Word) : StoreRule t (.stHLit h rd base lit) h 12 [.r base, .r rd]
    (offsetFrom (t.reg base).toNat lit.toInt) [leBytes 2 (t.reg rd).toNat]
  | stW (h : Hdr) (rd base : Reg) (disp : BitVec 6) : StoreRule t (.stW h rd base disp) h 4 [.r base, .r rd]
    (offsetFrom (t.reg base).toNat (disp.toInt * 4)) [leBytes 4 (t.reg rd).toNat]
  | stWLit (h : Hdr) (rd base : Reg) (lit : Word) : StoreRule t (.stWLit h rd base lit) h 12 [.r base, .r rd]
    (offsetFrom (t.reg base).toNat lit.toInt) [leBytes 4 (t.reg rd).toNat]
  | stD (h : Hdr) (rd base : Reg) (disp : BitVec 6) : StoreRule t (.stD h rd base disp) h 4 [.r base, .r rd]
    (offsetFrom (t.reg base).toNat (disp.toInt * 8)) [leBytes 8 (t.reg rd).toNat]
  | stDLit (h : Hdr) (rd base : Reg) (lit : Word) : StoreRule t (.stDLit h rd base lit) h 12 [.r base, .r rd]
    (offsetFrom (t.reg base).toNat lit.toInt) [leBytes 8 (t.reg rd).toNat]
  | stp (h : Hdr) (rd base : Reg) (disp : BitVec 6) : StoreRule t (.stp h rd base disp) h 4 [.r base, .r rd, .r (rd + 1)]
    (offsetFrom (t.reg base).toNat (disp.toInt * 16)) [leBytes 8 (t.reg rd).toNat, leBytes 8 (t.reg (rd + 1)).toNat]
  | stpLit (h : Hdr) (rd base : Reg) (lit : Word) : StoreRule t (.stpLit h rd base lit) h 12 [.r base, .r rd, .r (rd + 1)]
    (offsetFrom (t.reg base).toNat lit.toInt) [leBytes 8 (t.reg rd).toNat, leBytes 8 (t.reg (rd + 1)).toNat]

/-- An atomic's operation and width in bytes (05 R142). -/
inductive AtomicRule : Instr → Hdr → AOp → Nat → Reg → Reg → Reg → Prop where
  | aaddD (h : Hdr) (rd ra rb : Reg) : AtomicRule (.aaddD h rd ra rb) h .add 8 rd ra rb
  | aaddW (h : Hdr) (rd ra rb : Reg) : AtomicRule (.aaddW h rd ra rb) h .add 4 rd ra rb
  | aandD (h : Hdr) (rd ra rb : Reg) : AtomicRule (.aandD h rd ra rb) h .and 8 rd ra rb
  | aandW (h : Hdr) (rd ra rb : Reg) : AtomicRule (.aandW h rd ra rb) h .and 4 rd ra rb
  | aorD (h : Hdr) (rd ra rb : Reg) : AtomicRule (.aorD h rd ra rb) h .or 8 rd ra rb
  | aorW (h : Hdr) (rd ra rb : Reg) : AtomicRule (.aorW h rd ra rb) h .or 4 rd ra rb
  | axorD (h : Hdr) (rd ra rb : Reg) : AtomicRule (.axorD h rd ra rb) h .xor 8 rd ra rb
  | axorW (h : Hdr) (rd ra rb : Reg) : AtomicRule (.axorW h rd ra rb) h .xor 4 rd ra rb
  | aminD (h : Hdr) (rd ra rb : Reg) : AtomicRule (.aminD h rd ra rb) h .min 8 rd ra rb
  | aminW (h : Hdr) (rd ra rb : Reg) : AtomicRule (.aminW h rd ra rb) h .min 4 rd ra rb
  | amaxD (h : Hdr) (rd ra rb : Reg) : AtomicRule (.amaxD h rd ra rb) h .max 8 rd ra rb
  | amaxW (h : Hdr) (rd ra rb : Reg) : AtomicRule (.amaxW h rd ra rb) h .max 4 rd ra rb
  | axchgD (h : Hdr) (rd ra rb : Reg) : AtomicRule (.axchgD h rd ra rb) h .xchg 8 rd ra rb
  | axchgW (h : Hdr) (rd ra rb : Reg) : AtomicRule (.axchgW h rd ra rb) h .xchg 4 rd ra rb
  | acasD (h : Hdr) (rd ra rb : Reg) : AtomicRule (.acasD h rd ra rb) h .cas 8 rd ra rb
  | acasW (h : Hdr) (rd ra rb : Reg) : AtomicRule (.acasW h rd ra rb) h .cas 4 rd ra rb

/-- The word that an atomic leaves; none where it writes nothing (05 R142). -/
def atomicWord {w : Nat} (o : AOp) (old b e : BitVec w) : Option (BitVec w) :=
  match o with
  | .add => some (old + b)
  | .and => some (old &&& b)
  | .or => some (old ||| b)
  | .xor => some (old ^^^ b)
  | .min => some (if old.toInt ≤ b.toInt then old else b)
  | .max => some (if b.toInt ≤ old.toInt then old else b)
  | .xchg => some b
  | .cas => if old = e then some b else none

/-- What a loaded value is (05 R137). -/
def loadedWord (sx : Bool) (bs : List Byte) : Word :=
  if sx then (BitVec.ofNat (8 * bs.length) (leNat bs)).signExtend 64 else BitVec.ofNat 64 (leNat bs)

/-- Bits hi to lo of a value in their place (the field tables of R490 write a register so). -/
def bitsOf (v hi lo : Nat) : Nat := v / 2 ^ lo % 2 ^ (hi - lo + 1) * 2 ^ lo

/-- What a system register reads after v is written over old (23 R487, R490 and the registers' own field tables). -/
def csrField (n old v : Nat) : Nat :=
  match n with
  | 0x00 => bitsOf v 15 1 + 1
  | 0x03 => old - old % 32 + v % 32
  | 0x04 => v % 4
  | 0x08 => bitsOf v 55 19
  | 0x09 => bitsOf v 55 31
  | 0x15 => bitsOf v 55 12
  | 0x20 => bitsOf v 51 17
  | 0x21 => bitsOf v 51 11
  | 0x22 => bitsOf v 51 4
  | 0x24 => max 16 (v % 2 ^ 12)
  | 0x26 => bitsOf v 51 5
  | 0x27 => v % 2 ^ 13
  | 0x28 | 0x29 => v % 2 ^ 32
  | 0x2A => bitsOf v 51 5
  | 0x23 | 0x2B | 0x2D => v % 2 ^ 16
  | 0x2C => bitsOf v 51 7
  | 0x31 => old % 4 + bitsOf v 3 2
  | _ => v

/-- Two states agree outside one strand. -/
abbrev sameElsewhere (s t : State) (u : Nat) : Prop :=
  { t with strands := [] } = { s with strands := [] } ∧ ∀ v, v ≠ u → t.strand v = s.strand v

/-- Two strands agree but for their pc, their pending bits, their slot state and the marks of a turn that is over. -/
abbrev sameButTurn (a b : Strand) : Prop :=
  { b with pc := a.pc, pend := a.pend, st := a.st, close := a.close, ending := a.ending, noBreak := a.noBreak,
           noWatch := a.noWatch, portWait := a.portWait } = a

-- The tables of the other units.

/-- The keys of a table rise. -/
abbrev rising {α : Type} (m : Table α) : Prop := (m.map (·.1)).Pairwise (· < ·)

/-- The size of an element type, its ELEM code, and the count, offset and alignment that a vector instruction reads (02 R50, 09 R212,
R213). -/
def elTyBytes : ElTy → Nat
  | .f32 | .i32 => 4
  | .bf16 | .f16 | .i16 => 2
  | .i8 => 1
def extEt (e : Ext) (lo : Nat) : Nat := e.mode.toNat / 2 ^ lo % 8
def Strand.off (t : Strand) (p : Nat) : Nat := (tget Pointer.init t.ptrs p).off
def Strand.count (t : Strand) (r : Reg) : Nat := (t.reg r).toNat % 2 ^ 20

/-- What an extended vector instruction reads of its word and registers; y is F3's value. -/
def Strand.extOp (t : Strand) (o : ExtOp) (e : Ext) (y : Nat) : VecOp :=
  { ext := some o, mode := e.mode.toNat, imm := e.imm.toNat, n := t.count e.f0, pd := t.off e.obj0.val,
    pa := t.off e.obj1.val, pb := t.off e.obj2.val, mb := e.obj2.val, x := (t.reg e.f1).toNat, y := y,
    seed := t.dseed.toNat }

/-- An operand of n elements of a size, and of an ELEM code. -/
def elems (p z n : Nat) : PtrUse := ⟨p, z, n * z⟩
def packed (p el n : Nat) : PtrUse := ⟨p, elemAlign el, elemBytes el n⟩

/-- The three ELEM fields of a conversion (09 R227). -/
def srcElem (e : Ext) : Nat := e.imm.toNat % 32
def tgtElem (e : Ext) : Nat := e.imm.toNat / 32 % 32

/-- What a vector instruction reads at its issue: its header, length, scalar operands, the operands that pointers name, and its entry in the
vector queue (09 R212, R221 to R229); a chain has its stages (R226). -/
inductive VecRule (t : Strand) : Instr → Hdr → Nat → List Ref → List PtrUse → VecOp → Prop where
  | vadd (h : Hdr) (pd pa pb : Ptr) (rn : Reg) (et : ElTy) : VecRule t (.vadd h pd pa pb rn et) h 4 [.r rn]
    ([pd.val, pa.val, pb.val].map fun p => elems p (elTyBytes et) (t.count rn))
    { op := 74, et := et.code, n := t.count rn, pd := t.off pd.val, pa := t.off pa.val, pb := t.off pb.val }
  | vsub (h : Hdr) (pd pa pb : Ptr) (rn : Reg) (et : ElTy) : VecRule t (.vsub h pd pa pb rn et) h 4 [.r rn]
    ([pd.val, pa.val, pb.val].map fun p => elems p (elTyBytes et) (t.count rn))
    { op := 75, et := et.code, n := t.count rn, pd := t.off pd.val, pa := t.off pa.val, pb := t.off pb.val }
  | vmul (h : Hdr) (pd pa pb : Ptr) (rn : Reg) (et : ElTy) : VecRule t (.vmul h pd pa pb rn et) h 4 [.r rn]
    ([pd.val, pa.val, pb.val].map fun p => elems p (elTyBytes et) (t.count rn))
    { op := 76, et := et.code, n := t.count rn, pd := t.off pd.val, pa := t.off pa.val, pb := t.off pb.val }
  | vfma (h : Hdr) (pd pa pb : Ptr) (rn : Reg) (et : ElTy) : VecRule t (.vfma h pd pa pb rn et) h 4 [.r rn]
    ([pd.val, pa.val, pb.val].map fun p => elems p (elTyBytes et) (t.count rn))
    { op := 77, et := et.code, n := t.count rn, pd := t.off pd.val, pa := t.off pa.val, pb := t.off pb.val }
  | vmin (h : Hdr) (pd pa pb : Ptr) (rn : Reg) (et : ElTy) : VecRule t (.vmin h pd pa pb rn et) h 4 [.r rn]
    ([pd.val, pa.val, pb.val].map fun p => elems p (elTyBytes et) (t.count rn))
    { op := 78, et := et.code, n := t.count rn, pd := t.off pd.val, pa := t.off pa.val, pb := t.off pb.val }
  | vmax (h : Hdr) (pd pa pb : Ptr) (rn : Reg) (et : ElTy) : VecRule t (.vmax h pd pa pb rn et) h 4 [.r rn]
    ([pd.val, pa.val, pb.val].map fun p => elems p (elTyBytes et) (t.count rn))
    { op := 79, et := et.code, n := t.count rn, pd := t.off pd.val, pa := t.off pa.val, pb := t.off pb.val }
  | vabs (h : Hdr) (pd pa : Ptr) (rn : Reg) (et : ElTy) : VecRule t (.vabs h pd pa rn et) h 4 [.r rn]
    ([pd.val, pa.val].map fun p => elems p (elTyBytes et) (t.count rn))
    { op := 1280, et := et.code, n := t.count rn, pd := t.off pd.val, pa := t.off pa.val }
  | vneg (h : Hdr) (pd pa : Ptr) (rn : Reg) (et : ElTy) : VecRule t (.vneg h pd pa rn et) h 4 [.r rn]
    ([pd.val, pa.val].map fun p => elems p (elTyBytes et) (t.count rn))
    { op := 1281, et := et.code, n := t.count rn, pd := t.off pd.val, pa := t.off pa.val }
  | vexp2 (h : Hdr) (pd pa : Ptr) (rn : Reg) (et : ElTy) : VecRule t (.vexp2 h pd pa rn et) h 4 [.r rn]
    ([pd.val, pa.val].map fun p => elems p (elTyBytes et) (t.count rn))
    { op := 1282, et := et.code, n := t.count rn, pd := t.off pd.val, pa := t.off pa.val }
  | vlog2 (h : Hdr) (pd pa : Ptr) (rn : Reg) (et : ElTy) : VecRule t (.vlog2 h pd pa rn et) h 4 [.r rn]
    ([pd.val, pa.val].map fun p => elems p (elTyBytes et) (t.count rn))
    { op := 1283, et := et.code, n := t.count rn, pd := t.off pd.val, pa := t.off pa.val }
  | vrcp (h : Hdr) (pd pa : Ptr) (rn : Reg) (et : ElTy) : VecRule t (.vrcp h pd pa rn et) h 4 [.r rn]
    ([pd.val, pa.val].map fun p => elems p (elTyBytes et) (t.count rn))
    { op := 1284, et := et.code, n := t.count rn, pd := t.off pd.val, pa := t.off pa.val }
  | vrsq (h : Hdr) (pd pa : Ptr) (rn : Reg) (et : ElTy) : VecRule t (.vrsq h pd pa rn et) h 4 [.r rn]
    ([pd.val, pa.val].map fun p => elems p (elTyBytes et) (t.count rn))
    { op := 1285, et := et.code, n := t.count rn, pd := t.off pd.val, pa := t.off pa.val }
  | vcopy (h : Hdr) (pd pa : Ptr) (rn : Reg) (et : ElTy) : VecRule t (.vcopy h pd pa rn et) h 4 [.r rn]
    ([pd.val, pa.val].map fun p => elems p (elTyBytes et) (t.count rn))
    { op := 1286, et := et.code, n := t.count rn, pd := t.off pd.val, pa := t.off pa.val }
  | vsum (h : Hdr) (mb : Obj2) (pa : Ptr) (rn : Reg) (et : ElTy) : VecRule t (.vsum h mb pa rn et) h 4 [.r rn]
    [elems pa.val (elTyBytes et) (t.count rn)]
    { op := 1296, et := et.code, n := t.count rn, pa := t.off pa.val, mb := mb.val }
  | vmaxr (h : Hdr) (mb : Obj2) (pa : Ptr) (rn : Reg) (et : ElTy) : VecRule t (.vmaxr h mb pa rn et) h 4 [.r rn]
    [elems pa.val (elTyBytes et) (t.count rn)]
    { op := 1297, et := et.code, n := t.count rn, pa := t.off pa.val, mb := mb.val }
  | vminr (h : Hdr) (mb : Obj2) (pa : Ptr) (rn : Reg) (et : ElTy) : VecRule t (.vminr h mb pa rn et) h 4 [.r rn]
    [elems pa.val (elTyBytes et) (t.count rn)]
    { op := 1298, et := et.code, n := t.count rn, pa := t.off pa.val, mb := mb.val }
  | vargmax (h : Hdr) (mb : Obj2) (pa : Ptr) (rn : Reg) (et : ElTy) : VecRule t (.vargmax h mb pa rn et) h 4 [.r rn]
    [elems pa.val (elTyBytes et) (t.count rn)]
    { op := 1299, et := et.code, n := t.count rn, pa := t.off pa.val, mb := mb.val }
  | vcmp (h : Hdr) (e : Ext) : VecRule t (.vcmp h e) h 12 [.r e.f0] [⟨e.obj0.val, 1, ((t.count e.f0) + 7) / 8⟩,
      elems e.obj1.val (etSize (extEt e 3)) (t.count e.f0), elems e.obj2.val (etSize (extEt e 3)) (t.count e.f0)]
    { t.extOp .vcmp e (t.reg e.f3).toNat with et := extEt e 3 }
  | vsel (h : Hdr) (e : Ext) : VecRule t (.vsel h e) h 12 [.r e.f0] [elems e.obj0.val (etSize (extEt e 3)) (t.count e.f0),
      elems e.obj1.val (etSize (extEt e 3)) (t.count e.f0), elems e.obj2.val (etSize (extEt e 3)) (t.count e.f0), ⟨extEt e 0, 1, ((t.count e.f0) + 7) / 8⟩]
    { t.extOp .vsel e (t.reg e.f3).toNat with et := extEt e 3, pm := t.off (extEt e 0) }
  | vscale (h : Hdr) (e : Ext) : VecRule t (.vscale h e) h 12 [.r e.f0, .r e.f1, .r e.f3] [elems e.obj0.val (etSize (extEt e 0)) (t.count e.f0),
      elems e.obj1.val (etSize (extEt e 0)) (t.count e.f0)]
    { t.extOp .vscale e (t.reg e.f3).toNat with et := extEt e 0 }
  | vscaleLit (h : Hdr) (e : Ext) (lit : Word) : VecRule t (.vscaleLit h e lit) h 20 [.r e.f0, .r e.f1] [elems e.obj0.val (etSize (extEt e 0)) (t.count e.f0),
      elems e.obj1.val (etSize (extEt e 0)) (t.count e.f0)]
    { t.extOp .vscale e lit.toNat with et := extEt e 0 }
  | vfill (h : Hdr) (e : Ext) : VecRule t (.vfill h e) h 12 [.r e.f0, .r e.f3] [elems e.obj0.val (etSize (extEt e 0)) (t.count e.f0)]
    { t.extOp .vfill e (t.reg e.f3).toNat with et := extEt e 0 }
  | vfillLit (h : Hdr) (e : Ext) (lit : Word) : VecRule t (.vfillLit h e lit) h 20 [.r e.f0] [elems e.obj0.val (etSize (extEt e 0)) (t.count e.f0)]
    { t.extOp .vfill e lit.toNat with et := extEt e 0 }
  | vrand (h : Hdr) (e : Ext) : VecRule t (.vrand h e) h 12 [.r e.f0, .r e.f3] [elems e.obj0.val 4 (t.count e.f0)]
    { t.extOp .vrand e (t.reg e.f3).toNat with et := extEt e 0 }
  | vrandLit (h : Hdr) (e : Ext) (lit : Word) : VecRule t (.vrandLit h e lit) h 20 [.r e.f0] [elems e.obj0.val 4 (t.count e.f0)]
    { t.extOp .vrand e lit.toNat with et := extEt e 0 }
  | vnzc (h : Hdr) (e : Ext) : VecRule t (.vnzc h e) h 12 [.r e.f0] ((if e.mode.getLsbD 5 then [⟨e.obj0.val, 1, ((t.count e.f0) + 7) / 8⟩] else []) ++
      [packed e.obj1.val (e.mode.toNat % 32) (t.count e.f0)])
    (t.extOp .vnzc e (t.reg e.f3).toNat)
  | vcvt (h : Hdr) (e : Ext) : VecRule t (.vcvt h e) h 12 [.r e.f0, .r e.f3] [packed e.obj0.val (tgtElem e) (t.count e.f0),
      packed e.obj1.val (srcElem e) (t.count e.f0)]
    (t.extOp .vcvt e (t.reg e.f3).toNat)
  | vcvtLit (h : Hdr) (e : Ext) (lit : Word) : VecRule t (.vcvtLit h e lit) h 20 [.r e.f0] [packed e.obj0.val (tgtElem e) (t.count e.f0),
      packed e.obj1.val (srcElem e) (t.count e.f0)]
    (t.extOp .vcvt e lit.toNat)
  | vqmx (h : Hdr) (e : Ext) : VecRule t (.vqmx h e) h 12 [.r e.f0, .r e.f3] [packed e.obj0.val (tgtElem e) (t.count e.f0),
      packed e.obj1.val (srcElem e) (t.count e.f0), ⟨e.obj2.val, 1, ((t.count e.f0) + 31) / 32⟩]
    (t.extOp .vqmx e (t.reg e.f3).toNat)
  | vqmxLit (h : Hdr) (e : Ext) (lit : Word) : VecRule t (.vqmxLit h e lit) h 20 [.r e.f0] [packed e.obj0.val (tgtElem e) (t.count e.f0),
      packed e.obj1.val (srcElem e) (t.count e.f0), ⟨e.obj2.val, 1, ((t.count e.f0) + 31) / 32⟩]
    (t.extOp .vqmx e lit.toNat)
  | vdqmx (h : Hdr) (e : Ext) : VecRule t (.vdqmx h e) h 12 [.r e.f0] [packed e.obj0.val (tgtElem e) (t.count e.f0),
      packed e.obj1.val (srcElem e) (t.count e.f0), ⟨e.obj2.val, 1, ((t.count e.f0) + 31) / 32⟩]
    (t.extOp .vdqmx e (t.reg e.f3).toNat)
  | vqa (h : Hdr) (e : Ext) : VecRule t (.vqa h e) h 12 [.r e.f0, .r e.f3] [packed e.obj0.val (tgtElem e) (t.count e.f0),
      packed e.obj1.val (srcElem e) (t.count e.f0),
      ⟨e.obj2.val, 4, 4 * (((t.count e.f0) + (32 * 2 ^ (e.mode.toNat / 32 % 4)) - 1) / (32 * 2 ^ (e.mode.toNat / 32 % 4)))⟩]
    (t.extOp .vqa e (t.reg e.f3).toNat)
  | vqaLit (h : Hdr) (e : Ext) (lit : Word) : VecRule t (.vqaLit h e lit) h 20 [.r e.f0] [packed e.obj0.val (tgtElem e) (t.count e.f0),
      packed e.obj1.val (srcElem e) (t.count e.f0),
      ⟨e.obj2.val, 4, 4 * (((t.count e.f0) + (32 * 2 ^ (e.mode.toNat / 32 % 4)) - 1) / (32 * 2 ^ (e.mode.toNat / 32 % 4)))⟩]
    (t.extOp .vqa e lit.toNat)

/-- VCHAIN and its literal form: the descriptor's offset (09 R226). -/
inductive ChainRule (t : Strand) : Instr → Hdr → Nat → Ext → List Ref → Nat → Prop where
  | vchain (h : Hdr) (e : Ext) : ChainRule t (.vchain h e) h 12 e [.r e.f0, .r e.f3] (t.reg e.f3).toNat
  | vchainLit (h : Hdr) (e : Ext) (lit : Word) : ChainRule t (.vchainLit h e lit) h 20 e [.r e.f0] lit.toNat

/-- The strand whose vector queue has taken v: the pointers named have advanced, each once (09 R207, R212). -/
abbrev tookVec (t q : Strand) (ps : List Nat) (v : VecOp) : Prop :=
  q.vq = t.vq ++ [v] ∧ q.nextOp = t.nextOp + 1 ∧
  (∀ p, tget Pointer.init q.ptrs p = if p ∈ ps then ⟨(t.off p + (tget Pointer.init t.ptrs p).str) % 2 ^ 24, (tget Pointer.init t.ptrs p).str⟩
    else tget Pointer.init t.ptrs p) ∧
  { q with vq := t.vq, nextOp := t.nextOp, ptrs := t.ptrs } = t

/-- A run of k events of the vector side for one strand, each after the other. -/
def vecRuns (u : Nat) : Nat → State → State → Prop
  | 0, s, t => t = s
  | k + 1, s, t => ∃ m, exec (.vectorPerform u) s = .next m ∧ vecRuns u k m t

/-- Integer elements of w bits wrap (09 R221). -/
def vecInt (op w a b d : Nat) : Nat :=
  let x := BitVec.ofNat w a
  let y := BitVec.ofNat w b
  match op with
  | 0x4A => (x + y).toNat
  | 0x4B => (x - y).toNat
  | 0x4C => (x * y).toNat
  | 0x4D => (x * y + BitVec.ofNat w d).toNat
  | 0x4E => if y.toInt < x.toInt then y.toNat else x.toNat
  | _ => if x.toInt < y.toInt then y.toNat else x.toNat

/-- Float elements: the exact value rounded once by RNE (09 R221, 05 R129); code and flags. -/
def vecFlt (op : Nat) (f : FFmt) (a b d : Nat) : Nat × Nat :=
  let x := decodeFlt f a
  let y := decodeFlt f b
  match op with
  | 0x4A => convertFlt f .rne false (x.add y)
  | 0x4B => convertFlt f .rne false (x.add y.neg)
  | 0x4C => convertFlt f .rne false (x.mul y)
  | 0x4D => convertFlt f .rne false ((x.mul y).add (decodeFlt f d))
  | 0x4E => fpPick f false a b
  | _ => fpPick f true a b

/-- The element of an instruction with two sources, by its type (09 R221). -/
def vecElem (op et a b d : Nat) : Nat :=
  if et < 3 then (vecFlt op (etFlt et) a b d).1 else vecInt op (8 * etSize et) a b d

/-- The element of an instruction with one source (09 R221): VABS, VNEG, VEXP2, VLOG2, VRCP, VRSQ, VCOPY. -/
def vecElem1 (op et a : Nat) : Nat :=
  let f := etFlt et
  let x := decodeFlt f a
  let i := BitVec.ofNat (8 * etSize et) a
  if op = 0x506 then a
  else if et < 3 then
    (convertFlt f .rne false (match op with
      | 0x500 => x.abs | 0x501 => x.neg | 0x502 => x.exp2 | 0x503 => x.log2 | 0x504 => (Val.fin false 1 1).div x
      | _ => x.rsqrt)).1
  else if op = 0x500 then (if i.toInt < 0 then (-i).toNat else i.toNat) else (-i).toNat

/-- Bytes o1 to o1 + n and o2 to o2 + n coincide or do not overlap. -/
abbrev apart (o1 o2 n : Nat) : Prop := o1 = o2 ∨ o1 + n ≤ o2 ∨ o2 + n ≤ o1

/-- Nothing of a strand changes but its vector queue and what its head has still to do, its operations, its claims, its flags and its mailboxes. -/
abbrev sameButVector (a b : Strand) : Prop :=
  { b with vq := a.vq, vout := a.vout, ops := a.ops, claims := a.claims, vflags := a.vflags, mboxes := a.mboxes, mblost := a.mblost } = a


/-- The code of element i of packed elements of an ELEM code from address a on, of bytes that g gives (03 R73). -/
def codeIn (g : Nat → Byte) (el a i : Nat) : Nat :=
  match (elemFmt el).bits with
  | 4 => (g (a + i / 2)).toNat / 16 ^ (i % 2) % 16
  | 6 =>
    let b := a + 64 * (i / 84) + 3 * (i % 84 / 4)
    ((g b).toNat + 2 ^ 8 * (g (b + 1)).toNat + 2 ^ 16 * (g (b + 2)).toNat) / 64 ^ (i % 84 % 4) % 64
  | n => leNat ((List.range (n / 8)).map fun j => g (a + n / 8 * i + j))
abbrev codeAt (m : List Host.Cell) (el a i : Nat) : Nat := codeIn (memGet m) el a i

/-- The bytes from the first to the last that n packed elements of a destination touch (03 R73, 09 R227). -/
def touchedBytes (el n : Nat) : Nat :=
  match (elemFmt el).bits with | 4 => (n + 1) / 2 | 6 => (n + 83) / 84 * 64 | b => b / 8 * n

/-- Bytes o1 to o1 + n1 and o2 to o2 + n2 do not overlap. -/
abbrev clear (o1 n1 o2 n2 : Nat) : Prop := o1 + n1 ≤ o2 ∨ o2 + n2 ≤ o1

/-- An element of a vector as the number it stands for (09 R225). -/
def vecVal (et c : Nat) : Val := if et < 3 then decodeFlt (etFlt et) c else Val.ofInt (BitVec.ofNat (8 * etSize et) c).toInt

/-- A code that is neither zero (03 R86). -/
def nonzeroCode (el c : Nat) : Bool := match elemFmt el with | .flt f => decide (c % 2 ^ (f.bits - 1) ≠ 0) | f => decide (c % 2 ^ f.bits ≠ 0)

/-- A float as F32, exactly (09 R222, R226). -/
def asF32 (et c : Nat) : Nat := if et = 0 then c else (convertFlt fp32 .rne false (decodeFlt (etFlt et) c)).1

/-- One stage of a chain over v, with elements a and b (09 R226). -/
def chainStage (w v a b : Nat) : Nat :=
  let x := match w / 2 ^ 8 % 4 with | 1 => b | 2 => w / 2 ^ 32 % 2 ^ 32 | 3 => a | _ => 0
  let V := decodeFlt fp32 v
  let X := decodeFlt fp32 x
  match w % 2 ^ 8 with
  | 4 => (fpPick fp32 false v x).1
  | 5 => (fpPick fp32 true v x).1
  | o => (convertFlt fp32 .rne false (match o with
      | 0 => V.add X | 1 => V.add X.neg | 2 => X.add V.neg | 3 => V.mul X | 6 => V.abs | 7 => V.neg | 8 => V.exp2 | 9 => V.log2
      | 10 => (Val.fin false 1 1).div V | 12 => (V.mul X).add (decodeFlt fp32 (w / 2 ^ 32 % 2 ^ 32)) | _ => V.rsqrt)).1

/-- Entry k of the list at a level of Pairwise over the n entries x 0 to x (n - 1): an unpaired last entry moves up unchanged (09 R223). -/
def pairLevel {α : Type} (f : α → α → α) (x : Nat → α) (n : Nat) : Nat → Nat → α
  | 0, k => x k
  | l + 1, k =>
    if 2 * k + 1 < (n + 2 ^ l - 1) / 2 ^ l then f (pairLevel f x n l (2 * k)) (pairLevel f x n l (2 * k + 1)) else pairLevel f x n l (2 * k)

/-- The reduction of n elements: Pairwise of the Pairwise of each slice of 16 (09 R223). -/
def reduced {α : Type} (f : α → α → α) (x : Nat → α) (n : Nat) : α :=
  pairLevel f (fun j => pairLevel f (fun i => x (16 * j + i)) (min 16 (n - 16 * j)) 4 0) ((n + 15) / 16) 20 0

/-- Does a float rank above another for VARGMAX (09 R222)? NaN counts above every number. -/
def ranksAbove (a b : Nat) : Bool :=
  !(decodeFlt fp32 b).isNan && ((decodeFlt fp32 a).isNan || (decide (a ≠ b) && (fpPick fp32 true a b).1 == a))

/-- The record and the codes of a group that VQA quantises to b bits (09 R229). -/
def groupOfQA (b : Nat) (xs : List Val) (rs : List Rnd) : Nat × List Nat :=
  if xs.any fun v => (match v with | .fin _ _ _ => false | _ => true) then (0x7E00, xs.map fun _ => 0)
  else
    let zero : Val := .fin false 0 1
    let lo := xs.foldl (fun m v => if v.lt m then v else m) zero
    let hi := xs.foldl (fun m v => if m.lt v then v else m) zero
    if hi.eq lo then (0, xs.map fun _ => 0)
    else
      let sc := (convertFlt fp16 .rup true ((hi.add lo.neg).div (.fin false (2 ^ b - 1) 1))).1
      let z := (convertInt b false .rne (lo.neg.div (decodeFlt fp16 sc))).1
      (sc + 2 ^ 16 * z, (xs.zip rs).map fun p => (convertInt b false p.2 ((p.1.div (decodeFlt fp16 sc)).add (.fin false z 1))).1)


/-- The last of some writes to an address, if any: what it holds once they have been performed in their order. -/
def overlaid (ws : List (Nat × List Byte)) (a : Nat) : Option Byte :=
  ws.foldl (fun r w => if w.1 ≤ a ∧ a < w.1 + w.2.length then some (w.2.getD (a - w.1) 0) else r) none

/-- The sector rule of a box under its descriptor (10 R242). -/
abbrev sectorRules (d : Desc) (p : Plat) (org : Nat) : Prop :=
  p.cad ≠ 0 ∧ d.valid = true ∧ d.bmp = false ∧ p.str 0 = 1 ∧ p.str 1 % d.per = 0 ∧ org % 2 ^ 20 % d.per = 0 ∧
    p.box 2 = 1 ∧ p.box 3 = 1 ∧ p.box 4 = 1

/-- The box lies in the extents (10 R242). -/
abbrev boxFits (p : Plat) (org : Nat) : Prop :=
  org % 2 ^ 20 + p.box 0 ≤ p.ext.getD 0 0 ∧ org / 2 ^ 20 % 2 ^ 20 + p.box 1 ≤ p.ext.getD 1 0

/-- The formats of resident operands, and those rows of the operand window that end within it (10 R241). -/
abbrev residentCodes : List Nat := [1, 2, 3, 4, 9, 10, 11, 12, 13, 14, 15]
abbrev rowsFit (p : Part) (el n : Nat) : Prop :=
  n ≤ p.partn.ow / (if (elemFmt el).bits = 4 then 128 else if (elemFmt el).bits = 16 then 512 else 256)

/-- What CLD and CLDC check (10 R249, R251). -/
abbrev cldFits (s : State) (p : Part) (e : EngOp) (a o : Nat) : Prop :=
  let d := readDesc s e.ctx e.plat.cad
  (p.tile a).st ≠ .unshaped ∧ sectorRules d e.plat e.org ∧ e.plat.box 1 ≤ (p.tile a).rows ∧ d.elem ∈ residentCodes ++ [16, 17] ∧
    (∃ f ∈ p.rf, rowsFit p f.elem (o + e.plat.box 0)) ∧
    (d.qa = true → d.per % d.group = 0 ∧ e.org % 2 ^ 20 % d.group = 0 ∧ e.plat.box 0 % d.group = 0 ∧ o % d.group = 0 ∧
      p.osumG = some d.group)

/-- What CLD.SP checks (11 R272). -/
abbrev cldSpFits (s : State) (p : Part) (e : EngOp) (a o : Nat) : Prop :=
  let d := readDesc s e.ctx e.plat.cad
  (p.tile a).st ≠ .unshaped ∧ e.plat.cad ≠ 0 ∧ d.valid = true ∧ d.bmp = true ∧ d.elem ∈ residentCodes ∧ e.plat.str 0 = 1 ∧
    e.plat.box 2 = 1 ∧ e.plat.box 3 = 1 ∧ e.plat.box 4 = 1 ∧ e.plat.box 1 ≤ (p.tile a).rows ∧
    ∃ f ∈ p.rf, rowsFit p f.elem (o + e.plat.box 0)

/-- The format of what OLD and OLD.T deliver, and what they check (10 R244, R245, 12 R287). -/
abbrev deliveredFmt (s : State) (e : EngOp) : RFmt :=
  let d := readDesc s e.ctx e.plat.cad
  if e.snap.op = true ∧ (∃ n ∈ e.snap.ids, layerDeliv s e.ctx n = true) then ⟨10, false⟩ else ⟨d.elem, decide (d.block ≠ 0)⟩
abbrev oldFits (s : State) (p : Part) (e : EngOp) (o : Nat) (tr : Bool) : Prop :=
  let d := readDesc s e.ctx e.plat.cad
  let f := deliveredFmt s e
  sectorRules d e.plat e.org ∧ f.elem ∈ residentCodes ∧ d.elem ∈ residentCodes ∧
    (if tr = true then e.plat.box 1 ≤ 256 ∧ rowsFit p f.elem (o + e.plat.box 0)
     else e.plat.box 0 ≤ 256 ∧ rowsFit p f.elem (o + e.plat.box 1) ∧
       (d.block ≠ 0 → e.plat.str 1 % 32 = 0 ∧ e.org % 2 ^ 20 % 32 = 0))

/-- What a load's element adds to a lane, and what a group of QA codes adds (10 R250, R251). -/
def termOf (p : Part) (datum : Int) (r : Reply) (i row j : Nat) : Word × BitVec 2 :=
  roundToGrid ((elemVal r.elem r.block (r.scales.getD i 0) (r.codes.getD i 0)).mul (p.resident row j)) datum
def termOfQA (p : Part) (datum : Int) (r : Reply) (g row j : Nat) : Word × BitVec 2 :=
  let sc := r.scales.getD (g * r.group) 0
  let z := sc / 2 ^ 16 % (if r.elem = 16 then 2 ^ 4 else 2 ^ 8)
  let dot := (List.range r.group).foldl (fun (v : Val) i =>
    v.add ((Val.fin false (r.codes.getD (g * r.group + i) 0) 1).mul (p.resident (row + i) j))) (Val.fin false 0 1)
  let sum := tget (Val.fin false 0 1) p.osum (row / r.group * 256 + j)
  roundToGrid ((decodeFlt fp16 (sc % 2 ^ 16)).mul (dot.add ((Val.fin false z 1).mul sum).neg)) datum

/-- What an instruction gives the contracting engine (10 R237 to R257, 11 R272, R276): its header, length, whether it is counted as pending
at its issue, the operands that it checks, the work, the plat register, the origin, whether it returns at acceptance, and its destination. -/
inductive EngineRule (t : Strand) : Instr → Hdr → Nat → Bool → List Ref → EngKind → Option Nat → Nat → Bool → List Loc → Prop where
  | ashape (h : Hdr) (a : Tile) (rows : BitVec 8) (cc : BitVec 2) : EngineRule t (.ashape h a rows cc) h 4 false []
    (.ashape a.val (rows.toNat + 1) (64 * (cc.toNat + 1))) none 0 true []
  | adatum (h : Hdr) (a : Tile) (d : BitVec 9) : EngineRule t (.adatum h a d) h 4 false [] (.adatum a.val d.toInt) none 0 true []
  | azero (h : Hdr) (a : Tile) : EngineRule t (.azero h a) h 4 false [] (.azero a.val) none 0 true []
  | astat (h : Hdr) (a : Tile) (rd : Reg) : EngineRule t (.astat h a rd) h 4 true [.r rd] (.astat a.val (t.reg rd).toNat) none 0 false
    (t.dest rd)
  | achk (h : Hdr) (a : Tile) (rd : Reg) : EngineRule t (.achk h a rd) h 4 true [.r rd] (.achk a.val) none 0 false (t.dest rd)
  | cld (h : Hdr) (e : Ext) : EngineRule t (.cld h e) h 12 true ([.r e.f0, .l (.qreg e.obj1.val)] ++ [.r e.f3])
    (.cld e.obj0.val ((t.reg e.f3).toNat % 2 ^ 12) false) (some e.obj1.val) (t.reg e.f0).toNat false []
  | cldLit (h : Hdr) (e : Ext) (lit : Word) : EngineRule t (.cldLit h e lit) h 20 true [.r e.f0, .l (.qreg e.obj1.val)]
    (.cld e.obj0.val (lit.toNat % 2 ^ 12) false) (some e.obj1.val) (t.reg e.f0).toNat false []
  | cldSp (h : Hdr) (e : Ext) : EngineRule t (.cldSp h e) h 12 true ([.r e.f0, .l (.qreg e.obj1.val)] ++ [.r e.f3])
    (.cldSp e.obj0.val (t.reg e.f0).toNat ((t.reg e.f3).toNat % 2 ^ 12)) (some e.obj1.val) 0 false []
  | cldSpLit (h : Hdr) (e : Ext) (lit : Word) : EngineRule t (.cldSpLit h e lit) h 20 true [.r e.f0, .l (.qreg e.obj1.val)]
    (.cldSp e.obj0.val (t.reg e.f0).toNat (lit.toNat % 2 ^ 12)) (some e.obj1.val) 0 false []
  | old (h : Hdr) (e : Ext) : EngineRule t (.old h e) h 12 false (([.r e.f0, .l (.qreg e.obj0.val)] ++ if e.mode.getLsbD 4 then [.r e.f1] else []) ++ [.r e.f3])
    (.old ((t.reg e.f3).toNat % 2 ^ 12) (if e.mode.getLsbD 4 then some (t.reg e.f1).toNat else none)) (some e.obj0.val) (t.reg e.f0).toNat true []
  | oldLit (h : Hdr) (e : Ext) (lit : Word) : EngineRule t (.oldLit h e lit) h 20 false ([.r e.f0, .l (.qreg e.obj0.val)] ++ if e.mode.getLsbD 4 then [.r e.f1] else [])
    (.old (lit.toNat % 2 ^ 12) (if e.mode.getLsbD 4 then some (t.reg e.f1).toNat else none)) (some e.obj0.val) (t.reg e.f0).toNat true []
  | oldT (h : Hdr) (e : Ext) : EngineRule t (.oldT h e) h 12 false (([.r e.f0, .l (.qreg e.obj0.val)] ++ if e.mode.getLsbD 4 then [.r e.f1] else []) ++ [.r e.f3])
    (.oldT ((t.reg e.f3).toNat % 2 ^ 12) (e.mode.toNat % 8) (e.mode.getLsbD 3) (e.imm.toNat / 2 ^ 10)
      t.dseed.toNat (if e.mode.getLsbD 4 then some (t.reg e.f1).toNat else none)) (some e.obj0.val) (t.reg e.f0).toNat true []
  | oldTLit (h : Hdr) (e : Ext) (lit : Word) : EngineRule t (.oldTLit h e lit) h 20 false ([.r e.f0, .l (.qreg e.obj0.val)] ++ if e.mode.getLsbD 4 then [.r e.f1] else [])
    (.oldT (lit.toNat % 2 ^ 12) (e.mode.toNat % 8) (e.mode.getLsbD 3) (e.imm.toNat / 2 ^ 10)
      t.dseed.toNat (if e.mode.getLsbD 4 then some (t.reg e.f1).toNat else none)) (some e.obj0.val) (t.reg e.f0).toNat true []
  | ocols (h : Hdr) (e : Ext) : EngineRule t (.ocols h e) h 12 false [] (.ocols (32 * 2 ^ (e.mode.toNat / 32 % 4))) none 0 true []
  | adrain (h : Hdr) (e : Ext) : EngineRule t (.adrain h e) h 12 false
    ([.r e.f0, .l (.qreg e.obj1.val)] ++ if mxElem (e.imm.toNat % 32) then [.r e.f3] else [])
    (.adrain e.obj0.val (e.imm.toNat % 32) (e.mode.toNat % 8) (e.mode.getLsbD 3) (e.imm.toNat / 2 ^ 10)
      (if mxElem (e.imm.toNat % 32) then (t.reg e.f3).toNat else 0) t.dseed.toNat) (some e.obj1.val) (t.reg e.f0).toNat true []
  | adrainLit (h : Hdr) (e : Ext) (lit : Word) : EngineRule t (.adrainLit h e lit) h 20 false [.r e.f0, .l (.qreg e.obj1.val)]
    (.adrain e.obj0.val (e.imm.toNat % 32) (e.mode.toNat % 8) (e.mode.getLsbD 3) (e.imm.toNat / 2 ^ 10)
      (if mxElem (e.imm.toNat % 32) then lit.toNat else 0) t.dseed.toNat) (some e.obj1.val) (t.reg e.f0).toNat true []
  | mseq (h : Hdr) (e : Ext) : EngineRule t (.mseq h e) h 12 true ([.r e.f0, .r e.f1, .r e.f2] ++ [.r e.f3])
    (.mseq (t.reg e.f1).toNat (t.reg e.f2).toNat (t.reg e.f3).toNat e.imm.toNat) none 0 false (t.dest e.f0)
  | mseqLit (h : Hdr) (e : Ext) (lit : Word) : EngineRule t (.mseqLit h e lit) h 20 true [.r e.f0, .r e.f1, .r e.f2]
    (.mseq (t.reg e.f1).toNat (t.reg e.f2).toNat lit.toNat e.imm.toNat) none 0 false (t.dest e.f0)

/-- CLDC and its literal form (10 R254): the row value. -/
inductive CoopRule (t : Strand) : Instr → Hdr → Nat → Ext → List Ref → Nat → Prop where
  | cldc (h : Hdr) (e : Ext) : CoopRule t (.cldc h e) h 12 e [.r e.f0, .l (.qreg e.obj1.val), .r e.f3] ((t.reg e.f3).toNat % 2 ^ 12)
  | cldcLit (h : Hdr) (e : Ext) (lit : Word) : CoopRule t (.cldcLit h e lit) h 20 e [.r e.f0, .l (.qreg e.obj1.val)]
    (lit.toNat % 2 ^ 12)

/-- The entry that an engine's queue takes, with the plat register and the linked handle as they stand (10 R234, 12 R286). -/
def Strand.entry (t : Strand) (u n pc len : Nat) (kind : EngKind) (q : Option Nat) (org : Nat) : EngOp :=
  let snap : Handle × Nat := match q with
    | some q => if (tget Plat.init t.plats q).linked then (tget Handle.init t.handles q, q) else (Handle.init, 4)
    | none => (Handle.init, 4)
  let plat := match q with | some q => tget Plat.init t.plats q | none => Plat.init
  { seq := n, uid := u, ctx := t.ctx, opId := t.nextOp, tpc := pc, len := len, kind := kind, plat := plat, snap := snap.1, hnum := snap.2,
    org := org, started := false, heldAt := 0, marks := [], flight := [], bad := [], buf := [], row := 0, phys := [], toReserve := [],
    toSend := [], per := 1, wide := false, flags := 0, out := [], line := none, words := [], kept := [] }

/-- The strand whose operation an engine has accepted (10 R234, R236). -/
abbrev tookEngine (t q : Strand) (late : Bool) (ds : List Loc) (pc len seq : Nat) : Prop :=
  q = { t with
    ops := t.ops ++ [{ id := t.nextOp, kind := .engine, path := .k, tpc := pc, len := len, dests := ds, seq := seq,
                       phase := if late then .late else .sent, sup := t.sup }]
    nextOp := t.nextOp + 1, pend := addPend t.pend ds }

/-- The entry at its turn: in its queue, nothing before it holds it back, its context placed on the core, which is in no frozen rotation (10 R235, 19 R421). -/
abbrev State.engineTurn (s : State) (core ctx : Nat) (e : EngOp) : Prop :=
  (s.part core ctx).eq.find? (fun x => x.seq == e.seq) = some e ∧ (s.part core ctx).st = .placed ∧ e.heldAt = 0 ∧
    unblocked s (s.part core ctx) e = true ∧ e.ctx = ctx ∧ frozenNow s core = false

/-- The entry is held at its checks, and its strand's operation has the cause (10 R236). -/
abbrev heldWith (s t : State) (core : Nat) (e : EngOp) (how code : Nat) : Prop :=
  (∃ x, (t.part core e.ctx).eq.find? (fun x => x.seq == e.seq) = some x ∧ x.heldAt = how) ∧
    ∀ o, s.op e.uid e.opId = some o → o.id = e.opId → o.child = none → o.phase = .late ∨ o.phase = .sent → (s.strand e.uid).close = none →
      ∃ x, t.op e.uid e.opId = some x ∧ x.phase = .faulted ∧ x.cause.code = code

/-- The entry has left its queue; an operation of its strand that waits is done with res, one that returned at acceptance is gone. -/
abbrev performedWith (s t : State) (core : Nat) (e : EngOp) (res : List Word) : Prop :=
  (∀ x ∈ (t.part core e.ctx).eq, x.seq ≠ e.seq) ∧
    ∀ o, s.op e.uid e.opId = some o → o.id = e.opId →
      (o.phase = .sent → t.doneOp e.uid o res) ∧ (o.phase = .late → t.op e.uid e.opId = none)

/-- The lane of a logical tile (10 R231). -/
abbrev State.lane (s : State) (core ctx a i j : Nat) : Lane := laneOfTile (s.core core) ((s.part core ctx).tile a) i j

/-- Lanes of distinct places of a shaped tile lie in distinct physical tiles or places (10 R231). -/
abbrev LTile.wellBound (t : LTile) : Prop :=
  t.phys.Nodup ∧ t.phys.length = (t.rows + 127) / 128 * (t.cols / 64) ∧ t.cols % 64 = 0 ∧ 0 < t.cols

/-- An instruction on an open handle (12 R293 to R302, 13 R309): its operation, handle, register, operands, second operand, and the
precise cause of a misaligned address. -/
inductive HandleRule (t : Strand) : Instr → Hdr → HOp → Obj2 → Reg → List Reg → Nat → Option Cause → Prop where
  | hclose (h : Hdr) (o : Obj2) (rd : Reg) : HandleRule t (.hclose h o rd) h .hclose o rd [rd] 0 none
  | hbatch (h : Hdr) (o : Obj2) (rd : Reg) : HandleRule t (.hbatch h o rd) h .hbatch o rd [rd] 0 none
  | hattach (h : Hdr) (o : Obj2) (rd ra : Reg) : HandleRule t (.hattach h o rd ra) h .hattach o rd [rd, ra]
    ((t.reg ra).toNat % 2 ^ 12) none
  | hdetach (h : Hdr) (o : Obj2) (rd ra : Reg) : HandleRule t (.hdetach h o rd ra) h .hdetach o rd [rd, ra]
    ((t.reg ra).toNat % 2 ^ 12) none
  | hswap (h : Hdr) (o : Obj2) (rd ra : Reg) : HandleRule t (.hswap h o rd ra) h .hswap o rd [rd, ra]
    ((t.reg ra).toNat + (t.reg rd).toNat % 2) (if (t.reg ra).toNat % 64 = 0 then none else some { code := 6, addr := (t.reg ra).toNat })
  | hverify (h : Hdr) (o : Obj2) (rd : Reg) : HandleRule t (.hverify h o rd) h .hverify o rd [rd] 0 none

/-- The handle of a handle instruction, and its pending registers (12 R290). -/
abbrev Strand.handle (t : Strand) (o : Obj2) : Handle := tget Handle.init t.handles o.val
abbrev handleOperands (op : HOp) (o : Obj2) (regs : List Reg) : List Ref :=
  .l (.hreg o.val) :: ((if op = .hopen ∨ op = .hclose ∨ op = .hbatch then [.l (.qreg o.val)] else []) ++ regs.map Ref.r)
def handlePending (t : Strand) (op : HOp) (o : Obj2) (rd : Reg) : List Loc :=
  t.dest rd ++ if op = .hopen ∨ op = .hclose ∨ op = .hbatch then [.hreg o.val, .qreg o.val] else []

/-- A handle instruction that is answered at its issue: nothing is outstanding for it, and rd has the value (12 R294, R298). -/
abbrev answered (s q : State) (rd : Reg) (v : Word) : Prop :=
  q.op s.cur s.me.nextOp = none ∧ (rd.val ≠ 0 → (q.strand s.cur).reg rd = v) ∧ (q.strand s.cur).handles = s.me.handles ∧ q.mem = s.mem

/-- A list instruction on a record: the operation is done with a status of that code, and the record then is r (12 R294). -/
abbrev recorded (s t : State) (u : Nat) (o : Op) (pa code : Nat) (ok : HRec → Prop) : Prop :=
  ∃ q : Op, t.op u o.id = some q ∧ q.phase = .done ∧ q.res = [hStatus code (hReadRec t pa)] ∧ ok (hReadRec t pa) ∧
    ∀ x, x < pa ∨ pa + 64 ≤ x → memGet t.mem x = memGet s.mem x

/-- A tree instruction (14 R322, R327): its operation, tree, register operands, the two values that it sends, and its destination. -/
inductive TreeRule (t : Strand) : Instr → Hdr → TOp → TreeR → List Reg → Nat → Nat → List Loc → Prop where
  | tclr (h : Hdr) (n : TreeR) (ra : Reg) : TreeRule t (.tclr h n ra) h .tclr n [ra] (t.reg ra).toNat 0 []
  | tset (h : Hdr) (n : TreeR) (rd ra : Reg) : TreeRule t (.tset h n rd ra) h .tset n [rd, ra] (t.reg rd).toNat (t.reg ra).toNat (t.dest rd)
  | tadd (h : Hdr) (n : TreeR) (rd ra : Reg) : TreeRule t (.tadd h n rd ra) h .tadd n [rd, ra] (t.reg rd).toNat (t.reg ra).toNat (t.dest rd)
  | tpref (h : Hdr) (n : TreeR) (rd ra : Reg) : TreeRule t (.tpref h n rd ra) h .tpref n [rd, ra] (t.reg ra).toNat 0 (t.dest rd)
  | tfind (h : Hdr) (n : TreeR) (rd ra : Reg) : TreeRule t (.tfind h n rd ra) h .tfind n [rd, ra] (t.reg ra).toNat 0 (t.dest rd)
  | tcut (h : Hdr) (n : TreeR) (rd ra : Reg) : TreeRule t (.tcut h n rd ra) h .tcut n [rd, ra] (t.reg ra).toNat 0 (t.dest rd)
  | ttot (h : Hdr) (n : TreeR) (rd ra : Reg) : TreeRule t (.ttot h n rd ra) h .ttot n [rd, ra] (t.reg ra).toNat 0 (t.dest rd)

/-- TLOAD and TSTORE (14 R327): the operation, the register of the offset, and that of the count. -/
inductive TreeMemRule : Instr → Hdr → TOp → TreeR → Reg → Reg → Prop where
  | tloadM32 (h : Hdr) (n : TreeR) (ra rb : Reg) : TreeMemRule (.tloadM32 h n ra rb) h .tload32 n ra rb
  | tloadM16 (h : Hdr) (n : TreeR) (ra rb : Reg) : TreeMemRule (.tloadM16 h n ra rb) h .tload16 n ra rb
  | tstore (h : Hdr) (n : TreeR) (ra rb : Reg) : TreeMemRule (.tstore h n ra rb) h .tstore n ra rb

/-- The state in which a tree operation is on its unit's queue (14 R320). -/
abbrev treeQueued (s q : State) (op : TOp) (n a b : Nat) (ds : List Loc) : Prop :=
  q.strand s.cur = (s.me.past 4).send (.tree op n a b) .s s.me.pc 4 s.steps ds ∧
  (q.part s.me.lcore s.me.ctx).tq = (s.part s.me.lcore s.me.ctx).tq ++ [(s.cur, s.me.nextOp, s.steps)] ∧ q.mem = s.mem

/-- The sum of the first i leaves of a tree, one by one (14 R319). -/
def leafSum (r : TreeReg) (i : Nat) : Nat := ((List.range i).map r.leaf).sum

/-- A tree as the unit holds it: leaves by rising index below its length, each within its type (14 R319). -/
abbrev TreeReg.ok (r : TreeReg) : Prop :=
  rising r.leaves ∧ r.len ≤ 1024 ∧ ∀ p ∈ r.leaves, p.1 < r.len ∧ p.2.toNat ≤ r.lmax

/-- What CPY and CPYNB return, by the table of 16 R353: the first row that holds. -/
def copyAnswer (s : State) (q : List Word) (nb : Bool) : Nat :=
  let w2 := (q.getD 2 0).toNat
  let w3 := (q.getD 3 0).toNat
  let dst := (q.getD 1 0).toNat
  let f (w lo n : Nat) : Nat := w / 2 ^ lo % 2 ^ n
  let waiting := s.copies.filter fun c => c.engine.isNone && c.core == s.me.pcore && !s.off c.core c.ctx
  if nb = true ∧ 8 ≤ waiting.length then 1
  else if (f w3 28 1 = 1 ∧ w3 % 16 ≠ 0) ∨ (f w3 36 2 = 1 ∧ dst % 64 ≠ 0) ∨ (f w3 36 2 = 2 ∧ (dst + w2 % 2 ^ 36) % 8 ≠ 0) then 2
  else if w2 / 2 ^ 38 ≠ 0 ∨ 2 ≤ f w2 36 2 ∨ w2 % 2 ^ 36 = 0 ∨ w3 / 2 ^ 47 ≠ 0 ∨ f w3 36 2 = 3 ∨ (f w3 46 1 = 1 ∧ f w3 33 1 = 0) ∨
      (f w3 36 2 = 1 ∧ (tget Handle.init s.me.handles (f w3 34 2)).op = false) ∨
      (f w3 28 1 = 1 ∧ spadSize s (f w3 19 9) s.me.ctx < w3 % 2 ^ 19 + 16) then 3
  else if ∀ e ∈ List.range 24, cfgBit s (512 + (24 * coreDie s.me.pcore + e)) ≠ (s.ctx s.me.ctx).secure then 4
  else 0

/-- An instruction whose operation is done at its issue: it returns v (04 R98). -/
abbrev doneAtIssue (s q : State) (kind : OpKind) (rd : Reg) (v : Word) : Prop :=
  ∃ o, q.op s.cur s.me.nextOp = some o ∧ o.kind = kind ∧ o.phase = .done ∧ o.res = [v] ∧ o.dests = s.me.dest rd

/-- What the rules make of a mark of a ring's slot (16 R364). -/
def ringMark (r q : RingSt) (s : Nat) (fin : Bool) : Prop :=
  let n := 2 ^ r.ln
  let at' := (s + n * 2 ^ 32 - r.rp) % n
  (n ≤ s ∨ at' < seqOff r.rp r.wp ∨ r.full.testBit s = true → q = { r with ovf := true }) ∧
  (s < n → seqOff r.rp r.wp ≤ at' → r.full.testBit s = false → r.rp < 2 ^ 32 → r.wp < 2 ^ 32 → r.ln ≤ 8 →
    r.full.testBit (r.wp % n) = false →
    q.rp = r.rp ∧ q.ovf = r.ovf ∧ q.done = r.done ∧
    (fin = true → q.eosv = true ∧ q.eosq = (r.rp + at') % 2 ^ 32) ∧ (fin = false → q.eosv = r.eosv ∧ q.eosq = r.eosq) ∧
    (s ≠ r.wp % n → q.wp = r.wp ∧ q.full.testBit s = true) ∧
    (s = r.wp % n → r.full = 0 → q.wp = (r.wp + 1) % 2 ^ 32 ∧ q.full = 0))

/-- A gather descriptor that meets 16 R367, in a scratchpad of sz bytes (R368). -/
def gatherLegal (d : List Byte) (sz : Nat) : Prop :=
  let f (o n : Nat) : Nat := leNat ((d.drop o).take n)
  let (ioff, cnt, doff, rsz, tstr, moff) := (f 12 4, f 16 4, f 20 4, f 24 4, f 28 4, f 32 4)
  f 48 16 = 0 ∧ f 36 4 = 0 ∧ (moff ≠ 2 ^ 32 - 1 → moff % 8 = 0) ∧ tstr % 8 = 0 ∧ rsz ≤ tstr ∧ 8 ≤ rsz ∧ rsz ≤ 65536 ∧ rsz % 8 = 0 ∧
  doff % 8 = 0 ∧ 1 ≤ cnt ∧ cnt ≤ 65536 ∧ ioff % 4 = 0 ∧ f 0 8 % 8 = 0 ∧
  ioff + 4 * cnt ≤ sz ∧ doff + cnt * rsz ≤ sz ∧ (moff ≠ 2 ^ 32 - 1 → moff + (cnt + 7) / 8 ≤ sz) ∧
  (ioff + 4 * cnt ≤ doff ∨ doff + cnt * rsz ≤ ioff)

/-- The result of GWAIT (16 R370). -/
def gatherWord (noor code pos : Nat) : Word := BitVec.ofNat 64 (noor + code * 2 ^ 40 + pos * 2 ^ 48)

/-- A range of a deque entry (17 R380), and the entry of a range. -/
def entryLo (e : Nat) : Nat := e % 2 ^ 32
def entryHi (e : Nat) : Nat := e / 2 ^ 32 % 2 ^ 32
def entryOf (lo hi : Nat) : Nat := lo + hi * 2 ^ 32

/-- What a deque operation makes of a deque, oldest entry first, and its result (17 R383, R384). -/
inductive DequeRule : DOp → Nat → List Nat → List Nat → Nat → Prop where
  | pushNone (a : Nat) (d : List Nat) (h : entryHi a ≤ entryLo a) : DequeRule .push a d d 2
  | pushFull (a : Nat) (d : List Nat) (h : entryLo a < entryHi a) (hf : 64 ≤ d.length) : DequeRule .push a d d 1
  | push (a : Nat) (d : List Nat) (h : entryLo a < entryHi a) (hf : d.length < 64) : DequeRule .push a d (d ++ [a]) 0
  | popNone (a : Nat) : DequeRule .pop a [] [] 0
  | pop (a : Nat) (d : List Nat) (e : Nat) : DequeRule .pop a (d ++ [e]) d e
  | splitNone (a : Nat) (d : List Nat) (h : d = [] ∨ a % 2 ^ 32 = 0) : DequeRule .split a d d 0
  | splitAll (a : Nat) (d : List Nat) (e : Nat) (hg : a % 2 ^ 32 ≠ 0) (h : entryHi e - entryLo e ≤ a % 2 ^ 32) :
    DequeRule .split a (d ++ [e]) d e
  | split (a : Nat) (d : List Nat) (e : Nat) (hg : a % 2 ^ 32 ≠ 0) (h : a % 2 ^ 32 < entryHi e - entryLo e) :
    DequeRule .split a (d ++ [e]) (d ++ [entryOf (entryLo e + a % 2 ^ 32) (entryHi e)])
      (entryOf (entryLo e) (entryLo e + a % 2 ^ 32))
  | stealNone (a : Nat) : DequeRule .steal a [] [] 0
  | stealAll (a e : Nat) (d : List Nat) (h : entryHi e = entryLo e + 1) : DequeRule .steal a (e :: d) d e
  | steal (a e : Nat) (d : List Nat) (h : entryLo e + 1 < entryHi e) : DequeRule .steal a (e :: d)
      (entryOf (entryLo e) (entryHi e - (entryHi e - entryLo e + 1) / 2) :: d)
      (entryOf (entryHi e - (entryHi e - entryLo e + 1) / 2) (entryHi e))

/-- The group of a kernel's grid. -/
def State.groupAt (s : State) (kern grp : Nat) : Option Group := (s.kern kern).groups.find? fun g => g.num == grp

/-- A barrier after the test of 18 R393: the phases that are complete have passed, and no other. -/
def advanced (q b : Barrier) : Prop :=
  ∃ k, k * q.expc ≤ q.arr ∧ b = { q with phase := (q.phase + k) % 2 ^ 16, arr := q.arr - k * q.expc } ∧
    (k ≠ 0 → q.expc ≠ 0 ∧ q.pendB = 0) ∧ (q.expc = 0 ∨ q.pendB ≠ 0 ∨ b.arr < q.expc)

/-- What a barrier instruction makes of the fields, before that test (18 R395 to R397). -/
def barrierFields (op : BOp) (b : Nat) (q : Barrier) : Barrier :=
  match op with
  | .binit => { q with expc := b % 4096, arr := 0, ovf := false }
  | .bexp => { q with pendB := (q.pendB + b % 2 ^ 36) % 2 ^ 36 }
  | .barv =>
    let n := if b % 4096 = 0 then 1 else b % 4096
    { q with arr := min 4095 (q.arr + n), ovf := q.ovf || decide (4095 < q.arr + n) }
  | _ => q

/-- A data or barrier collective (22 R468): its group, operation, source, destination and chunk length, its length in bytes and
its operands. -/
inductive CollRule (t : Strand) : Instr → Hdr → Ext → COp → Nat → Nat → Nat → List Ref → Prop where
  | cag (h : Hdr) (e : Ext) : CollRule t (.cag h e) h e .ag (t.reg e.f1).toNat (t.reg e.f2).toNat (t.reg e.f3).toNat
    [.r e.f0, .r e.f1, .r e.f2, .r e.f3]
  | cagLit (h : Hdr) (e : Ext) (l : Word) : CollRule t (.cagLit h e l) h e .ag (t.reg e.f1).toNat (t.reg e.f2).toNat l.toNat
    [.r e.f0, .r e.f1, .r e.f2]
  | crs (h : Hdr) (e : Ext) : CollRule t (.crs h e) h e (.rs (e.mode.toNat % 8) (e.mode.toNat / 8 % 4)) (t.reg e.f1).toNat
    (t.reg e.f2).toNat (t.reg e.f3).toNat [.r e.f0, .r e.f1, .r e.f2, .r e.f3]
  | crsLit (h : Hdr) (e : Ext) (l : Word) : CollRule t (.crsLit h e l) h e (.rs (e.mode.toNat % 8) (e.mode.toNat / 8 % 4))
    (t.reg e.f1).toNat (t.reg e.f2).toNat l.toNat [.r e.f0, .r e.f1, .r e.f2]
  | ca2a (h : Hdr) (e : Ext) : CollRule t (.ca2a h e) h e .a2a (t.reg e.f1).toNat (t.reg e.f2).toNat (t.reg e.f3).toNat
    [.r e.f0, .r e.f1, .r e.f2, .r e.f3]
  | ca2aLit (h : Hdr) (e : Ext) (l : Word) : CollRule t (.ca2aLit h e l) h e .a2a (t.reg e.f1).toNat (t.reg e.f2).toNat l.toNat
    [.r e.f0, .r e.f1, .r e.f2]
  | cbar (h : Hdr) (e : Ext) : CollRule t (.cbar h e) h e .bar 0 0 0 [.r e.f0]

/-- A collective's arguments that 22 R470 accepts. -/
def collArgs (op : COp) (src dst len : Nat) : Prop :=
  op = .bar ∨ (len ≠ 0 ∧ len % 64 = 0 ∧ len ≤ 2 ^ 32 - 64 ∧ src % 64 = 0 ∧ dst % 64 = 0)

/-- A member list that 22 R466 and R469 accept, of n entries at an address. -/
def listLegal (list n : Nat) (es : List Nat) : Prop :=
  list % 8 = 0 ∧ n ≤ 1024 ∧ 2 ≤ n ∧ es.Nodup ∧
    ∀ e ∈ es, e / 2 ^ 48 = 0 ∧ e / 2 ^ 16 % 2 ^ 16 = 0 ∧ e / 2 ^ 9 % 2 ^ 3 = 0

/-- Does an entry name a strand of this node; the strand that it names (22 R466). -/
abbrev listedHere (s : State) (e : Nat) : Bool := e / 2 ^ 32 % 2 ^ 16 == 0xFFFF || e / 2 ^ 32 % 2 ^ 16 == cfgLE s 8 2
def listed (s : State) (t : Strand) (e : Nat) : Bool :=
  listedHere s e && e % 2 ^ 9 == t.lcore && e / 2 ^ 12 % 2 ^ 4 == t.lslot

/-- A line of a strand, and a collective group of a context (22 R470, R466). -/
abbrev State.cline (s : State) (u i : Nat) : CLine := tget (⟨0, 0, 0⟩ : CLine) (s.strand u).clines i
abbrev State.coll (s : State) (ctx g : Nat) : CollGroup := tget CollGroup.init (s.ctx ctx).colls g

/-- A command is at the head of the open system queue (20 R432, 21 R449, R450): its number, its operand, and where it lies; its
status word and the queue's read index are different words. -/
def State.posted (s : State) (n a pa : Nat) : Prop :=
  let b := cfgLE s 0x5C0 8
  s.phase = 5 ∧ readLE s (b + 24) 8 < readLE s (b + 16) 8 ∧
  pa = readLE s b 8 + 128 * (readLE s (b + 24) 8 % 2 ^ readLE s (b + 32) 1) ∧ readLE s pa 8 = n ∧ readLE s (pa + 8) 8 = a ∧
  (pa ≤ b ∨ b + 16 ≤ pa)

/-- The command has been performed (20 R432, R433): its status is written, and the read index with its tag. -/
def State.replied (t : State) (s : State) (pa st : Nat) : Prop :=
  readLE t (pa + 16) 8 = st ∧ tagOf t (cfgLE s 0x5C0 8 + 24) = mkTag .system 1022

/-- It has changed nothing but those two words: the rest of the machine is q. -/
def State.repliedOver (t q : State) (s : State) (pa st : Nat) : Prop :=
  readLE t (pa + 16) 8 = st ∧ readLE t (cfgLE s 0x5C0 8 + 24) 8 = (readLE q (cfgLE s 0x5C0 8 + 24) 8 + 1) % 2 ^ 64 ∧
  (∀ x, (x < pa + 16 ∨ pa + 24 ≤ x) → (x < cfgLE s 0x5C0 8 + 24 ∨ cfgLE s 0x5C0 8 + 32 ≤ x) → memGet t.mem x = memGet q.mem x) ∧
  { t with mem := q.mem, tags := q.tags, poison := q.poison } = q

/-- A requester may name what belongs to a world: a non-secure one nothing secure (25 R500). -/
def State.mayName (s : State) (secure : Bool) : Prop := secure = true → granuleSecure s (cfgLE s 0x5C0 8) = true

/-- A context that commands can name (20 R431, R433). -/
def State.named (s : State) (c : Nat) : Prop := (s.ctx c).st = .built ∨ (s.ctx c).st = .active


/-- The tables that statements read in order rise, and the registers of the units stay within their fields: trees (14 R319), rings
(16 R362), barriers (18 R389). -/
abbrev State.tidy (s : State) : Prop :=
  rising s.strands ∧ rising s.kernels ∧ (∀ u, rising (s.strand u).glines) ∧ (∀ c, rising (s.core c).stabNew) ∧
  ∀ core ctx k, (tget TreeReg.init (s.part core ctx).trees k).ok ∧ (barrierOf s core ctx k).phase < 2 ^ 16 ∧
    let r := tget RingSt.init (s.part core ctx).rings k
    r.rp < 2 ^ 32 ∧ r.wp < 2 ^ 32 ∧ r.ln ≤ 8

/-- No operation bears a number that its strand has still to give, and no collective one that the device has still to give. -/
abbrev State.numbered (s : State) : Prop :=
  (∀ u, (∀ o ∈ (s.strand u).ops, o.id < (s.strand u).nextOp) ∧ ∀ v ∈ (s.strand u).vq, v.opId < (s.strand u).nextOp) ∧
  ∀ d ∈ s.colls, d.id < s.nextColl

end Sys2Proof.Machine
end

