-- ==== Sys2Proof/Certificates/Slice0/Obligations.lean ====
section
/-! DEFINITION. The statements for the provers. -/

open Sys2Proof Sys2Proof.Machine

/-- Each integer instruction other than the divisions and the bit counts, in every state in which its guard is on and
neither the guard nor an operand is pending, completes: it writes the result of its rule, in integer arithmetic, to
its destination (nothing where that is s0), moves past itself, and closes where its close bit is set; nothing else
changes. CLZ completes with the number of leading zero bits of ra, CTZ with that of trailing zero bits, both 64 where
ra is 0, and POPC with the number of one bits. (R120, R121, R122, R124, R125, R126, R127) -/
def Obligations.IntegerAndBitResults : Prop :=
  (∀ (s : State) (i : Instr) (h : Hdr) (len : Nat) (rd : Reg) (refs : List Ref) (v : Word),
    IntRule s.me i h len rd refs v → s.passes h refs →
      exec i s = .next (s.leave h ((s.me.past len).setReg rd v))) ∧
  (∀ (s : State) (h : Hdr) (rd ra : Reg), s.passes h [.r rd, .r ra] →
    let a := s.me.reg ra
    (∃ n ≤ 64, exec (.clz h rd ra) s = .next (s.leave h ((s.me.past 4).setReg rd (w64 n))) ∧
      (∀ i, 64 - n ≤ i → i < 64 → a.getLsbD i = false) ∧ (n < 64 → a.getLsbD (63 - n) = true)) ∧
    (∃ n ≤ 64, exec (.ctz h rd ra) s = .next (s.leave h ((s.me.past 4).setReg rd (w64 n))) ∧
      (∀ i, i < n → a.getLsbD i = false) ∧ (n < 64 → a.getLsbD n = true)) ∧
    exec (.popc h rd ra) s =
      .next (s.leave h ((s.me.past 4).setReg rd (w64 ((List.range 64).countP fun i => a.getLsbD i)))))

/-- DIV, DIVU, REM and REMU complete on all operands: the quotient truncated toward zero and its remainder; where rb is 0,
all ones and ra; where ra is -2^63 and rb is -1, -2^63 and 0. (R123) -/
def Obligations.Divisions : Prop :=
  (∀ (s : State) (i : Instr) (h : Hdr) (rd : Reg) (refs : List Ref) (v : Word),
    DivRule s.me i h rd refs v → s.passes h refs → exec i s = .next (s.leave h ((s.me.past 4).setReg rd v))) ∧
  (∀ (s : State) (h : Hdr) (rd ra rb : Reg), s.passes h [.r rd, .r ra, .r rb] → s.me.reg rb = 0 →
    (∀ i ∈ [Instr.div h rd ra rb, .divu h rd ra rb],
      exec i s = .next (s.leave h ((s.me.past 4).setReg rd (BitVec.allOnes 64)))) ∧
    ∀ i ∈ [Instr.rem h rd ra rb, .remu h rd ra rb],
      exec i s = .next (s.leave h ((s.me.past 4).setReg rd (s.me.reg ra)))) ∧
  (∀ (s : State) (h : Hdr) (rd ra rb : Reg), s.passes h [.r rd, .r ra, .r rb] →
    s.me.reg ra = BitVec.intMin 64 → s.me.reg rb = BitVec.allOnes 64 →
    exec (.div h rd ra rb) s = .next (s.leave h ((s.me.past 4).setReg rd (BitVec.intMin 64))) ∧
    exec (.rem h rd ra rb) s = .next (s.leave h ((s.me.past 4).setReg rd 0)))

/-- FADD, FSUB, FMUL, FDIV, FSQRT, FFMA and every FCVT complete: the exact result of the operation, rounded once, is
written zero-extended (a 32-bit signed integer sign-extended), and its flags join the sticky flags. For each of the
eight floating-point formats, every code of a finite value decodes to a value that converts back to that code, under
every rounding mode, saturating or not, with no flag. (R120, R128, R132, R76, R77, R78, R67) -/
def Obligations.FloatResultsAndFormats : Prop :=
  (∀ (s : State) (i : Instr) (h : Hdr) (rd : Reg) (refs : List Ref) (v : Word) (fl : Nat),
    FloatRule s.me i h rd refs v fl → s.passes h refs →
      exec i s = .next (s.leave h (((s.me.past 4).addFlags fl).setReg rd v))) ∧
  (∀ f ∈ [fp32, fp16, bf16, e4m3, e5m2, e2m3, e3m2, e2m1], ∀ (neg sat : Bool) (c : Nat) (r : Rnd), c ≤ f.maxCode →
    let code := (if neg then 2 ^ (f.bits - 1) else 0) + c
    convertFlt f r sat (decodeFlt f code) = (code, 0))

/-- The IEEE special cases complete with the canonical NaN and NAN_SEEN, an infinity with no flag, or -0; FMIN and FMAX
complete with the other operand, the canonical NaN, or the smaller or larger operand, -0 below +0, and never set
INEXACT. (R129) -/
def Obligations.FloatSpecialCases : Prop :=
  ∀ (s : State) (h : Hdr) (rd ra rb : Reg), s.passes h [.r rd, .r ra, .r rb] →
    let A := fpOf (s.me.reg ra)
    let B := fpOf (s.me.reg rb)
    let D := fpOf (s.me.reg rd)
    let a := (s.me.reg ra).toNat % 2 ^ 32
    let b := (s.me.reg rb).toNat % 2 ^ 32
    let nan := s.floatNext h rd 0x7FC00000 2
    (∀ x, A = .inf x → B = .inf x → exec (.fsub h rd ra rb) s = nan) ∧
    (∀ x, A = .inf x → B = .inf (!x) → exec (.fadd h rd ra rb) s = nan) ∧
    (∀ x, A.isZero = true → B = .inf x → exec (.fmul h rd ra rb) s = nan) ∧
    (∀ x, A = .inf x → B.isZero = true → exec (.fmul h rd ra rb) s = nan) ∧
    (A.isZero = true → B.isZero = true → exec (.fdiv h rd ra rb) s = nan) ∧
    (∀ x y, A = .inf x → B = .inf y → exec (.fdiv h rd ra rb) s = nan) ∧
    (A = .inf true ∨ (∃ n d, A = .fin true n d ∧ n ≠ 0) → exec (.fsqrt h rd ra) s = nan) ∧
    (∀ x n d, A = .fin x n d → n ≠ 0 → B.isZero = true →
      exec (.fdiv h rd ra rb) s = s.floatNext h rd (if x = B.isNeg then 0x7F800000 else 0xFF800000) 0) ∧
    (A.isZero = true → A.isNeg = true → exec (.fsqrt h rd ra) s = s.floatNext h rd 0x80000000 0) ∧
    (∀ x, A.isZero = true → B = .inf x → D = .nan → exec (.ffma h rd ra rb) s = nan) ∧
    (A.isNan = true → B.isNan = true → exec (.fmin h rd ra rb) s = nan ∧ exec (.fmax h rd ra rb) s = nan) ∧
    (A.isNan = true → B.isNan = false →
      exec (.fmin h rd ra rb) s = s.floatNext h rd b 2 ∧ exec (.fmax h rd ra rb) s = s.floatNext h rd b 2) ∧
    (A.isNan = false → B.isNan = true →
      exec (.fmin h rd ra rb) s = s.floatNext h rd a 2 ∧ exec (.fmax h rd ra rb) s = s.floatNext h rd a 2) ∧
    (A.lt B = true ∨ (A.isZero = true ∧ B.isZero = true ∧ A.isNeg = true ∧ B.isNeg = false) →
      exec (.fmin h rd ra rb) s = s.floatNext h rd a 0 ∧ exec (.fmax h rd ra rb) s = s.floatNext h rd b 0) ∧
    (B.lt A = true ∨ (A.isZero = true ∧ B.isZero = true ∧ A.isNeg = false ∧ B.isNeg = true) →
      exec (.fmin h rd ra rb) s = s.floatNext h rd b 0 ∧ exec (.fmax h rd ra rb) s = s.floatNext h rd a 0) ∧
    (a = b → A.isNan = false →
      exec (.fmin h rd ra rb) s = s.floatNext h rd a 0 ∧ exec (.fmax h rd ra rb) s = s.floatNext h rd a 0)

/-- FCLASS completes with a one-hot mask that names the class of ra[31:0]: infinities, normals, subnormals and zeros by
sign, and the two kinds of NaN; every other bit is zero, and no flag is set. (R131) -/
def Obligations.FclassResults : Prop :=
  ∀ (s : State) (h : Hdr) (rd ra : Reg), s.passes h [.r rd, .r ra] →
    exec (.fclass h rd ra) s =
      .next (s.leave h ((s.me.past 4).setReg rd (w64 (2 ^ classBit ((s.me.reg ra).setWidth 32)))))

/-- CMP, CMPI, FCMP, PAND, POR, PXOR, PNOT and PMOV complete: the bit of their rule goes to cd (a cd of c0 discards it; c0
reads as 1), a NaN operand of FCMP sets NAN_SEEN, and nothing else changes. (R111, R112, R113, R130) -/
def Obligations.PredicateResults : Prop :=
  ∀ (s : State) (i : Instr) (h : Hdr) (len : Nat) (cd : Pr) (refs : List Ref) (b : Bool) (fl : Nat),
    PredRule s.me i h len cd refs b fl → s.passes h refs →
      exec i s = .next (s.leave h (((s.me.past len).addFlags fl).setPred cd b)) ∧
      ((s.me.setPred cd b).predBit cd = if cd.val = 0 then true else b)

/-- An integer, division, floating-point or predicate instruction whose close delivers no fault changes no byte of memory,
no other strand and nothing else of the machine. Of its own strand every register but rd is unchanged (every register,
for a predicate instruction), every predicate bit but cd, the status bits, the window, the spill pointer, the seed,
the privilege and the trap registers; sticky flags are only added, and only by floating-point instructions. (R48, R78,
R96, R100, R112, R120) -/
def Obligations.ScalarFrame : Prop :=
  ∀ (s : State) (i : Instr) (h : Hdr) (rd : Option Reg) (cd : Option Pr) (fl : Nat) (refs : List Ref),
    ((∃ len r v, rd = some r ∧ cd = none ∧ fl = 0 ∧ IntRule s.me i h len r refs v) ∨
      (∃ r v, rd = some r ∧ cd = none ∧ fl = 0 ∧ DivRule s.me i h r refs v) ∨
      (∃ r v, rd = some r ∧ cd = none ∧ FloatRule s.me i h r refs v fl) ∨
      (∃ len p b, rd = none ∧ cd = some p ∧ PredRule s.me i h len p refs b fl)) →
    s.passes h refs → (h.c = false ∨ firstFault s.me = none) →
    ∃ t, exec i s = .next t ∧ sameElsewhere s t s.cur ∧ (∀ a, memGet t.mem a = memGet s.mem a) ∧
      (∀ r, some r ≠ rd → (t.strand s.cur).reg r = s.me.reg r) ∧
      (∀ p, some p ≠ cd → (t.strand s.cur).predBit p = s.me.predBit p) ∧
      (t.strand s.cur).vflags = Nat.lor s.me.vflags (fl % 16) ∧ (t.strand s.cur).mblost = s.me.mblost ∧
      (t.strand s.cur).mstat = s.me.mstat ∧ (t.strand s.cur).wstat = s.me.wstat ∧ (t.strand s.cur).wsp = s.me.wsp ∧
      (t.strand s.cur).dseed = s.me.dseed ∧ (t.strand s.cur).sup = s.me.sup ∧ (t.strand s.cur).trap = s.me.trap ∧
      (t.strand s.cur).ops = s.me.ops

/-- BR (short and literal) and JR complete at an aligned target: the PC becomes the target and nothing else changes; at a
misaligned one they raise ALIGN. That TADDR of ALIGN is the target is the model's choice (log entry 24). From a strand
whose CWP is below 96 and whose WRES is a multiple of 4 of at most 72, a CALL, CALLR, RET, WSPILL or WFILL that takes
its effect leaves such a window. (R53, R106, R109, R104, R107, R108) -/
def Obligations.BranchesAndWindow : Prop :=
  (∀ (s : State) (i : Instr) (h : Hdr) (len : Nat) (refs : List Ref) (target : Nat),
    JumpRule s.me i h len refs target → s.passes h refs →
      exec i s = if target % 4 = 0 then .next (s.leave h { s.me.past len with pc := target })
        else .next (trapAt s s.cur s.me.pc len { code := 6, addr := target })) ∧
  (∀ (s t : State) (h : Hdr) (i : Instr), s.me.windowOk → h.c = false →
    (i = .ret h ∨ (∃ kc, i = .wspill h kc ∨ i = .wfill h kc) ∨ ∃ len refs kc target, CallRule s.me i h len refs kc target) →
    exec i s = .next t → (t.strand s.cur).windowOk)

/-- CALL (short and literal) and CALLR: a misaligned target raises ALIGN, a window that would hold more than 72 older
registers raises WINDOW_SPILL; otherwise the link word goes to the register below the callee's w0, CWP and WRES rise
by k, and the PC becomes the target, so that the callee's w0 is the caller's w(k). That TADDR of ALIGN is the target
is the model's choice (log entry 24). (R106) -/
def Obligations.Calls : Prop :=
  ∀ (s : State) (i : Instr) (h : Hdr) (len : Nat) (refs : List Ref) (kc : BitVec 2) (target : Nat),
    CallRule s.me i h len refs kc target → s.passes h refs →
    let k := 4 * (kc.toNat + 1)
    let l := Loc.phys ((s.me.cwp + k - 1) % 96)
    let t := { (s.me.past len).setLoc l (w64 (((s.me.pc + len) % 2 ^ 64) ||| kc.toNat)) with
      cwp := (s.me.cwp + k) % 96, wres := s.me.wres + k, pc := target }
    (s.me.isPending l = true → exec i s = .next (trapAt s s.cur s.me.pc len { code := 2 })) ∧
    (s.me.isPending l = false →
      exec i s = if target % 4 ≠ 0 then .next (trapAt s s.cur s.me.pc len { code := 6, addr := target })
        else if 72 < s.me.wres + k then .next (trapAt s s.cur s.me.pc len { code := 4 })
        else .next (s.leave h t)) ∧
    ∀ n, n + k < 24 → t.reg (Fin.ofNat 32 (8 + n)) = s.me.reg (Fin.ofNat 32 (8 + n + k))

/-- RET raises WINDOW_FILL where no older register is resident or fewer than the link word slides; otherwise it slides the
window back by 4 x (link[1:0] + 1) and goes to the link word with bits [1:0] cleared. (R107) -/
def Obligations.Returns : Prop :=
  ∀ (s : State) (h : Hdr), s.passes h [] →
    let l := Loc.phys ((s.me.cwp + 95) % 96)
    let link := (s.me.getLoc l).toNat
    let k := 4 * (link % 4 + 1)
    (s.me.isPending l = true → exec (.ret h) s = .next (trapAt s s.cur s.me.pc 4 { code := 2 })) ∧
    (s.me.isPending l = false →
      exec (.ret h) s = if s.me.wres = 0 then .next (trapAt s s.cur s.me.pc 4 { code := 5 })
        else if s.me.wres < k then .next (trapAt s s.cur s.me.pc 4 { code := 5 })
        else .next (s.leave h { s.me.past 4 with
          cwp := (s.me.cwp + 96 - k) % 96, wres := s.me.wres - k, pc := link - link % 4 }))

/-- NOP completes and changes nothing but the PC; YIELD also has the strand waste its next turn, in which nothing happens
but that it has had its turn of the rotation; END closes as if C were 1, after which, with nothing left to wait for
and no fault to deliver, the strand's next turn ends it. A strand whose END has closed, with its repetition buffer
idle, no queued vector instruction and no engine work of its own that is still to do, closes its handles at its next
turn. Where a handle's record has to wait (a write-blocked page, an earlier write or release of its core to the
record), it keeps its slot and tries again; otherwise it is EMPTY: its lane claim is released, its handles are closed
and its mailboxes and event lines are gone. With no open handle nothing has to wait. While engine work of its own is
still to do, its turns change nothing (that END waits for it is the model's choice, log entry 109). What an end does
with a handle whose record cannot be reached is the model's choice (log entry 29), as is its wait for engine work (log
entry 109). (R94, R100, R110) -/
def Obligations.NopYieldEndAndEnding : Prop :=
  (∀ (s : State) (h : Hdr), s.passes h [] →
    exec (.nop h) s = .next (s.leave h (s.me.past 4)) ∧
    exec (.yield h) s = .next (s.leave h { s.me.past 4 with yielded := true }) ∧
    exec (.endStrand h) s = .next (closeAt (s.setStrand s.cur (s.me.past 4)) s.cur ((s.me.pc + 4) % 2 ^ 64) true) ∧
    (s.me.close = none → s.me.rerunWaits = false → (∀ o ∈ s.me.ops, ¬o.outstandingFor) → firstFault s.me = none →
      ∃ t, exec (.endStrand h) s = .next t ∧ (t.strand s.cur).ending = true ∧ (t.strand s.cur).st = .ready) ∧
    (∀ u, canIssue s (s.strand u) = true → ((s.strand u).st = .ready ∨ regHeld s (s.strand u) = false) →
      (s.strand u).stopWaits = false → (s.strand u).yielded = true →
      turn u s = .next (s.setStrand u { s.strand u with turn := slotClock s (s.strand u) + 1, yielded := false }))) ∧
  (∀ (s : State) (u : Nat), canIssue s (s.strand u) = true → (s.strand u).st = .ready → (s.strand u).stopWaits = false →
    (s.strand u).yielded = false → (s.strand u).ending = true → (s.strand u).rep = none → (s.strand u).vq = [] →
    let v := s.setStrand u { s.strand u with turn := slotClock s (s.strand u) + 1 }
    let works : Prop := ∃ p ∈ s.parts, ∃ e ∈ p.2.eq ++ p.2.streams, e.uid = u ∧ e.heldAt = 0
    (works → turn u s = .next v) ∧
    (¬works →
      ((closeHandles v u).2 = true →
        ∃ t, turn u s = .next t ∧ (t.strand u).st = .ended ∧ (t.strand u).claims = [] ∧ (t.strand u).handles = [] ∧
          (t.strand u).mboxes = [] ∧ (t.strand u).glines = [] ∧ (t.strand u).clines = []) ∧
      ((closeHandles v u).2 = false →
        ∃ t, turn u s = .next t ∧ (t.strand u).st = .ready ∧ (t.strand u).ending = true ∧
          (t.strand u).claims = (s.strand u).claims) ∧
      ((∀ h ∈ (s.strand u).handles, h.2.op = false) → (closeHandles v u).2 = true)))

/-- NOP with C = 1 closes: while an operation issued since the last completed close has not returned, the strand parks
with its registers and pending bits as they were; where all have returned without a fault to deliver (and none is
held), every pending bit clears and the strand is READY at the next instruction. For every instruction of the opcode
table: where the predicate bit of its guard is pending it traps with CLOSURE at itself; where the guard is off and not
pending, it has no effect but to move past itself, and closes where its close bit is set. (R97, R98, R100, R47, R59,
R99) -/
def Obligations.Closes : Prop :=
  (∀ (s : State) (h : Hdr), s.passes h [] → h.c = true → s.me.rerunWaits = false →
    (∀ o ∈ s.me.ops, o.outstandingFor → behindFault (s.setStrand s.cur (s.me.past 4)) s.cur o = false) →
    ((∃ o ∈ s.me.ops, o.outstandingFor) → ∃ t, exec (.nop h) s = .next t ∧ (t.strand s.cur).st = .parked (closeWake s.me) ∧
      (t.strand s.cur).pend = s.me.pend ∧ (t.strand s.cur).sregs = s.me.sregs ∧ (t.strand s.cur).phys = s.me.phys ∧
      (∃ e, (t.strand s.cur).close = some ((s.me.pc + 4) % 2 ^ 64, e)) ∧ sameElsewhere s t s.cur) ∧
    ((∀ o ∈ s.me.ops, o.phase = .late) → ∃ t, exec (.nop h) s = .next t ∧ (t.strand s.cur).st = .ready ∧
      (t.strand s.cur).pend = [] ∧ (t.strand s.cur).pc = (s.me.pc + 4) % 2 ^ 64 ∧ (t.strand s.cur).close = none ∧
      (t.strand s.cur).sregs = s.me.sregs ∧ (t.strand s.cur).phys = s.me.phys ∧ sameElsewhere s t s.cur)) ∧
  (∀ (s : State) (i : Instr) (h : Hdr), i.hdr? = some h →
    (s.me.refPending (.p h.pred) = true →
      exec i s = .next (trapAt s s.cur s.me.pc (4 * (encode i).length) { code := 2 })) ∧
    (s.me.refPending (.p h.pred) = false → s.me.predBit h.pred = h.pn →
      exec i s = .next (s.leave h (s.me.past (4 * (encode i).length)))))

/-- The return of a pending-class operation that is done, of a strand in rotation outside a close, writes its result to
its destination and ends the operation; every pending bit stays set, a destination of s0 or c0 gets nothing, and
nothing else of the machine changes. (R98) -/
def Obligations.OperationsReturn : Prop :=
  ∀ (s : State) (u id : Nat) (o : Op), s.op u id = some o → o.id = id → o.phase = .done → (s.strand u).inRotation →
    (s.strand u).close = none → regHeld s (s.strand u) = false → frozenNow s (s.strand u).pcore = false →
    ∃ t, exec (.pendingReturn u id) s = .next t ∧ sameElsewhere s t u ∧
      (t.strand u).pend = (s.strand u).pend ∧ (∀ x, x ∈ (t.strand u).ops ↔ x ∈ (s.strand u).ops ∧ x.id ≠ id) ∧
      (o.dests = [] → (t.strand u).sregs = (s.strand u).sregs ∧ (t.strand u).phys = (s.strand u).phys ∧
        (t.strand u).pword = (s.strand u).pword) ∧
      (∀ l v, o.dests = [l] → o.res = [v] → (t.strand u).getLoc l = ((s.strand u).setLoc l v).getLoc l ∧
        ∀ m, m ≠ l → (t.strand u).getLoc m = (s.strand u).getLoc m)

/-- WSPILL and WFILL move n registers, the smaller of 4 x (kc + 1) and the room; with n = 0 they change nothing. WSPILL
checks that no register that it moves is pending, ALIGN on WSP, then translates the range for writing, and stores
Phys(CWP - WRES + j) at WSP + 8j, in order, on path S; WSP rises by 8n and WRES falls by n. WFILL likewise translates
[WSP - 8n, WSP) for reading, and is sent with Phys(CWP - WRES - n + j) as its destinations; WSP falls by 8n and WRES
rises by n. Legal at every privilege. (R108, R135, R136, R140) -/
def Obligations.SpillAndFill : Prop :=
  ∀ (s : State) (h : Hdr) (kc : BitVec 2), s.passes h [] →
    let a := s.me.wsp.toNat
    (let n := min (4 * (kc.toNat + 1)) s.me.wres
     let ls := (List.range n).map fun j => Loc.phys ((s.me.cwp + 96 - s.me.wres + j) % 96)
     (n = 0 → exec (.wspill h kc) s = .next (s.leave h (s.me.past 4))) ∧
     (0 < n → (∃ l ∈ ls, s.me.isPending l = true) → exec (.wspill h kc) s = .next (trapAt s s.cur s.me.pc 4 { code := 2 })) ∧
     (0 < n → (∀ l ∈ ls, s.me.isPending l = false) →
       (a % 8 ≠ 0 → exec (.wspill h kc) s = .next (trapAt s s.cur s.me.pc 4 { code := 6, addr := a, acc := 2 })) ∧
       (∀ s1 c, a % 8 = 0 →
         sitesOf (s.entered 4) (s.me.past 4) .write ((List.range n).map fun j => (a + 8 * j, 8)) = (s1, .error c) →
         exec (.wspill h kc) s = .next (trapAt s s.cur s.me.pc 4 c)) ∧
       (∀ s1 ws, a % 8 = 0 →
         sitesOf (s.entered 4) (s.me.past 4) .write ((List.range n).map fun j => (a + 8 * j, 8)) = (s1, .ok ws) →
         (∀ w ∈ ws, w.loc = false ∧ w.wb = false) → (s1.ctx s.me.ctx).watches = [] →
         ∃ q, exec (.wspill h kc) s = .next (closeOf h s.cur q) ∧ q.mem = s1.mem ∧
           q.strand s.cur = { s1.strand s.cur with wsp := (s1.strand s.cur).wsp + w64 (8 * n), wres := (s1.strand s.cur).wres - n } ∧
           q.writes = s1.writes ++ ((ws.zip ls).zipIdx.map fun p => ⟨s.cur, s.me.pcore, s.me.ctx, .s, a + 8 * p.2, p.1.1.pa,
             leBytes 8 (s.me.getLoc p.1.2).toNat, none, s1.steps, false, none, none, false⟩)) ∧
       (∀ o, a % 8 = 0 → localOff s s.me.ctx a = some o → o + 8 * n ≤ spadSize s s.me.lcore s.me.ctx → o + 8 * n ≤ 2 ^ 19 →
         (s.ctx s.me.ctx).watches = [] → s.off s.me.lcore s.me.ctx = false →
         (∀ j < n, localBehind s s.cur (a + 8 * j) 8 (spadPA s s.me.lcore s.me.ctx (o + 8 * j)) = false) →
         ∃ q, exec (.wspill h kc) s = .next (closeOf h s.cur q) ∧
           wrote s.mem q.mem (spadPA s s.me.lcore s.me.ctx o) (ls.map fun l => leBytes 8 (s.me.getLoc l).toNat).flatten ∧
           (q.strand s.cur).wsp = s.me.wsp + w64 (8 * n) ∧ (q.strand s.cur).wres = s.me.wres - n ∧
           ∀ r, (q.strand s.cur).reg r = s.me.reg r))) ∧
    (let n := min (4 * (kc.toNat + 1)) (72 - s.me.wres)
     let b := (a + 2 ^ 64 - 8 * n) % 2 ^ 64
     let ds := (List.range n).map fun j => Loc.phys ((s.me.cwp + 192 - s.me.wres - n + j) % 96)
     s.room →
     (n = 0 → exec (.wfill h kc) s = .next (s.leave h (s.me.past 4))) ∧
     (0 < n → (∃ l ∈ ds, s.me.isPending l = true) → exec (.wfill h kc) s = .next (trapAt s s.cur s.me.pc 4 { code := 2 })) ∧
     (0 < n → (∀ l ∈ ds, s.me.isPending l = false) →
       (a % 8 ≠ 0 → exec (.wfill h kc) s = .next (trapAt s s.cur s.me.pc 4 { code := 6, addr := a, acc := 1 })) ∧
       (∀ s1 c, a % 8 = 0 →
         sitesOf (s.entered 4) (s.me.past 4) .read ((List.range n).map fun j => (b + 8 * j, 8)) = (s1, .error c) →
         exec (.wfill h kc) s = .next (trapAt s s.cur s.me.pc 4 c)) ∧
       (∀ s1 ws, a % 8 = 0 →
         sitesOf (s.entered 4) (s.me.past 4) .read ((List.range n).map fun j => (b + 8 * j, 8)) = (s1, .ok ws) →
         exec (.wfill h kc) s = .next (s.leaveIn h s1 ({ s.me.past 4 with wsp := w64 b, wres := s.me.wres + n }.send
           (.wfill b n) .s s.me.pc 4 s.steps ds)))))

/-- Every load whose address is aligned and lies outside the local window completes its issue with fewer than 32
operations outstanding: the operation is sent with its address, its destination (two registers for LDP; none for s0)
becomes pending, and no register or byte of memory changes; a misaligned address raises ALIGN. Every load whose
aligned address lies in the local window, within the context's partition, reads the scratchpad at once: bytes
little-endian, sign- or zero-extended by its width, to rd (the two words of LDP to rd and the register after it). Past
the partition it raises NOT_PRESENT with SUB 3; from a poisoned word, POISON, and the read is logged. (R97, R98, R133,
R134, R136, R138, R51, R135, R137, R144, R159) -/
def Obligations.Loads : Prop :=
  (∀ (s : State) (i : Instr) (h : Hdr) (len : Nat) (rd base : Reg) (va n : Nat) (sx pair : Bool),
    LoadRule s.me i h len rd base va n sx pair →
    s.passes h (.r base :: .r rd :: if pair then [.r (rd + 1)] else []) →
    (va % n ≠ 0 → exec i s = .next (trapAt s s.cur s.me.pc len { code := 6, addr := va, acc := 1 })) ∧
    (va % n = 0 → localOff s s.me.ctx va = none → s.room →
      exec i s = .next (s.leave h ((s.me.past len).send (.load va n (sx || n == 8) pair) .s s.me.pc len s.steps
        (s.me.dest rd ++ if pair then s.me.dest (rd + 1) else []))))) ∧
  (∀ (s : State) (i : Instr) (h : Hdr) (len : Nat) (rd base : Reg) (va n o : Nat) (sx pair : Bool),
    LoadRule s.me i h len rd base va n sx pair →
    s.passes h (.r base :: .r rd :: if pair then [.r (rd + 1)] else []) → va % n = 0 →
    localOff s s.me.ctx va = some o →
    let pa := spadPA s s.me.lcore s.me.ctx o
    let t := s.me.past len
    (spadSize s s.me.lcore s.me.ctx < o + n →
      exec i s = .next (trapAt s s.cur s.me.pc len { code := 7, sub := 3, addr := va, acc := 1 })) ∧
    (o + n ≤ spadSize s s.me.lcore s.me.ctx → localBehind s s.cur va n pa = false → s.off s.me.lcore s.me.ctx = false →
      (isPoisoned s pa n = true → exec i s =
        .next (trapAt ((logBad (s.entered len) pa).setStrand s.cur s.me) s.cur s.me.pc len { code := 10, addr := va, acc := 1 })) ∧
      (isPoisoned s pa n = false → (s.ctx s.me.ctx).watches = [] →
        exec i s = .next (s.leave h (if pair then
            (t.setReg rd (loadedWord false (readBytes s pa 8))).setReg (rd + 1) (loadedWord false (readBytes s (pa + 8) 8))
          else t.setReg rd (loadedWord sx (readBytes s pa n)))))))

/-- Every store whose aligned address lies in the local window, within the partition, writes exactly the low bytes of its
register there, little-endian (both registers for STP); no other byte of memory and no register of the strand changes.
A misaligned address raises ALIGN; past the partition, NOT_PRESENT with SUB 3. Every store whose aligned address
translates for a store, to a page that is not write-blocked, completes: its pieces join the writes on their way, at
the translated addresses and in order, and no byte of memory and nothing of the strand but its PC changes at the
issue. (R134, R135, R136, R138, R140, R139, R158) -/
def Obligations.Stores : Prop :=
  (∀ (s : State) (i : Instr) (h : Hdr) (len : Nat) (refs : List Ref) (va : Nat) (parts : List (List Byte)),
    StoreRule s.me i h len refs va parts → s.passes h refs →
    let bs := parts.flatten
    (va % bs.length ≠ 0 → exec i s = .next (trapAt s s.cur s.me.pc len { code := 6, addr := va, acc := 2 })) ∧
    (∀ o, va % bs.length = 0 → localOff s s.me.ctx va = some o →
      (parts.length = 1 → spadSize s s.me.lcore s.me.ctx < o + bs.length →
        exec i s = .next (trapAt s s.cur s.me.pc len { code := 7, sub := 3, addr := va, acc := 2 })) ∧
      (o + bs.length ≤ spadSize s s.me.lcore s.me.ctx → o + bs.length ≤ 2 ^ 19 → (s.ctx s.me.ctx).watches = [] →
        s.off s.me.lcore s.me.ctx = false →
        (∀ j < parts.length, localBehind s s.cur (va + 8 * j) (parts.getD j []).length
          (spadPA s s.me.lcore s.me.ctx (o + 8 * j)) = false) →
        ∃ q, exec i s = .next (closeOf h s.cur q) ∧ wrote s.mem q.mem (spadPA s s.me.lcore s.me.ctx o) bs ∧
          (∀ r, (q.strand s.cur).reg r = s.me.reg r) ∧ (q.strand s.cur).pword = s.me.pword ∧
          (q.strand s.cur).pc = (s.me.pc + len) % 2 ^ 64 ∧ (q.strand s.cur).pend = s.me.pend))) ∧
  (∀ (s s1 : State) (i : Instr) (h : Hdr) (len : Nat) (refs : List Ref) (va : Nat) (parts : List (List Byte)) (ws : List Site),
    StoreRule s.me i h len refs va parts → s.passes h refs → va % parts.flatten.length = 0 →
    sitesOf (s.entered len) (s.me.past len) .write ((List.range parts.length).map fun j => (va + 8 * j, (parts.getD j []).length))
      = (s1, .ok ws) →
    (∀ w ∈ ws, w.loc = false ∧ w.wb = false) → (s1.ctx s.me.ctx).watches = [] →
    ∃ q, exec i s = .next (closeOf h s.cur q) ∧ q.mem = s1.mem ∧ q.strand s.cur = s1.strand s.cur ∧
      q.writes = s1.writes ++ ((ws.zip parts).zipIdx.map fun p =>
        ⟨s.cur, s.me.pcore, s.me.ctx, .s, va + 8 * p.2, p.1.1.pa, p.1.2, none, s1.steps, false, none, none, false⟩))

/-- A write on its way that nothing must precede, to a first-tier or a port address, is performed at its home: exactly its
bytes change, a word of ECC that it wholly covers becomes clean, and it is on its way no longer. A release write of
another node, decoded, that a port of the granule's world can carry is performed likewise with its order tag; with no
such port nothing is stored. That a write of a node is an act of its own, and when the watchdog holds for it, are the
model's choices (log entries 20 and 76). A load that reads its bytes is done with them, extended by its width. LDP is
two accesses of 8 bytes, each of which may stand alone between writes: the first (the model's choice: the lower word,
log entry 103) is kept, the second completes it with both words. A read that raises a cause leaves the load faulted,
and it waits for its close. A WFILL is done with its words, lowest address first. No register changes before the
return. (R136, R140, R148, R160, R192, R137, R138, R108, R144) -/
def Obligations.ReadsAndStoresAtHome : Prop :=
  ((∀ (s : State) (k : Nat) (m : Fabric) (w : MemWrite), m.bytes = [] → s.writes[k]? = some w → storeReady s k w = true →
    w.stb = none → w.tag = none → (homeOf s w.pa = .first ∨ ∃ p o, homeOf s w.pa = .port p o) →
    ∃ t, exec (.storeAtHome k m) s = .next t ∧ wrote s.mem t.mem w.pa w.bytes ∧ t.writes = ldel s.writes k ∧
      t.poison = poisonAfter s.poison w.pa w.bytes.length) ∧
  (∀ (s : State) (k : Nat) (m : Fabric) (bs : List Byte), m.bytes ≠ [] → (unpack s m).2 = .ok bs → bs.length = 8 →
    (streamOf m ∉ s.cutOff ∨ m.drst = true) →
    m.rel = true → m.pa % 8 = 0 → m.pa + 7 < 2 ^ 39 →
    (∃ p < 32, cfgBit s (1708 + p) = granuleSecure s m.pa ∧ granuleSecure s (m.pa + 7) = granuleSecure s m.pa ∧
      ((s.clav p).st = .up ∨ (s.clav p).st = .narrowed)) →
    ∃ t, exec (.storeAtHome k m) s = .next t ∧ wrote (unpack s m).1.mem t.mem m.pa bs ∧
      tagOf t m.pa = mkTag .system 1023) ∧
  (∀ (s : State) (k : Nat) (m : Fabric), m.bytes ≠ [] →
    (∀ p < 32, (s.clav p).st = .up ∨ (s.clav p).st = .narrowed → cfgBit s (1708 + p) ≠ granuleSecure s m.pa) →
    exec (.storeAtHome k m) s = .next s)) ∧
  (∀ (s s1 : State) (u : Nat) (o : Op), s.sentOp u o →
    (∀ va n sx bs, o.kind = .load va n sx false → readFor s u o va n false = (s1, .ok bs) → bs.length = n →
      s1.op u o.id = some o →
      ∃ t, exec (.readAtHome u o.id) s = .next t ∧ t.doneOp u o [loadedWord sx bs] ∧ t.mem = s1.mem) ∧
    (∀ va n sx bs, o.kind = .load va n sx true → o.got = [] → readFor s u o va 8 false = (s1, .ok bs) → bs.length = 8 →
      s1.op u o.id = some o →
      ∃ t, exec (.readAtHome u o.id) s = .next t ∧ t.op u o.id = some { o with got := [loadedWord false bs] } ∧
        t.mem = s1.mem) ∧
    (∀ va n sx bs lo, o.kind = .load va n sx true → o.got = [lo] → o.dests.length = 2 →
      readFor s u o (va + 8) 8 false = (s1, .ok bs) → bs.length = 8 → s1.op u o.id = some o →
      ∃ t, exec (.readAtHome u o.id) s = .next t ∧ t.mem = s1.mem ∧
        t.op u o.id = some { o with got := [], phase := .done, res := [lo, loadedWord false bs] }) ∧
    (∀ va n sx pair c, o.kind = .load va n sx pair → o.got = [] →
      readFor s u o va (if pair then 8 else n) false = (s1, .error (some c)) →
      s1.op u o.id = some o → o.child = none → (s1.strand u).close = none →
      ∃ t, exec (.readAtHome u o.id) s = .next t ∧ t.op u o.id = some { o with phase := .faulted, cause := c }) ∧
    (∀ va n ws, o.kind = .wfill va n → fillFor s u o false ((List.range n).map fun j => va + 8 * j) = (s1, .ok ws) →
      s1.op u o.id = some o →
      ∃ t, exec (.readAtHome u o.id) s = .next t ∧ t.doneOp u o ws ∧ t.mem = s1.mem))

/-- Every atomic and AGADD with an aligned address outside the local window's gap completes its issue with fewer than 32
operations outstanding: the operation is sent with its operands cut to its width, its destination becomes pending, and
no register changes; a misaligned address raises ALIGN with ACC 3. (R97, R98, R142, R143) -/
def Obligations.AtomicsIssue : Prop :=
  ∀ (s : State) (h : Hdr) (rd ra rb : Reg), s.passes h [.r ra, .r rb, .r rd] → s.room →
    let va := (s.me.reg ra).toNat
    (∀ (i : Instr) (o : AOp) (n : Nat), AtomicRule i h o n rd ra rb →
      (va % n ≠ 0 → exec i s = .next (trapAt s s.cur s.me.pc 4 { code := 6, addr := va, acc := 3 })) ∧
      (va % n = 0 → gapOf s s.me va n .both = none →
        exec i s = .next (s.leaveIn h (atomicIssue (s.entered 4) (s.me.past 4) va n)
          ((s.me.past 4).send (.atomic o va n ((s.me.reg rb).toNat % 2 ^ (8 * n)) ((s.me.reg rd).toNat % 2 ^ (8 * n))) .s
            s.me.pc 4 s.steps (s.me.dest rd))))) ∧
    (va % 16 ≠ 0 → exec (.agadd h rd ra rb) s = .next (trapAt s s.cur s.me.pc 4 { code := 6, addr := va, acc := 3 })) ∧
    (va % 16 = 0 → gapOf s s.me va 16 .both = none →
      exec (.agadd h rd ra rb) s = .next (s.leaveIn h (atomicIssue (s.entered 4) (s.me.past 4) va 16)
        ((s.me.past 4).send (.agadd va (s.me.reg rb).toNat ((s.me.reg rd).toNat % 4)) .s s.me.pc 4 s.steps (s.me.dest rd))))

/-- An atomic that reaches its first-tier home is done with the old value, sign-extended from its width, and leaves
exactly the word of its operation there (a compare-and-swap that does not match leaves it); AGADD adds to the 64-bit
lane, joins the flag, writes the rest of the second doubleword as zero, and returns the new flag. (R142, R143, R81,
R82) -/
def Obligations.AtomicsAtHome : Prop :=
  ∀ (s s1 : State) (u : Nat) (o : Op) (va : Nat) (w : Site) (bs : List Byte), s.sentOp u o → w.loc = false →
    homeOf s1 w.pa = .first → s1.watches = [] →
    (∀ (a : AOp) (n b e : Nat), o.kind = .atomic a va n b e → n = 4 ∨ n = 8 →
      bothFor s u o va n false = (s1, .ok (w, bs)) → bs.length = n → s1.op u o.id = some o →
      let old := BitVec.ofNat (8 * n) (leNat bs)
      ∃ t, exec (.atomicAtHome u o.id) s = .next t ∧ t.doneOp u o [old.signExtend 64] ∧
        (match atomicWord a old (BitVec.ofNat (8 * n) b) (BitVec.ofNat (8 * n) e) with
        | some v => b < 2 ^ (8 * n) → e < 2 ^ (8 * n) → wrote s1.mem t.mem w.pa (leBytes n v.toNat)
        | none => t.mem = s1.mem)) ∧
    (∀ g f, o.kind = .agadd va g f → bothFor s u o va 16 false = (s1, .ok (w, bs)) → bs.length = 16 →
      s1.op u o.id = some o →
      let flag := BitVec.ofNat 2 ((bs.getD 8 0).toNat) ||| BitVec.ofNat 2 f
      ∃ t, exec (.atomicAtHome u o.id) s = .next t ∧ t.doneOp u o [flag.setWidth 64] ∧
        wrote s1.mem t.mem w.pa (leBytes 8 (leNat (bs.take 8) + g) ++ leBytes 8 flag.toNat))

/-- A write performed at a home keeps memory in its canonical form, with every watch that it fires, reads back byte for
byte, and leaves every other byte alone; memory after reset is canonical. The canonical form, and zero for what
nothing has written, are the model's choices (log entry 6). (R34, R160) -/
def Obligations.MemoryCanonical : Prop :=
  Memory.wf State.reset.mem ∧
  ∀ (s : State) (pa : Nat) (bs : List Byte), Memory.wf s.mem →
    Memory.wf (homeWrite s pa bs).mem ∧ wrote s.mem (homeWrite s pa bs).mem pa bs ∧
    readBytes (homeWrite s pa bs) pa bs.length = bs ∧ (homeWrite (homeWrite s pa bs) pa bs).mem = (homeWrite s pa bs).mem

/-- With an aligned word outside the local window's gap and fewer than 32 operations outstanding, ACQ and WAITW complete
their issue by sending the operation, with the parcels bound to the word, their register and c15 pending; ACQREL also
takes a place in its core's release queue, if that has fewer than eight; REL, turn-settled, whose word translates for
a store to first tier or a window, takes a place there with its value, and nothing of it is written yet. A misaligned
word raises ALIGN. (R184, R188, R195, R196, R197, R198, R199) -/
def Obligations.SyncIssue : Prop :=
  ∀ (s : State) (h : Hdr) (rd ra : Reg) (sc : Scope),
    let va := (s.me.reg ra).toNat
    let v := (s.me.reg rd).toNat
    let t := s.me.past 4
    let ps := parcelsOf s s.me.pcore s.me.ctx va
    let ds := s.me.dest rd ++ [Loc.pred 15]
    (s.passes h [.r ra, .r rd, .l (.pred 15)] → s.room → va % 8 = 0 → gapOf s s.me va 8 .read = none →
      exec (.acq h rd ra sc) s = .next (s.leave h (t.sendBound (.acq va sc) s.me.pc 4 s.steps ds ps)) ∧
      exec (.waitw h rd ra sc) s = .next (s.leave h (t.sendBound (.waitw va v sc) s.me.pc 4 s.steps ds ps))) ∧
    (s.passes h [.r ra, .r rd, .l (.pred 15)] → s.room → va % 8 = 0 → gapOf s s.me va 8 .both = none →
      (s.core s.me.pcore).relq.length < 8 →
      ∃ q, exec (.acqrel h rd ra sc) s =
          .next (s.leaveIn h q (t.sendBound (.acqrel va v sc) s.me.pc 4 s.steps ds ps)) ∧
        (q.core s.me.pcore).relq =
          (s.core s.me.pcore).relq ++ [⟨s.cur, s.me.ctx, va, 0, sc, .acqrel s.me.nextOp, s.steps, false, s.me.sup, false⟩] ∧ q.mem = s.mem) ∧
    (∀ s1 w, s.passes h [.r ra, .r rd] → va % 8 = 0 → gapOf s s.me va 8 .write = none →
      siteOf (s.entered 4) t va 8 .write = (s1, .ok w) → syncHome s1 w.pa = true →
      (s1.core s.me.pcore).relq.length < 8 → (s1.ctx s.me.ctx).watches = [] →
      ∃ q, exec (.rel h rd ra sc) s = .next (s.leaveIn h q t) ∧
        (q.core s.me.pcore).relq = (s1.core s.me.pcore).relq ++ [⟨s.cur, s.me.ctx, va, w.pa, sc, .rel v, s.steps, w.wb, s.me.sup, false⟩] ∧
        q.mem = s1.mem ∧ q.writes = s1.writes ∧ q.tags = s1.tags) ∧
    (s.passes h [.r ra, .r rd, .l (.pred 15)] → s.room → va % 8 ≠ 0 →
      exec (.acq h rd ra sc) s = .next (trapAt s s.cur s.me.pc 4 { code := 6, addr := va, acc := 1 }) ∧
      exec (.waitw h rd ra sc) s = .next (trapAt s s.cur s.me.pc 4 { code := 6, addr := va, acc := 1 }) ∧
      exec (.acqrel h rd ra sc) s = .next (trapAt s s.cur s.me.pc 4 { code := 6, addr := va, acc := 3 }) ∧
      exec (.rel h rd ra sc) s = .next (trapAt s s.cur s.me.pc 4 { code := 6, addr := va, acc := 2 }))

/-- An ACQ that reaches its first-tier home is done with the word and with c15, which is 1 exactly where the word's order
tag names a release whose scope and the acquire's do not hold each other's party. A WAITW does so where the word
differs from its value, and otherwise places a watch and goes on waiting; a polled one reads again. The release at the
head of a core's queue, whose work is done, and which no earlier write or atomic to its word or, past the hub, to its
home precedes, nor a TLOAD or TSTORE of its strand to its word, writes exactly the eight bytes of its value at its
first-tier word, with the tag of its scope and its core, and leaves the queue; an ACQREL there is done with the old
word and c15 and writes its own. While the work is not done, nothing happens; a release to a page that was
write-blocked at its issue translates again, and waits in the queue while the page still is. (R194, R195, R196, R199,
R181, R185, R189, R193, R197, R198) -/
def Obligations.AcquiresAndReleases : Prop :=
  ((∀ (s s1 : State) (u : Nat) (o : Op) (va : Nat) (sc : Scope) (w : Site), s.sentOp u o →
    (s.strand u).preempted = false → attempt s u o va 8 .read false = (s1, .go w) → w.loc = false →
    homeOf s1 w.pa = .first → isPoisoned s1 w.pa 8 = false → (s1.ctx (s1.strand u).ctx).watches = [] →
    s1.op u o.id = some o → o.dests.length = 2 →
    let v := readLE s1 w.pa 8
    let miss := w64 (b2n (tagMiss (tagOf s1 w.pa) (s1.strand u).pcore sc))
    (o.kind = .acq va sc → ∃ t, exec (.acqAtHome u o.id) s = .next t ∧ t.doneOp u o [w64 v, miss] ∧ t.mem = s1.mem) ∧
    (∀ e, o.kind = .waitw va e sc → v ≠ e →
      ∃ t, exec (.waitwRegister u o.id) s = .next t ∧ t.doneOp u o [w64 v, miss] ∧ t.mem = s1.mem) ∧
    (∀ e, o.kind = .waitw va e sc → v = e → (s1.watches.any fun x => x.uid == u && x.opId == o.id) = false →
      ∃ t p, exec (.waitwRegister u o.id) s = .next t ∧ t.op u o.id = some o ∧
        t.watches = s1.watches ++ [⟨u, o.id, w.pa, e, p⟩] ∧ t.mem = s1.mem)) ∧
  (∀ (s : State) (u : Nat) (o : Op) (va e : Nat) (sc : Scope) (x : Watch), s.sentOp u o → o.kind = .waitw va e sc →
    (s.strand u).preempted = false →
    (s.watches.find? fun w => w.uid == u && w.opId == o.id && !w.placed) = some x → homeOf s x.pa = .first →
    isPoisoned s x.pa 8 = false → o.dests.length = 2 → readLE s x.pa 8 ≠ x.e →
    ∃ t, exec (.watchPoll u o.id) s = .next t ∧ x ∉ t.watches ∧
      t.doneOp u o [w64 (readLE s x.pa 8), w64 (b2n (tagMiss (tagOf s x.pa) (s.strand u).pcore sc))])) ∧
  (∀ (s : State) (core : Nat) (r : Rel) (rs : List Rel), (s.core core).relq = r :: rs →
    (relReady s core r = false → (∀ o, s.op r.uid o.id = some o → o.phase = .sent) →
      (∀ id, r.kind = .acqrel id → (s.op r.uid id).isSome = true) →
      exec (.releasePerform core) s = .next s ∧ exec (.acqrelExchange core) s = .next s) ∧
    (∀ v, r.kind = .rel v → relReady s core r = true →
      let s0 := if r.sc.code < 2 then s else passHub s core
      behindWrite s0 core r.pa r.seq = false → behindAtomic s0 core r.pa r.seq = false → r.wb = false →
      treeBehind s0 r.uid r.pa 8 r.seq = false →
      homeOf s r.pa = .first → localOff s r.ctx r.va = none →
      ∃ t, exec (.releasePerform core) s = .next t ∧ wrote s.mem t.mem r.pa (leBytes 8 v) ∧
        tagOf t r.pa = mkTag r.sc core ∧ (t.core core).relq = rs) ∧
    (∀ v x, r.kind = .rel v → relReady s core r = true → r.wb = true →
      (xlate (if r.sc.code < 2 then s else passHub s core) core r.ctx r.va .write r.sup).2 = .ok x → x.wb = true →
      ∃ t, exec (.releasePerform core) s = .next t ∧ t.mem = s.mem ∧ t.tags = s.tags ∧ (t.core core).relq = r :: rs) ∧
    (∀ id o va v sc, r.kind = .acqrel id → s.op r.uid id = some o → o.id = id → o.phase = .sent →
      o.kind = .acqrel va v sc → o.dests.length = 2 → relReady s core r = true →
      ∀ s1 w bs, bothFor (if r.sc.code < 2 then popRel s core else passHub (popRel s core) core) r.uid o va 8 false =
          (s1, .ok (w, bs)) → w.loc = false → homeOf s1 w.pa = .first → s1.watches = [] → s1.op r.uid id = some o →
        ∃ t, exec (.acqrelExchange core) s = .next t ∧ wrote s1.mem t.mem w.pa (leBytes 8 v) ∧
          tagOf t w.pa = mkTag sc (s1.strand r.uid).pcore ∧
          t.doneOp r.uid o [w64 (leNat bs), w64 (b2n (tagMiss (tagOf s1 w.pa) (s1.strand r.uid).pcore sc))]))

/-- BIND writes to rd the index of an equal binding or of the lowest free entry, which then holds the binding, -1 where
none is free, -2 where the length is 0 or the range passes 2^56, and raises ALIGN on a misaligned word; UNBIND frees
the entry and writes 0, or writes -1. A change reaches another core in the order of its sender. FENCE completes where
every named path is quiet and, naming S or K, the release work of its scope is done; from CLUSTER on the core's writes
have then passed the hub. A probe echoes where the core has nothing on its way there; a scope miss widens the tag of a
word that its core released last. (R186, R187, R188, R193, R194, R202) -/
def Obligations.BindingsAndFences : Prop :=
  (∀ (s : State) (h : Hdr) (rd ra rb : Reg), s.passes h [.r rd, .r ra, .r rb] →
    let b : Binding := ⟨(s.me.reg ra).toNat, (s.me.reg rb).toNat, (s.me.reg rd).toNat⟩
    let tab := tget [] (s.core s.me.pcore).binds s.me.ctx
    let out (v : Word) := Host.Outcome.next (s.leave h ((s.me.past 4).setReg rd v))
    (b.word % 8 ≠ 0 → exec (.bind h rd ra rb) s = .next (trapAt s s.cur s.me.pc 4 { code := 6, addr := b.word })) ∧
    (b.word % 8 = 0 → b.len = 0 ∨ 2 ^ 56 < b.base + b.len → exec (.bind h rd ra rb) s = out (BitVec.ofInt 64 (-2))) ∧
    (b.word % 8 = 0 → b.len ≠ 0 → b.base + b.len ≤ 2 ^ 56 →
      (∀ e, (tab.find? fun x => x.2 == b) = some e → exec (.bind h rd ra rb) s = out (w64 e.1)) ∧
      ((∀ x ∈ tab, x.2 ≠ b) → (∀ i < 64, (tget? tab i).isSome = true) →
        exec (.bind h rd ra rb) s = out (BitVec.ofInt 64 (-1))) ∧
      (∀ i < 64, (∀ x ∈ tab, x.2 ≠ b) → tget? tab i = none → (∀ j < i, (tget? tab j).isSome = true) →
        ∃ q, exec (.bind h rd ra rb) s = .next (s.leaveIn h q ((s.me.past 4).setReg rd (w64 i))) ∧
          tget? (tget [] (q.core s.me.pcore).binds s.me.ctx) i = some b ∧ q.mem = s.mem))) ∧
  (∀ (s : State) (h : Hdr) (rd : Reg), s.passes h [.r rd] →
    let i := (s.me.reg rd).toNat
    let on := i < 64 ∧ (tget? (tget [] (s.core s.me.pcore).binds s.me.ctx) i).isSome = true
    (on → ∃ q, exec (.unbind h rd) s = .next (s.leaveIn h q ((s.me.past 4).setReg rd 0)) ∧
      tget? (tget [] (q.core s.me.pcore).binds s.me.ctx) i = none ∧ q.mem = s.mem) ∧
    (¬on → exec (.unbind h rd) s = .next (s.leave h ((s.me.past 4).setReg rd (BitVec.ofInt 64 (-1)))))) ∧
  (∀ (s : State) (h : Hdr) (paths : BitVec 7) (sc : Scope), s.passes h [] →
    (∀ p ∈ [Path.s, .v, .k, .x, .g, .n, .p], paths.getLsbD p.bit = true → pathQuiet (s.entered 4) s.cur p = true) →
    (paths.getLsbD Path.s.bit = true ∨ paths.getLsbD Path.k.bit = true → releaseWorkDone s s.me.pcore sc = true) →
    ∃ q, exec (.fence h paths sc) s = .next (closeOf h s.cur q) ∧ q.strand s.cur = s.me.past 4 ∧ q.mem = s.mem ∧
      q.writes = if (paths.getLsbD Path.s.bit = true ∨ paths.getLsbD Path.k.bit = true) ∧ 2 ≤ sc.code
        then (passHub s s.me.pcore).writes else s.writes) ∧
  (∀ (s : State) (src dst : Nat) (b : BindMsg) (v : Binding), src ≠ dst →
    ((s.core src).bindOwed.find? fun b => b.cores.contains dst) = some b → b.b = some v →
    ∃ t, exec (.bindPropagate src dst) s = .next t ∧
      tget? (tget [] (t.core dst).binds b.ctx) b.idx = some v ∧ ∀ x ∈ (t.core src).bindOwed, x.cores ≠ []) ∧
  (∀ (s : State) (core i : Nat) (port : Bool), (∀ w ∈ s.writes, w.core = core → inGroup s port i w.pa = false) →
    (∀ t ∈ s.strands, t.2.pcore = core → ∀ o ∈ t.2.ops, o.phase = .sent →
      (∀ a va n b e, o.kind ≠ .atomic a va n b e) ∧ ∀ va g f, o.kind ≠ .agadd va g f) →
    bit (if port then (s.core core).touchP else (s.core core).touchS) i = true →
    ∃ t, exec (.probeEcho core port i) s = .next t ∧ t.mem = s.mem ∧
      bit (if port then (t.core core).echoP else (t.core core).echoS) i = true) ∧
  (∀ (s : State) (core : Nat) (m : ScopeMiss) (ms : List ScopeMiss), (s.core core).misses = m :: ms →
    s.off core m.ctx = false → fld (tagOf s m.pa) 3 10 = core → fld (tagOf s m.pa) 13 3 < m.sc.code →
    releaseWorkDone s core m.sc = true → (3 ≤ m.sc.code → windowAtomic s core = false) →
    ∃ t, exec (.scopeMissHandle core) s = .next t ∧ tagOf t m.pa = mkTag m.sc core ∧ (t.core core).misses = ms ∧
      t.mem = s.mem)

/-- A walk that finds a leaf for a wanted address fills the core's translation cache with it. A flush of 16 gathered
accesses, or of those that a cache has sent, adds them to the leaf's counter, saturating at 4,095, and clears them. A
hot-page record leaves its queue. A retranslation drops every write-blocked entry of the page. A scrub counts what it
corrects and marks what it cannot. (R159, R162, R174, R176, R177, R178, R181) -/
def Obligations.TranslationAgents : Prop :=
  (∀ (s : State) (core ctx va : Nat) (l : Leaf), walkWanted s core ctx va = true → tlbHit s (tlbCore core) ctx va = none →
    tlbHit s (tlbCluster core) ctx va = none → walk s ctx va = .ok l → l.va ≤ va → va < l.va + l.size →
    ∃ t, exec (.pageWalk core ctx va) s = .next t ∧ tlbHit t (tlbCore core) ctx va = some l) ∧
  (∀ (s : State) (who ctx va : Nat) (e : TlbEntry),
    (s.tlb.find? fun e => e.who == who && e.ctx == ctx && decide (e.va ≤ va) && decide (va < e.va + e.size)) = some e →
    (s.counts.find? fun q => q.1 == who && q.2.1 == ctx && q.2.2.1 == va) = none → 16 ≤ e.cnt →
    ∃ t, exec (.accessCountFlush who ctx va) s = .next t ∧
      fld (readLE t (e.epa + 8) 8) 52 12 = min 4095 (fld (readLE s (e.epa + 8) 8) 52 12 + e.cnt) ∧
      e ∉ t.tlb) ∧
  (∀ (s : State) (who ctx va epa n : Nat),
    (s.counts.find? fun q => q.1 == who && q.2.1 == ctx && q.2.2.1 == va) = some (who, ctx, va, epa, n) →
    ∃ t, exec (.accessCountFlush who ctx va) s = .next t ∧ t.counts = s.counts.erase (who, ctx, va, epa, n) ∧
      fld (readLE t (epa + 8) 8) 52 12 = min 4095 (fld (readLE s (epa + 8) 8) 52 12 + n)) ∧
  (∀ (s : State) (i : Nat) (h : Nat × Nat × Nat), s.hot[i]? = some h → (s.ctx h.1).nqn = 0 →
    exec (.hotPageRecord i) s = .next (homeWrite { s with hot := ldel s.hot i } (h.2.1 + 8)
      (leBytes 8 (setFld (readLE s (h.2.1 + 8) 8) 38 1 0)))) ∧
  (∀ (s : State) (i : Nat) (h : Nat × Nat × Nat), s.hot[i]? = some h →
    let x := s.ctx h.1
    let wi := readLE s (x.nqb + 16 * x.nqn) 8 % 2 ^ 32
    let ri := readLE s (x.nqb + 16 * x.nqn + 8) 8 % 2 ^ 32
    x.nqn ≠ 0 → (wi + 2 ^ 32 - ri) % 2 ^ 32 < x.nqn →
    ∃ t, exec (.hotPageRecord i) s = .next t ∧ t.hot = ldel s.hot i ∧
      readLE t (x.nqb + 16 * (wi % x.nqn)) 8 = h.2.1 % 2 ^ 64 ∧ readLE t (x.nqb + 16 * (wi % x.nqn) + 8) 2 = h.2.2 % 2 ^ 16) ∧
  (∀ (s : State) (who ctx va : Nat), ∃ t, exec (.wbRetranslate who ctx va) s = .next t ∧
    ∀ e ∈ t.tlb, e.who = who → e.ctx = ctx → e.va ≤ va → va < e.va + e.size → bit e.w0 15 = false) ∧
  (∀ (s : State) (slice fixed : Nat) (bad : List Nat), slice < 1024 →
    ∃ t, exec (.sliceScrub slice fixed bad) s = .next t ∧ tget 0 t.ecc slice = tget 0 s.ecc slice + fixed ∧
      (∀ a ∈ bad, a < 2 ^ 39 → homeId s a = slice → isPoisoned t a 1 = true) ∧ t.mem = s.mem)

/-- A precise cause whose vector word reads nonzero, outside a handler, in a context that has a table, writes TPC, TCAUSE,
TADDR, TRES, CPROGB and CPROGM, saves the privilege in PPRIV, sets INTRAP, raises the privilege and goes to the
vector; registers, pending bits, memory and every other strand are unchanged. Inside a handler, or with no vector, it
ends the strand's kernel with the code in CAUSE and the group in GFAIL. TRAP raises TRAP_INSN with SUB = n and resumes
after itself. (R482, R486) -/
def Obligations.TrapsTaken : Prop :=
  (∀ (s : State) (u pc len : Nat) (c : Cause), c.code < 34 → c.acc < 4 → c.iter = 0 → c.bidx = 0 →
    (∀ v, (s.strand u).trap.intrap = false → vector s (s.strand u) c.code = some v → v ≠ 0 →
      let t := trapAt s u pc len c
      let q := t.strand u
      q.trap.tpc = w64 pc ∧ q.trap.taddr = w64 c.addr ∧ q.trap.tres = w64 (if c.code = 14 then pc + len else pc) ∧
      q.trap.tcause = w64 (c.code + c.sub % 256 * 2 ^ 8 + c.acc * 2 ^ 18 + (if c.fetch then 2 ^ 20 else 0)) ∧
      q.trap.intrap = true ∧ q.trap.ppriv = (s.strand u).sup ∧ q.trap.tlen = len ∧ q.cprogb = 0 ∧ q.cprogm = 0 ∧
      q.sup = true ∧ q.pc = v ∧ q.st = .ready ∧ q.pend = (s.strand u).pend ∧ q.ops = (s.strand u).ops ∧
      (∀ r, q.reg r = (s.strand u).reg r) ∧ q.pword = (s.strand u).pword ∧ t.mem = s.mem ∧
      ∀ w, w ≠ u → t.strand w = s.strand w) ∧
    ((s.strand u).trap.intrap = true ∨ vector s (s.strand u) c.code = none ∨ vector s (s.strand u) c.code = some 0 →
      let k := (trapAt s u pc len c).kern (s.strand u).kern
      k.st = .aborted ∧ k.cause = c.code ∧ k.gfail = (s.strand u).grp)) ∧
  (∀ (s : State) (t : Strand) (code : Nat), (s.ctx t.ctx).tvecSet = false → vector s t code = none) ∧
  (∀ (s : State) (h : Hdr) (n : BitVec 8), s.passes h [] →
    exec (.trap h n) s = .next (trapAt s s.cur s.me.pc 4 { code := 14, sub := n.toNat }))

/-- NOP with C = 1, when every operation has returned and some have faulted, traps for the earliest issued: TPC and TADDR
name it, TCAUSE has CLOSE and HELD, TRES is the next instruction, and the operation is held, its destinations still
pending and unwritten. (R100, R102, R481) -/
def Obligations.CloseFaults : Prop :=
  ∀ (s : State) (h : Hdr) (o : Op) (v : Nat), s.passes h [] → h.c = true → s.me.close = none → s.me.rerunWaits = false →
    (∀ x ∈ s.me.ops, ¬x.outstandingFor) → firstFault s.me = some o → o.holds = true → s.me.trap.intrap = false →
    vector s s.me o.cause.code = some v → v ≠ 0 → o.cause.code < 34 → o.cause.acc < 4 →
    ∃ t, exec (.nop h) s = .next t ∧
      let q := t.strand s.cur
      q.pc = v ∧ q.sup = true ∧ q.trap.intrap = true ∧ q.trap.ppriv = s.me.sup ∧ q.trap.tpc = w64 o.tpc ∧
      q.trap.taddr = w64 o.cause.addr ∧ q.trap.tres = w64 ((s.me.pc + 4) % 2 ^ 64) ∧ q.trap.held = o.id ∧
      q.trap.tcause.toNat % 2 ^ 8 = o.cause.code ∧ q.trap.tcause.getLsbD 16 = true ∧ q.trap.tcause.getLsbD 17 = true ∧
      q.pend = s.me.pend ∧ q.sregs = s.me.sregs ∧ q.phys = s.me.phys ∧
      (∃ x ∈ q.ops, x.id = o.id ∧ x.phase = .held) ∧ t.mem = s.mem

/-- ERET and ERET.AB raise ILLEGAL where INTRAP is 0. Otherwise they restore the privilege and clear INTRAP. After a
precise cause ERET goes to TRES and ERET.AB past the faulting instruction. After a cause with an operation held (of
its own, not of a repetition), ERET has it continue (said for every kind but a REP, a handle and a tree operation,
whose units have their own statements) and ERET.AB ends it, each of its destinations written with zero, and the strand
re-enters its close to resume at TRES; with nothing held the close resumes. An ERET with C = 1 parks in that close,
not in one of its own. Guarded off they change nothing. (R102, R485) -/
def Obligations.ReturnFromTrap : Prop :=
  ∀ (s : State) (h : Hdr),
    (s.me.refPending (.p h.pred) = false → s.me.predBit h.pred = h.pn →
      exec (.eret h) s = .next (s.leave h (s.me.past 4)) ∧ exec (.eretAb h) s = .next (s.leave h (s.me.past 4))) ∧
    (s.passes h [] →
      let r := s.me.trap
      let t := { s.me.past 4 with sup := r.ppriv, trap := { r with intrap := false } }
      (r.intrap = false → exec (.eret h) s = .next (trapAt s s.cur s.me.pc 4 { code := 1 }) ∧
        exec (.eretAb h) s = .next (trapAt s s.cur s.me.pc 4 { code := 1 })) ∧
      (r.intrap = true → r.tcause.getLsbD 17 = false → r.tcause.getLsbD 16 = false →
        (∃ q, exec (.eret h) s = .next (s.leave h q) ∧ q = { t with pc := r.tres.toNat, noWatch := q.noWatch, noBreak := q.noBreak }) ∧
        exec (.eretAb h) s = .next (s.leave h { t with pc := (r.tpc.toNat + r.tlen) % 2 ^ 64 })) ∧
      (r.intrap = true → r.tcause.getLsbD 17 = false → r.tcause.getLsbD 16 = true →
        exec (.eret h) s = .next (reenterClose (s.setStrand s.cur t) s.cur r) ∧
        exec (.eretAb h) s = .next (reenterClose (s.setStrand s.cur t) s.cur r)) ∧
      (∀ o, s.me.rerunWaits = false → r.intrap = true → r.tcause.getLsbD 17 = true → s.op s.cur r.held = some o →
        o.phase = .held → o.child = none →
        (o.kind ≠ .rep → o.kind.isTree = false → (∀ op k va b, o.kind ≠ .handle op k va b) → ∃ q, exec (.eret h) s = .next q ∧ (q.strand s.cur).sup = r.ppriv ∧ (q.strand s.cur).trap.intrap = false ∧
          (∃ x, q.op s.cur r.held = some x ∧ x.phase = .sent ∧ x.kind = o.kind) ∧
          (∃ e, (q.strand s.cur).close = some (r.tres.toNat, e)) ∧ ∃ w, (q.strand s.cur).st = .parked w) ∧
        (∃ q, exec (.eretAb h) s = .next q ∧
          ((∀ x ∈ s.me.ops, x.id = r.held ∨ x.phase = .late) →
            q.op s.cur r.held = none ∧ (∀ l ∈ o.dests, (q.strand s.cur).getLoc l = 0) ∧ (q.strand s.cur).sup = r.ppriv ∧
            (q.strand s.cur).st = .ready ∧ (q.strand s.cur).pc = r.tres.toNat ∧ (q.strand s.cur).pend = []))))

/-- CSRR of a register that its privilege may read completes with the register's value (CLOSURE on PWORD while a predicate
bit is pending) and changes nothing else; the values of the strand's, the trap and the context registers are those of
their layouts. A CSR instruction whose number names no register raises ILLEGAL (CLOSURE where its register is
pending); one whose access column shows none at its privilege, and RLOG and SLOTW at user privilege, raise PRIV; a
CSRS or CSRC of SHOOT or SLICE raises ILLEGAL; SHOOT at user privilege raises PRIV. (R487, R490, R105, R113, R92,
R180, R260, R261) -/
def Obligations.CsrReadsAndPrivilege : Prop :=
  ((∀ (s : State) (h : Hdr) (rd : Reg) (n : BitVec 8) (a : CsrAcc), csrAcc n.toNat s.me.sup = some a → a ≠ .none →
    s.passes h [.r rd] → (n.toNat = 0 → s.me.predPending = false) →
    exec (.csrr h rd n) s = .next (s.leave h ((s.me.past 4).setReg rd (w64 (csrRead s s.me n.toNat))))) ∧
  (∀ (s : State) (t : Strand), csrRead s t 0 = t.pword / 2 * 2 % 65536 + 1 ∧ csrRead s t 1 = t.wsp.toNat ∧ csrRead s t 2 = t.wres + 256 * t.cwp ∧
    csrRead s t 5 = t.dseed.toNat ∧ csrRead s t 8 = (s.ctx t.ctx).lwin ∧ csrRead s t 9 = (s.ctx t.ctx).bwin ∧
    csrRead s t 0x10 = t.trap.tpc.toNat ∧ csrRead s t 0x11 = t.trap.tcause.toNat ∧ csrRead s t 0x12 = t.trap.taddr.toNat ∧
    csrRead s t 0x13 = t.trap.tres.toNat ∧ csrRead s t 0x15 = (s.ctx t.ctx).tvec ∧ csrRead s t 0x20 = (s.ctx t.ctx).ptroot ∧
    csrRead s t 0x25 = 0 ∧ csrRead s t 0x31 < 16)) ∧
  (∀ (s : State) (h : Hdr), s.passes h [] →
    (∀ (rd : Reg) (n : BitVec 8), ∀ i ∈ [Instr.csrr h rd n, .csrw h rd n, .csrs h rd n, .csrc h rd n],
      (csrAcc n.toNat s.me.sup = none →
        exec i s = .next (trapAt s s.cur s.me.pc 4 { code := if s.me.refPending (.r rd) then 2 else 1 })) ∧
      (csrAcc n.toNat s.me.sup = some .none → exec i s = .next (trapAt s s.cur s.me.pc 4 { code := 3 }))) ∧
    (∀ rd : Reg, s.me.refPending (.r rd) = false → s.me.sup = true →
      ∀ i ∈ [Instr.csrs h rd 0x25, .csrc h rd 0x25, .csrs h rd 0x0C, .csrc h rd 0x0C],
        exec i s = .next (trapAt s s.cur s.me.pc 4 { code := 1 })) ∧
    (s.me.sup = false → ∀ rd ra : Reg, ∀ i ∈ [Instr.rlog h rd ra, .slotw h rd ra, .shoot h rd],
      exec i s = .next (trapAt s s.cur s.me.pc 4 { code := 3 })))

/-- CSRW, CSRS and CSRC of a register that its privilege may write (SHOOT and SLICE have their own) complete: the register
then reads as the written value, the bits set, or the bits cleared, cut to its fields; every other system register,
every general register and every byte of memory is unchanged. Where the privilege may only read, the write is accepted
and changes nothing (one of BWIN at user privilege too: the model's choice, log entry 96). (R487, R490, R105, R113,
R155, R175, R217, R282, R342, R357, R391, R477) -/
def Obligations.CsrWrites : Prop :=
  ∀ (s : State) (h : Hdr) (rd : Reg) (n : BitVec 8), s.passes h [.r rd] → (n.toNat = 0 → s.me.predPending = false) →
    n.toNat ≠ 0x25 → n.toNat ≠ 0x0C →
    let v := (s.me.reg rd).toNat
    let old := csrRead s s.me n.toNat
    (csrAcc n.toNat s.me.sup = some .r →
      ∀ i ∈ [Instr.csrw h rd n, .csrs h rd n, .csrc h rd n], exec i s = .next (s.leave h (s.me.past 4))) ∧
    (csrAcc n.toNat s.me.sup = some .rw →
      ∀ iv ∈ [(Instr.csrw h rd n, v), (.csrs h rd n, old ||| v), (.csrc h rd n, (w64 old &&& ~~~(s.me.reg rd)).toNat)],
        ∃ q, exec iv.1 s = .next (closeOf h s.cur q) ∧
          csrRead q (q.strand s.cur) n.toNat = csrField n.toNat old iv.2 ∧
          (∀ m, m ≠ n.toNat → csrRead q (q.strand s.cur) m = csrRead s s.me m) ∧
          (∀ r, (q.strand s.cur).reg r = s.me.reg r) ∧ q.mem = s.mem ∧ ∀ w, w ≠ s.cur → q.strand w = s.strand w)

/-- WCALL and SLEEP are sent, WCALL with rd pending; a SLEEP whose time has come returns, and a WCALL of a service that is
not provided returns -1. SHOOT drops every cached translation of the context in its range and is sent, with the ranges
of the leaves that it has dropped; SLICE with bit 63 clear ends the slice, and otherwise, in a restartable kernel with
no older register resident, starts slice j and writes the strand's record to its checkpoint. (R180, R260, R487, R488,
R489, R497) -/
def Obligations.SystemCalls : Prop :=
  (∀ (s : State) (h : Hdr) (rd : Reg) (n : BitVec 8), s.passes h [.r rd] → s.room →
    exec (.wcall h rd n) s = .next (s.leave h
      ((s.me.past 4).send (.wcall n.toNat (s.me.reg rd).toNat) .s s.me.pc 4 s.steps (s.me.dest rd))) ∧
    exec (.sleep h rd) s = .next (s.leave h ((s.me.past 4).send (.sleep (s.me.reg rd).toNat) .w s.me.pc 4 s.steps []))) ∧
  (∀ (s : State) (u : Nat) (o : Op), s.sentOp u o → (s.strand u).inRotation → regHeld s (s.strand u) = false →
    (s.strand u).close = none → frozenNow s (s.strand u).pcore = false →
    (∀ c, o.kind = .sleep c → c ≤ strandCycle s (s.strand u) →
      ∃ t, exec (.pendingReturn u o.id) s = .next t ∧ t.op u o.id = none) ∧
    (∀ n a l, o.kind = .wcall n a → (n = 0 ∨ 5 ≤ n) → o.dests = [l] →
      ∃ t, exec (.pendingReturn u o.id) s = .next t ∧ t.op u o.id = none ∧
        (t.strand u).getLoc l = ((s.strand u).setLoc l (BitVec.ofInt 64 (-1))).getLoc l)) ∧
  (∀ (s : State) (h : Hdr) (rd : Reg), s.passes h [.r rd] → s.me.sup = true → s.room →
    let v := (s.me.reg rd).toNat
    (v / 2 ^ 56 = 0 ∧ v / 16 % 2 ^ 12 = 0 ∧ v % 4 = 0 →
      let meets (e : TlbEntry) : Prop := e.ctx = s.me.ctx ∧ e.va < (shootRange v).1 + (shootRange v).2 ∧ (shootRange v).1 < e.va + e.size
      ∃ q ls, exec (.shoot h rd) s = .next (s.leaveIn h q ((s.me.past 4).sendBound (.shoot v) s.me.pc 4 s.steps [] ls)) ∧
        (∀ e ∈ q.tlb, ¬meets e) ∧ ∀ l, l ∈ ls ↔ ∃ e ∈ s.tlb, meets e ∧ l = (e.va, e.size)) ∧
    (¬(v / 2 ^ 56 = 0 ∧ v / 16 % 2 ^ 12 = 0 ∧ v % 4 = 0) →
      exec (.shoot h rd) s = .next (trapAt s s.cur s.me.pc 4 { code := 1 }))) ∧
  (∀ (s : State) (h : Hdr) (rd : Reg), s.passes h [.r rd] →
    let v := s.me.reg rd
    (v.getLsbD 63 = false → exec (.sliceWrite h rd) s = .next (s.leave h { s.me.past 4 with slice := none })) ∧
    (v.getLsbD 63 = true → s.me.engagedNow = false → (s.kern s.me.kern).restart = true →
      v.toNat % 2 ^ 32 < (s.kern s.me.kern).slices → s.me.wres = 0 → s.me.wsp.toNat % 8 = 0 → s.watches = [] →
      (s.ctx s.me.ctx).watches = [] → (∀ w ∈ s.writes, w.uid ≠ s.cur) →
      ∃ q, exec (.sliceWrite h rd) s = .next (closeOf h s.cur q) ∧
        q.strand s.cur = { s.me.past 4 with slice := some (v.toNat % 2 ^ 32) } ∧
        wrote s.mem q.mem (checkpointOf s s.me) (recordBytes s.me ((s.me.pc + 4) % 2 ^ 64) s.me.wsp.toNat false)))

/-- CONTW raises CLOSURE while anything is pending and ALIGN on a misaligned record. Otherwise, the vector queue idle and
every write translated to a page that is not write-blocked, it closes the handles, spills the resident older registers
as WSPILL would, oldest first at WSP, and stores its record, which says WSP after them; the strand is SAVED in its
slot, its claim released, its handles closed, its event and collective lines free. Where a handle's record has to
wait, the turn is wasted. A record in the own local window is written at once. A handle whose record cannot be reached
closes with its record as it stands: the model's choice (log entry 29). CONTR raises ALIGN on a misaligned record, and
is otherwise sent with rd pending. Performed, its record read: it returns 1 where no strand of its group is saved at
the slot, and raises PRIV on a record that is no continuation record. Otherwise, its earlier stores, atomics and
releases performed, it restores the strand, READY (STOPPED where a precise stop waits for it) with what the record
holds, s1-s7 and w10-w23 zero or, with FULL = 1, from the frame below WSP, no older register, nothing pending, no
claim and no handle; rd is 0. (R108, R117, R118, R304, R445, R446) -/
def Obligations.Continuations : Prop :=
  (∀ (s : State) (h : Hdr) (rd : Reg), s.passes h (.r rd :: (List.range 10).map fun i => .r (wreg i)) →
    let a := (s.me.reg rd).toNat
    let wsp := s.me.wsp.toNat
    let rec' := recordBytes s.me ((s.me.pc + 4) % 2 ^ 64) (s.me.wsp + w64 (8 * s.me.wres)).toNat false
    (s.me.engagedNow = true → exec (.contw h rd) s = .next (trapAt s s.cur s.me.pc 4 { code := 2 })) ∧
    (s.me.engagedNow = false → a % 128 ≠ 0 →
      exec (.contw h rd) s = .next (trapAt s s.cur s.me.pc 4 { code := 6, addr := a, acc := 2 })) ∧
    (s.me.engagedNow = false → a % 128 = 0 → s.me.wres ≠ 0 → wsp % 8 ≠ 0 →
      exec (.contw h rd) s = .next (trapAt s s.cur s.me.pc 4 { code := 6, addr := wsp, acc := 2 })) ∧
    (∀ s1 ws q, s.me.engagedNow = false → a % 128 = 0 → s.me.wres = 0 ∨ wsp % 8 = 0 → s.me.vq = [] →
      sitesOf (s.entered 4) (s.me.past 4) .write (wordsAt a 16 ++ wordsAt wsp s.me.wres) = (s1, .ok ws) →
      (∀ w ∈ ws, w.loc = false ∧ w.wb = false) → (s1.ctx s.me.ctx).watches = [] → closeHandles s1 s.cur = (q, true) →
      ∃ t, exec (.contw h rd) s = .next t ∧ (t.strand s.cur).st = .saved (.contw a) none false ∧
        (t.strand s.cur).claims = [] ∧ (t.strand s.cur).handles = [] ∧ (t.strand s.cur).wres = 0 ∧
        (t.strand s.cur).glines = [] ∧ (t.strand s.cur).clines = [] ∧ t.mem = q.mem ∧
        t.writes = q.writes ++ (((ws.drop 16).zip (residentWords s.me)).zipIdx.map fun p => ⟨s.cur, s.me.pcore, s.me.ctx, .s,
            wsp + 8 * p.2, p.1.1.pa, p.1.2, none, q.steps, false, none, none, false⟩) ++
          ((ws.take 16).zipIdx.map fun w => ⟨s.cur, s.me.pcore, s.me.ctx, .s, a + 8 * w.2, w.1.pa,
            (rec'.drop (8 * w.2)).take 8, none, q.steps, false, none, none, false⟩)) ∧
    (∀ s1 ws, s.me.engagedNow = false → a % 128 = 0 → s.me.wres = 0 ∨ wsp % 8 = 0 → s.me.vq = [] →
      sitesOf (s.entered 4) (s.me.past 4) .write (wordsAt a 16 ++ wordsAt wsp s.me.wres) = (s1, .ok ws) →
      (∀ w ∈ ws, w.loc = false ∧ w.wb = false) → (s1.ctx s.me.ctx).watches = [] → (closeHandles s1 s.cur).2 = false →
      ∃ t, exec (.contw h rd) s = .next t ∧ (t.strand s.cur).pc = s.me.pc ∧ ∃ w, (t.strand s.cur).st = .parked w) ∧
    (∀ o, s.me.engagedNow = false → a % 128 = 0 → s.me.wres = 0 → s.me.vq = [] → s.me.handles = [] →
      localOff s s.me.ctx a = some o → o + 128 ≤ spadSize s s.me.lcore s.me.ctx → o + 128 ≤ 2 ^ 19 →
      (s.ctx s.me.ctx).watches = [] → s.off s.me.lcore s.me.ctx = false →
      (∀ i < 16, localBehind s s.cur (a + 8 * i) 8 (spadPA s s.me.lcore s.me.ctx (o + 8 * i)) = false) →
      ∃ t, exec (.contw h rd) s = .next t ∧ (t.strand s.cur).st = .saved (.contw a) none false ∧ (t.strand s.cur).claims = [] ∧
        wrote s.mem t.mem (spadPA s s.me.lcore s.me.ctx o) rec')) ∧
  ((∀ (s : State) (h : Hdr) (rd : Reg) (slot : Fin 16), s.passes h [.r rd] → s.room →
    let a := (s.me.reg rd).toNat
    (a % 128 = 0 → exec (.contr h rd slot) s = .next (s.leave h
      ((s.me.past 4).send (.contr a slot.val) .s s.me.pc 4 s.steps (s.me.dest rd)))) ∧
    (a % 128 ≠ 0 → exec (.contr h rd slot) s =
      .next (trapAt s s.cur s.me.pc 4 { code := 6, addr := a, acc := 1 }))) ∧
  (∀ (s s1 s2 : State) (u va slot : Nat) (o : Op) (b0 b1 : List Byte), s.sentOp u o → o.kind = .contr va slot →
    (s.strand u).inRotation → regHeld s (s.strand u) = false → frozenNow s (s.strand u).pcore = false →
    readFor s u o va 64 false = (s1, .ok b0) → readFor s1 u o (va + 64) 64 false = (s2, .ok b1) → s2.op u o.id = some o →
    (s2.strand u).close = none →
    let b := b0 ++ b1
    let back (t : State) (v : Word) : Prop := t.op u o.id = none ∧
      ∀ l, o.dests = [l] → (t.strand u).getLoc l = ((s2.strand u).setLoc l v).getLoc l
    let anew (q : Strand) : Prop := q.st = .ready ∧ q.glines = [] ∧ q.clines = [] ∧ q.pc = recLE b 0 8 ∧ q.dseed = w64 (recLE b 16 8) ∧
      q.pword = recLE b 24 2 / 2 * 2 ∧ q.wres = 0 ∧ q.pend = [] ∧ q.claims = [] ∧ q.handles = [] ∧ q.ptrs = [] ∧ q.mboxes = [] ∧
      ∀ i < 10, q.reg (wreg i) = w64 (recLE b (32 + 8 * i) 8)
    (contwAt s2 (s.strand u) slot = none → ∃ t, exec (.pendingReturn u o.id) s = .next t ∧ back t 1) ∧
    (∀ m, contwAt s2 (s.strand u) slot = some m → m ≠ u →
      (recordOk b = false → o.child = none →
        ∃ t, exec (.pendingReturn u o.id) s = .next t ∧ t.op u o.id = some { o with phase := .faulted, cause := { code := 3 } } ∧
          t.strand m = s2.strand m) ∧
      (recordOk b = true → (s2.strand m).stopWaits = true → (∀ w ∈ s2.writes, w.uid ≠ u) → atomicsBefore s2 u o.seq = false →
        (∀ c ∈ s2.cores, ∀ r ∈ c.2.relq, r.uid ≠ u) → recLE b 26 2 % 2 = 0 →
        ∃ t was, exec (.pendingReturn u o.id) s = .next t ∧ back t 0 ∧ (t.strand m).st = .stopped was ∧ (t.strand m).pc = recLE b 0 8) ∧
      (recordOk b = true → (s2.strand m).stopWaits = false → (∀ w ∈ s2.writes, w.uid ≠ u) → atomicsBefore s2 u o.seq = false →
        (∀ c ∈ s2.cores, ∀ r ∈ c.2.relq, r.uid ≠ u) →
        (recLE b 26 2 % 2 = 0 → ∃ t, exec (.pendingReturn u o.id) s = .next t ∧ back t 0 ∧ anew (t.strand m) ∧
          (t.strand m).wsp = w64 (recLE b 8 8) ∧ (∀ i, 10 ≤ i → i < 24 → (t.strand m).reg (wreg i) = 0) ∧
          ∀ r : Reg, r.val < 8 → (t.strand m).reg r = 0) ∧
        (∀ s3 ws, recLE b 26 2 % 2 = 1 →
          fillFor s2 u o false ((List.range 22).map fun i => (recLE b 8 8 + 2 ^ 64 - 176 + 8 * i) % 2 ^ 64) = (s3, .ok ws) →
          s3.op u o.id = some o → s3.strand u = s2.strand u → s3.strand m = s2.strand m →
          ∃ t, exec (.pendingReturn u o.id) s = .next t ∧ back t 0 ∧ anew (t.strand m) ∧
            (t.strand m).wsp = w64 (recLE b 8 8) - 176 ∧ (∀ i < 14, (t.strand m).reg (wreg (10 + i)) = ws.getD (7 + i) 0) ∧
            (∀ i < 7, (t.strand m).getLoc (.s (i + 1)) = ws.getD i 0) ∧ (t.strand m).vflags = (ws.getD 21 0).toNat % 16)))))

/-- REP with C = 1 raises ILLEGAL, and so does a breach of its body, precisely at the REP; a body register that is pending
raises CLOSURE; while the buffer runs the turn is wasted. Otherwise it captures the next n instructions: one operation
is outstanding, every register that any iteration reads or writes is pending, and the strand goes on after the body.
The REP returns when every iteration has been issued and has returned. The sequencer issues the next instruction with
its marked fields moved by the iteration times the stride, in the window of the capture; it skips one whose guard was
off at the capture, tries again later one that its engine does not accept, and stops at one that faults, held at its
position. A VFILL whose operand lies in the partition, with a claim held and room in the queue, so enters the vector
queue with its iteration. (R114, R115, R116) -/
def Obligations.Repetitions : Prop :=
  ((∀ (s : State) (h : Hdr) (n : BitVec 3) (k : BitVec 8) (st : BitVec 6), s.passes h [] → s.room →
    let got := captureBody (s.me.past 4) (k.toNat + 1) st.toInt (n.toNat + 1) ((s.me.pc + 4) % 2 ^ 64) (s.entered 4)
    (h.c = true → exec (.rep h n k st) s = .next (trapAt s s.cur s.me.pc 4 { code := 1 })) ∧
    (h.c = false → s.me.rep.isSome = true → exec (.rep h n k st) s = .next (waitAt (s.entered 4) s.cur s.me.pc s.me.noWatch s.me.noBreak)) ∧
    (∀ c, h.c = false → s.me.rep = none → got.2 = .error c → exec (.rep h n k st) s = .next (trapAt s s.cur s.me.pc 4 c)) ∧
    (∀ body z, h.c = false → s.me.rep = none → got.2 = .ok (body, z) →
      (∀ b ∈ body, ∀ r ∈ bodyRefs b (k.toNat + 1) st.toInt, s.me.refPending r = false) →
      ∃ t, exec (.rep h n k st) s = .next t ∧ (t.strand s.cur).pc = z ∧
        (t.strand s.cur).rep = some { cwp := s.me.cwp, body := body, k := k.toNat + 1, stride := st.toInt, iter := 0, idx := 0, opId := s.me.nextOp } ∧
        (t.strand s.cur).outstanding = s.me.outstanding + 1 ∧
        (∀ b ∈ body, ∀ r ∈ bodyRefs b (k.toNat + 1) st.toInt, ∀ x, r = .r x → x.val ≠ 0 →
          (t.strand s.cur).refPending (.r x) = true) ∧ t.mem = s.mem) ∧
    (∀ body z b, h.c = false → s.me.rep = none → got.2 = .ok (body, z) →
      (body.find? fun b => (bodyRefs b (k.toNat + 1) st.toInt).any s.me.refPending) = some b →
      exec (.rep h n k st) s = .next (trapAt s s.cur s.me.pc 4 { code := 2, addr := b.addr }))) ∧
  (∀ (s : State) (u : Nat) (o : Op), s.sentOp u o → o.kind = .rep → (s.strand u).inRotation →
    regHeld s (s.strand u) = false → frozenNow s (s.strand u).pcore = false → repDone (s.strand u) o = true →
    (s.strand u).close = none →
    ∃ t, exec (.pendingReturn u o.id) s = .next t ∧ (t.strand u).rep = none ∧ t.op u o.id = none)) ∧
  (∀ (s : State) (u : Nat) (r : Rep) (b : BodyInstr), (s.strand u).rep = some r → r.stopped = false → r.iter < r.k →
    (s.strand u).st ≠ .ended → (s.strand u).rerunWaits = false → s.off (s.strand u).pcore (s.strand u).ctx = false → r.body[r.idx]? = some b →
    let w := repView (s.strand u) r
    let e := fieldsAt b.e r.iter r.stride
    let eff := extEff b.op e b.lit ⟨s.setStrand u w, u, w, b.addr, b.len, none⟩
    (b.on = false → exec (.repIterationIssue u) s = .next (s.setStrand u { s.strand u with rep := some r.next })) ∧
    (b.on = true → ∀ s', eff = .ok s' →
      exec (.repIterationIssue u) s = .next (s'.setStrand u (repMerge (s.strand u) (s'.strand u) r))) ∧
    (b.on = true → ∀ s', eff = .wait s' → exec (.repIterationIssue u) s = .next s) ∧
    (b.on = true → ∀ c, eff = .trap c → (s.strand u).close = none → r.opId ≠ (s.strand u).nextOp →
      ∃ t, exec (.repIterationIssue u) s = .next t ∧ (t.strand u).rep = some { r with stopped := true } ∧
        ∃ o ∈ (t.strand u).ops, o.phase = .faulted ∧ o.tpc = b.addr ∧ o.cause.code = c.code ∧ o.cause.iter = r.iter ∧
          o.cause.bidx = r.idx) ∧
    (∀ c, b.on = true → b.op = .vfill → b.lit = none → w.held = some c → (s.strand u).vq.length < 4 →
      (∀ v ∈ (s.strand u).vq, v.opId < (s.strand u).nextOp) →
      let z := etSize (e.mode.toNat % 8)
      let n := w.count e.f0
      w.off e.obj0.val % z = 0 → n = 0 ∨ w.off e.obj0.val + n * z ≤ spadSize s w.lcore w.ctx →
      ∃ t v, exec (.repIterationIssue u) s = .next t ∧ (t.strand u).vq = (s.strand u).vq ++ [v] ∧ v.ext = some .vfill ∧ v.n = n ∧
        v.pd = w.off e.obj0.val ∧ v.y = (w.reg e.f3).toNat ∧ v.cid = c.id ∧ v.iter = r.iter ∧ v.bidx = r.idx ∧
        (t.strand u).rep = some r.next ∧ (t.strand u).pc = (s.strand u).pc ∧ t.mem = s.mem))

/-- Every element-wise, reduction, extended and conversion instruction: without a claim it raises VECTOR_CLAIM; a
misaligned operand raises ALIGN; an operand that reaches past the partition, PAGE_NOT_PRESENT with SUB 3; with a full
queue its turn is wasted. Otherwise it completes its issue: it enters the queue with what it read, each pointer named
has advanced once, and nothing else of the strand or of the machine changes. VCHAIN also reads its descriptor,
misaligned ALIGN, past the partition PAGE_NOT_PRESENT, poisoned POISON, with an illegal stage ILLEGAL. TADDR 0 for an
operand, and VCHAIN's object for b, its precise POISON and its read where n is 0, are the model's choices (log entries
23, 39 and 114). (R207, R212, R213, R221, R222, R224, R225, R226, R227, R228, R229) -/
def Obligations.VectorIssue : Prop :=
  (∀ (s : State) (i : Instr) (h : Hdr) (len : Nat) (refs : List Ref) (uses : List PtrUse) (v : VecOp),
    VecRule s.me i h len refs uses v → s.passes h refs →
    (s.me.held = none → exec i s = .next (trapAt s s.cur s.me.pc len { code := 28 })) ∧
    (∀ c, s.me.held = some c →
      ((∃ o ∈ uses, s.me.off o.p % o.align ≠ 0) → exec i s = .next (trapAt s s.cur s.me.pc len { code := 6 })) ∧
      ((∀ o ∈ uses, s.me.off o.p % o.align = 0) →
        ((∃ o ∈ uses, o.bytes ≠ 0 ∧ spadSize s s.me.lcore s.me.ctx < s.me.off o.p + o.bytes) →
          exec i s = .next (trapAt s s.cur s.me.pc len { code := 7, sub := 3 })) ∧
        ((∀ o ∈ uses, o.bytes ≠ 0 → s.me.off o.p + o.bytes ≤ spadSize s s.me.lcore s.me.ctx) →
          (4 ≤ s.me.vq.length → exec i s = .next (waitAt (s.entered len) s.cur s.me.pc s.me.noWatch s.me.noBreak)) ∧
          (s.me.vq.length < 4 → ∃ q, exec i s = .next (s.leave h q) ∧
            tookVec (s.me.past len) q (uses.map (·.p)) { v with
              spans := uses.map fun o => (s.me.off o.p, o.bytes), cid := c.id, seq := s.steps, opId := s.me.nextOp, tpc := s.me.pc, len := len }))))) ∧
  (∀ (s : State) (i : Instr) (h : Hdr) (len : Nat) (e : Ext) (refs : List Ref) (o : Nat) (c : Claim),
    ChainRule s.me i h len e refs o → s.passes h refs →
    (s.me.held = none → exec i s = .next (trapAt s s.cur s.me.pc len { code := 28 })) ∧
    (s.me.held = some c →
      let k := e.mode.toNat % 16
      let ws := (List.range k).map fun j => spadLE s s.me.lcore s.me.ctx (o + 8 * j) 8
      let b : Bool := ws.any fun w => w / 2 ^ 8 % 4 == 1
      let uses := elems e.obj0.val (etSize (extEt e 4)) (s.me.count e.f0) :: elems e.obj1.val (etSize (extEt e 4)) (s.me.count e.f0) ::
        if b then [elems e.obj2.val (etSize (extEt e 4)) (s.me.count e.f0)] else []
      (o % 8 ≠ 0 → exec i s = .next (trapAt s s.cur s.me.pc len { code := 6 })) ∧
      (o % 8 = 0 → spadSize s s.me.lcore s.me.ctx < o + 8 * k →
        exec i s = .next (trapAt s s.cur s.me.pc len { code := 7, sub := 3 })) ∧
      (o % 8 = 0 → o + 8 * k ≤ spadSize s s.me.lcore s.me.ctx → spadBusy s s.me.lcore s.me.ctx o (8 * k) = false →
        (spadPoisoned s s.me.lcore s.me.ctx o (8 * k) = true →
          exec i s = .next (trapAt s s.cur s.me.pc len { code := 10, acc := 1 })) ∧
        (spadPoisoned s s.me.lcore s.me.ctx o (8 * k) = false →
          ((∃ w ∈ ws, stageOk w = false) → exec i s = .next (trapAt s s.cur s.me.pc len { code := 1 })) ∧
          ((∀ w ∈ ws, stageOk w = true) → (b = true ∨ e.obj2.val = 0) → s.me.vq.length < 4 →
            (∀ u ∈ uses, s.me.off u.p % u.align = 0 ∧
              (u.bytes ≠ 0 → s.me.off u.p + u.bytes ≤ spadSize s s.me.lcore s.me.ctx)) →
            ∃ q, exec i s = .next (s.leave h q) ∧ tookVec (s.me.past len) q (uses.map (·.p))
              { s.me.extOp .vchain e o with
                et := extEt e 4, chain := ws, spans := uses.map fun o => (s.me.off o.p, o.bytes), cid := c.id,
                seq := s.steps, opId := s.me.nextOp, tpc := s.me.pc, len := len })))))

/-- When the head of a strand's vector queue can be performed, its events, with nothing between them, compute, write one
8-byte atom each and finish it: it leaves the queue and nothing of the strand's registers changes. An element-wise
instruction leaves element i of its destination as its rule gives it from the old elements, where the destination
coincides with or is apart from each source; every other byte of memory is as it was. An integer VSUM fills its
mailbox with the wrapped sum, VMAXR and VMINR with an element that none exceeds or falls below, VARGMAX with the
lowest index of a greatest element and its value; of floats, VSUM with the F32 sum in the fixed order of R223, VMAXR
and VMINR with the picks in that order, the canonical NaN where one is NaN, VARGMAX with the first that none ranks
above; with no element, the value of R222; MBLOST is set when the mailbox was full. VCMP, VSEL, VSCALE, VFILL, VRAND,
VNZC, VCHAIN, VCVT, VQMX, VDQMX and VQA leave what R225 to R229 say, element by element, in their bitmap, elements,
codes, scales and records, the bits past the last element and byte 63 of a 6-bit sector zero, where the destinations
are apart from the sources (or, of elements of one size, coincide). (R203, R214, R217, R218, R221, R222, R223, R225,
R226, R227, R228, R229) -/
def Obligations.VectorResults : Prop :=
  (∀ (s : State) (u : Nat) (v : VecOp) (rest : List VecOp), (s.strand u).vq = v :: rest →
    (s.strand u).vout = none → vecReady s (s.strand u) v = true → (s.strand u).close = none → s.watches = [] → s.poison = [] →
    v.ext = none → v.et < 6 → v.n < 2 ^ 20 →
    let z := etSize v.et
    let at_ (o i : Nat) : Nat := spadPA s (s.strand u).lcore (s.strand u).ctx 0 + o + z * i
    let old (o i : Nat) : Nat := readLE s (at_ o i) z
    ∃ k t, vecRuns u k s t ∧ (t.strand u).vq = rest ∧ (t.strand u).vout = none ∧ sameButVector (s.strand u) (t.strand u) ∧
      (0x4A ≤ v.op → v.op ≤ 0x4F → v.spans.take 1 = [(v.pd, v.n * z)] → apart v.pd v.pa (v.n * z) → apart v.pd v.pb (v.n * z) →
        (∀ i < v.n, readLE t (at_ v.pd i) z = vecElem v.op v.et (old v.pa i) (old v.pb i) (old v.pd i)) ∧
        (∀ x, x < at_ v.pd 0 ∨ at_ v.pd v.n ≤ x → memGet t.mem x = memGet s.mem x) ∧
        (t.strand u).mboxes = (s.strand u).mboxes) ∧
      (0x500 ≤ v.op → v.op ≤ 0x506 → v.spans.take 1 = [(v.pd, v.n * z)] → apart v.pd v.pa (v.n * z) →
        (∀ i < v.n, readLE t (at_ v.pd i) z = vecElem1 v.op v.et (old v.pa i)) ∧
        (∀ x, x < at_ v.pd 0 ∨ at_ v.pd v.n ≤ x → memGet t.mem x = memGet s.mem x) ∧
        (t.strand u).mboxes = (s.strand u).mboxes) ∧
      (0x510 ≤ v.op → v.op ≤ 0x513 → t.mem = s.mem ∧ (tget Mailbox.init (t.strand u).mboxes v.mb).full = true ∧
        (t.strand u).mblost = ((s.strand u).mblost || (tget Mailbox.init (s.strand u).mboxes v.mb).full) ∧
        (∀ m, m ≠ v.mb → tget Mailbox.init (t.strand u).mboxes m = tget Mailbox.init (s.strand u).mboxes m) ∧
        (3 ≤ v.et → v.op = 0x510 → (tget Mailbox.init (t.strand u).mboxes v.mb).v =
          BitVec.ofInt 64 ((List.range v.n).map fun i => (BitVec.ofNat (8 * z) (old v.pa i)).toInt).sum) ∧
        (3 ≤ v.et → 0 < v.n → v.op = 0x511 ∨ v.op = 0x512 →
          ∃ j < v.n, let m := (BitVec.ofNat (8 * z) (old v.pa j)).toInt
            (tget Mailbox.init (t.strand u).mboxes v.mb).v = BitVec.ofInt 64 m ∧
            ∀ i < v.n, (v.op = 0x511 → (BitVec.ofNat (8 * z) (old v.pa i)).toInt ≤ m) ∧
              (v.op = 0x512 → m ≤ (BitVec.ofNat (8 * z) (old v.pa i)).toInt)) ∧
        (let got := (tget Mailbox.init (t.strand u).mboxes v.mb).v
         let int (i : Nat) : Int := (BitVec.ofNat (8 * z) (old v.pa i)).toInt
         let w (i : Nat) : Nat := asF32 v.et (old v.pa i)
         let low : Int := -2 ^ (8 * z - 1)
         (3 ≤ v.et → 0 < v.n → v.op = 0x513 → ∃ j < v.n, (∀ i < v.n, int i ≤ int j) ∧ (∀ i < j, int i < int j) ∧
           got = w64 (2 ^ 32 * j + (BitVec.ofInt 32 (int j)).toNat)) ∧
         (v.et < 3 → 0 < v.n → v.op = 0x510 →
           let r := reduced (fun a b => (convertFlt fp32 .rne false ((decodeFlt fp32 a).add (decodeFlt fp32 b))).1) w v.n
           got = w64 (if (decodeFlt fp32 r).isNan then 0x7FC00000 else r)) ∧
         (v.et < 3 → 0 < v.n → v.op = 0x511 ∨ v.op = 0x512 →
           ((∃ i < v.n, (decodeFlt fp32 (w i)).isNan = true) → got = 0x7FC00000) ∧
           ((∀ i < v.n, (decodeFlt fp32 (w i)).isNan = false) →
             got = w64 (reduced (fun a b => (fpPick fp32 (v.op == 0x511) a b).1) w v.n))) ∧
         (v.et < 3 → 0 < v.n → v.op = 0x513 → ∃ j < v.n, (∀ i < v.n, ranksAbove (w i) (w j) = false) ∧
           (∀ i < j, ranksAbove (w j) (w i) = true) ∧
           got = w64 (2 ^ 32 * j + if (decodeFlt fp32 (w j)).isNan then 0x7FC00000 else w j)) ∧
         (v.n = 0 → got = match v.op with
           | 0x510 => 0
           | 0x511 => if v.et < 3 then 0xFF800000 else BitVec.ofInt 64 low
           | 0x512 => if v.et < 3 then 0x7F800000 else BitVec.ofInt 64 (-1 - low)
           | _ => w64 (2 ^ 32 * 0xFFFFFFFF + if v.et < 3 then 0xFF800000 else (BitVec.ofInt 32 low).toNat))))) ∧
  (∀ (s : State) (u : Nat) (v : VecOp) (rest : List VecOp) (x : ExtOp), (s.strand u).vq = v :: rest →
    (s.strand u).vout = none → vecReady s (s.strand u) v = true → (s.strand u).close = none → s.watches = [] → s.poison = [] →
    v.ext = some x → v.n < 2 ^ 20 →
    let z := etSize v.et
    let pad := spadPA s (s.strand u).lcore (s.strand u).ctx 0
    let d := pad + v.pd
    let old (o i : Nat) : Nat := readLE s (pad + o + z * i) z
    let src := v.imm % 2 ^ 5
    let tgt := v.imm / 2 ^ 5 % 2 ^ 5
    let code (o el i : Nat) : Nat := codeAt s.mem el (pad + o) i
    let rnd (i : Nat) : Rnd := rndOf (v.mode % 2 ^ 3) v.seed (v.imm / 2 ^ 10 % 2 ^ 10) ((v.y + i) % 2 ^ 64)
    let sat := v.mode.testBit 3
    let mb := (tget Mailbox.init (s.strand u).mboxes v.mb).v.toNat
    let put (c : Nat × Nat) : Nat := c.1 % 2 ^ (elemFmt tgt).bits
    ∃ k t, vecRuns u k s t ∧ (t.strand u).vq = rest ∧ (t.strand u).vout = none ∧ sameButVector (s.strand u) (t.strand u) ∧
      (x ≠ .vnzc → (t.strand u).mboxes = (s.strand u).mboxes) ∧
      (let bits (f : Nat → Bool) : Prop := ∀ i < 8 * ((v.n + 7) / 8), (memGet t.mem (d + i / 8)).toNat.testBit (i % 8) = (decide (i < v.n) && f i)
       let elem (f : Nat → Nat) : Prop := ∀ i < v.n, readLE t (d + z * i) z = f i % 2 ^ (8 * z)
       let codes (f : Nat → Nat × Nat) : Prop := ∀ i < v.n, codeAt t.mem tgt d i = put (f i)
       let only (n : Nat) : Prop := ∀ a, a < d ∨ d + n ≤ a → memGet t.mem a = memGet s.mem a
       let tail : Prop := ((elemFmt tgt).bits = 4 → ∀ i, v.n ≤ i → i < 2 * ((v.n + 1) / 2) → codeAt t.mem tgt d i = 0) ∧
         ((elemFmt tgt).bits = 6 → (∀ i, v.n ≤ i → i < 4 * ((v.n + 3) / 4) → codeAt t.mem tgt d i = 0) ∧
           ∀ j < (v.n + 83) / 84, memGet t.mem (d + 64 * j + 63) = 0)
       let nm := (v.n + 7) / 8
       (x = .vcmp → v.et < 6 → v.spans.take 1 = [(v.pd, nm)] → clear v.pd nm v.pa (v.n * z) → clear v.pd nm v.pb (v.n * z) →
         only nm ∧ bits fun i => floatCond ((FCond.ofCode (v.mode % 2 ^ 3)).getD .eq) (vecVal v.et (old v.pa i)) (vecVal v.et (old v.pb i))) ∧
       (x = .vsel → v.et < 6 → v.spans.take 1 = [(v.pd, v.n * z)] → apart v.pd v.pa (v.n * z) → apart v.pd v.pb (v.n * z) →
         clear v.pd (v.n * z) v.pm nm → only (v.n * z) ∧
         elem fun i => if (memGet s.mem (pad + v.pm + i / 8)).toNat.testBit (i % 8) then old v.pa i else old v.pb i) ∧
       (x = .vscale → v.et < 3 → v.spans.take 1 = [(v.pd, v.n * z)] → apart v.pd v.pa (v.n * z) → only (v.n * z) ∧
         let m := decodeFlt fp32 ((if v.mode / 2 ^ 6 % 4 = 1 then mb else v.x) % 2 ^ 32)
         let a := decodeFlt fp32 ((if v.mode / 2 ^ 6 % 4 = 2 then mb else v.y) % 2 ^ 32)
         elem fun i => (convertFlt (etFlt v.et) .rne false (((decodeFlt (etFlt v.et) (old v.pa i)).mul m).add a)).1) ∧
       (x = .vfill → v.et < 6 → v.spans.take 1 = [(v.pd, v.n * z)] → only (v.n * z) ∧
         elem fun _ => if v.mode.testBit 6 then mb else v.y) ∧
       (x = .vrand → v.et = 0 ∨ v.et = 3 → v.spans.take 1 = [(v.pd, v.n * z)] → only (v.n * z) ∧
         elem fun i =>
           let w := dcg v.seed v.imm ((v.y + i) % 2 ^ 64) % 2 ^ 32
           if v.et = 0 then (convertFlt fp32 .rne false (.fin false (w / 2 ^ 8) (2 ^ 24))).1 else w) ∧
       (x = .vnzc → 0 < v.n →
         let c := v.mode % 2 ^ 5
         let nz (i : Nat) : Bool := nonzeroCode c (code v.pa c i)
         (v.mode.testBit 5 = true → v.spans.take 1 = [(v.pd, nm)] ∧ clear v.pd nm v.pa (touchedBytes c v.n)) →
         tget Mailbox.init (t.strand u).mboxes v.mb = ⟨true, w64 ((List.range v.n).countP nz)⟩ ∧
         if v.mode.testBit 5 = true then only nm ∧ bits nz else t.mem = s.mem) ∧
       (x = .vchain → v.et < 3 → v.spans.take 1 = [(v.pd, v.n * z)] → apart v.pd v.pa (v.n * z) → apart v.pd v.pb (v.n * z) →
         only (v.n * z) ∧ elem fun i =>
           let a := asF32 v.et (old v.pa i)
           let b := asF32 v.et (old v.pb i)
           (convertFlt (etFlt v.et) .rne false (decodeFlt fp32 (v.chain.foldl (fun r w => chainStage w r a b) a))).1) ∧
       (x = .vcvt → v.spans = [(v.pd, elemBytes tgt v.n), (v.pa, elemBytes src v.n)] →
         clear v.pd (touchedBytes tgt v.n) v.pa (touchedBytes src v.n) → only (touchedBytes tgt v.n) ∧ tail ∧
         codes fun i => convertNum (elemFmt tgt) (rnd i) sat (decodeNum (elemFmt src) (code v.pa src i))) ∧
       (x = .vqmx → v.spans = [(v.pd, elemBytes tgt v.n), (v.pa, elemBytes src v.n), (v.pb, (v.n + 31) / 32)] →
         clear v.pd (touchedBytes tgt v.n) v.pa (touchedBytes src v.n) → clear v.pd (touchedBytes tgt v.n) v.pb ((v.n + 31) / 32) →
         clear v.pb ((v.n + 31) / 32) v.pa (touchedBytes src v.n) → tail ∧
         ∀ j < (v.n + 31) / 32,
           let is := (List.range (min 32 (v.n - 32 * j))).map fun i => 32 * j + i
           let q := mxScale (is.map fun i => decodeNum (elemFmt src) (code v.pa src i)) tgt (is.map rnd) sat
           (memGet t.mem (pad + v.pb + j)).toNat = q.1 % 2 ^ 8 ∧
           ∀ i < is.length, codeAt t.mem tgt d (32 * j + i) = put (q.2.1.getD i 0, 0)) ∧
       (x = .vdqmx → v.spans = [(v.pd, elemBytes tgt v.n), (v.pa, elemBytes src v.n), (v.pb, (v.n + 31) / 32)] →
         clear v.pd (touchedBytes tgt v.n) v.pa (touchedBytes src v.n) → clear v.pd (touchedBytes tgt v.n) v.pb ((v.n + 31) / 32) →
         only (touchedBytes tgt v.n) ∧ tail ∧ codes fun i =>
           convertNum (elemFmt tgt) (rnd i) sat (mxVal src (memGet s.mem (pad + v.pb + i / 32)).toNat (code v.pa src i))) ∧
       (x = .vqa →
         let g := 32 * 2 ^ (v.mode / 2 ^ 5 % 4)
         let ng := (v.n + g - 1) / g
         v.spans = [(v.pd, elemBytes tgt v.n), (v.pa, elemBytes src v.n), (v.pb, 4 * ng)] →
         clear v.pd (touchedBytes tgt v.n) v.pa (touchedBytes src v.n) → clear v.pd (touchedBytes tgt v.n) v.pb (4 * ng) →
         (v.mode.testBit 4 = true → only (touchedBytes tgt v.n) ∧ tail ∧ codes fun i =>
           let r := readLE s (pad + v.pb + 4 * (i / g)) 4
           let zero : Nat := if src = 16 then r / 2 ^ 16 % 2 ^ 4 else r / 2 ^ 16 % 2 ^ 8
           convertNum (elemFmt tgt) (rnd i) sat ((Val.ofInt ((code v.pa src i : Int) - (zero : Nat))).mul (decodeFlt fp16 (r % 2 ^ 16)))) ∧
         (v.mode.testBit 4 = false → clear v.pb (4 * ng) v.pa (touchedBytes src v.n) → tail ∧ ∀ j < ng,
           let is := (List.range (min g (v.n - g * j))).map fun i => g * j + i
           let q := groupOfQA (if tgt = 16 then 4 else 8) (is.map fun i => decodeNum (elemFmt src) (code v.pa src i)) (is.map rnd)
           readLE t (pad + v.pb + 4 * j) 4 = q.1 % 2 ^ 32 ∧ ∀ i < is.length, codeAt t.mem tgt d (g * j + i) = put (q.2.getD i 0, 0)))))

/-- PSET and PGET write and read a pointer. VCLAIM of a legal request is sent and the strand holds the claim from its
issue; with a claim held, or an illegal request, VECTOR_CLAIM. VRENEG of a granted claim whose minimum the grant meets
is performed at once, by shrinking or growing; VFREE ends the claim, at once where it is granted and idle. The pool
grants its earliest waiting request when enough lanes are free, and nothing before. MBW fills a mailbox at its issue;
MBR is sent, and empties the full mailbox into its register when it returns. That an MBR is on path V is the model's
choice (log entry 114). (R205, R206, R208, R209, R210, R218, R219) -/
def Obligations.LanesAndMailboxes : Prop :=
  (∀ (s : State) (h : Hdr) (p : Ptr) (ra rb : Reg), s.passes h [.r ra, .r rb] → ∃ q, exec (.pset h p ra rb) s = .next (s.leave h q) ∧
    (∀ k, tget Pointer.init q.ptrs k = if k = p.val then ⟨(s.me.reg ra).toNat % 2 ^ 24, (s.me.reg rb).toNat % 2 ^ 24⟩
      else tget Pointer.init s.me.ptrs k) ∧ { q with ptrs := s.me.ptrs } = s.me.past 4) ∧
  (∀ (s : State) (h : Hdr) (p : Ptr) (ra : Reg), s.passes h [.r ra] →
    let k := tget Pointer.init s.me.ptrs p.val
    exec (.pget h p ra) s = .next (s.leave h ((s.me.past 4).setReg ra (w64 (k.off % 2 ^ 24 + k.str % 2 ^ 24 * 2 ^ 24))))) ∧
  (∀ (s : State) (h : Hdr) (rd ra : Reg), s.passes h [.r ra, .r rd] → s.room →
    let w := (s.me.reg ra).toNat
    let a := w % 2 ^ 9
    let m := if w / 2 ^ 16 % 2 ^ 9 = 0 then 16 else w / 2 ^ 16 % 2 ^ 9
    let legal := a % 16 = 0 ∧ m % 16 = 0 ∧ 16 ≤ m ∧ m ≤ a ∧ a ≤ 256
    let sent := (s.me.past 4).send .claim .v s.me.pc 4 s.steps (s.me.dest rd)
    (s.me.held ≠ none ∨ ¬legal → exec (.vclaim h rd ra) s = .next (trapAt s s.cur s.me.pc 4 { code := 28 })) ∧
    (s.me.held = none → legal → exec (.vclaim h rd ra) s = .next (s.leave h
      { sent with claims := s.me.claims ++ [⟨s.steps, a, m, 0, s.me.nextOp, [], none, [], []⟩] })) ∧
    (s.me.held = none ∨ w ≠ 0 ∧ ¬legal → exec (.vreneg h rd ra) s = .next (trapAt s s.cur s.me.pc 4 { code := 28 })) ∧
    (∀ c, s.me.held = some c → s.me.claims = [c] → c.rens = [] → s.me.inRotation → w = 0 ∨ legal → c.grant ≠ 0 →
      (∀ o ∈ s.me.ops, o.id < s.me.nextOp) → rising s.strands →
      let a' := if w = 0 then c.ask else a
      let m' := if w = 0 then c.min else m
      let cl := coreCluster s.me.pcore
      let held := ((clusterClaims s cl).filter fun p => p.2.grant != 0).length
      let waiting := ((clusterClaims s cl).filter fun p => p.2.waits).length
      let g := if waiting = 0 then min a' (c.grant + freeLanes s cl / 16 * 16)
        else min a' (max m' (min c.grant (16 * max 1 (16 / (held + waiting)))))
      (m' ≤ c.grant → ∃ q, exec (.vreneg h rd ra) s = .next (closeOf h s.cur q) ∧
        (∃ o, q.op s.cur s.me.nextOp = some o ∧ o.phase = .done ∧ o.res = [w64 g] ∧ o.dests = s.me.dest rd) ∧
        (q.claim s.cur c.id).map (fun c => (c.grant, c.ask, c.min)) = some (g, a', m')) ∧
      (c.grant < m' → w ≠ 0 → ∃ q, exec (.vreneg h rd ra) s = .next (closeOf h s.cur q) ∧
        (∃ o, q.op s.cur s.me.nextOp = some o ∧ o.phase = .sent) ∧
        (q.claim s.cur c.id).map (fun c => (c.grant, c.ask, c.min)) = some (c.grant, c.ask, c.min)))) ∧
  (∀ (s : State) (h : Hdr), s.passes h [] → s.room →
    (s.me.held = none → exec (.vfree h) s = .next (trapAt s s.cur s.me.pc 4 { code := 28 })) ∧
    (∀ c, s.me.held = some c → s.me.claims = [c] → (∀ o ∈ s.me.ops, o.id < s.me.nextOp) →
      ∃ q, exec (.vfree h) s = .next (closeOf h s.cur q) ∧ (q.strand s.cur).held = none ∧
        (c.grant ≠ 0 → c.rens = [] → s.me.vq = [] → (q.strand s.cur).claims = [] ∧
          ∃ o, q.op s.cur s.me.nextOp = some o ∧ o.phase = .done) ∧
        (c.grant = 0 → (q.strand s.cur).claims = [{ c with freed := some s.me.nextOp }] ∧
          ∃ o, q.op s.cur s.me.nextOp = some o ∧ o.phase = .sent))) ∧
  (∀ (s : State) (cl u : Nat) (c : Claim), nextRequest s cl = some (u, c) →
    (c.grant = 0 → freeLanes s cl < c.min → exec (.laneGrant cl) s = .next s) ∧
    (∀ o, c.grant = 0 → 16 ≤ c.min → c.min ≤ c.ask → c.min ≤ freeLanes s cl → s.claim u c.id = some c → c.rens = [] → c.freed = none → s.op u c.opId = some o →
      o.id = c.opId → (∀ x ∈ (s.strand u).claims, x.freed = none) →
      let g := min c.ask (freeLanes s cl / 16 * 16)
      ∃ t, exec (.laneGrant cl) s = .next t ∧ t.doneOp u o [w64 g] ∧ t.claim u c.id = some { c with grant := g, segs := (g, 0) :: c.segs })) ∧
  (∀ (s : State) (h : Hdr) (mb : Obj2) (rd : Reg), s.passes h [.r rd] →
    (∃ q, exec (.mbw h mb rd) s = .next (s.leave h q) ∧
      (∀ m, tget Mailbox.init q.mboxes m = if m = mb.val then ⟨true, s.me.reg rd⟩ else tget Mailbox.init s.me.mboxes m) ∧
      q.mblost = (s.me.mblost || (tget Mailbox.init s.me.mboxes mb.val).full) ∧
      { q with mboxes := s.me.mboxes, mblost := s.me.mblost } = s.me.past 4) ∧
    (s.room → exec (.mbr h mb rd) s = .next (s.leave h
      ((s.me.past 4).send (.mbr mb.val) .v s.me.pc 4 s.steps (s.me.dest rd))))) ∧
  (∀ (s : State) (u m : Nat) (o : Op) (x : Word) (l : Loc), s.sentOp u o → o.kind = .mbr m → o.dests = [l] → (s.strand u).inRotation →
    (s.strand u).close = none → regHeld s (s.strand u) = false → frozenNow s (s.strand u).pcore = false → tget Mailbox.init (s.strand u).mboxes m = ⟨true, x⟩ →
    (∀ y ∈ (s.strand u).ops.takeWhile (fun y => y.id != o.id), y.kind ≠ .mbr m) →
    ∃ t, exec (.pendingReturn u o.id) s = .next t ∧ t.op u o.id = none ∧
      (t.strand u).getLoc l = ((s.strand u).setLoc l x).getLoc l ∧ (tget Mailbox.init (t.strand u).mboxes m).full = false)

/-- ASHAPE, ADATUM, AZERO, ASTAT, ACHK, CLD, CLD.SP, OLD, OLD.T, OCOLS, ADRAIN and MSEQ, in each form: while the core's
engine has 16 entries the turn is wasted; otherwise the issue completes, and the queue takes an entry with what the
instruction read, its plat register and linked handle as they stand. An instruction that returns at acceptance is
counted no longer; nothing else of the strand changes. CLDC also enters the queue of every other core of the cluster.
(R234, R236, R237, R243, R246, R248, R254, R256, R272, R276) -/
def Obligations.EngineIssue : Prop :=
  (∀ (s : State) (i : Instr) (h : Hdr) (len : Nat) (pend : Bool) (refs : List Ref) (kind : EngKind) (q : Option Nat) (org : Nat)
      (late : Bool) (ds : List Loc), EngineRule s.me i h len pend refs kind q org late ds → s.passes h refs →
    (∀ o ∈ s.me.ops, o.id < s.me.nextOp) → (pend = true → s.room) →
    let core := s.me.lcore
    (16 ≤ engineQueued s core → exec i s = .next (waitAt (s.entered len) s.cur s.me.pc s.me.noWatch s.me.noBreak)) ∧
    (engineQueued s core < 16 → ∃ x, exec i s = .next (closeOf h s.cur x) ∧
      tookEngine (s.me.past len) (x.strand s.cur) late ds s.me.pc len s.steps ∧
      (x.part core s.me.ctx).eq = (s.part core s.me.ctx).eq ++
        [s.me.entry s.cur (s.core core).nextSeq s.me.pc len kind q org] ∧
      (x.core core).nextSeq = (s.core core).nextSeq + 1 ∧ x.mem = s.mem ∧ ∀ u, u ≠ s.cur → x.strand u = s.strand u)) ∧
  (∀ (s : State) (i : Instr) (h : Hdr) (len : Nat) (e : Ext) (refs : List Ref) (o : Nat), CoopRule s.me i h len e refs o → s.passes h refs →
    (∀ o ∈ s.me.ops, o.id < s.me.nextOp) → s.room →
    let core := s.me.lcore
    let cores := core :: (clusterCores (coreCluster core)).filter (· != core)
    ((∃ c ∈ cores, 16 ≤ engineQueued s c) → exec i s = .next (waitAt (s.entered len) s.cur s.me.pc s.me.noWatch s.me.noBreak)) ∧
    ((∀ c ∈ cores, engineQueued s c < 16) → ∃ x, exec i s = .next (closeOf h s.cur x) ∧
      tookEngine (s.me.past len) (x.strand s.cur) false [] s.me.pc len s.steps ∧
      (x.part core s.me.ctx).eq = (s.part core s.me.ctx).eq ++ [s.me.entry s.cur (s.core core).nextSeq s.me.pc len
        (.cld e.obj0.val o true) (some e.obj1.val) (s.me.reg e.f0).toNat] ∧
      ∀ c ∈ cores, c ≠ core → ∃ y, (x.part c s.me.ctx).eq = (s.part c s.me.ctx).eq ++ [y] ∧ y.uid = s.cur ∧
        y.kind = .coop core (s.core core).nextSeq e.obj0.val o ∧ y.plat = tget Plat.init s.me.plats e.obj1.val))

/-- At its turn in the engine's queue: ASHAPE binds the lowest free physical tiles, every lane zero, LIVE with datum 0, or
is held with TILE_SHAPE where the partition has too few; ADATUM sets the datum and keeps every lane; AZERO zeroes
every lane and keeps the datum; both make the tile LIVE, and are held with TILE_SHAPE on an UNSHAPED one. ASTAT
returns the status word or the lane flags, zero for an UNSHAPED tile; ACHK the three checks; OCOLS computes the column
sums, or is held where the window has no format. (R232, R233, R235, R236, R238, R239, R240, R246, R259) -/
def Obligations.TileResults : Prop :=
  ∀ (s : State) (core ctx : Nat) (e : EngOp), s.engineTurn core ctx e → (s.strand e.uid).close = none →
    let p := s.part core ctx
    (∀ a r c, e.kind = .ashape a r c →
      let n := (r + 127) / 128 * (c / 64)
      let held := (p.tiles.filter fun t => t.1 != a).flatMap fun t => t.2.phys
      let free := (p.partn.tiles.filter fun j => !held.contains j).take n
      ∃ t, exec (.engineOpPerform core ctx e.seq) s = .next t ∧
        (p.partn.tiles.length < n + held.length → heldWith s t core e 1 23 ∧ (t.part core ctx).tiles = p.tiles) ∧
        (n + held.length ≤ p.partn.tiles.length → performedWith s t core e [] ∧
          (t.part core ctx).tile a = { LTile.init with st := .live, rows := r, cols := c, phys := free } ∧
          (∀ j ∈ free, tget PTile.init (t.core core).ptiles j = PTile.init) ∧
          ∀ b, b ≠ a → (t.part core ctx).tile b = p.tile b)) ∧
    (∀ a d, e.kind = .adatum a d → ∃ t, exec (.engineOpPerform core ctx e.seq) s = .next t ∧
      ((p.tile a).st = .unshaped → heldWith s t core e 1 23 ∧ (t.part core ctx).tile a = p.tile a) ∧
      ((p.tile a).st ≠ .unshaped → performedWith s t core e [] ∧
        (t.part core ctx).tile a = { p.tile a with st := .live, datum := d } ∧ ∀ i j, t.lane core ctx a i j = s.lane core ctx a i j)) ∧
    (∀ a, e.kind = .azero a → ∃ t, exec (.engineOpPerform core ctx e.seq) s = .next t ∧
      ((p.tile a).st = .unshaped → heldWith s t core e 1 23 ∧ (t.part core ctx).tile a = p.tile a) ∧
      ((p.tile a).st ≠ .unshaped → (p.tile a).wellBound → performedWith s t core e [] ∧
        (t.part core ctx).tile a = { p.tile a with st := .live, chkfail := false, part := false } ∧
        ∀ i < (p.tile a).rows, ∀ j < (p.tile a).cols, t.lane core ctx a i j = Lane.zero)) ∧
    (∀ a v, e.kind = .astat a v → ∃ t w, exec (.engineOpPerform core ctx e.seq) s = .next t ∧ performedWith s t core e [w64 w] ∧
      ((p.tile a).st = .unshaped → w = 0) ∧
      ((p.tile a).st ≠ .unshaped → v / 2 ^ 63 % 2 = 0 → w < 2 ^ 48 ∧ w / 2 ^ 39 = ((p.tile a).datum % 2 ^ 9).toNat ∧
        w / 2 ^ 31 % 2 ^ 8 = ((p.tile a).rows - 1) % 2 ^ 8 ∧ w / 2 ^ 29 % 4 = ((p.tile a).cols / 64 - 1) % 4 ∧
        w / 2 ^ 26 % 8 = (p.tile a).st.code ∧ w / 2 ^ 15 % 2 = b2n (p.tile a).part ∧ w / 2 ^ 14 % 2 = b2n ((p.tile a).chkfail || tilePoisoned s core (p.tile a)) ∧
        w / 2 ^ 10 % 16 = (p.tile a).dflags % 16 ∧ w % 2 ^ 10 = 0 ∧
        ∀ j < 8, w / 2 ^ (18 + j) % 2 = if j ∈ (p.tile a).phys then 1 else 0) ∧
      ((p.tile a).st ≠ .unshaped → v / 2 ^ 63 % 2 = 1 →
        let i := v / 2 ^ 8 % 2 ^ 8
        let k := v % 8
        (i < (p.tile a).rows → 32 * k < (p.tile a).cols → w < 2 ^ 64 ∧ ∀ m < 32, w / 4 ^ m % 4 = (s.lane core ctx a i (32 * k + m)).flag.toNat) ∧
        ((p.tile a).rows ≤ i ∨ (p.tile a).cols ≤ 32 * k → w = 0))) ∧
    (∀ a, e.kind = .achk a → tileChecks s core (p.tile a) = 0 → ∃ t, exec (.engineOpPerform core ctx e.seq) s = .next t ∧
      performedWith s t core e [0] ∧ t.mem = s.mem) ∧
    (∀ g, e.kind = .ocols g → ∃ t, exec (.engineOpPerform core ctx e.seq) s = .next t ∧
      (p.rf = none → heldWith s t core e 1 23) ∧
      (p.rf ≠ none → performedWith s t core e [] ∧ (t.part core ctx).osumG = some g ∧ (t.part core ctx).osum = p.columnSums g))

/-- At its turn a load or an operand load whose shape checks, written out, fail is held with TILE_SHAPE, one past the
extents with PLAT_BOUNDS; otherwise it runs, and an OLD's window takes its format. A sector's reply to a CLD, to a
CLDC at each of its 8 cores, or to a CLD.SP, read under the descriptor of its request, adds to each lane of its row
the grid-rounded products of its elements (the groups of a QA format by the formula of R251) with the resident
operand, and changes no other lane. A reply to an OLD or OLD.T puts its codes and scales in the window, or keeps a
transposed block until its 32 rows are there (log 117: the model's choice). An ADRAIN whose checks fail is held with
TILE_CHECK, the tile HELD, or waits for a rerun of its slice; otherwise the tile is DRAINING, and each row is placed
whole, holds at each element's place the converted lane and at each scale's its scale, and is written 8-byte atom by
atom, the whole of a row being placed first as log 106 says (the model's choice); one whose rows are all written
leaves the tile DRAINED. MSEQ writes the entries of the kept blocks atom by atom and returns their number. (R242,
R244, R245, R249, R250, R251, R254, R257, R258, R272, R274, R278) -/
def Obligations.LoadsAndDrains : Prop :=
  (∀ (s : State) (core ctx : Nat) (e : EngOp), s.engineTurn core ctx e → (s.strand e.uid).close = none →
    let p := s.part core ctx
    (∀ a o, e.kind = .cld a o false → ∃ t, exec (.engineOpPerform core ctx e.seq) s = .next t ∧
      (¬cldFits s p e a o → heldWith s t core e 1 23) ∧
      (cldFits s p e a o → ¬boxFits e.plat e.org → heldWith s t core e 1 27) ∧
      (cldFits s p e a o → boxFits e.plat e.org → (∀ x ∈ (t.part core ctx).eq, x.seq ≠ e.seq) ∧
        ∃ x ∈ (t.part core ctx).streams, x.seq = e.seq ∧ x.kind = e.kind ∧ x.started = true ∧
          x.per = (readDesc s ctx e.plat.cad).per)) ∧
    (∀ a map o, e.kind = .cldSp a map o → ∃ t, exec (.engineOpPerform core ctx e.seq) s = .next t ∧
      (¬cldSpFits s p e a o → heldWith s t core e 1 23) ∧
      (cldSpFits s p e a o → map % 8 ≠ 0 → heldWith s t core e 1 6) ∧
      (cldSpFits s p e a o → map % 8 = 0 → spadSize s core ctx < map + e.plat.box 1 * (8 + 8 * ((e.plat.box 0 + 63) / 64)) →
        heldWith s t core e 1 7) ∧
      (cldSpFits s p e a o → map % 8 = 0 → map + e.plat.box 1 * (8 + 8 * ((e.plat.box 0 + 63) / 64)) ≤ spadSize s core ctx →
        ∃ x ∈ (t.part core ctx).streams, x.seq = e.seq ∧ x.kind = e.kind ∧ x.started = true)) ∧
    (∀ o tr, (e.kind = .old o none ∧ tr = false ∨ ∃ rm sat st seed, e.kind = .oldT o rm sat st seed none ∧ tr = true) →
      ∃ t, exec (.engineOpPerform core ctx e.seq) s = .next t ∧
        (¬oldFits s p e o tr → heldWith s t core e 1 23) ∧
        (oldFits s p e o tr → ¬boxFits e.plat e.org → heldWith s t core e 1 27) ∧
        (oldFits s p e o tr → boxFits e.plat e.org → (t.part core ctx).rf = some (deliveredFmt s e) ∧
          ((p.rf = some (deliveredFmt s e) → (t.part core ctx).ostore = p.ostore) ∧
            (p.rf ≠ some (deliveredFmt s e) → (t.part core ctx).ostore = [])) ∧
          ∃ x ∈ (t.part core ctx).streams, x.seq = e.seq ∧ x.kind = e.kind ∧ x.started = true)) ∧
    (∀ a tgt rm sat st sc seed, e.kind = .adrain a tgt rm sat st sc seed → e.started = false →
      let d := readDesc s ctx e.plat.cad
      let shaped := (p.tile a).st ≠ .unshaped ∧ sectorRules d e.plat e.org ∧ d.elem = tgt ∧ e.plat.box 1 ≤ (p.tile a).rows ∧
        e.plat.box 0 ≤ (p.tile a).cols ∧
        (mxElem tgt = true → e.plat.box 0 % 32 = 0 ∧ e.org % 2 ^ 20 % 32 = 0 ∧ e.plat.str 1 % 32 = 0)
      ∃ t, exec (.engineOpPerform core ctx e.seq) s = .next t ∧
        (¬shaped → heldWith s t core e 1 23) ∧
        (shaped → ¬boxFits e.plat e.org → heldWith s t core e 1 27) ∧
        (shaped → boxFits e.plat e.org → tileChecks s core (p.tile a) ≠ 0 → (s.strand e.uid).slice = none →
          ((t.part core ctx).tile a).st = .held ∧ ∃ x, (t.part core ctx).eq.find? (fun x => x.seq == e.seq) = some x ∧ x.heldAt = 2) ∧
        (shaped → boxFits e.plat e.org → tileChecks s core (p.tile a) ≠ 0 → (s.strand e.uid).slice ≠ none →
          (t.strand e.uid).rerunWaits = true ∧ ∃ x, (t.part core ctx).eq.find? (fun x => x.seq == e.seq) = some x ∧ x.heldAt = 3) ∧
        (shaped → boxFits e.plat e.org → tileChecks s core (p.tile a) = 0 →
          ((t.part core ctx).tile a).st = .draining ∧ t.mem = s.mem ∧
          ∃ x, (t.part core ctx).eq.find? (fun x => x.seq == e.seq) = some x ∧ x.started = true ∧ x.per = d.per ∧ x.row = e.row)) ∧
    (∀ a tgt rm sat st sc seed, e.kind = .adrain a tgt rm sat st sc seed → e.started = true →
      let row := drainRow s core e (p.tile a) e.per tgt rm sat st sc seed e.row
      let l0 := e.plat.box 0
      let y := e.org / 2 ^ 20 % 2 ^ 20 + e.row
      let at0 := y * e.plat.str 1 + e.org % 2 ^ 20
      let bits := (elemFmt tgt).bits
      let secOf (j : Nat) : Nat := e.plat.base + 64 * ((at0 + j) / e.per)
      let lane (j : Nat) : Val := (s.lane core ctx a e.row j).val (p.tile a).datum
      let rnd (j : Nat) : Rnd := rndOf rm seed st (y * 2 ^ 32 + (e.org % 2 ^ 20 + j))
      let block (b : Nat) : Nat × List Nat × Nat :=
        mxScale ((List.range 32).map fun i => lane (32 * b + i)) tgt ((List.range 32).map fun i => rnd (32 * b + i)) sat
      let code (j : Nat) : Nat := if mxElem tgt = true then (block (j / 32)).2.1.getD (j % 32) 0 else (convertNum (elemFmt tgt) (rnd j) sat (lane j)).1
      let scaleAt (b : Nat) : Nat := sc + (at0 + 32 * b) / 32
      let laid := e.plat.base % 64 = 0 ∧ 0 < e.per ∧ e.per ≤ (if bits = 6 then 84 else 512 / bits) ∧ (bits = 4 → at0 % e.per % 2 = 0) ∧
        (bits = 6 → at0 % e.per % 4 = 0) ∧
        (mxElem tgt = true → l0 % 32 = 0 ∧ ∀ b < l0 / 32, ∀ j < l0, scaleAt b < secOf j ∨ secOf j + 64 ≤ scaleAt b)
      (∀ s1 ps, e.out = [] → e.row < e.plat.box 1 → drainSites s core core ctx row.1 = (s1, .ok ps) →
        ∃ t x, exec (.engineOpPerform core ctx e.seq) s = .next t ∧ t.mem = s1.mem ∧
          (t.part core ctx).eq.find? (fun x => x.seq == e.seq) = some x ∧ x.row = e.row ∧
          (∀ w ∈ x.out, 0 < w.2.length ∧ w.1 % 8 + w.2.length ≤ 8) ∧
          (laid → (∀ (m : Nat → Byte), ∀ j < l0,
              codeIn (fun z => (overlaid x.out z).getD (m z)) tgt (secOf j) ((at0 + j) % e.per) = code j % 2 ^ bits) ∧
            (mxElem tgt = true → ∀ b < l0 / 32, overlaid x.out (scaleAt b) = some (BitVec.ofNat 8 (block b).1)) ∧
            (bits = 6 → ∀ j < l0, overlaid x.out (secOf j + 63) = some 0) ∧
            ∀ z, overlaid x.out z ≠ none → (∃ j < l0, secOf j ≤ z ∧ z < secOf j + 64) ∨ mxElem tgt = true ∧ ∃ b < l0 / 32, z = scaleAt b)) ∧
      (∀ w ws s1 site, e.out = w :: ws → drainSite s core core ctx w.1 w.2.length = (s1, .ok site) →
        site.loc = true ∨ homeOf s1 site.pa = .first → s1.watches = [] →
        ∃ t x, exec (.engineOpPerform core ctx e.seq) s = .next t ∧ wrote s1.mem t.mem site.pa w.2 ∧
          (t.part core ctx).eq.find? (fun x => x.seq == e.seq) = some x ∧ x.out = ws ∧
          x.row = if ws = [] then e.row + 1 else e.row) ∧
      (e.out = [] → e.plat.box 1 ≤ e.row → ∃ t, exec (.engineOpPerform core ctx e.seq) s = .next t ∧ t.mem = s.mem ∧
        ((t.part core ctx).tile a).st = .drained ∧ ((t.part core ctx).tile a).dflags = e.flags % 16 ∧
        (∀ j ∈ (p.tile a).phys, (tget PTile.init (t.core core).ptiles j).drained = true) ∧
        ∀ x ∈ (t.part core ctx).eq, x.seq ≠ e.seq)) ∧
    (∀ list par qb cap, e.kind = .mseq list par qb cap → e.started = false → par % 16 = 0 → par + 80 ≤ spadSize s core ctx →
      spadBusy s core ctx par 80 = false → spadPoisoned s core ctx par 80 = false → list % 2 = 0 →
      let b := spadRead s core ctx par 80
      let es := maskList b qb
      let bs := (es.take cap).flatMap fun v => leBytes 2 v
      ∃ t, exec (.engineOpPerform core ctx e.seq) s = .next t ∧
        (maskOk b = false → heldWith s t core e 1 30) ∧
        (maskOk b = true → list + 2 * (es.take cap).length ≤ spadSize s core ctx → t.mem = s.mem ∧
          ∃ x, (t.part core ctx).eq.find? (fun x => x.seq == e.seq) = some x ∧ x.started = true ∧ x.row = es.length ∧
            x.out = atomsOf list bs)) ∧
    (∀ list par qb cap, e.kind = .mseq list par qb cap → e.started = true → ∃ t, exec (.engineOpPerform core ctx e.seq) s = .next t ∧
      (∀ w ws, e.out = w :: ws → spadBusy s core ctx w.1 w.2.length = false → s.watches = [] →
        wrote s.mem t.mem (spadPA s core ctx w.1) w.2 ∧
          ∃ x, (t.part core ctx).eq.find? (fun x => x.seq == e.seq) = some x ∧ x = { e with out := ws }) ∧
      (∀ w ws, e.out = w :: ws → spadBusy s core ctx w.1 w.2.length = true → t = s) ∧
      (e.out = [] → performedWith s t core e [w64 e.row] ∧ t.mem = s.mem))) ∧
  (∀ (s : State) (core ctx seq k : Nat) (e : EngOp) (f : Flight) (r : Reply),
    let p := s.part core ctx
    p.streams.find? (fun e => e.seq == seq) = some e → e.flight.find? (fun f => f.t == k) = some f → reachPA s ctx f.pa = .open →
    flightBusy s f = false → (∀ c ∈ loadCores core e, frozenNow s c = false) →
    (let wide := if e.kind.writes && !e.marks.isEmpty then e.wide else widened s ctx e.snap
     replySector s ctx { e with flight := e.flight.filter (fun x => x.t != k), wide := wide } f = .ok r) →
    (∀ x ∈ p.streams, isCoop core seq x = false) → (s.strand e.uid).close = none →
    let y := (e.sector k).1
    let x := r.per * (e.sector k).2.1
    let n := min r.codes.length (e.plat.box 0 - x)
    (∀ a o coop (oc : Nat → Nat), e.kind = .cld a o coop → oc core = o → core ∈ loadCores core e →
      (∀ c ∈ loadCores core e, ((s.part c ctx).tile a).wellBound ∧ y < ((s.part c ctx).tile a).rows) →
      (∀ c ∈ loadCores core e, c ≠ core → ∃ z, (s.part c ctx).streams.find? (isCoop core seq) = some z ∧ z.kind = .coop core seq a (oc c)) →
      ∃ t, exec (.sectorReply core ctx seq k) s = .next t ∧ t.mem = s.mem ∧ ∀ c ∈ loadCores core e,
        let q := s.part c ctx
        let dat := (q.tile a).datum
        (∀ j < (q.tile a).cols, t.lane c ctx a y j =
          (if r.qa = true then (List.range (n / r.group)).foldl (fun l g => l.add (termOfQA q dat r g (oc c + x + g * r.group) j)) (s.lane c ctx a y j)
           else (List.range n).foldl (fun l i => l.add (termOf q dat r i (oc c + x + i) j)) (s.lane c ctx a y j))) ∧
        ∀ i < (q.tile a).rows, i ≠ y → ∀ j < (q.tile a).cols, t.lane c ctx a i j = s.lane c ctx a i j) ∧
    (∀ a map o, e.kind = .cldSp a map o → (p.tile a).wellBound → y < (p.tile a).rows →
      let word (i : Nat) : Nat := tget 0 e.buf (y * 64 + i)
      let pos := (List.range (e.plat.box 0)).filter fun b => (word (1 + b / 64)).testBit (b % 64)
      ∃ t, exec (.sectorReply core ctx seq k) s = .next t ∧ t.mem = s.mem ∧
        (∀ j < (p.tile a).cols, t.lane core ctx a y j = (List.range (min r.codes.length (word 0 / 2 ^ 32 % 2 ^ 16 - x))).foldl (fun l i =>
          l.add (termOf p (p.tile a).datum r i (o + pos.getD (x + i) 0) j)) (s.lane core ctx a y j)) ∧
        ∀ i < (p.tile a).rows, i ≠ y → ∀ j < (p.tile a).cols, t.lane core ctx a i j = s.lane core ctx a i j) ∧
    (p.rf = some ⟨r.elem, r.block⟩ → r.elem ∈ residentCodes → (∀ v ∈ r.codes, v < 2 ^ 16) → (∀ v ∈ r.scales, v < 2 ^ 8) →
      y < 2 ^ 12 → x + n ≤ 2 ^ 12 →
      let bits := (elemFmt r.elem).bits
      let cell (q : Part) (row col : Nat) : Nat := resCode q.ostore r.elem row col
      let fresh (row : Nat) : Prop := tget? e.buf (2 ^ 30 + row) = none
      (∀ o ch tr, e.kind = .old o ch ∧ tr = false ∨ (∃ rm sat st seed, e.kind = .oldT o rm sat st seed ch) ∧ tr = true ∧ r.block = false →
        (if tr = true then y < 256 else x + n ≤ 256) →
        (∀ i < n, ∀ j < n, (x + i) / 32 = (x + j) / 32 → r.scales.getD i 0 = r.scales.getD j 0) →
        let place (i : Nat) : Nat × Nat := if tr = true then (o + x + i, y) else (o + y, x + i)
        ∃ t, exec (.sectorReply core ctx seq k) s = .next t ∧ t.mem = s.mem ∧
          (∀ i < n, cell (t.part core ctx) (place i).1 (place i).2 = r.codes.getD i 0 % 2 ^ bits ∧
            (r.block = true → (tget 0 (t.part core ctx).oscale ((o + y) * 8 + (x + i) / 32)).toNat = r.scales.getD i 0)) ∧
          ∀ row, ∀ col < 256, (∀ i < n, place i ≠ (row, col)) →
            ((∃ i < n, (place i).1 = row) → fresh row → cell (t.part core ctx) row col = 0) ∧
            ((∀ i < n, (place i).1 ≠ row) ∨ ¬fresh row → cell (t.part core ctx) row col = cell p row col)) ∧
      (∀ o rm sat st seed ch, e.kind = .oldT o rm sat st seed ch → r.block = true → y < e.plat.box 1 → y < 256 →
        let ns := (e.plat.box 0 + e.per - 1) / e.per
        let rest := ∀ i < 32, 32 * (y / 32) + i < e.plat.box 1 → (32 * (y / 32) + i) * ns + (e.sector k).2.1 ∈ k :: e.kept
        ∃ t, exec (.sectorReply core ctx seq k) s = .next t ∧ t.mem = s.mem ∧
          (rest → ∀ j < n,
            let val (m : Nat) : Val :=
              if m = y then elemVal r.elem r.block (r.scales.getD j 0) (r.codes.getD j 0)
              else if m < e.plat.box 1 then elemVal (e.fmtAt m (x + j)).elem (e.fmtAt m (x + j)).block (e.scl m (x + j)) (e.code m (x + j))
              else .fin false 0 1
            let m := mxScale ((List.range 32).map fun i => val (32 * (y / 32) + i)) r.elem
              ((List.range 32).map fun i => rndOf rm seed st ((o + x + j) * 2 ^ 32 + (32 * (y / 32) + i))) sat
            (∀ i < 32, cell (t.part core ctx) (o + x + j) (32 * (y / 32) + i) = m.2.1.getD i 0 % 2 ^ bits) ∧
              (tget 0 (t.part core ctx).oscale ((o + x + j) * 8 + y / 32)).toNat = m.1 % 2 ^ 8) ∧
          (¬rest → (t.part core ctx).ostore = p.ostore ∧ (t.part core ctx).oscale = p.oscale))))

/-- A running load that may ask, in its context's turn, requests its lowest sector that is neither accumulated nor in
flight, never one more than 63 above the lowest not accumulated; a reply with a cause leaves the sector unmarked. A
chain reservation takes its place in the next member's queue; its data reaches that member's window. SLOTW at
supervisor privilege writes an entry, which the core's table takes at the next frame boundary, a cycle that is a
multiple of 16,384. The rerun of a slice whose drain failed its check puts the strand at its checkpoint: PC, WSP,
DSEED, predicate word and w0-w9 from the record, every other register zero, nothing outstanding. (R247, R250, R260,
R261, R265) -/
def Obligations.EngineEvents : Prop :=
  (∀ (s s1 : State) (core ctx seq k : Nat) (e : EngOp) (f : Flight),
    (s.part core ctx).streams.find? (fun e => e.seq == seq) = some e →
    ((s.parts.filter fun q => q.2.core == core).map fun q => (q.2.streams.map fun x => x.flight.length).foldl (· + ·) 0).foldl (· + ·) 0 < 64 →
    canAsk s core (s.part core ctx) e = true → engineNext s core = some ctx → frozenNow s core = false → e.nextSector = some k →
    askSector (s.modCore core fun c => { c with engTurn := ctx }) core ctx e k = (s1, .ok f) → s1.part core ctx = s.part core ctx →
    k < e.known.1 ∧ k ∉ e.marks ∧ (∀ g ∈ e.flight, g.t ≠ k) ∧ (∀ j < k, j ∈ e.marks ∨ ∃ g ∈ e.flight, g.t = j) ∧
    (∀ b, b ∉ e.marks → (∀ j < b, j ∈ e.marks) → k ≤ b + 63) ∧
    ∃ t, exec (.sectorRequest core ctx seq) s = .next t ∧ { e with flight := e.flight ++ [f] } ∈ (t.part core ctx).streams) ∧
  (∀ (s : State) (core ctx seq k : Nat) (e : EngOp) (f : Flight) (c : Cause),
    (s.part core ctx).streams.find? (fun e => e.seq == seq) = some e → e.flight = [f] → f.t = k → reachPA s ctx f.pa = .open →
    frozenNow s core = false → flightBusy s f = false →
    replySector s ctx { e with flight := [], wide := if e.kind.writes && !e.marks.isEmpty then e.wide else widened s ctx e.snap } f =
      .error c → e.heldAt = 0 → loadCores core e = [core] → (s.strand e.uid).close = none →
    ∃ t, exec (.sectorReply core ctx seq k) s = .next t ∧
      ∃ x, (t.part core ctx).streams.find? (fun e => e.seq == seq) = some x ∧ x.heldAt = 2 ∧ x.marks = e.marks ∧ x.flight = []) ∧
  (∀ (s : State) (core ctx seq m : Nat) (ms : List Nat) (e : EngOp), m ≠ core →
    (s.part core ctx).streams.find? (fun e => e.seq == seq) = some e → e.toReserve = m :: ms → engineQueued s m < 16 →
    ∃ t x, exec (.traverseReservation core ctx seq) s = .next t ∧ (t.part m ctx).eq = (s.part m ctx).eq ++ [x] ∧
      x.kind = .member core seq ∧ x.seq = (s.core m).nextSeq ∧ { e with toReserve := ms } ∈ (t.part core ctx).streams) ∧
  (∀ (s : State) (core ctx seq m : Nat) (ms : List Nat) (e x : EngOp), m ≠ core →
    (s.part core ctx).streams.find? (fun e => e.seq == seq) = some e → e.toSend = m :: ms → (∀ t < e.known.1, t ∈ e.marks) →
    s.off m ctx = false → (s.strand e.uid).lcore = core → (s.part m ctx).eq.find? (isMember core seq) = some x →
    unblocked s (s.part m ctx) x = true → frozenNow s m = false → loadCores core e = [core] → (s.strand e.uid).close = none →
    ∃ t, exec (.traverseData core ctx seq) s = .next t ∧
      t.part m ctx = (storeAll (s.part m ctx) e).dropEq x.seq) ∧
  (∀ (s : State) (h : Hdr) (ra rb : Reg), s.passes h [.r ra, .r rb] → s.me.sup = true →
    ∃ q, exec (.slotw h ra rb) s = .next (closeOf h s.cur q) ∧ q.strand s.cur = s.me.past 4 ∧
      (∀ i, tget? (q.core s.me.lcore).stabNew i = if i = (s.me.reg ra).toNat % 64 then
          some ((s.me.reg rb).toNat % 2 ^ 12 + (s.me.reg rb).toNat / 2 ^ 15 % 2 * 2 ^ 15)
        else tget? (s.core s.me.lcore).stabNew i) ∧ (q.core s.me.lcore).stab = (s.core s.me.lcore).stab) ∧
  (∀ (s : State) (core : Nat), s.cycle % 2 ^ 14 ≠ 0 → exec (.slotFrameBoundary core) s = .next s) ∧
  (∀ (s : State) (core : Nat), rising (s.core core).stabNew → s.cycle % 2 ^ 14 = 0 → ∃ t, exec (.slotFrameBoundary core) s = .next t ∧
    (t.core core).stabNew = [] ∧
    ∀ i, tget 0 (t.core core).stab i = (tget? (s.core core).stabNew i).getD (tget 0 (s.core core).stab i)) ∧
  (∀ (s : State) (core ctx seq : Nat) (e : EngOp),
    (s.part core ctx).eq.find? (fun e => e.seq == seq) = some e → e.heldAt = 3 →
    ((s.strand e.uid).st = .ready ∨ ∃ w, (s.strand e.uid).st = .parked w) →
    let b := readBytes s (checkpointOf s (s.strand e.uid)) 128
    ∃ t, exec (.sliceRerun core ctx seq) s = .next t ∧
      let q := t.strand e.uid
      q.st = .ready ∧ q.rerunWaits = false ∧ q.turn = slotClock s (s.strand e.uid) + 1 ∧ q.pc = recLE b 0 8 ∧ q.wsp = w64 (recLE b 8 8) ∧ q.dseed = w64 (recLE b 16 8) ∧
      q.pword = recLE b 24 2 / 2 * 2 ∧ (∀ i < 10, q.reg (wreg i) = w64 (recLE b (32 + 8 * i) 8)) ∧
      (∀ i, 10 ≤ i → i < 24 → q.reg (wreg i) = 0) ∧ (∀ r : Reg, r.val < 8 → q.reg r = 0) ∧ q.wres = 0 ∧ q.pend = [] ∧
      q.ops = [] ∧ q.ptrs = [] ∧ q.mboxes = [] ∧ q.plats = [] ∧ q.handles = (s.strand e.uid).handles ∧
      q.slice = (s.strand e.uid).slice ∧ t.mem = s.mem)

/-- HOPEN of an open handle answers H_OPEN, and an instruction on a closed one H_NOTOPEN, at once; a misaligned address
raises ALIGN; otherwise HOPEN, HCLOSE, HBATCH, HATTACH, HDETACH, HSWAP, HVERIFY and HFOLD are sent with their
registers pending, HFOLD with an entry of the die's queue where one is free (WORLD where the die's fold engine is of
the other world). HLIST answers from the snapshot, and is sent only for selector 9. ACC of ALIGN, and that H_OPEN and
H_NOTOPEN come before ALIGN, are the model's choices (log entries 25 and 49). (R290, R293, R294, R295, R296, R297,
R298, R309) -/
def Obligations.HandleIssue : Prop :=
  (∀ (s : State) (i : Instr) (h : Hdr) (op : HOp) (o : Obj2) (rd : Reg) (regs : List Reg) (b : Nat) (c : Option Cause),
    HandleRule s.me i h op o rd regs b c → s.passes h (handleOperands op o regs) → s.room → s.me.close = none →
    (∀ x ∈ s.me.ops, x.id < s.me.nextOp) →
    ((s.me.handle o).op = false → ∃ q v, exec i s = .next (closeOf h s.cur q) ∧ answered s q rd v ∧ v.toNat % 2 ^ 8 = 1) ∧
    ((s.me.handle o).op = true → (∀ x, c = some x → exec i s = .next (trapAt s s.cur s.me.pc 4 x)) ∧
      (c = none → exec i s = .next (s.leave h ((s.me.past 4).send (.handle op o.val (s.me.handle o).raddr b) .s s.me.pc 4 s.steps
        (handlePending s.me op o rd)))))) ∧
  (∀ (s : State) (h : Hdr) (o : Obj2) (rd ra : Reg), s.passes h (handleOperands .hopen o [rd, ra]) → s.room → s.me.close = none →
    (∀ x ∈ s.me.ops, x.id < s.me.nextOp) →
    let r := s.me.handle o
    let a := (s.me.reg ra).toNat
    (r.op = true → ∃ q v, exec (.hopen h o rd ra) s = .next (closeOf h s.cur q) ∧ answered s q rd v ∧ v.toNat % 2 ^ 8 = 2) ∧
    (r.op = false → a % 64 ≠ 0 → exec (.hopen h o rd ra) s = .next (trapAt s s.cur s.me.pc 4 { code := 6, addr := a, acc := 3 })) ∧
    (r.op = false → a % 64 = 0 → exec (.hopen h o rd ra) s = .next (s.leave h ((s.me.past 4).send (.handle .hopen o.val a 0) .s
      s.me.pc 4 s.steps (handlePending s.me .hopen o rd))))) ∧
  (∀ (s : State) (h : Hdr) (o : Obj2) (rd ra : Reg), s.passes h (handleOperands .hfold o [rd, ra]) → s.room → s.me.close = none →
    (∀ x ∈ s.me.ops, x.id < s.me.nextOp) →
    let r := s.me.handle o
    let a := (s.me.reg ra).toNat
    (r.op = false → ∃ q v, exec (.hfold h o rd ra) s = .next (closeOf h s.cur q) ∧ answered s q rd v ∧ v.toNat % 2 ^ 8 = 1) ∧
    (r.op = true → a % 32 ≠ 0 → exec (.hfold h o rd ra) s = .next (trapAt s s.cur s.me.pc 4 { code := 6, addr := a, acc := 3 })) ∧
    (r.op = true → a % 32 = 0 → rising s.strands → ∃ q x, exec (.hfold h o rd ra) s = .next (closeOf h s.cur q) ∧
      q.op s.cur s.me.nextOp = some x ∧ x.kind = .handle .hfold o.val r.raddr a ∧ x.dests = s.me.dest rd ∧
      ((s.ctx s.me.ctx).secure ≠ cfgBit s (608 + coreDie s.me.pcore) → x.phase = .faulted ∧ x.cause.code = 9) ∧
      ((s.ctx s.me.ctx).secure = cfgBit s (608 + coreDie s.me.pcore) → x.phase = .sent ∧
        x.resv = decide (foldsReserved s (coreDie s.me.pcore) < 8))) ∧
    (let sel := a % 16
     (r.op = false ∨ 10 ≤ sel → ∃ q, exec (.hlist h o rd ra) s = .next (closeOf h s.cur q) ∧ answered s q rd 0) ∧
     (r.op = true → sel < 8 → ∃ q, exec (.hlist h o rd ra) s = .next (closeOf h s.cur q) ∧
       answered s q rd (if sel < r.nl then w64 (r.ids.getD sel 0) else w64 (2 ^ 64 - 1))) ∧
     (r.op = true → sel = 8 → ∃ q v, exec (.hlist h o rd ra) s = .next (closeOf h s.cur q) ∧ answered s q rd v ∧
       (r.gen < 2 ^ 16 → r.nl < 16 → v.toNat % 2 ^ 16 = r.gen ∧ v.toNat / 2 ^ 16 % 2 ^ 4 = r.nl)) ∧
     (r.op = true → sel = 9 → exec (.hlist h o rd ra) s = .next (s.leave h ((s.me.past 4).send (.handle .hlist o.val r.raddr 9) .s
       s.me.pc 4 s.steps (s.me.dest rd))))))

/-- An instruction whose record reads at its home is performed there on it, and is done with a status. HOPEN reports, in
this order, a malformed or poisoned record, one not verified and a full HOLD, or counts a holder and its handle
register takes the snapshot; HBATCH moves its holder on and takes a new snapshot, HCLOSE drops it; HATTACH appends its
layer, HDETACH removes it, HSWAP takes the new base and keeps the old one, each with the next generation, which is
marked, in the orders of the causes; HVERIFY leaves the record verified or poisoned; HLIST returns the status word.
HFOLD refuses a poisoned record, a malformed one, one that folds or keeps an old base, an empty list, a signed one, a
widened layer and a bad destination, in this order, and gives its reservation back. A record, a plat record or a
request block that does not read faults the instruction. A scrub of a record that some strand of its context has open,
with HSCRUB set and IMODE 1, whose interval has passed and whose next shard it is, reads that shard of the base and
its digest: where they agree the record is unchanged, where they differ its PSN is set and its list stays; the
rotation goes on either way. Before the interval has passed (kept for each record; log entry 101), for another shard,
or while the record's page is write-blocked, nothing happens. HFOLD with its reservation marks the record and queues a
job. The engine of a die works on the first job that it accepted. A QUEUED job becomes RUNNING. A running job reads
its next sector as the slices deliver it, its page and descriptor checked, amends it by the snapshot's layers, checks
the page it goes to, and has the sector and its scales to write; a check or a read that fails fails the job, and it
waits for a line in flight, a place that cannot be reached or a write-blocked page. A running job with something to
write writes its next 8-byte atom; with every sector and digest written it is COMMITTING. The commit takes the
destination as the base at the record's home, keeps the old base in PREV, empties the list, takes the next generation
and clears FOLD, then writes FRES, and the job has left the queue; a failed job clears FOLD, writes FADDR and FRES
with its cause, and has left the queue. Where the record or the request block is on a write-blocked page the job stays
as it is. (R292, R293, R294, R295, R296, R297, R298, R300, R305, R309, R311, R312) -/
def Obligations.HandlesAtHome : Prop :=
  ((∀ (s s1 : State) (u h va b pa : Nat) (op : HOp) (o : Op) (r : HRec), s.sentOp u o → o.kind = .handle op h va b → op ≠ .hfold →
    (op = .hbatch ∨ op = .hclose → snapshotInUse s u h (fun x => x.phase != .late) = false) → earlierOp s u va 64 o.seq = false →
    readRecord s u o va = (s1, .ok (pa, r)) → s1.watches = [] → s1.op u o.id = some o →
    let c := (s.strand u).ctx
    let g := tget Handle.init (s.strand u).handles h
    let changed (q : HRec) : Prop := q.gen = (r.gen + 1) % 2 ^ 16 ∧ q.mark = (r.gen + 1) % 2 ^ 16 ∧ q.oldh = r.hold ∧ q.hold = r.hold ∧
      (r.imode = 2 → q.ver = false) ∧ q.plat = r.plat ∧ q.iref = r.iref
    ∃ t, exec (.handleHomePerform u o.id) s = .next t ∧
      (op = .hlist → ∃ q : Op, t.op u o.id = some q ∧ q.phase = .done ∧ q.res = [w64 r.stat] ∧ t.mem = s1.mem) ∧
      (op = .hattach ∨ op = .hdetach ∨ op = .hswap ∨ op = .hbatch → r.psn = true → recorded s1 t u o pa 10 (· = r)) ∧
      (op = .hattach ∨ op = .hdetach → r.psn = false → r.fold = true → recorded s1 t u o pa 7 (· = r)) ∧
      (op = .hattach → b < 2 ^ 12 → r.psn = false → r.fold = false → r.nl ≤ 8 →
        (layerOf s1 c b = none → recorded s1 t u o pa 4 (· = r)) ∧
        (layerOf s1 c b ≠ none → b ∈ r.list → recorded s1 t u o pa 5 (· = r)) ∧
        (layerOf s1 c b ≠ none → b ∉ r.list → r.nl = 8 → o.child = none → (s1.strand u).close = none →
          ∃ x, t.op u o.id = some x ∧ x.phase = .faulted ∧ x.cause.code = 15 ∧ t.mem = s1.mem) ∧
        (layerOf s1 c b ≠ none → b ∉ r.list → r.nl < 8 →
          recorded s1 t u o pa 0 fun q => q.list = r.list ++ [b] ∧ q.nl = r.nl + 1 ∧ q.base = r.base ∧ q.prev = r.prev ∧ changed q)) ∧
      (op = .hdetach → r.psn = false → r.fold = false → r.nl ≤ 8 →
        (b ∉ r.list → recorded s1 t u o pa 6 (· = r)) ∧
        (b ∈ r.list → recorded s1 t u o pa 0 fun q => q.list = r.list.erase b ∧ q.nl = r.nl - 1 ∧ q.base = r.base ∧ changed q)) ∧
      (op = .hswap → r.psn = false →
        (r.prev ≠ 0 ∨ r.fold = true → recorded s1 t u o pa 7 (· = r)) ∧
        (r.prev = 0 → r.fold = false → b < 2 ^ 64 → recorded s1 t u o pa 0 fun q => q.base = b / 64 * 64 ∧ q.prev = r.base ∧
          q.list = (if b % 2 = 1 then [] else r.list) ∧ changed q)) ∧
      (op = .hclose → recorded s1 t u o pa 0 (fun q => q.hold = (r.hold + 2047) % 2048 ∧ q.gen = r.gen ∧ q.list = r.list) ∧
        tget Handle.init (t.strand u).handles h = Handle.init) ∧
      (op = .hbatch → r.psn = false →
        (r.gen ≠ g.gen → r.imode = 2 → r.ver = false → recorded s1 t u o pa 9 (· = r)) ∧
        (r.gen = g.gen ∨ r.imode ≠ 2 ∨ r.ver = true →
          recorded s1 t u o pa 0 (fun q => q.hold = r.hold ∧ q.gen = r.gen ∧ q.list = r.list ∧ q.base = r.base ∧
            (g.gen = r.mark → q = r) ∧ (g.gen ≠ r.mark → q.oldh = (r.oldh + 2047) % 2048 ∧ (q.oldh = 0 → q.prev = 0) ∧
              (q.oldh ≠ 0 → q.prev = r.prev))) ∧
          (tget Handle.init (t.strand u).handles h).gen = r.gen ∧ (tget Handle.init (t.strand u).handles h).ids = r.list ∧
          (tget Handle.init (t.strand u).handles h).base = r.base)) ∧
      (op = .hverify →
        (r.imode = 0 → recorded s1 t u o pa 0 (· = r)) ∧
        (r.imode ≠ 0 → verifyOk s1 c r = true → recorded s1 t u o pa 0 fun q => q.list = r.list ∧ q.gen = r.gen ∧ q.psn = r.psn ∧
          (r.imode = 2 → q.ver = true) ∧ (r.imode ≠ 2 → q = r)) ∧
        (r.imode ≠ 0 → verifyOk s1 c r = false → recorded s1 t u o pa 11 fun q => q.psn = true ∧ q.list = r.list ∧ q.gen = r.gen)) ∧
      (∀ s2 k, op = .hopen → readPlat s1 u o r false = (s2, .error (some k)) → s2.op u o.id = some o → o.child = none →
        (s2.strand u).close = none → t.mem = s2.mem ∧ t.op u o.id = some { o with phase := .faulted, cause := k }) ∧
      (∀ s2, op = .hopen → readPlat s1 u o r false = (s2, .error none) → t = s2) ∧
      (∀ s2 p, op = .hopen → readPlat s1 u o r false = (s2, .ok p) → s2.mem = s1.mem → s2.watches = [] → s2.op u o.id = some o →
        (r.wellFormed s2 c p = false → recorded s1 t u o pa 3 (· = r)) ∧
        (r.wellFormed s2 c p = true →
          (r.psn = true → recorded s1 t u o pa 10 (· = r)) ∧
          (r.psn = false → r.imode = 2 → r.ver = false → recorded s1 t u o pa 9 (· = r)) ∧
          (r.psn = false → r.imode ≠ 2 ∨ r.ver = true →
            (r.hold = 2047 → recorded s1 t u o pa 8 (· = r)) ∧
            (r.hold < 2047 → recorded s1 t u o pa 0 (fun q => q.hold = r.hold + 1 ∧ q.gen = r.gen ∧ q.list = r.list) ∧
              (tget Handle.init (t.strand u).handles h).op = true ∧ (tget Handle.init (t.strand u).handles h).raddr = va ∧
              (tget Handle.init (t.strand u).handles h).gen = r.gen ∧ (tget Handle.init (t.strand u).handles h).ids = r.list ∧
              (tget Plat.init (t.strand u).plats h).linked = true ∧ (tget Plat.init (t.strand u).plats h).base = r.base))))) ∧
  (∀ (s s1 : State) (u h va b : Nat) (op : HOp) (o : Op) (c : Cause), s.sentOp u o → o.kind = .handle op h va b → op ≠ .hfold →
    (op = .hbatch ∨ op = .hclose → snapshotInUse s u h (fun x => x.phase != .late) = false) → earlierOp s u va 64 o.seq = false →
    readRecord s u o va = (s1, .error (some c)) → s1.op u o.id = some o → o.child = none → (s1.strand u).close = none →
    ∃ t, exec (.handleHomePerform u o.id) s = .next t ∧ t.mem = s1.mem ∧ t.op u o.id = some { o with phase := .faulted, cause := c }) ∧
  (∀ (s s1 : State) (u h va req : Nat) (o : Op), s.sentOp u o → o.kind = .handle .hfold h va req → o.resv = true →
    earlierOp s u va 64 o.seq = false →
    (∀ c, readRequest s u o req = (s1, .error (some c)) → s1.op u o.id = some o → o.child = none → (s1.strand u).close = none →
      ∃ t, exec (.handleHomePerform u o.id) s = .next t ∧ t.mem = s1.mem ∧ t.op u o.id = some { o with phase := .faulted, cause := c }) ∧
    (∀ (d : Nat × Nat) (s2 s3 : State) (pa : Nat) (r : HRec) (p : List Byte), readRequest s u o req = (s1, .ok d) →
      readRecord s1 u o va = (s2, .ok (pa, r)) → (if r.psn = true then (s2, .ok []) else readPlat s2 u o r false) = (s3, .ok p) →
      s3.op u o.id = some o →
      let c := (s.strand u).ctx
      let n := baseLen s3 c r p
      let refused (code : Nat) : Prop := ∃ t, exec (.handleHomePerform u o.id) s = .next t ∧
        t.doneOp u { o with resv := false } [hStatus code r] ∧ t.mem = s3.mem ∧ t.folds = s3.folds
      let ill := d.1 % 64 ≠ 0 ∨ d.1 = 0 ∨ r.imode = 1 ∧ (d.2 = 0 ∨ d.2 % 64 ≠ 0) ∨ r.imode ≠ 1 ∧ d.2 ≠ 0 ∨
        d.1 < r.base + n ∧ r.base < d.1 + n
      (r.psn = true → refused 10) ∧
      (r.psn = false → r.wellFormed s3 c p = false → refused 3) ∧
      (r.psn = false → r.wellFormed s3 c p = true →
        (r.fold = true ∨ r.prev ≠ 0 → refused 7) ∧
        (r.fold = false → r.prev = 0 →
          (r.nl = 0 → refused 14) ∧ (r.nl ≠ 0 → r.imode = 2 → refused 13) ∧
          (r.nl ≠ 0 → r.imode ≠ 2 → (∃ i ∈ r.list, layerDeliv s3 c i = true) → refused 12) ∧
          (r.nl ≠ 0 → r.imode ≠ 2 → (∀ i ∈ r.list, layerDeliv s3 c i = false) → ill → refused 15)))))) ∧
  (∀ (s : State) (ctx va k : Nat) (x : Xl) (p l d : List Byte),
    (∃ t ∈ s.strands, t.2.ctx = ctx ∧ ∃ h ∈ t.2.handles, h.2.op = true ∧ h.2.raddr = va) →
    checkLeaf s ctx va .read true (walk s ctx va) = .ok x →
    let r := hReadRec s x.pa
    let last := tget (0, 0) s.scrubs x.pa
    let n := baseLen s ctx r p
    let a := 2 ^ 20 * k
    ((s.ctx ctx).hscrub = 0 ∨ x.wb = true ∨ r.imode ≠ 1 ∨ k ≠ last.1 ∨ s.cycle < last.2 + (s.ctx ctx).hscrub → exec (.handleScrub ctx va k) s = .next s) ∧
    ((s.ctx ctx).hscrub ≠ 0 → x.wb = false → r.imode = 1 → k = last.1 → last.2 + (s.ctx ctx).hscrub ≤ s.cycle → handlePlat s ctx r = .ok p → a < n →
      readVA s ctx (sectorPieces (r.base + a) (min (2 ^ 20) (n - a))) = .ok l →
      readVA s ctx (sectorPieces (r.iref + 32 * k) 32) = .ok d →
      ∃ t, exec (.handleScrub ctx va k) s = .next t ∧
        tget (0, 0) t.scrubs x.pa = (if a + 2 ^ 20 < n then k + 1 else 0, s.cycle) ∧
        (sha256 l = d → t.mem = s.mem) ∧
        (sha256 l ≠ d → (hReadRec t x.pa).psn = true ∧ (hReadRec t x.pa).list = r.list ∧ (hReadRec t x.pa).gen = r.gen))) ∧
  ((∀ (s : State) (die : Nat) (j : FoldJob), foldAt s die = some j →
    (j.st = 0 → j.fail = none → ∃ t, exec (.foldJobStart die) s = .next t ∧ foldAt t die = some { j with st := 1 } ∧ t.mem = s.mem) ∧
    (∀ w rest, j.st = 1 → j.fail = none → j.out = w :: rest → homeOf s w.1 = .first → s.watches = [] →
      ∃ t q, exec (.foldJobStart die) s = .next t ∧ wrote s.mem t.mem w.1 w.2 ∧ foldAt t die = some q ∧ q.out = rest ∧ q.st = 1 ∧
        q.fail = none) ∧
    (j.st = 1 → j.fail = none → j.out = [] → j.digt = 0 →
      regionSectors (readDesc s j.ctx (platCad j.plat)) (platBox j.plat 0) (platBox j.plat 1) (platStr j.plat 1) j.snap.base ≤ j.nsec →
      ∃ t, exec (.foldJobStart die) s = .next t ∧ foldAt t die = some { j with st := 2 } ∧ t.mem = s.mem) ∧
    (let n := regionSectors (readDesc s j.ctx (platCad j.plat)) (platBox j.plat 0) (platBox j.plat 1) (platStr j.plat 1) j.snap.base
     let va := j.snap.base + 64 * j.nsec
     let dva := j.dest + 64 * j.nsec
     let failed (s1 : State) (c : Cause) : Prop := ∃ t, exec (.foldJobStart die) s = .next t ∧
       foldAt t die = some { j with fail := some c, out := [] } ∧ t.mem = s1.mem
     j.st = 1 → j.fail = none → j.out = [] → j.nsec < n → ∀ s1 z, foldXl s j.die j.ctx va .read = (s1, z) → s1.folds = s.folds →
      (∀ c, z = .error c → failed s1 c) ∧
      (∀ x, z = .ok x →
        let d := readDesc s1 j.ctx x.leaf.cad
        let off := x.pa - x.leaf.base
        let f : Flight := ⟨j.nsec, va, x.pa, x.leaf.base, x.leaf.size, x.leaf.cad, none, d.words⟩
        let uniform := x.leaf.cad = foldRef s j ∧ x.leaf.cad ≠ 0 ∧ d.valid = true ∧ shadowBad d off x.leaf.size = false
        let stored := storedSector s1 j.ctx x.leaf.base off x.leaf.size none d
        let plat : Plat := ⟨true, j.plat, j.snap.plat, j.snap.base, (List.range 5).map (platBox j.plat), false⟩
        let seen (q : List Nat × List Nat) := amend s1 j.ctx j.snap plat f d false ⟨d.elem, decide (d.block ≠ 0), d.qa, q.1, q.2, d.per, d.group⟩
        (¬uniform → failed s1 { code := 11, addr := va, acc := 1 }) ∧
        (uniform → flightBusy s1 f = true ∨ reachPA s1 j.ctx x.pa ≠ .open → exec (.foldJobStart die) s = .next s1) ∧
        (uniform → flightBusy s1 f = false → reachPA s1 j.ctx x.pa = .open →
          (∀ k, stored = .error k → failed s1 { code := k, addr := va, acc := 1 }) ∧
          (∀ q, stored = .ok q →
            (∀ k, seen q = .error k → failed s1 { code := k, addr := va, acc := 1 }) ∧
            (∀ rep s2 y, seen q = .ok rep → foldXl s1 j.die j.ctx dva .write = (s2, y) → s2.folds = s1.folds →
              (∀ c, y = .error c → failed s2 c) ∧
              (∀ w, y = .ok w →
                let paired := w.leaf.size = x.leaf.size ∧ w.leaf.cad = x.leaf.cad ∧ ((j.dest : Int) - j.snap.base) % x.leaf.size = 0
                (¬paired → failed s2 { code := 11, addr := dva, acc := 2 }) ∧
                (paired → w.wb = true → exec (.foldJobStart die) s = .next s2) ∧
                (paired → w.wb = false → ∃ t g, exec (.foldJobStart die) s = .next t ∧ t.mem = s2.mem ∧ foldAt t die = some g ∧
                  g.st = 1 ∧ g.fail = none ∧ g.nsec = j.nsec ∧ g.outVA = dva ∧
                  let bs := (packElems d.elem rep.codes ++ List.replicate 64 0).take 64
                  let r := shadowRange d (off / 64)
                  g.out = atomsOf w.pa bs ++ (if d.block = 0 then [] else atomsOf (w.leaf.base + r.1) ((List.range r.2).map fun k =>
                    BitVec.ofNat 8 (rep.scales.getD ((off / 64 * d.per / 32 + k) * 32 - off / 64 * d.per) 0))) ∧
                  g.img = j.img ++ bs))))))) ∧
    (∀ s1 pa, hSite j.record (foldXl s j.die j.ctx j.record .both) = (s1, .ok pa) → s1.watches = [] → s1.folds = s.folds →
      j.fgen < 2 ^ 16 →
      let r := hReadRec s1 pa
      (∀ s2 x, j.st = 2 → j.dest < 2 ^ 64 → j.digt < 2 ^ 64 →
        foldXl (hWriteRec s1 pa (hCommit r j.dest j.digt)) j.die j.ctx j.req .write = (s2, .ok x) →
        (x.wb = true → exec (.foldCommit die) s = .next s1) ∧
        (x.wb = false → s2.mem = (hWriteRec s1 pa (hCommit r j.dest j.digt)).mem → s2.watches = [] →
          pa + 64 ≤ x.pa ∨ x.pa + 32 ≤ pa →
          ∃ t, exec (.foldCommit die) s = .next t ∧ t.folds = dropFold die s2.folds ∧
            readLE t (x.pa + 16) 8 = 1 + j.fgen * 2 ^ 16 + j.nsec % 2 ^ 32 * 2 ^ 32 ∧ readLE t (x.pa + 24) 8 = 0 ∧
            (let q := hReadRec t pa
             q.base = j.dest ∧ q.prev = r.base ∧ q.nl = 0 ∧ q.gen = (r.gen + 1) % 2 ^ 16 ∧ q.fold = false ∧ q.oldh = r.hold))) ∧
      (∀ s2 x c, j.fail = some c → c.code < 2 ^ 8 →
        foldXl (hWriteRec s1 pa (r.setStat 1 1 0)) j.die j.ctx j.req .write = (s2, .ok x) →
        (x.wb = true → exec (.foldFail die) s = .next s1) ∧
        (x.wb = false → s2.mem = (hWriteRec s1 pa (r.setStat 1 1 0)).mem → s2.watches = [] → pa + 64 ≤ x.pa ∨ x.pa + 32 ≤ pa →
          ∃ t, exec (.foldFail die) s = .next t ∧ t.folds = dropFold die s2.folds ∧ (hReadRec t pa).fold = false ∧
            readLE t (x.pa + 16) 8 = 2 + c.code * 2 ^ 8 + j.fgen * 2 ^ 16 + j.nsec % 2 ^ 32 * 2 ^ 32 ∧
            readLE t (x.pa + 24) 8 = c.addr % 2 ^ 64)))) ∧
  (∀ (s s1 s2 s3 s4 : State) (u h va req pa : Nat) (o : Op) (d : Nat × Nat) (r r' : HRec) (p : List Byte) (x : Xl), s.sentOp u o →
    o.kind = .handle .hfold h va req → o.resv = true → earlierOp s u va 64 o.seq = false →
    readRequest s u o req = (s1, .ok d) → readRecord s1 u o va = (s2, .ok (pa, r)) →
    (if r.psn = true then (s2, .ok []) else readPlat s2 u o r false) = (s4, .ok p) → hFoldHome s4 (s.strand u).ctx r d.1 d.2 p = .done r' 0 p →
    foldXl s4 (coreDie (s.strand u).pcore) (s.strand u).ctx req .write = (s3, .ok x) → x.wb = false → s3.mem = s4.mem →
    s3.watches = [] → s3.op u o.id = some o → pa + 64 ≤ x.pa ∨ x.pa + 32 ≤ pa →
    ∃ t j, exec (.handleHomePerform u o.id) s = .next t ∧ t.folds = s3.folds ++ [j] ∧ j.die = coreDie (s.strand u).pcore ∧
      j.record = va ∧ j.req = req ∧ j.dest = d.1 ∧ j.digt = d.2 ∧ j.st = 0 ∧ j.snap.base = r.base ∧ j.snap.ids = r.list ∧
      (hReadRec t pa).fold = true ∧ (hReadRec t pa).list = r.list ∧ readLE t (x.pa + 16) 8 = 0 ∧
      ∃ q, t.op u o.id = some q ∧ q.phase = .done ∧ q.res = [hStatus 0 r']))

/-- A tree instruction on a tree that the partition does not have raises PRIV; with the unit's queue full the turn is
wasted; otherwise it is sent and takes the last place of the queue. The unit performs the head: TCLR clears, TSET
writes a leaf and returns the old one, TADD the sum, TPREF the sum of the leaves below an index, TFIND the lowest
index whose prefix sum passes a mass, TCUT cuts, TTOT returns the total; TLOAD builds the tree from FP32 words, TSTORE
writes its leaves atom by atom. The offset is the one that was read at issue. TADDR 0 of the causes about a scratchpad
range is the model's choice (log entry 23). (R318, R319, R320, R322, R323, R324, R325, R326, R327) -/
def Obligations.Trees : Prop :=
  (∀ (s : State) (i : Instr) (h : Hdr) (op : TOp) (n : TreeR) (regs : List Reg) (a b : Nat) (ds : List Loc),
    TreeRule s.me i h op n regs a b ds → s.passes h [] →
    let p := s.part s.me.lcore s.me.ctx
    (p.partn.trees.length ≤ n.val → exec i s = .next (trapAt s s.cur s.me.pc 4 { code := 3 })) ∧
    (n.val < p.partn.trees.length → (∀ r ∈ regs, s.me.refPending (.r r) = false) → s.room →
      (16 ≤ treesQueued s s.me.lcore → reach s s.me.lcore s.me.ctx ≠ .divert →
        exec i s = .next (waitAt (s.entered 4) s.cur s.me.pc s.me.noWatch s.me.noBreak)) ∧
      (treesQueued s s.me.lcore < 16 → reach s s.me.lcore s.me.ctx = .open →
        ∃ q, exec i s = .next (closeOf h s.cur q) ∧ treeQueued s q op n.val a b ds) ∧
      (reach s s.me.lcore s.me.ctx = .wait → exec i s = .next (waitAt (s.entered 4) s.cur s.me.pc s.me.noWatch s.me.noBreak)))) ∧
  (∀ (s : State) (i : Instr) (h : Hdr) (op : TOp) (n : TreeR) (ra rb : Reg), TreeMemRule i h op n ra rb →
    s.passes h [.r ra, .r rb] → s.room → n.val < (s.part s.me.lcore s.me.ctx).partn.trees.length →
    let off := (s.me.reg ra).toNat % 2 ^ 19
    let b := (s.me.reg rb).toNat
    (off % 4 ≠ 0 → exec i s = .next (trapAt s s.cur s.me.pc 4 { code := 6 })) ∧
    (off % 4 = 0 → min 0x60000 (spadSize s s.me.lcore s.me.ctx) < off + 4 * (b % 2 ^ 11) →
      exec i s = .next (trapAt s s.cur s.me.pc 4 { code := 7, sub := 3 })) ∧
    (off % 4 = 0 → off + 4 * (b % 2 ^ 11) ≤ min 0x60000 (spadSize s s.me.lcore s.me.ctx) → treesQueued s s.me.lcore < 16 →
      reach s s.me.lcore s.me.ctx = .open →
      ∃ q, exec i s = .next (closeOf h s.cur q) ∧ treeQueued s q op n.val ((s.ctx s.me.ctx).lwin + off) (b % 2 ^ 24 + off * 2 ^ 24) [])) ∧
  (∀ (s : State) (core ctx u n a b : Nat) (op : TOp) (o : Op) (w : Nat) (rest : List (Nat × Nat × Nat)), (s.part core ctx).tq = (u, o.id, w) :: rest →
    s.off core ctx = false → frozenNow s core = false → treeBefore s core ctx w = false → s.sentOp u o → o.kind = .tree op n a b → (s.strand u).lcore = core → (s.strand u).ctx = ctx →
    o.child = none → (s.strand u).close = none → s.watches = [] → (s.ctx ctx).watches = [] →
    let r := tget TreeReg.init (s.part core ctx).trees n
    let off := b / 2 ^ 24
    let k := b % 2 ^ 11
    let word (j : Nat) : Nat := spadLE s core ctx (off + 4 * j) 4
    r.ok →
    (op = .tload16 ∨ op = .tload32 ∨ op = .tstore ∧ o.got = [] → spadBehind s u o.seq a off (4 * k) = false) →
    ∃ t, exec (.treeUnitPerform core ctx) s = .next t ∧ (op ≠ .tstore → (t.part core ctx).tq = rest) ∧
      let r' := tget TreeReg.init (t.part core ctx).trees n
      let returns (v : Nat) : Prop := t.doneOp u o [w64 v]
      let fails (c : Nat) : Prop := r' = r ∧ ∃ x, t.op u o.id = some x ∧ x.phase = .faulted ∧ x.cause.code = c
      (op = .tclr → (1024 < a % 2 ^ 11 → fails 18) ∧ (a % 2 ^ 11 ≤ 1024 → returns 0 ∧ r'.len = a % 2 ^ 11 ∧
        r'.m16 = a.testBit 16 ∧ ∀ j, r'.leaf j = 0)) ∧
      (op = .tset → (r.len ≤ a → returns (2 ^ 63) ∧ r' = r) ∧ (a < r.len → r.lmax < b → fails 18) ∧
        (a < r.len → b ≤ r.lmax → returns (r.leaf a) ∧ r'.leaf a = b ∧ r'.ok ∧ ∀ j, j ≠ a → r'.leaf j = r.leaf j)) ∧
      (op = .tadd → (r.len ≤ a → returns (2 ^ 63) ∧ r' = r) ∧
        (a < r.len → let v := (r.leaf a : Int) + (BitVec.ofNat 64 b).toInt
          (v < 0 ∨ (r.lmax : Int) < v → fails 19) ∧
          (0 ≤ v → v ≤ r.lmax → returns v.toNat ∧ r'.leaf a = v.toNat ∧ r'.ok ∧ ∀ j, j ≠ a → r'.leaf j = r.leaf j))) ∧
      (op = .tpref → returns (leafSum r (min a r.len)) ∧ r' = r) ∧
      (op = .tfind → r' = r ∧ (leafSum r r.len ≤ a → returns (2 ^ 15 + r.len + leafSum r r.len * 2 ^ 16)) ∧
        (a < leafSum r r.len → ∃ i < r.len, leafSum r i ≤ a ∧ a < leafSum r (i + 1) ∧ returns (i + leafSum r i * 2 ^ 16))) ∧
      (op = .tcut → r'.len = min a 1024 ∧ (∀ j, r'.leaf j = if j < a then r.leaf j else 0) ∧ returns (leafSum r (min a 1024))) ∧
      (op = .ttot → (a % 8 = 0 → returns (leafSum r r.len) ∧ r' = r) ∧
        (a % 8 = 1 → ∃ m i, returns (m + i * 2 ^ 32) ∧ (∀ j, r.leaf j ≤ m) ∧ r.leaf i = m ∧ ∀ j < i, r.leaf j < m)) ∧
      (op = .tload32 ∨ op = .tload16 → (k = 0 ∨ spadPoisoned s core ctx off (4 * k) = false) →
        let lmax := if op = .tload16 then 65535 else 2 ^ 32 - 1
        let sh := (BitVec.ofNat 8 (b / 2 ^ 16)).toInt
        (1024 < k ∨ (∃ j < k, (decodeFlt fp32 (word j)).isNan = true) → fails 18) ∧
        (k ≤ 1024 → (∀ j < k, (decodeFlt fp32 (word j)).isNan = false) → t.doneOp u o [] ∧ r'.len = k ∧
          r'.m16 = (op == .tload16) ∧ (∀ j < k, r'.leaf j = (leafOf lmax ((decodeFlt fp32 (word j)).scale sh)).1) ∧
          ∀ j, k ≤ j → r'.leaf j = 0)) ∧
      (op = .tstore →
        let atoms := (atomsOf off ((List.range k).flatMap fun j => leBytes 4 (r.leaf j))).drop o.got.length
        (o.got = [] → 1024 < k → fails 18 ∧ (t.part core ctx).tq = rest) ∧
        (o.got ≠ [] ∨ k ≤ 1024 → atoms = [] → t.doneOp u o [] ∧ r' = r ∧ (t.part core ctx).tq = rest ∧ t.mem = s.mem) ∧
        (∀ w ws, o.got ≠ [] ∨ k ≤ 1024 → atoms = w :: ws →
          (spadBusy s core ctx w.1 w.2.length = true → t = s) ∧
          (spadBusy s core ctx w.1 w.2.length = false → r' = r ∧ wrote s.mem t.mem (spadPA s core ctx w.1) w.2 ∧
            (ws = [] → t.doneOp u o [] ∧ (t.part core ctx).tq = rest) ∧
            (ws ≠ [] → t.op u o.id = some { o with got := o.got ++ [0] } ∧ (t.part core ctx).tq = (s.part core ctx).tq)))))

/-- A port instruction over an edge raises PORT_EDGE unless the bearing is a sink. PPUSH and PEOS use a credit and send
their entry, wait while there is none, and do nothing to a closed port. PPOP and PPEEK are sent, and return the head
of the queue: its value and its token flag; a pop gives the credit back. PCOUNT reports; PCONF lets the reads that
have their entry return, sets the sink and drains. A value or token lands behind the earlier ones, a credit raises the
count to at most 8, a CLOSED notice closes the bearing; a group stalled to its limit has every port-parked member take
PORT_DEADLOCK, before its push or at the earliest unreturned read of its close, and no other strand. (R330, R332,
R333, R334, R336, R337, R338, R339, R340, R343) -/
def Obligations.Ports : Prop :=
  (∀ (s : State) (h : Hdr) (b : Bearing) (rd : Reg), s.passes h [.r rd] →
    let p := s.me.port b.code
    let m := memberOf (s.entered 4) (s.me.past 4) b.code
    (∀ iv ∈ [(Instr.ppush h b rd, false, s.me.reg rd), (.peos h b, true, 0)],
      (m = none → p.sink = false → exec iv.1 s = .next (trapAt s s.cur s.me.pc 4 { code := 20 })) ∧
      (m = none → p.sink = true → exec iv.1 s = .next (s.leave h (s.me.past 4))) ∧
      (∀ k, m = some k → p.closed = true → exec iv.1 s = .next (s.leave h (s.me.past 4))) ∧
      (∀ k, m = some k → p.closed = false → p.credit = 0 → ∃ t, exec iv.1 s = .next t ∧ (t.strand s.cur).pc = s.me.pc ∧
        (t.strand s.cur).st = .parked .portReady ∧ (t.strand s.cur).portWait = some b.code ∧ t.pushes = s.pushes) ∧
      (∀ k, m = some k → p.closed = false → 0 < p.credit → ∃ q, exec iv.1 s = .next (closeOf h s.cur q) ∧
        q.pushes = s.pushes ++ [⟨s.cur, b.code, k, opposite b.code, iv.2.1, iv.2.2⟩] ∧
        q.strand s.cur = (s.me.past 4).setPort b.code { p with credit := p.credit - 1 })) ∧
    exec (.pcount h b rd) s = .next (s.leave h ((s.me.past 4).setReg rd (w64 ((p.q.length - s.me.claimed b.code) +
      (match p.q[s.me.claimed b.code]? with | some e => if e.1 then 16 else 0 | none => 0) + p.credit * 2 ^ 8 +
      (if m.isSome then 2 ^ 12 else 0) + (if p.sink then 2 ^ 13 else 0) + (if p.closed then 2 ^ 14 else 0))))) ∧
    (let w := s.me.reg rd
     let reads (x : Op) : Bool := x.phase == .sent && (x.kind == .pop b.code || x.kind == .peek b.code)
     s.me.close = none → ∃ q, exec (.pconf h b rd) s = .next (closeOf h s.cur q) ∧
       ((q.strand s.cur).port b.code).sink = w.getLsbD 1 ∧ (w.getLsbD 0 = true → ((q.strand s.cur).port b.code).q = []) ∧
       (s.me.ops.filter reads = [] →
         (q.strand s.cur).port b.code = { p with q := if w.getLsbD 0 then [] else p.q, sink := w.getLsbD 1 } ∧
         (∀ k, m = some k → w.getLsbD 0 = true → q.credits = s.credits ++ List.replicate p.q.length (k, opposite b.code)) ∧
         (w.getLsbD 0 = false → q.credits = s.credits)) ∧
       (∀ o l c e rest, s.me.ops.filter reads = [o] → s.me.ops.filter (fun x => x.id == o.id) = [o] → p.q = e :: rest →
         (∀ y ∈ s.me.ops.takeWhile (fun y => y.id != o.id), y.kind ≠ .pop b.code ∧ y.kind ≠ .peek b.code) →
         o.dests = [l, .pred c] → (∀ k, l ≠ .pred k) → c < 16 →
         q.op s.cur o.id = none ∧ (q.strand s.cur).getLoc l = (s.me.setLoc l (if e.1 then 0 else e.2)).getLoc l ∧
         (q.strand s.cur).getLoc (.pred c) = (if e.1 then 1 else 0)))) ∧
  (∀ (s : State) (h : Hdr) (b : Bearing) (rd : Reg) (cd : Pr), s.passes h [.r rd, .p cd] → s.room → s.me.close = none →
    (∀ x ∈ s.me.ops, x.id < s.me.nextOp) →
    let p := s.me.port b.code
    let m := memberOf (s.entered 4) (s.me.past 4) b.code
    let ds := s.me.dest rd ++ if cd.val = 0 then [] else [.pred cd.val]
    ∀ ik ∈ [(Instr.ppop h b rd cd, OpKind.pop b.code), (.ppeek h b rd cd, .peek b.code)],
      (m ≠ none → exec ik.1 s = .next (s.leave h ((s.me.past 4).send ik.2 .p s.me.pc 4 s.steps ds))) ∧
      (m = none → p.sink = false → exec ik.1 s = .next (trapAt s s.cur s.me.pc 4 { code := 20 })) ∧
      (m = none → p.sink = true → ∃ q, exec ik.1 s = .next (closeOf h s.cur q) ∧ q.op s.cur s.me.nextOp = none ∧
        (rd.val ≠ 0 → (q.strand s.cur).reg rd = 0) ∧ (q.strand s.cur).predBit cd = true)) ∧
  (∀ (s : State) (u b : Nat) (o : Op) (e : Bool × Word) (rest : List (Bool × Word)), s.sentOp u o → (s.strand u).inRotation →
    (s.strand u).close = none → frozenNow s (s.strand u).pcore = false → regHeld s (s.strand u) = false →
    ((s.strand u).port b).q = e :: rest →
    (∀ y ∈ (s.strand u).ops.takeWhile (fun y => y.id != o.id), y.kind ≠ .pop b ∧ y.kind ≠ .peek b) →
    ∀ l c, o.dests = [l, .pred c] → (∀ k, l ≠ .pred k) → c < 16 →
    (o.kind = .pop b ∨ o.kind = .peek b → ∃ t, exec (.pendingReturn u o.id) s = .next t ∧ t.op u o.id = none ∧
      (t.strand u).getLoc l = ((s.strand u).setLoc l (if e.1 then 0 else e.2)).getLoc l ∧
      (t.strand u).getLoc (.pred c) = (if e.1 then 1 else 0) ∧
      (o.kind = .pop b → ((t.strand u).port b).q = rest ∧
        ∀ m, memberOf s (s.strand u) b = some m → t.credits = s.credits ++ [(m, opposite b)]) ∧
      (o.kind = .peek b → ((t.strand u).port b).q = e :: rest ∧ t.credits = s.credits))) ∧
  (∀ (s : State) (i : Nat) (m : PortMsg), s.pushes[i]? = some m → (∀ x ∈ s.pushes.take i, x.dst = m.dst → x.into ≠ m.into) →
    (s.strand m.dst).st ≠ .ended → reach s (s.strand m.dst).pcore (s.strand m.dst).ctx = .open →
    ∃ t, exec (.portValueLand i) s = .next t ∧ t.pushes = ldel s.pushes i ∧
      ((t.strand m.dst).port m.into).q = ((s.strand m.dst).port m.into).q ++ [(m.tok, m.v)]) ∧
  (∀ (s : State) (i u b : Nat), s.credits[i]? = some (u, b) → (s.strand u).st ≠ .ended →
    reach s (s.strand u).pcore (s.strand u).ctx = .open → ((s.strand u).port b).closed = false →
    ∃ t, exec (.portCreditReturn i) s = .next t ∧ t.credits = ldel s.credits i ∧
      ((t.strand u).port b).credit = min 8 (((s.strand u).port b).credit + 1)) ∧
  (∀ (s : State) (u b m : Nat), memberOf s (s.strand u) b = some m → b < 6 → (s.strand m).st = .ended → (s.strand u).st ≠ .ended →
    ((s.strand u).port b).closed = false → (u, b) ∉ s.credits → reach s (s.strand u).pcore (s.strand u).ctx = .open →
    (∀ x ∈ s.ctxs, ∀ e ∈ x.2.spill ++ x.2.refused, e.2 ≠ .port u b 3 0) →
    ∃ t, exec (.portClosedNotice u b) s = .next t ∧ ((t.strand u).port b).closed = true) ∧
  (∀ (s : State) (kid grp : Nat) (g : Group), (s.kern kid).groups.find? (fun g => g.num == grp) = some g →
    let lim := (s.ctx (s.kern kid).ctx).pstall
    (lim = 0 ∨ g.stall < lim → exec (.portDeadlock kid grp) s = .next s) ∧
    (∀ us, lim ≠ 0 → lim ≤ g.stall → (groupStrands s kid grp).filter (fun u => portParked (s.strand u)) = us → us.Nodup →
      (∀ u ∈ us, (s.strand u).trap.intrap = false ∧ (∃ v, vector s (s.strand u) 21 = some v ∧ v ≠ 0) ∧
        ((s.strand u).ops.map Op.id).Nodup ∧ ∀ o ∈ (s.strand u).ops, o.phase ≠ .faulted) →
      ∃ t, exec (.portDeadlock kid grp) s = .next t ∧ (∀ x ∈ (t.kern kid).groups, x.num = grp → x.stall = 0) ∧
        (∀ u, u ∉ us → t.strand u = s.strand u) ∧ t.mem = s.mem ∧
        ∀ u ∈ us, vector s (s.strand u) 21 = some (t.strand u).pc ∧ (t.strand u).trap.tcause.toNat % 2 ^ 8 = 21 ∧
          ((s.strand u).close = none → (t.strand u).trap.tpc = w64 (s.strand u).pc) ∧
          ∀ z o, (s.strand u).close = some z → (s.strand u).ops.find? Op.waits = some o → (t.strand u).trap.tpc = w64 o.tpc))

/-- PLNEW is sent, and fills the plat register from a legal record at its home, or is faulted with PLAT_ALIGN and the
reason; PLSET and PLGET write and read its parts. SWINIT sets a sync word's target and clears its counts, keeping GEN;
SWWAIT is sent, and done at once where GEN differs already; later only a count ends it (statement on copies). RINIT
lays a ring out, RREL releases in order, RSEQ gives a slot's offset, REOS marks the end, RAWAIT is sent and returns
when its sequence number is reached; at or above the partition's rings they raise PAGE_PERM. TADDR 0 of the causes
about a sync-word offset or a ring number is the model's choice (log entry 23). (R346, R350, R351, R358, R360, R362,
R364, R366) -/
def Obligations.PlatsSyncAndRings : Prop :=
  (∀ (s : State) (h : Hdr) (o : Obj2) (rd ra : Reg), s.passes h [.r rd, .r ra, .l (.qreg o.val)] →
    let q := tget Plat.init s.me.plats o.val
    let v := (s.me.reg rd).toNat
    let a := (s.me.reg ra).toNat
    let sel := a % 16
    (s.room → (a % 64 ≠ 0 → exec (.plnew h o rd ra) s = .next (trapAt s s.cur s.me.pc 4 { code := 6, addr := a, acc := 1 })) ∧
      (a % 64 = 0 → exec (.plnew h o rd ra) s = .next (s.leave h
        ((s.me.past 4).send (.plnew o.val v a) .s s.me.pc 4 s.steps [.qreg o.val])))) ∧
    ((q.valid = false ∨ 6 ≤ sel) → exec (.plset h o rd ra) s = .next (s.leave h (s.me.past 4))) ∧
    (q.valid = true → sel = 0 → platBaseOk q.cad (readDesc s s.me.ctx q.cad) v = false →
      exec (.plset h o rd ra) s = .next (trapAt s s.cur s.me.pc 4 { code := 26 })) ∧
    (q.valid = true → sel = 0 → platBaseOk q.cad (readDesc s s.me.ctx q.cad) v = true →
      ∃ t, exec (.plset h o rd ra) s = .next (s.leave h t) ∧ { t with plats := s.me.plats } = s.me.past 4 ∧
        tget Plat.init t.plats o.val = { q with base := v, linked := false }) ∧
    (q.valid = true → 1 ≤ sel → sel ≤ 5 → ∃ t, exec (.plset h o rd ra) s = .next (s.leave h t) ∧
      { t with plats := s.me.plats } = s.me.past 4 ∧
      tget Plat.init t.plats o.val = { q with ext := lset q.ext (sel - 1) (v % 2 ^ 32), linked := false }) ∧
    exec (.plget h o rd ra) s = .next (s.leave h ((s.me.past 4).setReg rd (
      if sel = 0 then w64 q.base else if sel ≤ 5 then w64 (q.ext.getD (sel - 1) 0) else if sel = 6 then w64 q.raddr
      else if sel = 7 then w64 (q.cad + (if q.valid then platRank q.record else 0) % 8 * 2 ^ 8 + (if q.linked then 2 ^ 16 else 0) +
        (if q.valid then 2 ^ 17 else 0)) else 0)))) ∧
  (∀ (s s1 : State) (u n base va : Nat) (o : Op) (bs : List Byte), s.sentOp u o → o.kind = .plnew n base va →
    readFor s u o va 64 false = (s1, .ok bs) → s1.op u o.id = some o → o.child = none → (s1.strand u).close = none →
    ∃ t, exec (.readAtHome u o.id) s = .next t ∧
      (∀ k, platReason s1 (s1.strand u).ctx bs base = some k →
        t.op u o.id = some { o with phase := .faulted, cause := { code := 26, sub := k, addr := va } }) ∧
      (platReason s1 (s1.strand u).ctx bs base = none → t.doneOp u o [] ∧ ∃ q, tget Plat.init (t.strand u).plats n = q ∧
        q.valid = true ∧ q.record = bs ∧ q.raddr = va ∧ q.base = base ∧ q.ext = (List.range 5).map (platBox bs) ∧ q.linked = false)) ∧
  (∀ (s : State) (h : Hdr) (ra rb : Reg), s.passes h [.r ra, .r rb] → s.watches = [] →
    let o := (s.me.reg ra).toNat % 2 ^ 19
    let sz := spadSize s s.me.lcore s.me.ctx
    (∀ i ∈ [Instr.swinit h ra rb, .swwait h ra rb], s.room →
      (o % 16 ≠ 0 → exec i s = .next (trapAt s s.cur s.me.pc 4 { code := 6 })) ∧
      (o % 16 = 0 → sz < o + 16 → exec i s = .next (trapAt s s.cur s.me.pc 4 { code := 7, sub := 3 }))) ∧
    (o % 16 = 0 → o + 16 ≤ sz →
      (∃ q, exec (.swinit h ra rb) s = .next (closeOf h s.cur q) ∧ q.strand s.cur = s.me.past 4 ∧
        syncAt q s.me.lcore s.me.ctx o = { syncAt s s.me.lcore s.me.ctx o with
          target := (s.me.reg rb).toNat % 2 ^ 36, count := 0, ecnt := 0, ecode := 0 } ∧
        ∀ x, x < spadPA s s.me.lcore s.me.ctx o ∨ spadPA s s.me.lcore s.me.ctx o + 16 ≤ x → memGet q.mem x = memGet s.mem x) ∧
      (s.room → (∀ x ∈ s.me.ops, x.id < s.me.nextOp) →
        let e := (s.me.reg rb).toNat % 2 ^ 16
        let t := (s.me.past 4).send (.swwait o e) .w s.me.pc 4 s.steps []
        ((syncAt s s.me.lcore s.me.ctx o).gen = e → exec (.swwait h ra rb) s = .next (s.leave h t)) ∧
        ((syncAt s s.me.lcore s.me.ctx o).gen ≠ e → ∃ q x, exec (.swwait h ra rb) s = .next (closeOf h s.cur q) ∧
          q.op s.cur s.me.nextOp = some x ∧ x.kind = .swwait o e ∧ x.phase = .done ∧ x.dests = [])))) ∧
  (∀ (s : State) (h : Hdr) (g : Ring) (rd ra : Reg), s.passes h [.r rd, .r ra] →
    let p := s.part s.me.lcore s.me.ctx
    let r := tget RingSt.init p.rings g.val
    let a := (s.me.reg ra).toNat
    let n := a % 2 ^ 32
    let is := [Instr.rinit h g rd ra, .rrel h g rd ra, .rseq h g rd ra, .reos h g rd ra]
    (p.partn.rn ≤ g.val → (∀ i ∈ is, exec i s = .next (trapAt s s.cur s.me.pc 4 { code := 8 })) ∧
      (s.room → exec (.rawait h g rd ra) s = .next (trapAt s s.cur s.me.pc 4 { code := 8 }))) ∧
    (g.val < p.partn.rn → s.room → exec (.rawait h g rd ra) s = .next (s.leave h
      ((s.me.past 4).send (.rawait g.val a) .w s.me.pc 4 s.steps (s.me.dest rd)))) ∧
    (g.val < p.partn.rn →
      let after (i : Instr) (v : Nat) (ok : RingSt → Prop) : Prop := ∃ q, exec i s = .next (closeOf h s.cur q) ∧
        q.strand s.cur = (s.me.past 4).setReg rd (w64 v) ∧
        ok (tget RingSt.init (q.part s.me.lcore s.me.ctx).rings g.val) ∧ q.mem = s.mem
      let legal := a % 2 ^ 19 % 64 = 0 ∧ 6 ≤ a / 2 ^ 20 % 16 ∧ a / 2 ^ 24 % 16 ≤ 8 ∧
        a % 2 ^ 19 + 2 ^ (a / 2 ^ 24 % 16 + a / 2 ^ 20 % 16) ≤ p.partn.sz
      (¬legal → after (.rinit h g rd ra) 1 (· = r)) ∧
      (legal → after (.rinit h g rd ra) 0 (· = { RingSt.init with base := a % 2 ^ 19, lsz := a / 2 ^ 20 % 16, ln := a / 2 ^ 24 % 16 })) ∧
      after (.rseq h g rd ra) (r.base + a % 2 ^ r.ln * 2 ^ r.lsz) (· = r) ∧
      (seqOff r.rp r.wp ≤ seqOff r.rp n ∨ r.done.testBit (n % 2 ^ r.ln) = true → after (.rrel h g rd ra) 1 (· = r)) ∧
      (seqOff r.rp n < seqOff r.rp r.wp → r.done.testBit (n % 2 ^ r.ln) = false →
        after (.rrel h g rd ra) 0 fun x => x.wp = r.wp ∧ x.full = r.full ∧ (x.rp = x.wp ∨ x.done.testBit (x.rp % 2 ^ r.ln) = false)) ∧
      (seqOff r.rp n < seqOff r.rp r.wp ∨ 2 ^ r.ln ≤ seqOff r.rp n → after (.reos h g rd ra) 1 (· = r)) ∧
      (seqOff r.rp r.wp ≤ seqOff r.rp n → seqOff r.rp n < 2 ^ r.ln → after (.reos h g rd ra) 0 (· = r.mark (n % 2 ^ r.ln) true)))) ∧
  (∀ (s : State) (u : Nat) (o : Op), s.sentOp u o → (s.strand u).inRotation → (s.strand u).close = none →
    frozenNow s (s.strand u).pcore = false → regHeld s (s.strand u) = false →
    (∀ a e, o.kind = .swwait a e → exec (.pendingReturn u o.id) s = .next s) ∧
    (∀ g a v l, o.kind = .rawait g a → o.dests = [l] →
      rawaitRes (tget RingSt.init (s.part (s.strand u).lcore (s.strand u).ctx).rings g) a = some v →
      ∃ t, exec (.pendingReturn u o.id) s = .next t ∧ t.op u o.id = none ∧
        (t.strand u).getLoc l = ((s.strand u).setLoc l v).getLoc l))

/-- CPY and CPYNB return the first status of the table that holds, and only X_OK enqueues; a full FIFO makes CPY wait. An
engine of the die visits the cores in turn and takes the oldest request of the next that has one; it takes its source
a sector at a time and writes aligned words of 8 bytes, or single bytes of an unaligned part; a fault ends it with its
code and offset, after the bytes that it had taken. A copy that has moved every byte counts them in its sync word,
ending the SWWAITs that wait for another generation, and marks its slot; one in error posts its record and counts an
error. GPOST refuses a descriptor that breaks the rules with -2 and a fifth gather with -1, and otherwise takes the
lowest free line; the gather engine reads an index, then its row (zeros, fill, or table bytes), writes it word by
word, at the end writes its status mask, if it has one, word by word, and signals the line (the bytes of a sector that
no port brings are open, and the rest of a sector that none takes is dropped: log 113, the model's choice); GWAIT
returns the result and frees the line. TADDR of GPOST's causes, the size that SOFF is held to, the code of a poisoned
index word, and the order of the atoms are the model's choices (log entries 23, 44, 46 and 106). (R352, R353, R354,
R355, R356, R357, R359, R364, R367, R368, R369, R370) -/
def Obligations.CopiesAndGathers : Prop :=
  (∀ (s : State) (h : Hdr) (rd ra : Reg), s.passes h (.r rd :: (List.range 4).map fun i => .r (Fin.ofNat 32 (ra.val + i))) → s.room →
    s.me.close = none → (∀ x ∈ s.me.ops, x.id < s.me.nextOp) →
    let q := (List.range 4).map fun i => s.me.reg (Fin.ofNat 32 (ra.val + i))
    let w3 := (q.getD 3 0).toNat
    ∀ ib ∈ [(Instr.cpy h rd ra, false), (.cpynb h rd ra, true)],
      let held := w3 / 2 ^ 36 % 4 = 1 ∧ s.me.isPending (.hreg (w3 / 2 ^ 34 % 4)) = true
      let full := ib.2 = false ∧ 8 ≤ (s.copies.filter fun c => c.engine.isNone && c.core == s.me.pcore && !s.off c.core c.ctx).length
      (held → exec ib.1 s = .next (trapAt s s.cur s.me.pc 4 { code := 2 })) ∧
      (¬held → full → ∃ t, exec ib.1 s = .next t ∧ (t.strand s.cur).pc = s.me.pc ∧ t.copies = s.copies ∧ (t.strand s.cur).ops = s.me.ops) ∧
      (¬held → ¬full → ∃ p, exec ib.1 s = .next (closeOf h s.cur p) ∧ doneAtIssue s p .cpy rd (w64 (copyAnswer s q ib.2)) ∧ p.mem = s.mem ∧
        (copyAnswer s q ib.2 ≠ 0 → p.copies = s.copies) ∧
        (copyAnswer s q ib.2 = 0 → ∃ c, p.copies = s.copies ++ [c] ∧ c.req = q ∧ c.core = s.me.pcore ∧ c.ctx = s.me.ctx ∧
          c.slot = s.me.pslot ∧ c.engine = none ∧ c.moved = 0 ∧ c.err = none))) ∧
  (∀ (s : State) (core e : Nat) (c : Copy), s.copies.find? (fun c => c.engine == some e) = none → core < 512 → coreDie core = e / 24 →
    (s.copies.filter fun c => c.engine.isNone && c.core == core && !s.off core c.ctx).head? = some c → engineOf s c.ctx e = true →
    let turn := tget 0 s.copyTurn (e / 24)
    turn ≤ 512 → (∀ k < 512, coreDie k = e / 24 → (k + 512 - turn) % 512 < (core + 512 - turn) % 512 →
      ∀ x ∈ s.copies, x.engine = none → x.core = k → s.off k x.ctx = true) →
    ∃ t, exec (.copyStart core e) s = .next t ∧ (∃ x ∈ t.copies, x.id = c.id ∧ x.engine = some e ∧ x.req = c.req ∧ x.moved = c.moved) ∧
      (rising s.copyTurn → tget 0 t.copyTurn (e / 24) = core + 1)) ∧
  (∀ (s : State) (e : Nat) (c : Copy), s.copies.find? (fun c => c.engine == some e) = some c → c.avail ≠ 0 →
    let d := (cDst c.req + c.moved) % 2 ^ 64
    let at' := c.moved + c.buf.length
    let a := (cSrc c.req + at') % 2 ^ 64
    let n := c.pieceLen
    let now (t : State) (p : Copy → Prop) : Prop := exec (.copyStart c.core e) s = .next t ∧ ∃ x ∈ t.copies, x.id = c.id ∧ p x
    ((n = 1 ∨ n = 8 ∧ d % 8 = 0) ∧ n ≤ c.avail) ∧
    (c.buf.length < n → c.err = none ∧
      (at' < cLen c.req → cKind c.req = 0 →
        let q := engineRead s (tlbCopy e) c.ctx a (min (64 - a % 64) (cLen c.req - at')) c.kern c.grp c.lines
        (∀ s1 bs, q = .done s1 bs → (∃ x ∈ s1.copies, x.id = c.id) →
          ∃ t, t.mem = s1.mem ∧ now t fun x => x.buf = c.buf ++ bs ∧ x.moved = c.moved ∧ x.err = none) ∧
        (∀ s1 k, q = .fault s1 k → (∃ x ∈ s1.copies, x.id = c.id) →
          ∃ t, t.mem = s1.mem ∧ now t fun x => x.buf = c.buf ∧ x.moved = c.moved ∧ x.err = some (xCode k, at')) ∧
        (∀ s1 pa, q = .lost s1 pa → (∃ x ∈ s1.copies, x.id = c.id) → ∃ t, now t fun x => x.moved = c.moved ∧ x.err = none ∧
          x.buf.length = c.buf.length + min (64 - a % 64) (cLen c.req - at'))) ∧
      (at' < cLen c.req → cKind c.req = 1 → ∃ t, t.mem = s.mem ∧ now t fun x => x.moved = c.moved ∧ x.buf = c.buf ++
        (List.range (min 64 (cLen c.req - at'))).map fun j => BitVec.ofNat 8 (cSrc c.req / 256 ^ ((cDst c.req + at' + j) % 8))) ∧
      (cLen c.req ≤ at' → ∃ t, t.mem = s.mem ∧ now t fun x => x.moved = c.moved ∧
        x.buf = c.buf ++ (sha256 c.hash).drop (at' - cLen c.req))) ∧
    (n ≤ c.buf.length → ∀ first last, first = (c.moved == 0 || d % 64 == 0) → last = ((d + n) % 64 == 0 || c.moved + n == c.total) →
      (∀ s1 pa, engineWrite s (tlbCopy e) c d (c.buf.take n) first last = .done s1 pa → (∃ x ∈ s1.copies, x.id = c.id) →
        ∃ t, t.mem = s1.mem ∧ now t fun x => x.moved = c.moved + n ∧ x.buf = c.buf.drop n ∧ x.err = c.err) ∧
      (∀ s1 k, engineWrite s (tlbCopy e) c d (c.buf.take n) first last = .fault s1 k → (∃ x ∈ s1.copies, x.id = c.id) →
        ∃ t, t.mem = s1.mem ∧ now t fun x => x.moved = c.moved ∧ x.buf = [] ∧ x.err = some (c.err.getD (xCode k, c.moved))) ∧
      (∀ s1 pa, engineWrite s (tlbCopy e) c d (c.buf.take n) first last = .lost s1 pa → (∃ x ∈ s1.copies, x.id = c.id) →
        ∃ t, now t fun x => x.moved = c.moved + min (64 - d % 64) c.buf.length ∧ x.err = c.err ∧
          x.buf = c.buf.drop (min (64 - d % 64) c.buf.length)))) ∧
  (∀ (s s1 : State) (who va : Nat) (tag : Option Copy) (c : Copy) (x : Xl) (bs : List Byte) (first last : Bool),
    xlateBy s (some who) c.ctx va .write false = (s1, .ok x) → x.wb = false → homeOf s1 x.pa = .first → s1.watches = [] →
    ∃ t, engineWrite s who c va bs first last tag = .done t x.pa ∧ wrote s1.mem t.mem x.pa bs) ∧
  (∀ (s : State) (e : Nat) (c : Copy), s.copies.find? (fun c => c.engine == some e) = some c → s.watches = [] →
    let w3 := cW3 c.req
    let k := cScore w3
    let o := cSoff w3
    let y := syncAt s k c.ctx o
    let r := tget RingSt.init (s.part k c.ctx).rings (cRing w3)
    let told (t : State) (code : Nat) : Prop := (∀ x ∈ t.copies, x.id ≠ c.id) ∧
      (cSv w3 = true → o + 16 ≤ spadSize s k c.ctx →
        let z := syncAt t k c.ctx o
        z.target = y.target ∧ (y.target = 0 → z.count = (y.count + c.total) % 2 ^ 36 ∧ z.gen = y.gen) ∧
        (y.target ≠ 0 → z.count < y.target ∧ ∃ g, y.count + c.total = z.count + g * y.target ∧ z.gen = (y.gen + g) % 2 ^ 16) ∧
        (code = 0 → z.ecnt = y.ecnt ∧ z.ecode = y.ecode) ∧
        (code ≠ 0 → z.ecnt = min 255 (y.ecnt + 1) ∧ z.ecode = if y.ecode = 0 then code else y.ecode) ∧
        ∀ u q g, rising s.strands → s.sentOp u q → q.kind = .swwait o g → (∀ x ∈ (s.strand u).ops, x.id = q.id → x = q) →
          (s.strand u).lcore = k → (s.strand u).ctx = c.ctx →
          (z.gen = g → t.op u q.id = some q) ∧ (z.gen ≠ g → t.doneOp u q [])) ∧
      (cRv w3 = true → cRing w3 < (s.part k c.ctx).partn.rn →
        ringMark r (tget RingSt.init (t.part k c.ctx).rings (cRing w3)) (cSlot w3) (cEnd w3))
    (cSv w3 = true ∨ cRv w3 = true → reach s k c.ctx = .open) →
    (c.err = none → c.total ≤ c.moved → cDm w3 ≠ 1 → ∃ t, exec (.copyComplete e) s = .next t ∧ told t 0) ∧
    (c.err = none → c.total ≤ c.moved → cDm w3 = 1 → digestCheck s c = .pass → ∃ t, exec (.copyComplete e) s = .next t ∧ told t 0) ∧
    (∀ off psn, c.err = none → c.total ≤ c.moved → cDm w3 = 1 → digestCheck s c = .fail off psn →
      ∃ t, exec (.copyComplete e) s = .next t ∧ (∃ x ∈ t.copies, x.id = c.id ∧ x.err = some (7, off)) ∧
        t.mem = (match psn with | some pa => (hWriteRec s pa ((hReadRec s pa).setStat 3 1 1)).mem | none => s.mem)) ∧
    (∀ code off, c.err = some (code, off) → c.buf = [] → code < 2 ^ 8 → (s.ctx c.ctx).xern = 0 →
      ∃ t, exec (.copyError e) s = .next t ∧ told t code) ∧
    (∀ code off, c.err = some (code, off) → c.buf = [] → cSv w3 = false → cRv w3 = false → ∃ t, exec (.copyError e) s = .next t ∧
      t.mem = (ringPost s (s.ctx c.ctx).xerb (s.ctx c.ctx).xern 32 (leBytes 8 (cSrc c.req) ++ leBytes 8 (cDst c.req) ++
        leBytes 8 (cW2 c.req) ++ leBytes 4 off ++ leBytes 1 code ++ leBytes 2 c.core ++ leBytes 1 c.slot)).mem)) ∧
  (∀ (s : State) (h : Hdr) (rd ra : Reg), s.passes h [.r rd, .r ra] → s.room → s.me.close = none →
    (∀ x ∈ s.me.ops, x.id < s.me.nextOp) →
    let o := (s.me.reg ra).toNat % 2 ^ 19
    let sz := spadSize s s.me.lcore s.me.ctx
    let d := spadRead s s.me.lcore s.me.ctx o 64
    let st (i : Nat) : Nat := (tget (⟨0, 0⟩ : GLine) s.me.glines i).st
    (o % 64 ≠ 0 → exec (.gpost h rd ra) s = .next (trapAt s s.cur s.me.pc 4 { code := 6 })) ∧
    (o % 64 = 0 → o + 64 ≤ sz → spadPoisoned s s.me.lcore s.me.ctx o 64 = false →
      (¬gatherLegal d sz → ∃ q, exec (.gpost h rd ra) s = .next (closeOf h s.cur q) ∧
        doneAtIssue s q (.gpost 4 d) rd (w64 (2 ^ 64 - 2)) ∧ q.gathers = s.gathers) ∧
      (gatherLegal d sz → (∀ i < 4, st i ≠ 0) → ∃ q, exec (.gpost h rd ra) s = .next (closeOf h s.cur q) ∧
        doneAtIssue s q (.gpost 4 d) rd (w64 (2 ^ 64 - 1)) ∧ q.gathers = s.gathers) ∧
      (∀ l < 4, gatherLegal d sz → st l = 0 → (∀ i < l, st i ≠ 0) →
        (s.gathers.filter fun g => g.cluster == coreCluster s.me.pcore).length < 16 → rising s.me.glines →
        ∃ q g, exec (.gpost h rd ra) s = .next (closeOf h s.cur q) ∧ doneAtIssue s q (.gpost l d) rd (w64 l) ∧
          q.gathers = s.gathers ++ [g] ∧ g.line = l ∧ g.uid = s.cur ∧ g.desc = d ∧ g.pos = 0 ∧ g.noor = 0 ∧ g.mask = [] ∧ g.idx = none ∧ g.row = [] ∧ g.whole = false ∧ g.fin = none ∧
          (tget (⟨0, 0⟩ : GLine) (q.strand s.cur).glines l).st = 1)) ∧
    exec (.gwait h rd ra) s = .next (s.leave h ((s.me.past 4).send (.gwait ((s.me.reg ra).toNat % 4)) .g s.me.pc 4 s.steps
      (s.me.dest rd)))) ∧
  (∀ (s : State) (u k : Nat) (o : Op) (l : Loc), s.sentOp u o → (s.strand u).inRotation → (s.strand u).close = none →
    frozenNow s (s.strand u).pcore = false → regHeld s (s.strand u) = false → o.kind = .gwait k → o.dests = [l] →
    let g := tget (⟨0, 0⟩ : GLine) (s.strand u).glines k
    (g.st = 1 → exec (.pendingReturn u o.id) s = .next s) ∧
    (g.st ≠ 1 → ∃ t, exec (.pendingReturn u o.id) s = .next t ∧ t.op u o.id = none ∧
      (t.strand u).getLoc l = ((s.strand u).setLoc l (if g.st = 0 then w64 (2 ^ 64 - 1) else g.res)).getLoc l ∧
      (rising (s.strand u).glines → (tget (⟨0, 0⟩ : GLine) (t.strand u).glines k).st = 0))) ∧
  (∀ (s : State) (cl : Nat) (g : Gather), s.gathers.find? (fun g => g.cluster == cl) = some g → reach s g.core g.ctx = .open →
    s.watches = [] →
    let d := g.desc
    let k := spadLE s g.core g.ctx (gIoff d + 4 * g.pos) 4
    let at' := spadPA s g.core g.ctx (gDoff d + g.pos * gRsz d)
    let signalled (t : State) (code pos : Nat) : Prop := g ∉ t.gathers ∧
      ((tget (⟨0, 0⟩ : GLine) (s.strand g.uid).glines g.line).st = 1 → rising (s.strand g.uid).glines →
        tget (⟨0, 0⟩ : GLine) (t.strand g.uid).glines g.line = ⟨2, gatherWord g.noor code pos⟩)
    let ended (t : State) (code : Nat) : Prop :=
      (gHasMask d = false → signalled t code (if code = 0 then 0 else g.pos)) ∧
      (gHasMask d = true → ∃ m, m.length = (gCnt d + 7) / 8 ∧ (∀ i < gCnt d, (m.getD (i / 8) 0).getLsbD (i % 8) = g.mask.contains i) ∧
        { g with fin := some code, idx := none, row := m, whole := false } ∈ t.gathers)
    (∀ code, g.fin = some code → ∃ t, exec (.gatherPerform cl) s = .next t ∧
      wrote s.mem t.mem (spadPA s g.core g.ctx (gMoff d + ((gCnt d + 7) / 8 - g.row.length))) (g.row.take 8) ∧
      (g.row.length ≤ 8 → signalled t code (if code = 0 then 0 else g.pos)) ∧
      (8 < g.row.length → { g with row := g.row.drop 8 } ∈ t.gathers)) ∧
    (g.fin = none → gCnt d ≤ g.pos → ∃ t, exec (.gatherPerform cl) s = .next t ∧ ended t 0 ∧ t.mem = s.mem) ∧
    (g.fin = none → g.pos < gCnt d → g.idx = none → spadPoisoned s g.core g.ctx (gIoff d + 4 * g.pos) 4 = true →
      ∃ t, exec (.gatherPerform cl) s = .next t ∧ ended t 4 ∧ t.mem = s.mem) ∧
    (g.fin = none → g.pos < gCnt d → g.idx = none → spadPoisoned s g.core g.ctx (gIoff d + 4 * g.pos) 4 = false →
      ∃ t, exec (.gatherPerform cl) s = .next t ∧ t.mem = s.mem ∧
        (k = 2 ^ 32 - 1 → { g with idx := some k, row := List.replicate (gRsz d) 0, whole := true } ∈ t.gathers) ∧
        (k ≠ 2 ^ 32 - 1 → gNtab d ≤ k → { g with
          idx := some k, row := (List.range (gRsz d)).map (fun j => BitVec.ofNat 8 (gFill d / 256 ^ (j % 8))), whole := true,
          noor := g.noor + 1, mask := g.pos :: g.mask } ∈ t.gathers) ∧
        (k ≠ 2 ^ 32 - 1 → k < gNtab d → { g with idx := some k } ∈ t.gathers)) ∧
    (∀ i, g.fin = none → g.pos < gCnt d → g.idx = some i → g.whole = false →
      let a := (gTbase d + i * gTstr d + g.row.length) % 2 ^ 64
      let q := engineRead s (tlbGather cl) g.ctx a (min (64 - a % 64) (gRsz d - g.row.length)) g.kern g.grp g.lines
      (∀ s1 bs, q = .done s1 bs → g ∈ s1.gathers → ∃ t, exec (.gatherPerform cl) s = .next t ∧ t.mem = s1.mem ∧
        { g with row := g.row ++ bs, whole := decide (gRsz d ≤ (g.row ++ bs).length) } ∈ t.gathers) ∧
      (∀ s1 c, q = .fault s1 c → s1.strands = s.strands → s1.off g.core g.ctx = false → g ∈ s1.gathers →
        ∃ t, exec (.gatherPerform cl) s = .next t ∧ t.mem = s1.mem ∧ (c.code = 7 → ended t 1) ∧ (c.code = 8 → ended t 2) ∧
          (c.code = 9 → ended t 3) ∧ (c.code = 10 → ended t 4))) ∧
    (∀ i, g.fin = none → g.pos < gCnt d → g.idx = some i → g.whole = true →
      ∃ t, exec (.gatherPerform cl) s = .next t ∧
        wrote s.mem t.mem (at' + (gRsz d - g.row.length)) (g.row.take 8) ∧
        (if g.row.length ≤ 8 then { g with pos := g.pos + 1, idx := none, row := [], whole := false }
          else { g with row := g.row.drop 8 }) ∈ t.gathers))

/-- GID returns the item that its selector names. In a group without deques, or for a victim that does not exist, a deque
instruction raises DEQUE; otherwise it is sent, and its unit makes of the deque what its rule says and tells the
monitor of a change; where the group's deque is gone it returns 0. SUSPEND registers, and every registered strand
returns 0 where a deque holds an entry and 1 where none does, all have registered, and no change that an ended or a
registered strand made is still on its way (log 55: the model's choice). KSIG and KLAUNCH go through the release
queue: KSIG adds to its word with the tag (SYSTEM, core); KLAUNCH places its record, or returns -2 or -1. KEOS returns
the strands that have not passed the end, -1 in a finite kernel. (R379, R380, R382, R383, R384, R385, R409, R426,
R427, R428, R429) -/
def Obligations.GroupsAndDeques : Prop :=
  (∀ (s : State) (h : Hdr) (rd ra : Reg), s.passes h [.r rd, .r ra] →
    let k := s.kern s.me.kern
    let v : Nat := match (s.me.reg ra).toNat % 16 with
      | 0 => s.me.index
      | 1 => ((s.entered 4).strands.filter fun t => t.2.kern == s.me.kern && t.2.grp == s.me.grp).length
      | 2 => s.me.grp
      | 3 => k.g
      | 4 => s.me.pcore + s.me.pslot * 2 ^ 16 + s.me.lcore * 2 ^ 32 + s.me.lslot * 2 ^ 48
      | 5 => k.width
      | 6 => k.slices
      | 7 => k.coords
      | _ => 0
    exec (.gid h rd ra) s = .next (s.leave h ((s.me.past 4).setReg rd (BitVec.ofNat 64 v)))) ∧
  (∀ (s : State) (h : Hdr) (rd ra : Reg), s.passes h [.r rd, .r ra] → s.room →
    let a := (s.me.reg ra).toNat
    let sent (i : Instr) (op : DOp) (b : Nat) : Prop :=
      exec i s = .next (s.leave h ((s.me.past 4).send (.deque op b) .s s.me.pc 4 s.steps (s.me.dest rd)))
    let no (i : Instr) : Prop := exec i s = .next (trapAt s s.cur s.me.pc 4 { code := 29 })
    ((s.kern s.me.kern).usesDeques = false →
      no (.dqpush h rd ra) ∧ no (.dqpop h rd) ∧ no (.dqsplit h rd ra) ∧ no (.dqsteal h rd ra)) ∧
    ((s.kern s.me.kern).usesDeques = true → sent (.dqpush h rd ra) .push a ∧ sent (.dqpop h rd) .pop 0 ∧
      sent (.dqsplit h rd ra) .split a) ∧
    (∀ g, (s.kern s.me.kern).usesDeques = true → s.groupAt s.me.kern s.me.grp = some g →
      (a % 64 < g.cores.length → sent (.dqsteal h rd ra) .steal a) ∧ (g.cores.length ≤ a % 64 → no (.dqsteal h rd ra))) ∧
    exec (.suspend h rd) s = .next (s.leave h ((s.me.past 4).send .suspend .w s.me.pc 4 s.steps (s.me.dest rd)))) ∧
  (∀ (s : State) (u : Nat) (o : Op) (op : DOp) (a c : Nat) (d : List Nat) (v : Nat), s.sentOp u o → o.kind = .deque op a →
    let t := s.strand u
    (s.kern t.kern).usesDeques = true → (op ≠ .steal → c = t.lcore) →
    (op = .steal → ∃ g, s.groupAt t.kern t.grp = some g ∧ g.cores[a % 64]? = some c) →
    (∀ x ∈ t.ops.takeWhile (fun x => x.id != o.id), x.phase = .sent → ∀ p b, x.kind ≠ .deque p b) →
    frozenNow s c = false → reach s c t.ctx = .open →
    ((s.part c t.ctx).deqGrp ≠ some (t.kern * 2 ^ 32 + t.grp) → ∃ q, exec (.dequeUnitPerform u o.id) s = .next q ∧
      q.doneOp u o [0] ∧ q.parts = s.parts) ∧
    ((s.part c t.ctx).deqGrp = some (t.kern * 2 ^ 32 + t.grp) → DequeRule op a (s.part c t.ctx).deque d v →
    ∃ q, exec (.dequeUnitPerform u o.id) s = .next q ∧ q.doneOp u o [w64 v] ∧ (q.part c t.ctx).deque = d ∧ q.mem = s.mem ∧
      ∀ g, s.groupAt t.kern t.grp = some g → ∃ g', q.groupAt t.kern t.grp = some g' ∧
        g'.notes = if d = (s.part c t.ctx).deque then g.notes else g.notes ++ [(u, c, !d.isEmpty)])) ∧
  (∀ (s : State) (kern grp u i : Nat) (g : Group), s.groupAt kern grp = some g →
    let t := s.strand u
    let joins := t.kern = kern ∧ t.grp = grp ∧ t.st ≠ .ended ∧ (suspendOf t).isSome = true ∧ u ∉ g.idle ∧ (∀ n ∈ g.notes, n.1 ≠ u) ∧
      ∀ x ∈ t.ops, x.phase = .sent → ∀ p b, x.kind ≠ .deque p b
    let after (idle view : List Nat) (notes : List (Nat × Nat × Bool)) : Prop := ∃ q, exec (.idleMonitorTest kern grp u i) s = .next q ∧
      ∃ g', q.groupAt kern grp = some g' ∧
      let all := (∀ x ∈ s.strands, x.2.kern = kern → x.2.grp = grp → x.2.st ≠ .ended → x.1 ∈ idle) ∧
        ∀ n ∈ notes, (s.strand n.1).st ≠ .ended ∧ n.1 ∉ idle
      (view ≠ [] ∨ all → g'.idle = [] ∧ ∀ x ∈ idle, ∀ o, suspendOf (s.strand x) = some o →
        q.doneOp x o [if view ≠ [] then 0 else 1]) ∧
      (view = [] → ¬all → g'.idle = idle ∧ q.strands = s.strands)
    (joins → after (g.idle ++ [u]) g.view g.notes) ∧
    (∀ n, ¬joins → g.notes[i]? = some n → (∀ m ∈ g.notes.take i, m.2.1 ≠ n.2.1) →
      after g.idle ((g.view.filter fun c => c != n.2.1) ++ if n.2.2 then [n.2.1] else []) (ldel g.notes i))) ∧
  (∀ (s : State) (h : Hdr) (rd ra rb : Reg), s.passes h [.r rd, .r ra, .r rb] → s.room →
    let va := (s.me.reg ra).toNat
    let b := (s.me.reg rb).toNat
    let queued (i : Instr) (kind : OpKind) (rk : RelKind) : Prop := ∃ q,
      exec i s = .next (s.leaveIn h q ((s.me.past 4).sendBound kind s.me.pc 4 s.steps (s.me.dest rd) [])) ∧
      (q.core s.me.pcore).relq = (s.core s.me.pcore).relq ++ [⟨s.cur, s.me.ctx, va, 0, .system, rk, s.steps, false, s.me.sup, false⟩] ∧ q.mem = s.mem
    (va % 8 ≠ 0 → exec (.ksig h rd ra rb) s = .next (trapAt s s.cur s.me.pc 4 { code := 6, addr := va, acc := 3 })) ∧
    (va % 8 = 0 → gapOf s s.me va 8 .both = none → (s.core s.me.pcore).relq.length < 8 →
      queued (.ksig h rd ra rb) (.ksig va b) (.ksig s.me.nextOp)) ∧
    (va % 128 ≠ 0 → exec (.klaunch h rd ra rb) s = .next (trapAt s s.cur s.me.pc 4 { code := 6, addr := va, acc := 1 })) ∧
    (va % 128 = 0 → (s.core s.me.pcore).relq.length < 8 →
      queued (.klaunch h rd ra rb) (.klaunch va (b % 64)) (.klaunch s.me.nextOp)) ∧
    exec (.keos h rd) s = .next (s.leave h ((s.me.past 4).send .keos .s s.me.pc 4 s.steps (s.me.dest rd)))) ∧
  (∀ (s : State) (core id : Nat) (r : Rel) (rs : List Rel) (o : Op), (s.core core).relq = r :: rs → relReady s core r = true →
    s.op r.uid id = some o → o.id = id → o.phase = .sent →
    (∀ va a s1 w bs, r.kind = .ksig id → o.kind = .ksig va a →
      bothFor (passHub (popRel s core) core) r.uid o va 8 false = (s1, .ok (w, bs)) → w.loc = false → homeOf s1 w.pa = .first →
      s1.watches = [] → s1.op r.uid id = some o → bs.length = 8 →
      ∃ t, exec (.releasePerform core) s = .next t ∧ t.doneOp r.uid o [w64 (leNat bs)] ∧
        wrote s1.mem t.mem w.pa (leBytes 8 ((leNat bs + a) % 2 ^ 64)) ∧
        tagOf t w.pa = mkTag .system (s1.strand r.uid).pcore) ∧
    (∀ va n bs, r.kind = .klaunch id → o.kind = .klaunch va n → n < 64 →
      let p := popRel (passHub s core) core
      readVA p (s.strand r.uid).ctx (sectorPieces va 128) = .ok bs → s.watches = [] →
      (tget? (s.ctx (s.strand r.uid).ctx).queues n = none →
        ∃ t, exec (.releasePerform core) s = .next t ∧ t.doneOp r.uid o [w64 (2 ^ 64 - 2)] ∧ t.mem = s.mem) ∧
      (∀ blk, tget? (s.ctx (s.strand r.uid).ctx).queues n = some blk →
        let wi := tget 0 (s.ctx (s.strand r.uid).ctx).posted n
        let held := (wi + 2 ^ 64 - readLE s (blk + 24) 8) % 2 ^ 64
        let size := 2 ^ readLE s (blk + 32) 1
        (readLE s (blk + 33) 1 ≠ 2 → ∃ t, exec (.releasePerform core) s = .next t ∧ t.doneOp r.uid o [w64 (2 ^ 64 - 2)] ∧ t.mem = s.mem) ∧
        (readLE s (blk + 33) 1 = 2 → size ≤ held →
          ∃ t, exec (.releasePerform core) s = .next t ∧ t.doneOp r.uid o [w64 (2 ^ 64 - 1)] ∧ t.mem = s.mem) ∧
        (∀ s1, readLE s (blk + 33) 1 = 2 → held < size →
          cpHeld p (s.strand r.uid).ctx (readLE s blk 8 + 128 * (wi % size)) 128 = false →
          cpWrite p (s.strand r.uid).ctx (readLE s blk 8 + 128 * (wi % size)) [bs.take 64, bs.drop 64] = some s1 → s1.watches = [] →
          s1.strands = s.strands →
          ∃ t, exec (.releasePerform core) s = .next t ∧ t.doneOp r.uid o [w64 wi] ∧
            wrote s1.mem t.mem (blk + 16) (leBytes 8 ((wi + 1) % 2 ^ 64)) ∧
            (rising (s1.ctx (s.strand r.uid).ctx).posted → tget 0 (t.ctx (s.strand r.uid).ctx).posted n = (wi + 1) % 2 ^ 64))))) ∧
  (∀ (s : State) (u : Nat) (o : Op) (l : Loc), s.sentOp u o → (s.strand u).inRotation → (s.strand u).close = none →
    frozenNow s (s.strand u).pcore = false → regHeld s (s.strand u) = false → o.kind = .keos → o.dests = [l] →
    let t := s.strand u
    let k := s.kern t.kern
    ∃ q, exec (.pendingReturn u o.id) s = .next q ∧ q.op u o.id = none ∧
      (k.standing = false → (q.strand u).getLoc l = (t.setLoc l (w64 (2 ^ 64 - 1))).getLoc l ∧ (q.kern t.kern).eosLeft = k.eosLeft) ∧
      (k.standing = true → (q.strand u).getLoc l = (t.setLoc l (w64 (if t.passedEnd then k.eosLeft else k.eosLeft - 1))).getLoc l ∧
        (q.kern t.kern).eosLeft = (if t.passedEnd then k.eosLeft else k.eosLeft - 1) ∧ (q.strand u).passedEnd = true))

/-- A local number at or above NB raises PAGE_PERM, with no address and no access, a misaligned address ALIGN with ACC 3
(both log 22: the model's choice); otherwise BINIT, BEXP, BARV, BWAIT and BTEST are sent, those to the own core
performed within the turn, and a claim is renegotiated at a BWAIT. The unit returns the phase, makes its rule of the
fields, and lets every complete phase pass; BARV is held behind the strand's counted stores; BWAIT returns where the
phase differs and otherwise watches; an advance wakes a watcher. BTEST returns the part that its selector names. STB
stores its eight bytes and counts them off, at once in its own core and at their home elsewhere. When an operation on
the own barrier is performed at its issue is the model's choice (log entry 47). (R389, R392, R393, R395, R396, R397,
R398, R399, R400) -/
def Obligations.Barriers : Prop :=
  (∀ (s : State) (h : Hdr) (rd ra rb : Reg), s.passes h [.r rd, .r ra, .r rb] → s.room → s.me.close = none →
    (∀ x ∈ s.me.ops, x.id < s.me.nextOp) →
    let v := (s.me.reg ra).toNat
    let n := (s.me.reg rb).toNat
    let e := (s.me.reg rd).toNat % 2 ^ 16
    let nb := (s.part s.me.lcore s.me.ctx).partn.nb
    let trapped (i : Instr) (c : Cause) : Prop := exec i s = .next (trapAt s s.cur s.me.pc 4 c)
    ∀ x ∈ [(Instr.binit h rd ra rb, BOp.binit, n, 0), (.bexp h rd ra rb, .bexp, n, 0), (.barv h rd ra rb, .barv, n, 0),
        (.bwait h rd ra, .bwait, 0, e), (.btest h rd ra rb, .btest, n % 4, 0)],
      let used := x.2.1 = .btest → n % 4 < 2
      (used → v < 256 → nb ≤ v → trapped x.1 { code := 8 }) ∧ (used → 256 ≤ v → v % 16 ≠ 0 → trapped x.1 { code := 6, addr := v, acc := 3 }) ∧
      (used → (v < 256 ∧ v < nb ∨ 256 ≤ v ∧ v % 16 = 0) →
        let t := (s.me.past 4).send (.barrier x.2.1 v x.2.2.1 x.2.2.2) .s s.me.pc 4 s.steps (s.me.dest rd)
        ∃ q o, exec x.1 s = .next (closeOf h s.cur q) ∧ q.op s.cur s.me.nextOp = some o ∧
          o.kind = .barrier x.2.1 v x.2.2.1 x.2.2.2 ∧ o.dests = s.me.dest rd ∧
          (v < 256 → s.me.lcore ≠ s.me.pcore → s.me.held = none ∨ x.2.1 ≠ .bwait → q = s.setStrand s.cur t) ∧
          (v < 256 → s.me.lcore = s.me.pcore → frozenNow s s.me.pcore = false → reach s s.me.pcore s.me.ctx = .open →
            barBehind (s.entered 4) s.cur s.me.pcore s.steps = false →
            (x.2.1 = .barv → arrivalHeld s s.cur s.steps = false) →
            let b := barrierOf s s.me.lcore s.me.ctx v
            let b' := barrierOf q s.me.lcore s.me.ctx v
            b.phase < 2 ^ 16 → (∀ w ∈ s.watches, ¬(w.uid = s.cur ∧ w.opId = s.me.nextOp)) → q.mem = s.mem ∧
            (x.2.1 = .btest → b' = b ∧ o.phase = .done ∧ o.res = [btestVal s s.me b x.2.2.1]) ∧
            (x.2.1 = .bwait → b' = b ∧ (b.phase ≠ e → o.phase = .done ∧ o.res = [w64 b.phase]) ∧
              (b.phase = e → o.phase = .sent ∧ ∃ k, q.watches = s.watches ++ [⟨s.cur, s.me.nextOp, barrierPA s s.me.lcore s.me.ctx v, e, k⟩])) ∧
            (x.2.1 ≠ .btest → x.2.1 ≠ .bwait → o.phase = .done ∧ o.res = [w64 b.phase] ∧
              advanced (barrierFields x.2.1 n b) b')))) ∧
  (∀ (s : State) (h : Hdr) (rd ra rb : Reg) (k : Nat), s.passes h [.r rd, .r rb] → s.room → s.me.close = none →
    (∀ x ∈ s.me.ops, x.id < s.me.nextOp) → (s.me.reg rb).toNat % 4 = k → 2 ≤ k →
    ∃ q o, exec (.btest h rd ra rb) s = .next (closeOf h s.cur q) ∧ q.op s.cur s.me.nextOp = some o ∧ o.phase = .done ∧
      o.dests = s.me.dest rd ∧ q.parts = s.parts ∧ o.res = [w64 (let p := (s.part s.me.lcore s.me.ctx).partn
        if k = 2 then 0x380000 + 16 * p.bb else p.nb)]) ∧
  (∀ (s s1 : State) (u core j a b e : Nat) (op : BOp) (o : Op), s.sentOp u o → (s.strand u).preempted = false →
    o.kind = .barrier op a b e → (op = .btest → b < 2) → barrierRef s (s.strand u) a = (s1, .ok (core, j)) →
    s1.op u o.id = some o → s1.strand u = s.strand u → barBehind s1 u core o.seq = false →
    refBlocked s1 (s.strand u) a = false → frozenNow s1 core = false → (op = .barv → arrivalHeld s1 u o.seq = false) →
    reach s1 core (s.strand u).ctx = .open →
    let q := barrierOf s1 core (s.strand u).ctx j
    q.phase < 2 ^ 16 → (∀ w ∈ s1.watches, ¬(w.uid = u ∧ w.opId = o.id)) →
    ∃ t, exec (.barrierUnitPerform u o.id) s = .next t ∧ t.mem = s1.mem ∧
      (op = .binit ∨ op = .bexp ∨ op = .barv → t.doneOp u o [w64 q.phase] ∧
        advanced (barrierFields op b q) (barrierOf t core (s.strand u).ctx j) ∧
        ∀ w x, s1.watches = [w] → w.pa = barrierPA s1 core (s.strand u).ctx j → w.placed = true → w.e = q.phase →
          s1.op w.uid w.opId = some x → (∃ c d f, x.kind = .barrier .bwait c d f) → w.uid ≠ u →
          (barrierOf t core (s.strand u).ctx j).phase = (q.phase + 1) % 2 ^ 16 →
          (barrierFields op b q).arr < 2 * (barrierFields op b q).expc →
          t.watches = [] ∧ t.doneOp w.uid x [w64 ((q.phase + 1) % 2 ^ 16)]) ∧
      (op = .btest → b = 0 → t.doneOp u o [BitVec.ofNat 64 (q.expc % 2 ^ 12 * 2 ^ 16 + (if q.ovf then 2 ^ 28 else 0) +
        q.arr % 2 ^ 12 * 2 ^ 32 + q.phase * 2 ^ 48)]) ∧
      (op = .btest → b = 1 → t.doneOp u o [((BitVec.ofNat 36 q.pendB).signExtend 64)]) ∧
      (op = .bwait → (q.phase ≠ e → t.doneOp u o [w64 q.phase]) ∧
        (q.phase = e → t.op u o.id = some o ∧ ∃ k, t.watches = s1.watches ++ [⟨u, o.id, barrierPA s1 core (s.strand u).ctx j, e, k⟩]))) ∧
  (∀ (s : State) (u a b e core j : Nat) (o : Op) (w : Watch), s.sentOp u o → (s.strand u).preempted = false →
    o.kind = .barrier .bwait a b e → (s.watches.find? fun w => w.uid == u && w.opId == o.id && !w.placed) = some w →
    (barrierRef s (s.strand u) a).2 = .ok (core, j) →
    let q := barrierOf s core (s.strand u).ctx j
    (q.phase = e → exec (.barrierPoll u o.id) s = .next s) ∧
    (q.phase ≠ e → reach s core (s.strand u).ctx = .open → frozenNow s core = false → ∃ t, exec (.barrierPoll u o.id) s = .next t ∧ w ∉ t.watches ∧ t.doneOp u o [w64 q.phase])) ∧
  (∀ (s s1 s2 : State) (h : Hdr) (rd ra rb : Reg) (w : Site) (core j off o : Nat), s.passes h [.r rd, .r ra, .r rb] →
    let va := (s.me.reg ra).toNat
    let v := (s.me.reg rb).toNat
    let bs := leBytes 8 (s.me.reg rd).toNat
    (va % 8 ≠ 0 → exec (.stb h rd ra rb) s = .next (trapAt s s.cur s.me.pc 4 { code := 6, addr := va, acc := 2 })) ∧
    (va % 8 = 0 → (v < 256 ∧ v < (s.part s.me.lcore s.me.ctx).partn.nb ∨ 256 ≤ v ∧ v % 16 = 0) →
      siteOf (s.entered 4) (s.me.past 4) va 8 .write = (s1, .ok w) → barrierRef s1 (s.me.past 4) v = (s2, .ok (core, j)) →
      (inSpad s2 w.pa core = false → exec (.stb h rd ra rb) s = .next (trapAt s s.cur s.me.pc 4 { code := 8, addr := va, acc := 2 })) ∧
      (inSpad s2 w.pa core = true → w.wb = false → refBlocked s2 (s.me.past 4) v = false → (s2.ctx s.me.ctx).watches = [] → homeOf s2 w.pa = .window core off →
        regionOf off = .spad o → s2.watches = [] →
        let now := core = s.me.pcore ∧ reach s2 core s.me.ctx = .open ∧ barBehind s2 s.cur core s2.steps = false ∧
          localBehind s2 s.cur va 8 w.pa = false
        (now → s2.strand s.cur = s.me.past 4 → winCheck s2 s.me.ctx core off true = none → winCheck s2 s.me.ctx core (off + 7) true = none →
          let b := barrierOf s2 core s.me.ctx j
          b.phase < 2 ^ 16 → ∃ q, exec (.stb h rd ra rb) s = .next (closeOf h s.cur q) ∧ wrote s2.mem q.mem w.pa bs ∧ q.writes = s2.writes ∧
            advanced { b with pendB := (b.pendB + 2 ^ 36 - 8) % 2 ^ 36 } (barrierOf q core s.me.ctx j)) ∧
        (core ≠ s.me.pcore → ∃ q x, exec (.stb h rd ra rb) s = .next (closeOf h s.cur q) ∧ q.mem = s2.mem ∧ q.writes = s2.writes ++ [x] ∧
          x.uid = s.cur ∧ x.pa = w.pa ∧ x.bytes = bs ∧ x.stb = some (j, core)))) ∧
    (∀ i m x, m.bytes = [] → s.writes[i]? = some x → storeReady s i x = true → x.stb = some (j, core) → reachPA s x.ctx x.pa = .open →
      homeOf s x.pa = .window core off → regionOf off = .spad o → winCheck s x.ctx core off true = none →
      winCheck s x.ctx core (off + 7) true = none → x.bytes.length = 8 → s.watches = [] → frozenNow s core = false →
      let b := barrierOf s core x.ctx j
      b.phase < 2 ^ 16 → ∃ t, exec (.storeAtHome i m) s = .next t ∧ t.writes = ldel s.writes i ∧ wrote s.mem t.mem x.pa x.bytes ∧
        advanced { b with pendB := (b.pendB + 2 ^ 36 - 8) % 2 ^ 36 } (barrierOf t core x.ctx j)))

/-- CGRP leaves, refuses a bad list with -4, a stranger with -3 and another list with -5, forms and joins, and returns the
rank once the group is ACTIVE. A collective returns -2 outside an active group, -3 for bad arguments, -1 with no free
line, and otherwise its ticket, with the next sequence number; one that differs from its fellows aborts it for all;
the last barrier completes it for all. CTEST and CWAIT report the line, CWAIT held once with COLL_ABORT. A sector is
read at its source, or taken from the whole reduction, and written word by word at its receivers, each in its turn; a
fault aborts the collective, a router with a free slot combines two children or moves an unpaired one up, keeps one
that comes before its sibling, and a partial that waited goes to its record. A member on another node joins, leaves
and issues as one here does; what it sends is open (log 64: the model's choice). Collectives of a group end in their
order (log 106). (R466, R467, R469, R470, R471, R472, R473, R474, R475, R476, R477) -/
def Obligations.Collectives : Prop :=
  (∀ (s : State) (i : Instr) (h : Hdr) (e : Ext) (op : COp) (src dst len : Nat) (refs : List Ref), CollRule s.me i h e op src dst len refs →
    s.passes h refs → s.room → s.me.close = none → (∀ x ∈ s.me.ops, x.id < s.me.nextOp) → (∀ d ∈ s.colls, d.id < s.nextColl) →
    let g := e.imm.toNat % 256
    let c := s.coll s.me.ctx g
    let got (q : State) (v : Word) : Prop := exec i s = .next (closeOf h s.cur q) ∧ answered s q e.f0 v
    (c.st ≠ 2 ∨ (∀ x ∈ c.members, listed s s.me x = false) → ∃ q, got q (BitVec.ofInt 64 (-2)) ∧ q.colls = s.colls) ∧
    (∀ r, c.st = 2 → c.members.findIdx? (listed s s.me) = some r →
      (¬collArgs op src dst len → ∃ q, got q (BitVec.ofInt 64 (-3)) ∧ q.colls = s.colls) ∧
      (collArgs op src dst len → (∀ l < 4, (s.cline s.cur l).st ≠ 0) → ∃ q, got q (BitVec.ofInt 64 (-1)) ∧ q.colls = s.colls) ∧
      (∀ l < 4, collArgs op src dst len → (s.cline s.cur l).st = 0 → (∀ k < l, (s.cline s.cur k).st ≠ 0) → 2 ≤ c.members.length →
        let seq := tget 0 c.seqs r
        let m : CollMember := ⟨r, s.cur, l, src, dst, none⟩
        let same := s.colls.find? fun d => d.ctx == s.me.ctx && d.g == g && d.seq == seq
        ∃ q, got q (w64 l) ∧ tget 0 (q.coll s.me.ctx g).seqs r = seq + 1 ∧
          (same = none → (q.cline s.cur l).st = 1 ∧ ∃ d ∈ q.colls, d.ctx = s.me.ctx ∧ d.g = g ∧ d.seq = seq ∧ d.op = op ∧ d.len = len ∧
            d.n = c.members.length ∧ d.members = [m] ∧ d.abort = none) ∧
          (∀ d, same = some d → d.abort = none →
            (d.op = op → d.len = len → d.members.length + 1 < d.n → (q.cline s.cur l).st = 1 ∧
              ∃ d' ∈ q.colls, d'.id = d.id ∧ d'.members = d.members ++ [m] ∧ d'.abort = none) ∧
            (d.op = .bar → op = .bar → d.len = len → d.members.length + 1 = d.n → d.done = [] →
              ((∃ x ∈ s.colls, x.ctx = s.me.ctx ∧ x.g = g ∧ x.seq < seq ∧ x.abort = none ∧ x.members.length < x.n) → (q.cline s.cur l).st = 1) ∧
              ((∀ x ∈ s.colls, x.ctx = s.me.ctx → x.g = g → x.seq < seq → x.abort ≠ none) → (∀ x ∈ q.colls, x.id ≠ d.id) ∧
              ∀ x ∈ d.members ++ [m], x = m ∨ x.away = none ∧ x.uid ≠ s.cur ∧ (s.cline x.uid x.line).st = 1 ∧ (s.cline x.uid x.line).coll = d.id →
                (q.cline x.uid x.line).st = 2 ∧
                (q.cline x.uid x.line).res = BitVec.ofNat 64 (seq % 2 ^ 16 * 2 ^ 48 + 0xFFFF * 2 ^ 32 + 1))) ∧
            (d.op ≠ op ∨ d.len ≠ len → d.members.length + 1 < d.n → (∃ x ∈ q.colls, x.id = d.id ∧ ∃ k, x.abort = some (2, 0, k)) ∧
              ∀ x ∈ d.members ++ [m], x = m ∨ x.away = none ∧ x.uid ≠ s.cur ∧ (s.cline x.uid x.line).st = 1 ∧ (s.cline x.uid x.line).coll = d.id →
                (q.cline x.uid x.line).st = 2 ∧ (q.cline x.uid x.line).res.toNat % 2 ^ 16 = 2 + 2 * 2 ^ 8))))) ∧
  (∀ (s : State) (h : Hdr) (e : Ext), s.passes h [.r e.f0, .r e.f1, .r e.f2] → s.room →
    exec (.cgrp h e) s = .next (s.leave h ((s.me.past 12).send
      (.cgrp (e.imm.toNat % 256) (s.me.reg e.f1).toNat (s.me.reg e.f2).toNat) .n s.me.pc 12 s.steps (s.me.dest e.f0)))) ∧
  (∀ (s : State) (u g list n : Nat) (o : Op) (l : Loc), s.sentOp u o → (s.strand u).inRotation → (s.strand u).close = none →
    frozenNow s (s.strand u).pcore = false → regHeld s (s.strand u) = false → o.kind = .cgrp g list n → o.dests = [l] →
    let t := s.strand u
    let c := s.coll t.ctx g
    let ret (q : State) (v : Int) : Prop := q.op u o.id = none ∧ (q.strand u).getLoc l = (t.setLoc l (BitVec.ofInt 64 v)).getLoc l
    (∀ r, n = 0 → c.members.findIdx? (listed s t) = some r →
      ((∃ d ∈ s.colls, d.ctx = t.ctx ∧ d.g = g ∧ d.abort = none ∧ ∃ m ∈ d.members, m.uid = u) → exec (.pendingReturn u o.id) s = .next s) ∧
      ((∀ d ∈ s.colls, d.ctx = t.ctx → d.g = g → d.abort = none → ∀ m ∈ d.members, m.uid ≠ u) → r ∈ c.joined → r ∉ c.left →
        ∃ q, exec (.pendingReturn u o.id) s = .next q ∧ ret q 0 ∧
          (c.left.length + 1 < c.joined.length → q.coll t.ctx g = { c with st := 3, left := c.left ++ [r] }) ∧
          (c.joined.length ≤ c.left.length + 1 → q.coll t.ctx g = CollGroup.init))) ∧
    (∀ k, 1 ≤ n → readVA s t.ctx (sectorPieces list (8 * n)) = .error k → o.child = none →
      ∃ q, exec (.pendingReturn u o.id) s = .next q ∧ q.op u o.id = some { o with phase := .faulted, cause := k }) ∧
    (∀ bs, 1 ≤ n → readVA s t.ctx (sectorPieces list (8 * n)) = .ok bs →
      let es := (List.range n).map fun i => leNat ((bs.drop (8 * i)).take 8)
      (¬listLegal list n es → ∃ q, exec (.pendingReturn u o.id) s = .next q ∧ ret q (-4)) ∧
      (listLegal list n es → (∀ x ∈ es, listed s t x = false) → ∃ q, exec (.pendingReturn u o.id) s = .next q ∧ ret q (-3)) ∧
      (∀ r, listLegal list n es → es.findIdx? (listed s t) = some r →
        (o.prog = 1 → c.st ≠ 1 → ∃ q, exec (.pendingReturn u o.id) s = .next q ∧ ret q r) ∧
        (c.st = 1 ∨ c.st = 2 ∧ o.prog ≠ 1 → c.members ≠ es → ∃ q, exec (.pendingReturn u o.id) s = .next q ∧ ret q (-5)) ∧
        (c.st = 2 → c.members = es → ∃ q, exec (.pendingReturn u o.id) s = .next q ∧ ret q r) ∧
        (c.st = 0 → o.prog ≠ 1 → ∃ q, exec (.pendingReturn u o.id) s = .next q ∧ q.op u o.id = some { o with prog := 1 } ∧
          q.coll t.ctx g = { CollGroup.init with st := 1, members := es, joined := [r] }) ∧
        (c.st = 3 → o.prog ≠ 1 → exec (.pendingReturn u o.id) s = .next s) ∧
        (c.st = 1 → c.members = es → r ∈ c.joined → ∃ q, exec (.pendingReturn u o.id) s = .next q ∧
          q.op u o.id = some { o with prog := 1 } ∧ q.coll t.ctx g = c) ∧
        (c.st = 1 → c.members = es → r ∉ c.joined → ∃ q, exec (.pendingReturn u o.id) s = .next q ∧ q.op u o.id = some { o with prog := 1 } ∧
          q.coll t.ctx g = { c with st := if c.joined.length + 1 = n then 2 else 1, joined := c.joined ++ [r] })))) ∧
  (∀ (s : State) (h : Hdr) (rd ra : Reg), s.passes h [.r rd, .r ra] → s.room → s.me.close = none → (∀ x ∈ s.me.ops, x.id < s.me.nextOp) →
    let k := (s.me.reg ra).toNat % 4
    let l := s.cline s.cur k
    exec (.cwait h rd ra) s = .next (s.leave h ((s.me.past 4).send (.cwait k) .n s.me.pc 4 s.steps (s.me.dest rd))) ∧
    ∃ q, exec (.ctest h rd ra) s = .next (closeOf h s.cur q) ∧
      answered s q rd (if l.st = 0 then BitVec.ofInt 64 (-1) else if l.st = 1 then 0 else l.res) ∧ q.cline s.cur k = l) ∧
  (∀ (s : State) (u k : Nat) (o : Op) (d : Loc), s.sentOp u o → (s.strand u).inRotation → (s.strand u).close = none → o.child = none →
    frozenNow s (s.strand u).pcore = false → regHeld s (s.strand u) = false → o.kind = .cwait k → o.dests = [d] →
    let l := s.cline u k
    let aborted := l.res.toNat % 2 ^ 8 = 2 ∧ o.prog = 0
    (l.st = 1 → exec (.pendingReturn u o.id) s = .next s) ∧
    (l.st = 0 ∨ 2 ≤ l.st ∧ ¬aborted → ∃ q, exec (.pendingReturn u o.id) s = .next q ∧ q.op u o.id = none ∧
      (q.strand u).getLoc d = ((s.strand u).setLoc d (if l.st = 0 then BitVec.ofInt 64 (-1) else l.res)).getLoc d ∧ (q.cline u k).st = 0) ∧
    (2 ≤ l.st → aborted → ∃ q, exec (.pendingReturn u o.id) s = .next q ∧ q.cline u k = l ∧
      q.op u o.id = some { o with prog := 1, phase := .faulted, cause := { code := 25, sub := l.res.toNat / 2 ^ 8 % 2 ^ 8 } })) ∧
  (∀ (s : State) (id flow : Nat) (c : Coll), s.colls.find? (fun c => c.id == id) = some c → collTurn s c = true →
    (∀ m, c.op = .ag → flow < c.n → (c.member flow).isSome = true → tget 0 c.resv flow < c.n - 1 →
      c.member ((flow + tget 0 c.resv flow + 1) % c.n) = some m →
      ∃ t, exec (.collectiveReservation id flow) s = .next t ∧
        t.colls.find? (fun c => c.id == id) = some { c with resv := tput c.resv flow (tget 0 c.resv flow + 1) }) ∧
    (∀ sec q r rest m s1, sec < c.secs → flow < c.flows → (flow, sec) ∉ c.done → q.todo = r :: rest → c.member r = some m →
      let held := c.moving.find? fun q => q.flow == flow && q.sec == sec
      let offset := match c.op with | .ag => flow * c.len | .a2a => flow / c.n * c.len | _ => 0
      (held = some q ∧ s1 = s ∨
        held = none ∧ (∃ m bs, c.op = .ag ∧ c.n - 1 ≤ tget 0 c.resv flow ∧ c.member flow = some m ∧
          collRead s c m (64 * sec) = .done s1 bs ∧ q = ⟨flow, sec, bs, (List.range c.n).map fun i => (flow + i) % c.n, 0⟩) ∨
        held = none ∧ (∃ m bs, c.op = .a2a ∧ c.member (flow / c.n) = some m ∧
          collRead s c m (flow % c.n * c.len + 64 * sec) = .done s1 bs ∧ q = ⟨flow, sec, bs, [flow % c.n], 0⟩) ∨
        held = none ∧ s1 = s ∧ ∃ ty op p, c.op = .rs ty op ∧ c.whole flow sec = some p ∧
          q = ⟨flow, sec, rsFinal ty op p.bytes, [flow], 0⟩) →
      let w := collWrite s1 c m (offset + 64 * sec + q.got) ((q.bytes.drop q.got).take 8)
      (∀ s2 pa, w = .done s2 pa → s2.colls = s.colls → c.done.length + 1 < c.flows * c.secs →
        ∃ t c', exec (.collectiveChunk id flow sec) s = .next t ∧ t.mem = s2.mem ∧
          t.colls.find? (fun c => c.id == id) = some c' ∧ c'.abort = none ∧
          (q.got + 8 < 64 → { q with got := q.got + 8 } ∈ c'.moving ∧ c'.done = c.done) ∧
          (64 ≤ q.got + 8 → rest ≠ [] → { q with todo := rest, got := 0 } ∈ c'.moving ∧ c'.done = c.done) ∧
          (64 ≤ q.got + 8 → rest = [] → c'.done = c.done ++ [(flow, sec)])) ∧
      (∀ s2 k, w = .fault s2 k → s2.colls = s.colls → c.members.length < c.n →
        ∃ t c', exec (.collectiveChunk id flow sec) s = .next t ∧ t.colls.find? (fun c => c.id == id) = some c' ∧
          c'.abort = some (1, k.code, r)) ∧
      (∀ s2 pa, w = .lost s2 pa → s2.colls = s.colls → c.members.length < c.n →
        ∃ t c', exec (.collectiveChunk id flow sec) s = .next t ∧ t.colls.find? (fun c => c.id == id) = some c' ∧
          c'.abort = some (4, 0, r))) ∧
    (∀ sec level ix ty op, c.op = .rs ty op → flow < c.n → sec < c.secs → (flow, sec) ∉ c.done → 1 < nodesAt c.n level →
      ix < nodesAt c.n (level + 1) → (∀ q ∈ c.moving, ¬(q.flow = flow ∧ q.sec = sec)) →
      (∀ p ∈ c.parts, ¬(p.chunk = flow ∧ p.sec = sec ∧ p.level = level + 1 ∧ p.ix = ix)) →
      let up : RPart := ⟨flow, sec, level + 1, ix, [], 0, none⟩
      let taken (p : RPart) : Nat := (s.colls.flatMap fun d => d.parts.filter fun q => q.spill.isNone && partRouter s d q == partRouter s c p &&
        !(d.id == c.id && q.chunk == p.chunk && q.sec == p.sec && q.level + 1 == p.level && q.ix / 2 == p.ix)).length
      (16 ≤ taken up → exec (.reductionCombine id flow sec level ix) s = .next s) ∧
      ∀ s1 a, taken up < 16 → rsChild s c ty op flow sec level (2 * ix) = .done s1 a → s1.colls = s.colls →
      (∀ s2, level = 0 → 2 * ix + 1 < nodesAt c.n 0 → rsChild s1 c ty op flow sec 0 (2 * ix + 1) = .wait s2 → s2.colls = s.colls →
        s2.ctxs = s.ctxs → s2.config = s.config → (∀ q ∈ c.parts, ¬(q.chunk = flow ∧ q.sec = sec ∧ q.level = 0 ∧ q.ix = 2 * ix)) →
        taken ⟨flow, sec, 0, 2 * ix, a, 0, none⟩ < 16 → ∃ t, exec (.reductionCombine id flow sec 0 ix) s = .next t ∧
          ∃ c', t.colls.find? (fun c => c.id == id) = some c' ∧ ⟨flow, sec, 0, 2 * ix, a, s2.cycle, none⟩ ∈ c'.parts) ∧
      (nodesAt c.n level = 2 * ix + 1 → ∃ t, exec (.reductionCombine id flow sec level ix) s = .next t ∧
        ∃ c', t.colls.find? (fun c => c.id == id) = some c' ∧ ⟨flow, sec, level + 1, ix, a, s1.cycle, none⟩ ∈ c'.parts) ∧
      (∀ s2 b, 2 * ix + 1 < nodesAt c.n level → rsChild s1 c ty op flow sec level (2 * ix + 1) = .done s2 b → s2.colls = s.colls →
        ∃ t, exec (.reductionCombine id flow sec level ix) s = .next t ∧
          ∃ c', t.colls.find? (fun c => c.id == id) = some c' ∧
            ⟨flow, sec, level + 1, ix, rsBytes ty op a b, s2.cycle, none⟩ ∈ c'.parts)) ∧
    (∀ sec level ix p k, (c.parts.find? fun p => p.chunk == flow && p.sec == sec && p.level == level && p.ix == ix && p.spill.isNone) = some p →
      let x := s.ctx c.ctx
      k < x.rspn → (∀ d ∈ s.colls, d.ctx = c.ctx → ∀ q ∈ d.parts, q.spill ≠ some k) →
      (∀ j < k, ∃ d ∈ s.colls, d.ctx = c.ctx ∧ ∃ q ∈ d.parts, q.spill = some j) → p.since + 65536 ≤ s.cycle → s.watches = [] →
      2 ^ level < c.n → listedHere s (partEntry s c p) = true →
      ∃ t, exec (.reductionPartialSpill id flow sec level ix) s = .next t ∧
        (∀ i < 64, i < p.bytes.length → memGet t.mem (x.rspb + 128 * k + 64 + i) = p.bytes.getD i 0) ∧
        ∃ c', t.colls.find? (fun c => c.id == id) = some c' ∧ { p with spill := some k } ∈ c'.parts)) ∧
  (∀ (s : State) (ctx g r e : Nat), let c := s.coll ctx g
    (s.ctx ctx).st = .active → c.members[r]? = some e → listedHere s e = false → nodeUp s (s.ctx ctx).secure (e / 2 ^ 32 % 2 ^ 16) = true →
    (∀ n, c.st = 1 → r ∉ c.joined → listLegal 0 n c.members → c.members.length = n → (∃ x ∈ c.members, listedHere s x = true) →
      (peerAct s ctx (.join g c.members r)).coll ctx g =
        { c with st := if c.joined.length + 1 = n then 2 else 1, joined := c.joined ++ [r] }) ∧
    (2 ≤ c.st → r ∉ c.left → (∀ d ∈ s.colls, d.ctx = ctx → d.g = g → d.abort = none → ∀ m ∈ d.members, m.rank ≠ r) →
      c.left.length + 1 < c.joined.length → (peerAct s ctx (.leave g r)).coll ctx g = { c with st := 3, left := c.left ++ [r] }) ∧
    (∀ op len, c.st = 2 → collFits op len = true → (∀ d ∈ s.colls, d.ctx = ctx → d.g = g → d.seq ≠ tget 0 c.seqs r ∧ ∀ m ∈ d.members, m.rank ≠ r) →
      (∀ d ∈ s.colls, d.id < s.nextColl) → 2 ≤ c.members.length →
      tget 0 ((peerAct s ctx (.coll g r op len)).coll ctx g).seqs r = tget 0 c.seqs r + 1 ∧
        ∃ d ∈ (peerAct s ctx (.coll g r op len)).colls, d.ctx = ctx ∧ d.g = g ∧ d.seq = tget 0 c.seqs r ∧ d.op = op ∧ d.len = len ∧
          ∃ m, d.members = [m] ∧ m.rank = r ∧ m.away = some (e / 2 ^ 32 % 2 ^ 16))) ∧
  (∀ (a b : List Byte) (i : Nat), a.length = 64 → b.length = 64 →
    let at' (n : Nat) (z : List Byte) : Nat := leNat ((z.drop (n * i)).take n)
    (i < 8 → at' 8 (rsBytes 4 0 a b) = (at' 8 a + at' 8 b) % 2 ^ 64 ∧
      at' 8 (rsBytes 4 1 a b) = (if (BitVec.ofNat 64 (at' 8 a)).slt (BitVec.ofNat 64 (at' 8 b)) then at' 8 b else at' 8 a)) ∧
    (i < 16 → at' 4 (rsBytes 1 0 a b) = (fpResult ((decodeFlt fp32 (at' 4 a)).add (decodeFlt fp32 (at' 4 b)))).1 ∧
      at' 4 (rsBytes 3 0 a b) = (at' 4 a + at' 4 b) % 2 ^ 32) ∧
    (i < 4 → at' 16 (rsBytes 0 0 a b) % 2 ^ 64 = (at' 16 a + at' 16 b) % 2 ^ 64))

/-- RSEED sets DSEED; RGEN returns the half of its counter block that ra names and changes nothing else. RNOISE is sent
and queued at its cluster's source, and in a deterministic kernel outside replay raises PRIV. RLOG returns the old
mode and sets the new one, code 3 leaving it. The source serves requests in order: a fresh word in mode off, logged
with its receiver in log mode, LOSS where the log is full, the next logged word in replay, EXHAUST where there is
none; while its health test fails nothing is delivered, and an entry in a granule of the other world faults the
request with WORLD. That NLOGB is a physical address, and that the other world's granule faults the request, are the
model's choices (log entry 68). (R87, R89, R90, R91, R92, R425) -/
def Obligations.RandomNumbers : Prop :=
  (∀ (s : State) (h : Hdr) (rd ra rb : Reg), s.passes h [.r rd, .r ra, .r rb] →
    let a := (s.me.reg ra).toNat
    let block := dcg s.me.dseed.toNat (a % 2 ^ 32) (s.me.reg rb).toNat
    exec (.rseed h ra) s = .next (s.leave h { s.me.past 4 with dseed := s.me.reg ra }) ∧
    exec (.rgen h rd ra rb) s = .next (s.leave h ((s.me.past 4).setReg rd
      (BitVec.ofNat 64 (if a / 2 ^ 32 % 2 = 1 then block / 2 ^ 64 else block % 2 ^ 64)))) ∧
    (s.room → let det := (s.kern s.me.kern).det = true ∧ (s.ctx s.me.ctx).nlogMode ≠ 2
      let cl := coreCluster s.me.pcore
      (det → exec (.rnoise h rd) s = .next (trapAt s s.cur s.me.pc 4 { code := 3 })) ∧
      (¬det → ∃ q, exec (.rnoise h rd) s = .next (s.leaveIn h q ((s.me.past 4).send .rnoise .s s.me.pc 4 s.steps (s.me.dest rd))) ∧
        tget [] q.noiseWait cl = tget [] s.noiseWait cl ++ [(s.cur, s.me.nextOp)] ∧ q.mem = s.mem)) ∧
    (s.me.sup = false → exec (.rlog h rd ra) s = .next (trapAt s s.cur s.me.pc 4 { code := 3 })) ∧
    (s.me.sup = true → ∃ q, exec (.rlog h rd ra) s = .next (s.leaveIn h q
        ((s.me.past 4).setReg rd (w64 (s.ctx s.me.ctx).nlogMode))) ∧
      (q.ctx s.me.ctx).nlogMode = if a % 4 = 3 then (s.ctx s.me.ctx).nlogMode else a % 4)) ∧
  (∀ (s : State) (cl u id : Nat) (rest : List (Nat × Nat)) (o : Op), tget [] s.noiseWait cl = (u, id) :: rest → s.op u id = some o →
    o.id = id →
    let x := s.ctx (s.strand u).ctx
    let e := x.nlogb + 16 * x.nlogi
    (tget false s.noiseBad cl = true → exec (.noiseWordDelivery cl) s = .next s) ∧
    let other := (x.nlogMode = 1 ∨ x.nlogMode = 2) ∧ x.nlogi < x.nlogn ∧ granuleSecure s e ≠ x.secure
    (tget false s.noiseBad cl = false → other → o.child = none → (s.strand u).close = none →
      ∃ t y, exec (.noiseWordDelivery cl) s = .next t ∧ t.op u id = some y ∧ y.phase = .faulted ∧ y.cause.code = 9 ∧ t.mem = s.mem) ∧
    (tget false s.noiseBad cl = false → ¬other → ∃ t v, exec (.noiseWordDelivery cl) s = .next t ∧ t.doneOp u o [v] ∧
      tget [] t.noiseWait cl = rest ∧ (t.strand u).noiseSeq = ((s.strand u).noiseSeq + 1) % 2 ^ 32 ∧
      let y := t.ctx (s.strand u).ctx
      (x.nlogMode = 2 → x.nlogi < x.nlogn → v = w64 (readLE s e 8) ∧ y.nlogi = x.nlogi + 1 ∧ y.nlogMode = 2 ∧ t.mem = s.mem) ∧
      (x.nlogMode = 2 → x.nlogn ≤ x.nlogi → v = Config.noise s.free ∧ y.nlogMode = 0 ∧ y.nlogExhaust = true ∧ t.mem = s.mem) ∧
      (x.nlogMode = 0 → v = Config.noise s.free ∧ y = x ∧ t.mem = s.mem) ∧
      (x.nlogMode = 1 → x.nlogn ≤ x.nlogi → v = Config.noise s.free ∧ y.nlogLoss = true ∧ y.nlogi = x.nlogi ∧ t.mem = s.mem) ∧
      (x.nlogMode = 1 → x.nlogi < x.nlogn → s.watches = [] → v = Config.noise s.free ∧ y.nlogi = x.nlogi + 1 ∧
        wrote s.mem t.mem e (leBytes 8 v.toNat ++ leBytes 4 ((s.strand u).lcore + (s.strand u).lslot * 2 ^ 16) ++
          leBytes 4 (s.strand u).noiseSeq)))) ∧
  (∀ (s : State) (cl : Nat), cl < 64 →
    (∃ t, exec (.noiseHealthFail cl) s = .next t ∧ tget false t.noiseBad cl = true) ∧
    (∃ t, exec (.noiseHealthPass cl) s = .next t ∧ tget false t.noiseBad cl = false ∧ t.mem = s.mem))

/-- A command acts only at the head of the open queue; one with a nonzero last word is refused with BADCCB. Each refusal
is written with its status in the order of the codes and changes nothing else. CREATE builds the context of its block;
DESTROY puts the context in TEARDOWN, ends its strands, cancels its copies and discards its spill queue, stays at the
head while something of it is under way, and then frees its partitions and leaves it FREE; QOPEN and QCLOSE open and
close a queue; LINKUP, LINKFENCE and LINKDOWN move a port; SETTVEC installs the vector table; DBGSET the points and
the interval; DSTOP makes a strand stop at its turn, its status being written once it is STOPPED, and DRESUME returns
it (commands one at a time, the two that wait staying at the head: log 112, the model's choice); TRCSET selects;
LOADOBJ writes its load status. The cache drops an entry. The system queue's physical BASE and the requester's world,
codes of no command, what teardown performs, and a handle record that it cannot reach are the model's choices too (log
entries 82, 83, 84, 85 and 29). (R430, R431, R433, R434, R448, R458, R459, R482, R500, R501, R503, R65) -/
def Obligations.Commands : Prop :=
  (∀ (s : State) (n : Nat) (i : Instr), (i, n) ∈ [(Instr.create, 1), (.destroy, 2), (.qopen, 3), (.qclose, 4), (.linkup, 5), (.linkfence, 6),
      (.linkdown, 7), (.settvec, 8), (.dbgset, 9), (.dstop, 10), (.dresume, 11), (.trcset, 12), (.loadobj, 13)] →
    let b := cfgLE s 0x5C0 8
    (s.phase ≠ 5 ∨ readLE s (b + 16) 8 ≤ readLE s (b + 24) 8 → exec i s = .next s) ∧
    ∀ m a pa, s.posted m a pa → (m ≠ n → exec i s = .next s) ∧
      (m = n → readLE s (pa + 24) 8 ≠ 0 → s.watches = [] → ∃ t, exec i s = .next t ∧ t.repliedOver s s pa 1)) ∧
  (∀ (s : State) (n a pa : Nat), s.posted n a pa → readLE s (pa + 24) 8 = 0 → s.watches = [] →
    let out (i : Instr) (q : State) (st : Nat) : Prop := ∃ t, exec i s = .next t ∧ t.repliedOver q s pa st
    let no (i : Instr) (st : Nat) : Prop := out i s st
    (n = 1 → let b := readBytes s a 256
      let c := blkW b 21 % 2 ^ 12
      let w := (blkW b 21).testBit 12
      let world := s.mayName w ∧ ∀ x ∈ a :: ([1, 2, 5, 7, 10].map fun i => blkW b i % 2 ^ 52) ++ [14, 17, 18].map (blkW b), granuleSecure s x = w
      (blockOk a b = false → no .create 1) ∧ (blockOk a b = true → (s.ctx c).st ≠ .free → no .create 2) ∧
      (blockOk a b = true → (s.ctx c).st = .free → ¬world → no .create 4) ∧
      (blockOk a b = true → (s.ctx c).st = .free → world → ∃ x, out .create (s.setCtx c x) 0 ∧ x.st = .built ∧ x.secure = w ∧
        x.seed = BitVec.ofNat 64 (blkW b 16) ∧ x.saveb = blkW b 17 ∧ x.spqb = blkW b 18 ∧ x.spqn = blkW b 19 ∧ x.rbound = blkW b 20 ∧
        x.wsplg = blkW b 22 ∧ x.wspb = blkW b 23 ∧ x.argb = blkW b 25 ∧ x.arglg = blkW b 24 ∧ x.spill = [] ∧ x.queues = [] ∧ x.nlogMode = 0 ∧
        x.ptroot = blkW b 1 / 2 ^ 17 % 2 ^ 35 * 2 ^ 17 ∧ x.cadb = blkW b 2 / 2 ^ 11 % 2 ^ 41 * 2 ^ 11 ∧ x.lwin = blkW b 3 / 2 ^ 19 % 2 ^ 37 * 2 ^ 19 ∧
        x.bwin = blkW b 4 / 2 ^ 31 % 2 ^ 25 * 2 ^ 31 ∧ x.nqn = blkW b 8 % 2 ^ 16 ∧ x.pstall = blkW b 12 % 2 ^ 32 ∧ x.tvec = 0 ∧ x.tvecSet = false)) ∧
    (n = 2 → let c := a % 2 ^ 12
      (a / 2 ^ 12 ≠ 0 → no .destroy 1) ∧ (a / 2 ^ 12 = 0 → ¬s.named c → (s.ctx c).st ≠ .teardown → no .destroy 3) ∧
      (a / 2 ^ 12 = 0 → s.named c → ¬s.mayName (s.ctx c).secure → no .destroy 4) ∧
      (a / 2 ^ 12 = 0 → s.named c → s.mayName (s.ctx c).secure → ∃ t, exec .destroy s = .next t ∧ (t.ctx c).st = .teardown ∧
        (∀ x ∈ t.copies, x.ctx ≠ c) ∧ (∀ p ∈ t.parts, p.2.ctx = c → p.2.off = false) ∧ (t.ctx c).spill = [] ∧ (t.ctx c).refused = [] ∧
        (rising s.strands → ∀ p ∈ s.strands, p.2.ctx = c → (t.strand p.1).st = .ended)) ∧
      (a / 2 ^ 12 = 0 → (s.ctx c).st = .teardown → (tearBusy s c = true → exec .destroy s = .next (tearOn s c)) ∧
        (tearBusy s c = false → ∃ t, exec .destroy s = .next t ∧ t.replied s pa 0 ∧ (t.ctx c).st = .free ∧ (∀ p ∈ t.parts, p.2.ctx ≠ c) ∧
          (∀ x ∈ t.colls, x.ctx ≠ c) ∧ (∀ j ∈ t.folds, j.ctx ≠ c) ∧ (∀ e ∈ t.tlb, e.ctx ≠ c)))) ∧
    (n = 3 → let b := readBytes s a 64
      let c := recLE b 34 2
      let q := recLE b 36 1
      (queueOk a b = false → no .qopen 1) ∧ (queueOk a b = true → ¬s.named c → no .qopen 3) ∧
      (queueOk a b = true → s.named c → granuleSecure s a ≠ (s.ctx c).secure → no .qopen 1) ∧
      (queueOk a b = true → s.named c → granuleSecure s a = (s.ctx c).secure →
        ((tget? (s.ctx c).queues q).isSome = true → no .qopen 2) ∧
        (tget? (s.ctx c).queues q = none → ¬s.mayName (s.ctx c).secure → no .qopen 4) ∧
        (tget? (s.ctx c).queues q = none → s.mayName (s.ctx c).secure →
          ∃ x, out .qopen (s.setCtx c x) 0 ∧ tget? x.queues q = some a ∧ tget 0 x.posted q = readLE s (a + 16) 8 ∧
            { x with queues := (s.ctx c).queues, posted := (s.ctx c).posted } = s.ctx c))) ∧
    (n = 4 → let c := a % 2 ^ 12
      let q := a / 2 ^ 16 % 2 ^ 6
      let bad := a / 2 ^ 22 ≠ 0 ∨ a / 2 ^ 12 % 2 ^ 4 ≠ 0
      (bad → no .qclose 1) ∧ (¬bad → ¬s.named c → no .qclose 3) ∧ (¬bad → s.named c → ¬s.mayName (s.ctx c).secure → no .qclose 4) ∧
      (¬bad → s.named c → s.mayName (s.ctx c).secure →
        ∃ x, out .qclose (s.setCtx c x) 0 ∧ tget? x.queues q = none ∧ { x with queues := (s.ctx c).queues } = s.ctx c)) ∧
    (∀ i, (i, n) ∈ [(Instr.linkup, 5), (.linkfence, 6), (.linkdown, 7)] →
      (a / 2 ^ 5 ≠ 0 → no i 1) ∧ (a / 2 ^ 5 = 0 → ¬s.mayName (portSecure s a) → no i 4) ∧
      (a / 2 ^ 5 = 0 → s.mayName (portSecure s a) →
        let c := s.clav a
        let moves := n = 5 ∧ (c.st = .down ∨ c.st = .fenced) ∨ n = 6 ∧ (c.st = .up ∨ c.st = .narrowed) ∨ n = 7 ∧ c.st ≠ .down
        (¬moves → no i 0) ∧
        (moves → ∃ t, exec i s = .next t ∧ t.replied s pa 0 ∧ (t.clav a).st = (if n = 5 then .training else if n = 6 then .fenced else .down) ∧
          (t.clav a).lanes = 0 ∧ (t.clav a).chg = (c.chg + 1) % 2 ^ 8 ∧ (t.clav a).peer = if n = 7 then 0xFFFF else c.peer))) ∧
    (n = 8 → let c := a % 2 ^ 12
      (a / 2 ^ 56 ≠ 0 → no .settvec 1) ∧ (a / 2 ^ 56 = 0 → ¬s.named c → no .settvec 3) ∧
      (a / 2 ^ 56 = 0 → s.named c → ¬s.mayName (s.ctx c).secure → no .settvec 4) ∧
      (a / 2 ^ 56 = 0 → s.named c → s.mayName (s.ctx c).secure →
        out .settvec (s.setCtx c { s.ctx c with tvec := a / 2 ^ 12 % 2 ^ 44 * 2 ^ 12, tvecSet := true }) 0)) ∧
    (n = 9 → let b := readBytes s a 160
      let c := recLE b 0 8
      let world := s.mayName (s.ctx c).secure ∧ granuleSecure s a = (s.ctx c).secure
      (dbgOk a b = false → no .dbgset 1) ∧ (dbgOk a b = true → ¬s.named c → no .dbgset 3) ∧
      (dbgOk a b = true → s.named c → ¬world → no .dbgset 4) ∧
      (dbgOk a b = true → s.named c → world → ∃ x, out .dbgset (s.setCtx c x) 0 ∧ x.samp = recLE b 8 4 ∧
        (∀ k < 8, (tget? x.breaks k).map (fun p => (p.en, p.stop, p.base)) =
          some ((recLE b (16 + 8 * k) 8).testBit 0, (recLE b (16 + 8 * k) 8).testBit 1, recLE b (16 + 8 * k) 8 / 4 % 2 ^ 54 * 4)) ∧
        (∀ k < 4, (tget? x.watches k).map (fun p => (p.en, p.stop, p.base, p.lg, p.wr, p.rd)) =
          let w := recLE b (88 + 16 * k) 8
          some (w.testBit 9, w.testBit 8, recLE b (80 + 16 * k) 8, w % 2 ^ 6, w.testBit 7, w.testBit 6)))) ∧
    (let core := a % 2 ^ 9
     let slot := a / 2 ^ 16 % 2 ^ 4
     let bad := a / 2 ^ 20 ≠ 0 ∨ a / 2 ^ 9 % 2 ^ 7 ≠ 0
     (∀ i, (i, n) ∈ [(Instr.dstop, 10), (.dresume, 11)] →
       (bad → no i 1) ∧ (¬bad → ¬s.mayName (cfgBit s core) → no i 4) ∧
       (¬bad → s.mayName (cfgBit s core) → slotOwner s core slot = none → no i 10)) ∧
     (∀ u, ¬bad → s.mayName (cfgBit s core) → slotOwner s core slot = some u →
       let t := s.strand u
       (n = 10 → (t.st = .ready ∨ (∃ w, t.st = .parked w) → ∃ q, exec .dstop s = .next q ∧ (q.strand u).stopWaits = true ∧
           (t.stopWaits = false → (q.strand u).stopDbg = false) ∧ (q.strand u).st = t.st ∧ (q.strand u).pc = t.pc ∧ q.mem = s.mem) ∧
         (∀ w, t.st = .stopped w → no .dstop 0)) ∧
       (n = 11 → t.close = none → (∀ w, t.st = .stopped w → ∃ q, exec .dresume s = .next q ∧ q.replied s pa 0 ∧
           (q.strand u).st = (match w with | some w => .parked w | none => .ready) ∧ (q.strand u).pc = t.pc) ∧
         (t.st = .ready → no .dresume 10)))) ∧
    (n = 12 → (16 ≤ a → no .trcset 1) ∧ (a < 16 → out .trcset { s with trcSel := a } 0)) ∧
    (n = 13 → let c := readLE s a 8
      let at' := readLE s (a + 8) 8
      let st := readLE s (a + 16) 8
      let bad := a % 32 ≠ 0 ∨ 2 ^ 39 ≤ a ∨ readLE s (a + 24) 8 ≠ 0 ∨ st % 16 ≠ 0 ∨ 2 ^ 39 ≤ st ∨ at' % 64 ≠ 0 ∨ 2 ^ 39 ≤ at' ∨ 2 ^ 12 ≤ c
      let w := (s.ctx c).secure
      let o := objectBytes s at'
      let world := s.mayName w ∧ granuleSecure s a = w ∧ granuleSecure s st = w ∧
        ∀ i ≤ o.length / 2 ^ 21, granuleSecure s (at' + min (i * 2 ^ 21) (o.length - 1)) = w
      (bad → no .loadobj 1) ∧ (¬bad → ¬s.named c → no .loadobj 3) ∧ (¬bad → s.named c → ¬world → no .loadobj 4) ∧
      (¬bad → s.named c → world → st + 16 ≤ pa + 16 ∨ pa + 24 ≤ st → st + 16 ≤ cfgLE s 0x5C0 8 + 24 ∨ cfgLE s 0x5C0 8 + 32 ≤ st →
        ∃ t, exec .loadobj s = .next t ∧ t.replied s pa 0 ∧ readLE t st 8 = (loadObject s c o).2.1 % 2 ^ 64 ∧
          readLE t (st + 8) 8 = (loadObject s c o).2.2 % 2 ^ 64 ∧ (t.ctx c).loaded = ((loadObject s c o).1.ctx c).loaded))) ∧
  (∀ (s : State) (c : Nat) (o : List Byte),
    let magic := recLE o 0 4
    (magic ≠ 0x3146504C → magic ≠ 0x54414E46 → loadObject s c o = (s, 1, 0)) ∧
    (magic = 0x3146504C → recLE o 4 2 ≠ 0 → loadObject s c o = (s, 2, 4)) ∧
    (magic = 0x54414E46 → recLE o 4 2 ≠ 1 → loadObject s c o = (s, 2, 4)) ∧
    (magic = 0x3146504C → recLE o 4 2 = 0 → recLE o 6 2 ≠ 0 → loadObject s c o = (s, 3, 6)) ∧
    ((loadObject s c o).2.1 = 0 → ((loadObject s c o).1.ctx c).loaded.length = (s.ctx c).loaded.length + recLE o 20 4) ∧
    ((loadObject s c o).2.1 ≠ 0 → (loadObject s c o).1.mem = s.mem ∧ (loadObject s c o).1.ctxs = s.ctxs)) ∧
  (∀ (s : State) (i : Nat), exec (.finalisedCacheDrop i) s = .next { s with textCache := ldel s.textCache i })

/-- The command processor takes the next posted record whose dependency counter allows it, and moves the read index past
it; a write-blocked page of its admission makes it wait, and one of a completion record too. An admitted kernel has
each group at an earliest start not before now, in a window of its derated budget, on cores it may use, and a promise
that the deadline accepts. A group at its start is placed whole: every strand READY at the kernel's entry with its
launch values. A group over its budget ends its kernel; a closing kernel whose writes are performed is COMPLETE; a
window that ends gives its slot-table entries back; a missed promise is noted once. A transform starts, ends CLOSING,
or ends ABORTED with its cause. What a transform counts, a record with a misaligned ADMA, and the count and places of
deterministic kernels are the model's choices (log entries 59, 63 and 97). (R374, R376, R405, R411, R413, R414, R415,
R416, R417, R419, R450, R454) -/
def Obligations.PlacementAndBudgets : Prop :=
  (∀ (s : State) (ctx qn : Nat), let live := (s.ctx ctx).st = .built ∨ (s.ctx ctx).st = .active
    (¬live ∨ tget? (s.ctx ctx).queues qn = none → exec (.queueTake ctx qn) s = .next s) ∧
    (∀ blk, live → tget? (s.ctx ctx).queues qn = some blk →
      let wi := if readLE s (blk + 33) 1 = 2 then tget 0 (s.ctx ctx).posted qn else readLE s (blk + 16) 8
      let ri := readLE s (blk + 24) 8
      let va := readLE s blk 8 + 128 * (ri % 2 ^ readLE s (blk + 32) 1)
      (wi ≤ ri → exec (.queueTake ctx qn) s = .next s) ∧
      (∀ r, ri < wi → readVA s ctx (sectorPieces va 128) = .ok r →
        (depWaits s ctx (recLE r 40 8) = true → exec (.queueTake ctx qn) s = .next (depMiss s ctx (recLE r 40 8))) ∧
        (depWaits s ctx (recLE r 40 8) = false → admitHeld s ctx r = true → exec (.queueTake ctx qn) s = .next s) ∧
        (depWaits s ctx (recLE r 40 8) = false → admitHeld s ctx r = false → ∃ t, exec (.queueTake ctx qn) s = .next t ∧
          t = releaseWrite (admitRecord s ctx r) (blk + 24) ((ri + 1) % 2 ^ 64) (mkTag .system cpParty) ∧
          readLE t (blk + 24) 8 = (ri + 1) % 2 ^ 64 ∧ t.kernels = (admitRecord s ctx r).kernels)) ∧
      (∀ c, ri < wi → readVA s ctx (sectorPieces va 128) = .error c →
        let q := logVA s ctx (sectorPieces va 128)
        let done (v : State) : Prop := exec (.queueTake ctx qn) s = .next (releaseWrite v (blk + 24) ((ri + 1) % 2 ^ 64) (mkTag .system cpParty))
        (∀ d, readVA q ctx [(va + 16, 8)] = .error d → done (report q 5 ctx 33 0xFF 0xFFFF va)) ∧
        (∀ b v, readVA q ctx [(va + 16, 8)] = .ok b → leNat b % 64 = 0 → cpWritable q ctx (leNat b) 64 = true →
          writeAdmission q { Kernel.init with ctx := ctx, adma := leNat b } 6 q.cycle = some v → done v)))) ∧
  (∀ (s : State) (ctx depa : Nat),
    depWaits s ctx 0 = false ∧
    (∀ x b, depa ≠ 0 → depa % 8 = 0 → checkLeaf s ctx depa .read true (walk s ctx depa) = .ok x → homeRead s ctx x.pa 8 = .ok b →
      let tag := tagOf s x.pa
      (depWaits s ctx depa = true ↔ 0 < sgn 64 (leNat b) ∨ tagMiss tag cpParty .system = true) ∧
      (tagMiss tag cpParty .system = false → depMiss s ctx depa = s) ∧
      (tagMiss tag cpParty .system = true → fld tag 3 10 < 512 →
        let m : ScopeMiss := ⟨ctx, fld tag 3 10, x.pa, jointScope (fld tag 3 10) cpParty⟩
        m ∉ (s.core m.core).misses → (s.core m.core).misses.length < 16 →
          ((depMiss s ctx depa).core m.core).misses = (s.core m.core).misses ++ [m] ∧ (depMiss s ctx depa).mem = s.mem))) ∧
  (∀ (s : State) (ctx : Nat) (r : List Byte), let k := kernelOf ctx r
    let answers (q : State) (code : Nat) : Prop := ∀ v, writeAdmission q k code s.cycle = some v → admitRecord s ctx r = v
    (k.adma % 8 ≠ 0 ∨ cpWritable s ctx k.adma 64 = false → admitRecord s ctx r = report s 8 ctx 33 0xFF 0xFFFF k.adma) ∧
    (k.adma % 8 = 0 → cpWritable s ctx k.adma 64 = true →
      (k.adma % 64 ≠ 0 ∨ badRec r = true → answers s 5) ∧
      (k.adma % 64 = 0 → badRec r = false →
        (∀ c, k.xform ≠ 0 → readVA s ctx (sectorPieces k.par 64) = .error c → answers (logVA s ctx (sectorPieces k.par 64)) 6) ∧
        (∀ b, k.xform ≠ 0 → readVA s ctx (sectorPieces k.par 64) = .ok b → badXform k.xform b = true → answers s 5) ∧
        ((k.xform ≠ 0 → ∃ b, readVA s ctx (sectorPieces k.par 64) = .ok b ∧ badXform k.xform b = false) →
          (cpWritable s ctx k.cmpa 32 = false → answers s 6) ∧
          (cpWritable s ctx k.cmpa 32 = true →
            (copyArgs s k = none → answers (if k.argn = 0 then s else logVA s ctx (sectorPieces k.par k.argn)) 6) ∧
            (∀ s1 argv, copyArgs s k = some (s1, argv) →
              (∀ c, admitKernel s1 k r argv = .error c → answers (match argv with | some a => freeArgs s1 ctx a | none => s1) c) ∧
              (∀ k' q, admitKernel s1 k r argv = .ok k' → writeAdmission s1 k' 0 s.cycle = some q →
                (admitRecord s ctx r).kern q.nextKern = k' ∧ ((admitRecord s ctx r).ctx ctx).st = .active ∧
                (admitRecord s ctx r).nextKern = q.nextKern + 1))))))) ∧
  (∀ (s : State) (k : Kernel) (r : List Byte) (argv : Option Nat), k.xform = 0 →
    ((∀ l ∈ (s.ctx k.ctx).loaded, l.addr ≠ k.kaddr) → admitKernel s k r argv = .error 4) ∧
    (∀ k', admitKernel s k r argv = .ok k' →
      let deadl := recLE r 32 8
      let bcyc := (k.slices + if k.restart then 1 else 0) * k.costLE 0 8
      k'.st = .admitted ∧ k'.groups.length = k.g ∧ (∃ l ∈ (s.ctx k.ctx).loaded, l.addr = k.kaddr) ∧
      (∀ g ∈ k'.groups, g.st = .pending ∧ s.cycle ≤ g.start ∧ g.window = (bcyc * (64 + cfgLE s 13 1) + 63) / 64 ∧
        ∀ c ∈ g.cores, coreUsable s k.ctx c = true) ∧
      (k.standing = true → k'.tprom = 0) ∧
      (k.standing = false → (∀ g ∈ k'.groups, g.start + g.window + 65536 ≤ k'.tprom) ∧
        (k'.groups ≠ [] → ∃ g ∈ k'.groups, g.start + g.window + 65536 = k'.tprom) ∧ (deadl ≠ 0 → k'.tprom ≤ deadl)))) ∧
  (∀ (s : State) (kern grp : Nat) (g : Group), s.groupAt kern grp = some g →
    let k := s.kern kern
    let now := if k.det = true ∧ (k.st = .running ∨ k.st = .closing) then (k.groups.map (·.start)).min?.getD 0 + k.detCyc else s.cycle
    let turnOf : Prop := g.st = .pending ∧ k.xform = 0 ∧ (k.st = .admitted ∨ k.st = .running) ∧ g.start ≤ now ∧
      (∀ h ∈ k.groups, h.st = .pending → ¬(h.start < g.start ∨ h.start = g.start ∧ h.num < g.num)) ∧
      ∀ c ∈ g.cores, coreFree s k g c = true
    (¬turnOf → exec (.groupPlacement kern grp) s = .next s) ∧
    (turnOf → g.cores.Nodup →
      ∃ t, exec (.groupPlacement kern grp) s = .next t ∧ (t.kern kern).st = .running ∧
        (∃ g', t.groupAt kern grp = some g' ∧ g'.st = .resident ∧ g'.cyc = (if g.began = none then 1 else g.cyc) ∧
          g'.began = some (g.began.getD now)) ∧
        (∀ c ∈ g.cores, ∀ l ∈ (t.core c).rbuf, l.ctx ≠ k.ctx) ∧
        t.nextUid = s.nextUid + g.cores.length * g.slots.length ∧
        (∀ o j c i, g.cores[o]? = some c → g.slots[j]? = some i →
          let x := t.strand (s.nextUid + o * g.slots.length + j)
          let n := if k.kind = 0 then j else 8 * g.slots.length * (o / 8) + 8 * j + o % 8
          x.st = .ready ∧ x.pc = k.kaddr ∧ x.ctx = k.ctx ∧ x.kern = kern ∧ x.grp = grp ∧ x.index = n ∧ x.lcore = c ∧ x.lslot = i ∧
          x.pcore = c ∧ x.pslot = i ∧ x.phys = [(0, w64 n), (1, w64 k.argv)] ∧ x.dseed = (s.ctx k.ctx).seed ∧ x.cwp = 0 ∧ x.ops = [] ∧
          x.wsp = w64 ((s.ctx k.ctx).wspb + (16 * c + i) * 2 ^ (s.ctx k.ctx).wsplg)) ∧
        (∀ o c, g.cores[o]? = some c → (t.part c k.ctx).st = .placed ∧
          ((s.part c k.ctx).st = .none → (t.part c k.ctx).partn = g.planOn c) ∧
          (k.usesDeques = true → (t.part c k.ctx).deqGrp = some (kern * 2 ^ 32 + g.num) ∧ (t.part c k.ctx).deque = ((List.range k.slices).filter fun j => j % g.cores.length == o).map fun j =>
            entryOf (j * k.width) (min k.coords ((j + 1) * k.width)))))) ∧
  (∀ (s : State) (kern grp : Nat) (g : Group), s.groupAt kern grp = some g →
    let k := s.kern kern
    let times := if k.xform ≠ 0 then 1 else k.slices + if k.restart then 1 else 0
    let spent := times * k.costLE 0 8 < g.cyc ∨ times * k.costLE 8 8 < g.bytes
    let held := (k.st = .admitted ∨ k.st = .running) ∧ (g.st = .resident ∨ g.st = .pending ∧ g.began ≠ none ∨ k.xform ≠ 0)
    (¬(spent ∧ held) → exec (.overrun kern grp) s = .next s) ∧
    (spent → held → rising s.strands → ∃ t, exec (.overrun kern grp) s = .next t ∧ (t.kern kern).st = .aborted ∧ (t.kern kern).cause = 31 ∧
      (t.kern kern).gfail = grp ∧ ∀ p ∈ s.strands, p.2.kern = kern → (t.strand p.1).st = .ended) ∧
    (g.start + g.window ≤ s.cycle → k.standing = false → ∃ t, exec (.windowEnd kern grp) s = .next t ∧
      ∃ g', t.groupAt kern grp = some g' ∧ g'.ents = [] ∧ t.mem = s.mem) ∧
    (s.cycle < g.start + g.window ∨ k.standing = true ∨ g.ents = [] → exec (.windowEnd kern grp) s = .next s)) ∧
  (∀ (s : State) (kern : Nat), let k := s.kern kern
    (∀ v, k.owes = some v → cpHeld s k.ctx k.cmpa 32 = false → ∃ t, exec (.kernelCompletion kern) s = .next t ∧
      (t.kern kern).owes = none ∧ (t.kern kern).st = k.st) ∧
    (k.owes = none → k.sigOwed = true →
      (cpSignal s k.ctx k.siga k.sigv = none → ∃ t, exec (.kernelCompletion kern) s = .next t ∧ t.kern kern = k ∧ t.mem = s.mem) ∧
      (∀ q, cpSignal s k.ctx k.siga k.sigv = some q → ∃ t, exec (.kernelCompletion kern) s = .next t ∧ t.mem = q.mem ∧
        (t.kern kern).sigOwed = false)) ∧
    (k.owes = none → k.sigOwed = false → k.st ≠ .closing ∨ kernelPublished s kern = false ∨ cpHeld s k.ctx k.cmpa 32 = true →
      exec (.kernelCompletion kern) s = .next s) ∧
    (k.owes = none → k.sigOwed = false → k.st = .closing → kernelPublished s kern = true → cpHeld s k.ctx k.cmpa 32 = false →
      ∃ t, exec (.kernelCompletion kern) s = .next t ∧ (t.kern kern).st = .complete ∧
      (rising s.kernels → (s.ctx k.ctx).st = .active → (∀ x ∈ s.kernels, x.1 ≠ kern → x.2.ctx = k.ctx →
        x.2.st ≠ .admitted ∧ x.2.st ≠ .running ∧ x.2.st ≠ .closing) → (t.ctx k.ctx).st = .built)) ∧
    (let live := k.st = .admitted ∨ k.st = .running ∨ k.st = .closing
     let bcyc := (k.slices + if k.restart then 1 else 0) * k.costLE 0 8
     let due : Option Nat := if k.standing then k.eosStart.map fun e => e + k.g * ((bcyc * (64 + cfgLE s 13 1) + 63) / 64) + 65536 else some k.tprom
     let missed := (∃ b, due = some b ∧ b < s.cycle) ∨
       k.standing = true ∧ ∃ g ∈ k.groups, g.st = .pending ∧ g.start < s.cycle ∧ g.began ≠ some g.start
     k.xform = 0 → (live ∧ k.late = false ∧ missed → ∃ t, exec (.promiseMissed 0 kern) s = .next t ∧ (t.kern kern).late = true ∧
        (t.kern kern).st = k.st) ∧
       (¬(live ∧ k.late = false ∧ missed) → exec (.promiseMissed 0 kern) s = .next s))) ∧
  (∀ (s : State) (ctx v : Nat), cpSignal s ctx 0 v = some s ∧
    ∀ va x b, va ≠ 0 → checkLeaf s ctx va .both true (walk s ctx va) = .ok x → homeOf s x.pa = .first →
      (x.wb = true → cpSignal s ctx va v = none) ∧
      (x.wb = false → homeRead s ctx x.pa 8 = .ok b →
        cpSignal s ctx va v = some (releaseWrite s x.pa ((leNat b + v) % 2 ^ 64) (mkTag .system cpParty)))) ∧
  (∀ (s : State) (kern : Nat), let k := s.kern kern
    (k.xform = 0 ∨ (∃ g ∈ k.groups, s.cycle < g.start) → exec (.transformRun kern) s = .next s) ∧
    (k.xform ≠ 0 → (∀ g ∈ k.groups, g.start ≤ s.cycle) →
      (k.st = .admitted → exec (.transformRun kern) s = .next (s.setKern kern { k with st := .running })) ∧
      (k.st ≠ .admitted → k.st ≠ .running → exec (.transformRun kern) s = .next s) ∧
      (k.st = .running →
        (∀ g, k.groups.find? (fun g => decide (k.costLE 0 8 < g.cyc) || decide (k.costLE 8 8 < g.bytes)) = some g →
          exec (.transformRun kern) s = exec (.overrun kern g.num) s) ∧
        ((∀ g ∈ k.groups, g.cyc ≤ k.costLE 0 8 ∧ g.bytes ≤ k.costLE 8 8) → ∀ s1,
          (∀ f, xWork s kern k = (s1, .ok f) → ∃ t, exec (.transformRun kern) s = .next t ∧ t = s1.modKern kern f ∧ t.mem = s1.mem) ∧
          (xWork s kern k = (s1, .error none) → exec (.transformRun kern) s = .next s1) ∧
          (∀ c, xWork s kern k = (s1, .error (some c)) → ∃ t, exec (.transformRun kern) s = .next t ∧ (t.kern kern).st = .aborted ∧
            (t.kern kern).cause = c.code))))) ∧
  (∀ (s : State) (kern who : Nat), let k := s.kern kern
    let x : XRun := ⟨who, k.ctx, kern⟩
    xEngine s k = some who → ∀ s1 : State,
    (∀ b, k.xblk = [] → xBlock s x k = (s1, .ok b) → ∃ f, xWork s kern k = (s1, .ok f) ∧ f k = { k with xblk := b }) ∧
    (k.xblk ≠ [] → k.xout = [] →
      (xNext s x k = (s1, .ok none) → ∃ f, xWork s kern k = (s1, .ok f) ∧ f k = { k with st := .closing }) ∧
      (∀ l n, xNext s x k = (s1, .ok (some (l, n))) → ∃ f, xWork s kern k = (s1, .ok f) ∧
        f k = { k with xpos := k.xpos + 1, xsoff := k.xsoff + n, xout := l })) ∧
    (∀ d ref q l s2, k.xblk ≠ [] → k.xout = q → q ≠ [] → (if k.xform = 4 then s1 = s ∧ ref = 0 ∧ d = ⟨0, 0, 0⟩ else
        xRef s x (recLE k.xblk 8 8) .write = (s1, .ok (ref, d))) → xAtom s1 x d ref (recLE k.xblk 8 8) q = (s2, .ok l) →
      ∃ f, xWork s kern k = (s2, .ok f) ∧ f k = { k with xout := l })) ∧
  (∀ (s s1 : State) (x : XRun) (src dst len : Nat) (b : List Byte), xGet s x (sectorPieces src len) = (s1, .ok b) →
    xDigest s x src dst len = (s1, .ok ((atomsOf dst (sha256 b)).map fun a => .bytes a.1 a.2 (a.1 == dst || a.1 % 64 == 0)))) ∧
  (∀ (s s1 : State) (x : XRun) (d : Desc) (ref base va : Nat) (bs : List Byte) (first : Bool) (l : List XOut) (y : Xl),
    xBytesAt s x va bs.length .write first = (s1, .ok y) → homeOf s1 y.pa = .first →
    ∃ t, xAtom s x d ref base (.bytes va bs first :: l) = (t, .ok l) ∧ wrote s1.mem t.mem y.pa bs) ∧
  (∀ (d : Desc) (a e : Nat), elemPlace d (64 * a) e = (64 * a + 64 * (e / d.per), e % d.per)) ∧
  (∀ (s s1 : State) (x : XRun) (d : Desc) (ref base e c : Nat) (first : Bool) (y : Xl), d.bits ∈ [8, 16, 32] →
    xSector s x (elemPlace d base e).1 ref .write first = (s1, .ok y) → homeOf s1 y.pa = .first → y.pa % 64 = 0 →
    (elemPlace d base e).2 * (d.bits / 8) + d.bits / 8 ≤ 64 → c < 2 ^ d.bits →
    ∃ t, xPut s x d ref base (.code e c none first false) = (t, .ok ()) ∧
      wrote s1.mem t.mem (y.pa + (elemPlace d base e).2 * (d.bits / 8)) (leBytes (d.bits / 8) c))

/-- At or above THOT a core disables its highest enabled slot but slot 0, choosing the strand in it for displacement
first, or freezes one more rotation in 8, up to 7; at or below TCOOL it thaws one, or enables its lowest disabled
slot; between, nothing. A chosen strand with an operation pending closes; one that has closed, with its stores and
releases performed, moves to the lowest free slot of the coolest core of its cluster below THOT, with its frames
stored, keeping its logical position; its old slot is disabled. Where there is none, it stays and its core freezes.
What a displaced strand brings to its new core is the model's choice (log entry 70). The mesh interrupt puts every
context placed on a core into SAVING, if all are placed. Once the core is quiet its save completes: masks and read
buffer are cleared, its parts are SAVED and its strands are SAVED as READY, PARKED or STOPPED; a save that faults
leaves them placed; until then nothing happens. A restore of a core whose parts are all saved and whose slots are free
gives each strand back as it was. The first diverted message of a restored core is delivered and leaves the queue; a
refused one enters it where there is room. What is saved of pending operations and of a displaced strand is the
model's choice (log entries 77 and 111). (R94, R118, R377, R421, R422, R423, R435, R436, R437, R438, R439, R442) -/
def Obligations.PreemptionAndThermal : Prop :=
  ((∀ (s : State) (core temp : Nat), 512 ≤ core ∨ s.cycle = 0 ∨ s.cycle % 2 ^ 14 ≠ 0 ∨ (s.core core).thermAt = s.cycle →
    exec (.thermalInterval core temp) s = .next s) ∧
  (∀ (s : State) (core temp : Nat), core < 512 → s.cycle ≠ 0 → s.cycle % 2 ^ 14 = 0 → (s.core core).thermAt ≠ s.cycle →
    let trim := cfgLE s 0xC0 1024
    let hot := Config.thot trim core
    let cool := Config.tcool trim core
    let c := s.core core
    let on (i : Nat) : Prop := c.disabled.testBit i = false
    let after (q : State) (d f : Nat) : Prop := (q.core core).disabled = d ∧ (q.core core).frozen = f ∧ (q.core core).temp = temp
    ∃ t, exec (.thermalInterval core temp) s = .next t ∧ (t.core core).thermAt = s.cycle ∧
      (hot ≤ temp → detCore s core = true → after t c.disabled (min 7 (c.frozen + 1)) ∧ t.strands = s.strands ∧
        ∀ d ∈ takenWith s core, (t.core d).frozen = min 7 ((s.core d).frozen + 1) ∧ (t.core d).disabled = (s.core d).disabled) ∧
      (hot ≤ temp → detCore s core = false → c.disabled < 2 ^ 16 →
        ((∀ i < 16, i ≠ 0 → ¬on i) → after t c.disabled (min 7 (c.frozen + 1)) ∧ t.strands = s.strands) ∧
        (∀ k, 1 ≤ k → k < 16 → on k → (∀ i < 16, k < i → ¬on i) →
          (s.slotStrand core k = none → after t (c.disabled + 2 ^ k) c.frozen ∧ t.strands = s.strands) ∧
          (∀ u, s.slotStrand core k = some u → (s.strand u).displacing = true → after t c.disabled c.frozen ∧ t.strands = s.strands) ∧
          (∀ u, s.slotStrand core k = some u → (s.strand u).displacing = false → (s.strand u).ending = true →
            ((s.strand u).st = .ready ∨ ∃ w, (s.strand u).st = .parked w) → after t c.disabled c.frozen ∧ t.strands = s.strands) ∧
          (∀ u, s.slotStrand core k = some u → (s.strand u).displacing = false → (s.strand u).ending = false →
            (((s.strand u).st = .ready ∨ ∃ w, (s.strand u).st = .parked w) → (s.strand u).trap.intrap = true ∨ (s.strand u).ops = [] →
              (t.strand u).displacing = true ∧ (t.strand u).pc = (s.strand u).pc ∧ after t c.disabled c.frozen) ∧
            (∀ w, (s.strand u).st = .stopped w → after t c.disabled (min 7 (c.frozen + 1)) ∧ t.strands = s.strands)))) ∧
      (temp < hot → temp ≤ cool →
        (c.frozen ≠ 0 → after t c.disabled (c.frozen - 1)) ∧
        (∀ k < 16, c.frozen = 0 → ¬on k → (∀ i < k, on i) → after t (c.disabled - 2 ^ k) 0)) ∧
      (temp < hot → cool < temp → after t c.disabled c.frozen ∧ t.strands = s.strands)) ∧
  (∀ (s : State) (u : Nat), let t := s.strand u
    (t.displacing = false → exec (.thermalDisplacement u) s = .next s) ∧
    (t.displacing = true → t.st = .ready → t.trap.intrap = false → t.close = none → t.ending = false → s.off t.pcore t.ctx = false →
      t.engagedNow = true → exec (.thermalDisplacement u) s = .next (closeAt s u t.pc false)) ∧
    (t.displacing = true → t.st = .ready → t.engagedNow = false → t.vq = [] → t.trap.intrap = false → t.close = none → t.ending = false →
      (∀ w ∈ s.writes, w.uid ≠ u) → (∀ c ∈ s.cores, ∀ r ∈ c.2.relq, r.uid ≠ u) →
      s.off t.pcore t.ctx = false → t.pcore < 512 →
      (∀ s1 c k, displaceTo s t.pcore = some (c, k) → storeFrames s u = (s1, none) → s1.strand u = t →
        (coreCluster c = coreCluster t.pcore ∧ c ≠ t.pcore ∧ (s.core c).temp < Config.thot (cfgLE s 0xC0 1024) c ∧ (s.core c).disabled.testBit k = false ∧
          s.slotStrand c k = none) ∧
        ∃ q, exec (.thermalDisplacement u) s = .next q ∧ q.mem = s1.mem ∧
          q.strand u = { t with
            pcore := c, pslot := k, wsp := t.wsp + w64 (8 * t.wres), wres := 0, displacing := false } ∧
          (q.core t.pcore).disabled.testBit t.pslot = true ∧
          tget? (q.core c).binds t.ctx = some (s1.ctx t.ctx).binds ∧ ∀ l ∈ (q.core c).rbuf, l.ctx ≠ t.ctx) ∧
      (∀ s1 ck, displaceTo s t.pcore = some ck →
        (storeFrames s u = (s1, some false) → exec (.thermalDisplacement u) s = .next s) ∧
        (storeFrames s u = (s1, some true) → ∃ q, exec (.thermalDisplacement u) s = .next q ∧ (q.strand u).displacing = false ∧
          (q.core t.pcore).frozen = min 7 ((s1.core t.pcore).frozen + 1))) ∧
      (displaceTo s t.pcore = none → ∃ q, exec (.thermalDisplacement u) s = .next q ∧
        (q.strand u).displacing = false ∧ (q.strand u).pcore = t.pcore ∧ (q.core t.pcore).frozen = min 7 ((s.core t.pcore).frozen + 1))))) ∧
  ((∀ (s : State) (core : Nat),
    let held (c : Nat) := (s.parts.filter fun p => p.2.core == c && p.2.st != .none).map (·.2)
    let cs := takenWith s core
    ((∀ k ∈ s.kernels, k.2.det = true → ∀ g ∈ k.2.groups, g.st = .resident → core ∉ g.cores) → cs = [core]) ∧
    ((∃ c ∈ cs, held c = [] ∨ ∃ p ∈ held c, p.st ≠ .placed) → exec (.meshInterrupt core) s = .next s) ∧
    ((∀ c ∈ cs, held c ≠ [] ∧ ∀ p ∈ held c, p.st = .placed) → ∃ t, exec (.meshInterrupt core) s = .next t ∧ t.mem = s.mem ∧ t.strands = s.strands ∧
      (∀ c ∈ cs, (t.core c).since = s.cycle) ∧
      t.parts = s.parts.map fun p => if p.2.core ∈ cs ∧ p.2.st = .placed then (p.1, { p.2 with st := .saving, late := false }) else p)) ∧
  (∀ (s : State) (core : Nat),
    let ps := (heldParts s core).filter Part.off
    let guests := (savedWith s core).filter fun u => (s.part core (s.strand u).ctx).st == .none
    let wrote := guests.foldl (saveGuest core) (ps.foldl (savePart core) (s, none))
    ((∀ p ∈ heldParts s core, p.st ≠ .saving) ∨ quiet s core = false → exec (.saveComplete core) s = .next s) ∧
    ((∃ p ∈ heldParts s core, p.st = .saving) → quiet s core = true → ∀ s1 : State,
      (wrote = (s1, some .waits) → exec (.saveComplete core) s = .next s) ∧
      (∀ c va, wrote = (s1, some (.fault c va)) → ∃ t, exec (.saveComplete core) s = .next t ∧
        (∀ p ∈ t.parts, p.2.core = core → p.2.st ≠ .saving) ∧
        t = report (s1.mapParts fun p => if p.core = core ∧ p.st = .saving then { p with st := .placed } else p) 2 c 32 0xFF core va) ∧
      (wrote = (s1, none) → s1.strands = s.strands → ∃ t, exec (.saveComplete core) s = .next t ∧ t.mem = s1.mem ∧
        (t.core core).touchS = 0 ∧ (t.core core).touchP = 0 ∧ (t.core core).rbuf = [] ∧ (∀ p ∈ ps, (t.part core p.ctx).st = .saved) ∧
        (∀ w ∈ s1.watches, w.uid ∉ savedWith s core → windowCore s1 w.pa ≠ some core ∨ inBarriers s1 w.pa = true → w ∈ t.watches) ∧
        (rising s.strands → ∀ u ∈ savedWith s core, (∀ w ∈ t.watches, w.uid ≠ u) ∧ (t.strand u).wres = 0 ∧
          (t.strand u).wsp = (s.strand u).wsp + w64 (8 * (s.strand u).wres) ∧
          (t.strand u).st = match (s.strand u).st with
            | .parked w => .saved .preempted (some w) false
            | .stopped w => .saved .preempted w true
            | _ => .saved .preempted none false)))) ∧
  (∀ (s : State) (core : Nat),
    let ps := heldParts s core
    let back (u : Nat) : Prop := (s.strand u).pcore = core ∧ ∃ w x, (s.strand u).st = .saved .preempted w x
    let full : Prop := ∃ p ∈ s.strands, p.2.pcore = core ∧ (∃ w x, p.2.st = .saved .preempted w x) ∧ (s.slotStrand core p.2.pslot).isSome = true
    (ps = [] ∨ (∃ p ∈ ps, p.st ≠ .saved) ∧ (∃ p ∈ ps, p.st ≠ .restoring) ∨ (∀ p ∈ ps, p.st = .saved) ∧ full → exec (.restore core) s = .next s) ∧
    (ps ≠ [] → (∀ p ∈ ps, p.st = .saved) → ¬full → ∃ t, exec (.restore core) s = .next t ∧ t.strands = s.strands ∧ t.mem = s.mem ∧
      t.parts = s.parts.map fun p => if p.2.core = core ∧ p.2.st = .saved then (p.1, { p.2 with st := .restoring }) else p) ∧
    (∀ p, ps = [p] → p.st = .restoring → rising s.strands → (∀ x ∈ s.strands, back x.1 →
        x.2.close = none ∧ x.2.stopWaits = false ∧ ∀ o ∈ x.2.ops, ∀ a e, o.kind ≠ .swwait a e) →
      ∃ t, exec (.restore core) s = .next t ∧ (t.part core p.ctx).st = .placed ∧ (t.part core p.ctx).rings = p.rings ∧
        (t.part core p.ctx).barriers = p.barriers ∧ (t.part core p.ctx).deque = p.deque ∧
        ∀ x ∈ s.strands, back x.1 → (t.strand x.1).pslot = x.2.pslot ∧ (t.strand x.1).ops = x.2.ops ∧
          ∀ w st, x.2.st = .saved .preempted w st → (t.strand x.1).st =
            if st then .stopped w else match w with | some w => .parked w | none => .ready)) ∧
  (∀ (s : State) (core n : Nat), n ≠ 0 →
    let due (p : Part) : Prop := p.core = core ∧ p.off = true ∧ p.late = false ∧ (s.core core).since + (s.ctx p.ctx).rbound < s.cycle
    ((∀ p ∈ s.parts, ¬due p.2) → exec (.promiseMissed n core) s = .next s) ∧
    ∃ t, exec (.promiseMissed n core) s = .next t ∧ ∀ p ∈ s.parts, due p.2 → (t.part core p.2.ctx).late = true) ∧
  (∀ (s : State) (ctx core : Nat), let x := s.ctx ctx
    (s.off core ctx = true → exec (.redelivery ctx core) s = .next s) ∧
    (s.off core ctx = false →
      (∀ e, (x.spill.find? fun e => e.1 == core) = some e →
        (redeliver s ctx core e.2 = none → exec (.redelivery ctx core) s = .next s) ∧
        (∀ s1, redeliver s ctx core e.2 = some s1 → ∃ t, exec (.redelivery ctx core) s = .next t ∧
          (t.ctx ctx).spill = dropFirst core (s1.ctx ctx).spill ∧ (t.ctx ctx).refused = (s1.ctx ctx).refused)) ∧
      (∀ e s1, (∀ e ∈ x.spill, e.1 ≠ core) → (x.refused.find? fun e => e.1 == core) = some e → redeliver s ctx core e.2 = some s1 →
        ∃ t, exec (.redelivery ctx core) s = .next t ∧ t.mem = s1.mem ∧ (t.ctx ctx).refused = dropFirst core (s1.ctx ctx).refused) ∧
      ((∀ e ∈ x.spill ++ x.refused, e.1 ≠ core) → exec (.redelivery ctx core) s = .next s)) ∧
    (x.refused = [] → exec (.spillRetry ctx) s = .next s) ∧
    (∀ e rest, x.refused = e :: rest → s.off e.1 ctx = true → x.spill.length < x.spqn → ∃ t, exec (.spillRetry ctx) s = .next t ∧
      (t.ctx ctx).spill = x.spill ++ [e] ∧ (t.ctx ctx).refused = rest ∧ (t.ctx ctx).spqSeq = x.spqSeq + 1)))

/-- Training that ends with 8 lanes brings a port UP; with fewer, only once its time is over, NARROWED on 4 or 2 lanes or
DOWN; a lane failure narrows a port or brings it DOWN; a replay is counted and the 4,096th between dumps fences it;
every change counts in CHG. A message with no port is noted and after 2^20 cycles discarded. A dump takes the next
number and writes its header. A sample enters the trace at its interval; push-back is set and released. A node's write
to its own memory changes exactly its bytes there; an upset counts or poisons (log entry 20). In GUARDED mode a stream
that the watchdog refuses is cut off and logged, and its later messages are discarded until DRST (log entry 76); in
SERVICE mode its context is halted. The numbers of dumps, the lanes a narrowed port keeps, the cycle of a sample, and
an upset as an act of its own are the model's choices (log entries 80, 81, 87 and 20). (R457, R458, R460, R462, R465,
R491, R505, R506, R507) -/
def Obligations.LinksAndTrace : Prop :=
  (∀ (s : State) (port lanes peer : Nat), port < 32 →
    let c := s.clav port
    let went (t : State) (st : ClavosSt) (n p : Nat) : Prop := (t.clav port).st = st ∧ (t.clav port).lanes = n ∧ (t.clav port).peer = p ∧
      (t.clav port).chg = (c.chg + 1) % 2 ^ 8 ∧ (t.clav port).cerr = c.cerr ∧ (t.clav port).rply = c.rply
    let node := if peer < 0xFFFF then peer else 0xFFFF
    let late := c.since + 2 ^ 24 ≤ s.cycle
    (c.st ≠ .training ∨ 8 < lanes ∨ (lanes < 8 ∧ ¬late) → exec (.portTrainingEnd port lanes peer) s = .next s) ∧
    (c.st = .training → ∃ t, exec (.portTrainingEnd port lanes peer) s = .next t ∧ (lanes = 8 → went t .up 8 node) ∧
      (late → 4 ≤ lanes → lanes < 8 → went t .narrowed 4 node) ∧ (late → 2 ≤ lanes → lanes < 4 → went t .narrowed 2 node) ∧
      (late → lanes < 2 → went t .down 0 0xFFFF)) ∧
    (c.st ≠ .up → c.st ≠ .narrowed → exec (.laneFailure port lanes) s = .next s ∧ ∀ b, exec (.flitReplay port b) s = .next s) ∧
    (c.st = .up ∨ c.st = .narrowed → (c.lanes ≤ lanes → exec (.laneFailure port lanes) s = .next s) ∧
      (lanes < c.lanes → ∃ t, exec (.laneFailure port lanes) s = .next t ∧ (lanes < 2 → went t .down 0 0xFFFF) ∧
        (4 ≤ lanes → went t .narrowed 4 c.peer) ∧ (2 ≤ lanes → lanes < 4 → went t .narrowed 2 c.peer)) ∧
      (∃ t, exec (.flitReplay port true) s = .next t ∧ (t.clav port).cerr = (c.cerr + 1) % 2 ^ 32 ∧ (t.clav port).st = c.st ∧ t.mem = s.mem) ∧
      (∃ t, exec (.flitReplay port false) s = .next t ∧ (t.clav port).rply = (c.rply + 1) % 2 ^ 32 ∧
        (t.clav port).st = if 4096 ≤ c.recent + 1 then .fenced else c.st))) ∧
  (∀ (s : State) (i : Nat) (w : MemWrite), s.writes[i]? = some w →
    let key := (true, w.uid, w.seq)
    let seen := waitsSince s key
    (homeOf s w.pa ≠ .host ∨ fabricUp s w.pa = true → exec (.messageDiscard true 0 i) s = .next s) ∧
    (homeOf s w.pa = .host → fabricUp s w.pa = false →
      (seen = none → exec (.messageDiscard true 0 i) s =
        .next { s with unreach := s.unreach ++ [(granuleSecure s w.pa, key, s.cycle)] }) ∧
      (∀ c, seen = some c → s.cycle < c + 2 ^ 20 → exec (.messageDiscard true 0 i) s = .next s) ∧
      (∀ c, seen = some c → c + 2 ^ 20 ≤ s.cycle → ∃ t, exec (.messageDiscard true 0 i) s = .next t ∧ t.writes = ldel s.writes i ∧
        t = report { s with unreach := s.unreach.filter fun e => e.2.1 != key, writes := ldel s.writes i } 4 w.ctx 33 0xFF w.core w.pa))) ∧
  (∀ (s : State), let a := cfgLE s (0x5C0 + 32) 8
    (a = 0 ∨ s.phase ≠ 5 ∨ s.cycle < (s.meshDump + 1) * 2 ^ 20 → exec .meshCountDump s = .next s) ∧
    (a ≠ 0 → s.phase = 5 → (s.meshDump + 1) * 2 ^ 20 ≤ s.cycle → ∃ t, exec .meshCountDump s = .next t ∧ t.meshDump = s.meshDump + 1 ∧
      let b := cfgLE s (0x5C0 + 24) 8
      (b + 512 ≤ a ∨ a + 64 ≤ b → s.cycle < 2 ^ 64 → s.meshDump + 1 < 2 ^ 64 → readLE t a 8 = s.meshDump + 1 ∧ readLE t (a + 8) 8 = s.cycle ∧
        readLE t (a + 16) 1 = s.meshDump % 2))) ∧
  (∀ (s : State) (core : Nat), exec (.sample core) s =
    .next ((s.parts.filter fun p => p.2.core == core).foldl (fun v p => samplePart v (v.part p.2.core p.2.ctx)) s)) ∧
  (∀ (s : State) (p : Part), let core := p.core
    let samp := (s.ctx p.ctx).samp
    let takes := p.st = .placed ∧ samp ≠ 0 ∧ (s.cycle - p.since) % samp = 0 ∧ s.cycle ≠ p.since ∧ p.sampled ≠ s.cycle
    let here (x : Nat × Strand) : Prop := inSlot x.2 core (s.cycle % 16) = true ∧ x.2.ctx = p.ctx ∧ ∀ y w e, x.2.st ≠ .saved y w e
    let v := samplePart s p
    (¬takes → v = s) ∧
    (takes → (v.part core p.ctx).sampled = s.cycle ∧ v.strands = s.strands ∧ v.mem = s.mem ∧
      ((∀ x ∈ s.strands, ¬here x) → v.traces = s.traces) ∧
      (∀ x, (s.strands.find? fun x => inSlot x.2 core (s.cycle % 16)) = some x → here x →
        s.trcSel.testBit 0 = true → s.trcSel.testBit 1 = true → cfgBit s core = false → tget 0 s.traceDrop (coreDie core) = 0 →
        (tget [] s.traces (coreDie core)).length < 4096 →
          tget [] v.traces (coreDie core) = tget [] s.traces (coreDie core) ++ [leBytes 8 (1 + core * 2 ^ 11 + s.cycle % 16 * 2 ^ 20 +
            s.cycle % 2 ^ 40 * 2 ^ 24) ++ leBytes 8 x.2.pc]))) ∧
  (∀ s : State, exec .tracePushback s = .next { s with pushback := true } ∧
    ∃ t, exec .tracePushbackRelease s = .next t ∧ t.pushback = false ∧ t.mem = s.mem ∧ t.strands = s.strands) ∧
  (∀ (s : State) (pa : Nat) (bs : List Byte), (homeOf s pa ≠ .host ∨ 64 < pa % 64 + bs.length → nodeWrite s pa bs = s) ∧
    (homeOf s pa = .host → pa % 64 + bs.length ≤ 64 → wrote s.mem (nodeWrite s pa bs).mem pa bs ∧ (nodeWrite s pa bs).tags = s.tags)) ∧
  (∀ (s : State) (pa i o : Nat), homeOf s pa = .first ∨ homeOf s pa = .port i o →
    tget 0 (upsetWord s pa true).ecc (homeId s pa) = tget 0 s.ecc (homeId s pa) + 1 ∧ (upsetWord s pa true).poison = s.poison ∧
    isPoisoned (upsetWord s pa false) pa 1 = true) ∧
  (∀ (s : State) (k : Nat) (m : Fabric), m.bytes ≠ [] → fabricIn s m.pa = true →
    let stream := 4 * m.src + m.vc % 4
    (stream ∈ s.cutOff → m.drst = false → exec (.storeAtHome k m) s = .next s) ∧
    (∀ c, stream ∉ s.cutOff ∨ m.drst = true → (unpack s m).2 = .error c → ∃ t, exec (.storeAtHome k m) s = .next t ∧
      (s.phase = 5 → s.guardSel = false → (∀ w ∈ t.writes, w.ctx ≠ m.ctx) ∧ (∀ w ∈ t.colls, w.ctx ≠ m.ctx) ∧
        (rising s.kernels → ∀ q ∈ s.kernels, q.2.ctx = m.ctx → q.2.st = .admitted ∨ q.2.st = .running ∨ q.2.st = .closing →
          (t.kern q.1).st = .aborted ∧ (t.kern q.1).cause = 30)) ∧
      (s.phase ≠ 5 ∨ s.guardSel = true → t.mem = s.mem ∧ stream ∈ t.cutOff ∧ t.kernels = s.kernels ∧ tget [] t.dicts stream = [] ∧
        t.guardLog = s.guardLog ++ [leBytes 2 m.src ++ leBytes 2 (cfgLE s 8 2) ++ leBytes 1 m.vc ++ leBytes 1 c ++ List.replicate 10 0#8])))

/-- A step takes the first move of the agenda, at once, or a free one after the free time of log entry 4; but no strand
that may issue loses a turn of its slot to it: a turn that is due comes first. A turn comes in a cycle of its slot,
outside a frozen rotation, and never twice in one cycle. Where the move is a turn of a strand that may issue, with no
stop, wasted turn or ending pending, the words that its fetch reads at its program counter decide: words that decode
to an instruction, with no breakpoint on its address, run exec of that instruction in the state after the fetch; words
that decode to none trap ILLEGAL; a breakpoint stops the strand or traps BREAK; a fetch fault traps with its own
cause. A short instruction is the aligned word that memory holds at the translation of the address. Where the move is
an event, exec of the event runs; an instruction never runs as a move of its own (log entry 8); a strand that may not
issue only uses its turn. A node's write to its own memory, a peer's part in a collective group, an error in an ECC
word, in a read-buffer line or in a product, and the choice of GUARDED are moves of their own (the model's choices:
log entries 3, 4, 8, 20, 64, 76). A move of a deterministic kernel reads its open values from that kernel's place
among them (log entry 97). At the end of every thermal interval each core reads its temperature once. No move of a
deterministic kernel that has been placed is made freely. Every so many of its own cycles (its fixed latency) all its
events fall due in one fixed order, and come one after the other, in no time, before anything else; a turn of its
strands comes in the cycle of its own count that is its slot's, and no step passes more than one cycle while it runs.
Its cycles stand still while a late reply, thermal control, a stop or a pre-emption freezes its cores; none of its
strands issues then. The values that the spec leaves open come to it from its own place among them, so what others
have drawn does not change what it does (the order, the fixed latency and that place are the model's choices, log
entry 97). (R5, R46, R56, R59, R93, R94, R110, R421, R502, R423, R424) -/
def Obligations.StepRunsDecoded : Prop :=
  ((∀ (s : State) (m : Move) (ms : List Move), s.agenda = m :: ms →
    plan s = (if freeMove s m = true then m else .idle, 0, { s with agenda := ms })) ∧
  (∀ (s : State), s.agenda = [] →
    plan s = (if freeMove s (nextMove s.tick) = true then nextMove s.tick else .idle, Config.elapsed s.steps, { s with tick := s.tick + 1 })) ∧
  (∀ (s v : State) (i : Instr), sweepNext (sweepDet s) = some (i, v) → takeMove s = (.event i, 0, v)) ∧
  (∀ (s : State), (∀ k ∈ s.kernels, k.2.lockstep = false) →
    let p := plan s
    let d := moveIn s p.1 p.2.1
    (∀ r, firstDue s = some r → r.1 < d → takeMove s = (.issue r.2, r.1, { s with tick := s.tick + 1 })) ∧
    ((∀ r, firstDue s = some r → d ≤ r.1) → takeMove s = (p.1, d, p.2.2))) ∧
  (∀ (s : State) (x : Nat × Strand) (d : Nat), x ∈ s.strands → turnIn (sweepDet s) x.2 = some d → (takeMove s).2.1 ≤ d) ∧
  (∀ (s : State) (t : Strand), wantsTurn t = true → offered s t = true → (s.kern t.kern).lockstep = false →
    turnIn s t = some (toTurn s t 0)) ∧
  (∀ (s : State) (t : Strand) (dt : Nat), t.pslot < 16 → (s.core t.pcore).frozen ≤ 7 →
    let d := toTurn s t dt
    dt ≤ d ∧ t.turn ≤ slotClock s t + d ∧ (slotClock s t + d) % 16 = t.pslot ∧ (s.core t.pcore).frozen ≤ (s.cycle + d) % 128 / 16) ∧
  (∀ (s : State) (dt : Nat), s.cycle < 2 ^ 64 → (elapse s dt).cycle = (s.cycle + dt) % 2 ^ 64 ∧ (elapse s dt).steps = s.steps + 1) ∧
  (∀ (s : State) (c : Nat), c < 512 → s.cycle ≠ 0 → s.cycle % 2 ^ 14 = 0 → ((cycleEnds s).core c).thermAt = s.cycle) ∧
  (∀ (s : State),
    let v := (takeMove s).2.2
    let e := elapse v (takeMove s).2.1
    let owner := detOwner e (takeMove s).1
    let q : State := match owner with | some kid => { e with free := (e.kern kid).detFree } | none => e
    let ends (o : Outcome) : Prop := step s = match owner with | some kid => inDet e kid fun _ => o | none => o
    (∀ u, (takeMove s).1 = .issue u →
      let t := q.strand u
      (s.cycle < 2 ^ 64 → (v.kern (v.strand u).kern).lockstep = false → (v.strand u).pslot < 16 →
        (v.core (v.strand u).pcore).frozen ≤ 7 → e.cycle % 16 = (v.strand u).pslot) ∧
      let had : Strand := { t with turn := slotClock q t + 1 }
      (stopDue q t = true → ends (.next (stopStrand q u t.stopDbg))) ∧
      (stopDue q t = false → canIssue q t = false ∨ t.st ≠ .ready ∧ regHeld q t = true → ends (.next (q.setStrand u had))) ∧
      (stopDue q t = false → canIssue q t = true → t.st = .ready ∨ regHeld q t = false →
        (t.yielded = true → ends (.next (q.setStrand u { had with yielded := false }))) ∧
        (t.yielded = false → t.ending = true → ends (.next (endTurn (q.setStrand u had) u))) ∧
        (t.yielded = false → t.ending = false →
          (beginTurn q u).cur = u ∧ ((beginTurn q u).strand u).turn = slotClock q t + 1 ∧
          (∀ r c, fetchInstr (beginTurn q u) t.pcore t.ctx t.pc = (r, .error c) → ends (.next (trapAt r u t.pc c.2 c.1))) ∧
          (∀ r ws, fetchInstr (beginTurn q u) t.pcore t.ctx t.pc = (r, .ok ws) →
            (∀ b, breakHit r t = some b → ends (.next (if b.2.stop then stopStrand r u true else
              trapAt r u t.pc (4 * ws.length) { code := 13, sub := b.1 }))) ∧
            (breakHit r t = none → (∀ i, decode ws = .ok i → ends (exec i r)) ∧
              (∀ c, decode ws = .error c → ends (.next (trapAt r u t.pc (4 * ws.length) { code := 1 })))))))) ∧
    (∀ i, (takeMove s).1 = .event i → (encode i = [] → ends (exec i q)) ∧ (encode i ≠ [] → ends (.next q))) ∧
    (∀ pa bs, (takeMove s).1 = .node pa bs → ends (.next (nodeWrite q pa bs))) ∧
    (∀ pa fixed, (takeMove s).1 = .upset pa fixed → ends (.next (upsetWord q pa fixed))) ∧
    (∀ on, (takeMove s).1 = .guard on → ends (.next (selectGuard q on))) ∧
    (∀ c k va, (takeMove s).1 = .lineError c k va → ends (.next (lineError q c k va))) ∧
    (∀ c k a, (takeMove s).1 = .residue c k a → ends (.next (residueError q c k a))) ∧
    (∀ c p, (takeMove s).1 = .peer c p → ends (.next (peerAct q c p))) ∧
    ((takeMove s).1 = .idle → ends (.next q))) ∧
  (∀ (s r : State) (core ctx va : Nat) (x : Xl) (b : List Byte), va % 4 = 0 →
    xlate s core ctx va .fetch false = (r, .ok x) → homeRead r ctx x.pa 4 = .ok b → numWords (leNat b) = 1 →
    fetchInstr s core ctx va = (gatherCount r (tlbCore core) ctx va 1, .ok [leNat b]))) ∧
  ((∀ (s : State) (m : Move) (kid : Nat), detOwner s m = some kid → detOff s kid = false → freeMove s m = false) ∧
  (∀ (s : State) (kid : Nat), rising s.kernels → (s.kern kid).lockstep = true →
    let k := s.kern kid
    let due : Prop := detStill s kid = false ∧ k.todo = [] ∧ k.swept < k.detCyc ∧ k.detCyc % (Config.detLatency k.kaddr + 1) = 0
    (due → (sweepDet s).kern kid = { k with swept := k.detCyc, todo := detEvents s kid, hold := 16 * Config.detLate s.tick }) ∧
    (¬due → (sweepDet s).kern kid = k)) ∧
  (∀ (s : State) (kid : Nat) (k : Kernel) (i : Instr) (is : List Instr),
    (s.kernels.find? fun k => k.2.lockstep && !k.2.todo.isEmpty && !detStill s k.1) = some (kid, k) → k.todo = i :: is →
    sweepNext s = some (i, s.setKern kid { k with todo := is })) ∧
  (∀ (s : State) (t : Strand), (s.kern t.kern).lockstep = true → t.pslot < 16 → ∀ d, turnIn s t = some d →
    d = 0 ∧ (s.kern t.kern).detCyc % 16 = t.pslot) ∧
  (∀ (s : State), (∃ k ∈ s.kernels, k.2.lockstep = true) → (takeMove s).2.1 ≤ 1) ∧
  (∀ (s : State) (kid : Nat), rising s.kernels → (s.kern kid).lockstep = true →
    let k := s.kern kid
    (detStill s kid = true → (oneCycle s).kern kid = { k with hold := k.hold - 1 }) ∧
    (detStill s kid = false → (oneCycle s).kern kid = { k with detCyc := k.detCyc + 1, groups := k.groups.map (tickGroup s kid k 1) })) ∧
  (∀ (s : State) (u v : Nat), rising s.strands → (s.kern (s.strand u).kern).lockstep = true → (s.strand v).kern = (s.strand u).kern →
    (∃ x ∈ s.strands, x.1 = v) → (∃ w, (s.strand v).st = .stopped w) → canIssue s (s.strand u) = false) ∧
  (∀ (s t : State) (kid n : Nat) (f : State → Outcome), inDet s kid f = .next t →
    t.free = s.free ∧ inDet { s with free := n } kid f = .next { t with free := n }))

/-- For every well-formed instruction, at every value of every field, the decoder reads from its encoded words that
instruction and no other, whatever words stand behind them; the words are as many as LEN asks for and each fits 32
bits. (R45, R46, R48, R51, R52, R54, R55, R56) -/
def Obligations.EncodeDecode : Prop :=
  ∀ (i : Instr) (rest : List Nat), i.wf = true → encode i ≠ [] →
    decode (encode i ++ rest) = .ok i ∧ (∃ w ws, encode i = w :: ws ∧ numWords w = ws.length + 1) ∧ ∀ w ∈ encode i, w < 2 ^ 32

/-- Whatever the words, an instruction that the decoder answers is well-formed and encodes to exactly the words that its
LEN takes; so two words that decode to one instruction are the same words, and a word with any bit outside the fields
of its instruction decodes to none. Words written out from the encodings of the spec, one or more of each format,
decode to the instruction with the operands that the spec names; a word of zeros, an unallocated selector, a nonzero
reserved bit and a value out of range decode to none. (R45, R46, R52, R54, R55, R56, R131, R138, R196, R228, R239) -/
def Obligations.DecodesTheSpecsWords : Prop :=
  ((∀ (ws : List Nat) (i : Instr), decode ws = .ok i → i.wf = true ∧ encode i = instrWords ws) ∧
  ∀ (ws vs : List Nat) (i : Instr), decode ws = .ok i → decode vs = .ok i → instrWords ws = instrWords vs) ∧
  (decode [0x0002B4A8] = .ok (.add ⟨false, 0, false⟩ 11 9 10) ∧
  decode [0x0010A58E] = .ok (.sext ⟨false, 0, false⟩ 10 11 7) ∧
  decode [0x271494FF] = .ok (.addi ⟨true, 3, true⟩ 9 9 127) ∧
  decode [0x4016A000, 0x3FC00000, 0] = .ok (.liLit ⟨false, 0, false⟩ 10 0x3FC00000) ∧
  decode [0x40129500, 0x804, 0] = .ok (.bfxLit ⟨false, 0, false⟩ 9 10 0x804) ∧
  decode [0x00464B62] = .ok (.fcmp ⟨false, 0, false⟩ 2 11 12 .lt) ∧
  decode [0x00489543] = .ok (.fcvt ⟨false, 0, false⟩ 9 10 .i32F32 .rtz true) ∧
  decode [0x0461FFFD] = .ok (.br ⟨false, 2, false⟩ 0x1FFFD) ∧
  decode [0x006E40C1] = .ok (.rep ⟨false, 0, false⟩ 1 3 1) ∧
  decode [0x0070B6FF] = .ok (.ldBu ⟨false, 0, false⟩ 11 13 63) ∧
  decode [0x0080A634] = .ok (.aaddD ⟨false, 0, false⟩ 10 12 13) ∧
  decode [0x008CB640] = .ok (.acq ⟨false, 0, false⟩ 11 12 .package) ∧
  decode [0x00948158] = .ok (.vadd ⟨false, 0, false⟩ 2 0 1 11 .f32) ∧
  decode [0x00B21F50] = .ok (.adatum ⟨false, 0, false⟩ 0 0x1F5) ∧
  decode [0xC0B60000, 0x50000000, 0, 0x40, 0] = .ok (.cldLit ⟨false, 0, false⟩ ⟨10, 0, 0, 0, 0, 0, 0, 0, 0, 0⟩ 0x40) ∧
  decode [0x80B60400, 0x6800B000, 0] = .ok (.cldSp ⟨false, 0, false⟩ ⟨13, 0, 0, 11, 0, 0, 0, 0, 0, 0⟩) ∧
  decode [0x80FA0000, 0x73E11000, 0x10] = .ok (.mseq ⟨false, 0, false⟩ ⟨14, 15, 16, 17, 0, 0, 0, 0, 0, 0x10⟩) ∧
  decode [0x00E8B603] = .ok (.dqsplit ⟨false, 0, false⟩ 11 12) ∧
  decode [0x00FC520A] = .ok (.csrr ⟨false, 0, false⟩ 18 0x0A) ∧
  decode [0x00000000] = .error .unallocated ∧
  decode [0x008CB660] = .error .unallocated ∧
  decode [0x00660001] = .error .reserved ∧
  decode [0x00B20610] = .error .limit)

/-- After power-up bring-up is in phase 0, every order tag reads NONE, no slot-table entry is owned, trace selection is 0,
NQTH reads 256, every Clavos port is DOWN, no slot holds a strand and no core a context; and the tables and numbers
are in the form that every step keeps (the empty memory and the cycle counter at 0 are the model's choice, log entries
1 and 6). Bring-up in phase 0, on firmware images and a record that carry signatures, stops in FAILED with the code of
the first phase that fails; otherwise it holds the record, scrubs the first tier to zero and changes nothing else of
memory but the port table, gives each second-tier port its populated bytes, starts, all ports being DOWN, the training
of exactly the enabled ones, and is READY. In another phase nothing happens. The removal of power leaves the reset
state but for the memory that is not the package's (host and fabric ranges). What power removal keeps, the form of a
firmware image, and the digest and signature functions are the model's choices (log entries 86, 100 and 10). (R175,
R185, R261, R498, R500, R512) -/
def Obligations.ResetAndPower : Prop :=
  State.reset.phase = 0 ∧ State.reset.trcSel = 0 ∧ State.reset.cycle = 0 ∧ State.reset.mem = [] ∧
  (∀ pa, tagOf State.reset pa = tagNone) ∧ (∀ c e, tget 0 (State.reset.core c).stab e = 0) ∧
  (∀ c, (State.reset.ctx c).nqth = 256) ∧ (∀ p, (tget Clavos.init State.reset.clavos p).st = .down) ∧
  (∀ c k, State.reset.slotStrand c k = none) ∧ (∀ c x, (State.reset.part c x).st = .none) ∧
  Memory.wf State.reset.mem ∧ State.reset.tidy ∧ State.reset.numbered ∧
  (∀ (s : State) (flash : List Byte) (pop : List Nat) (ident : Bool) (fw : List (List Byte)) (train : Bool),
    let up := exec (.powerUp flash pop ident fw train) s
    let failed (code : Nat) (q : State) : Prop := up = .next { q with phase := 15, failCode := code }
    let len := 0x7C0 + 16 * recLE flash 10 2 + 64 * recLE flash 12 1 + 128
    let body (b : List Byte) : List Byte := b.take (b.length - 64)
    let good : Prop := fw ≠ [] ∧ ∀ b ∈ fw, ecdsaOk (sha256 (body b)) Config.decgorKey (b.drop (b.length - 64)) = true
    let q := { s with config := flash.take len, fwHash := sha256 (fw.flatMap body) }
    (s.phase ≠ 0 → up = .next s) ∧
    (s.phase = 0 → (ident = false → failed 6 s) ∧ (ident = true → ¬good → failed 1 s) ∧
      (ident = true → good → signaturesOk flash = false → failed 2 s) ∧
      (ident = true → good → signaturesOk flash = true → configOk flash = false ∨ rangesFilled flash pop = false → failed 3 s) ∧
      (ident = true → good → signaturesOk flash = true → configOk flash = true → rangesFilled flash pop = true →
        (train = false → failed 5 q) ∧
        (train = true → (∀ p < 32, (tget Clavos.init s.clavos p).st = .down) → ∃ t, up = .next t ∧ t.phase = 5 ∧ t.failCode = s.failCode ∧ t.config = q.config ∧
          (∀ pa, pa < cfgLE q (0x5C0 + 24) 8 ∨ cfgLE q (0x5C0 + 24) 8 + 16 * 32 ≤ pa →
            memGet t.mem pa = if pa < 2 ^ 39 then 0 else memGet s.mem pa) ∧
          (∀ i < 8, tget 0 t.populated i = min (pop.getD i 0) (if (recLE flash 14 1).testBit i then 4096 else 1024) * 2 ^ 30) ∧
          (∀ p < 32, let c := tget Clavos.init t.clavos p
            ((cfgLE q (0x5C0 + 40) 4).testBit p = true → c.st = .training) ∧
            ((cfgLE q (0x5C0 + 40) 4).testBit p = false → c = tget Clavos.init s.clavos p)))))) ∧
  (∀ (s : State), ∃ t, exec .powerRemoval s = .next t ∧
    (∀ pa, memGet t.mem pa = if pa < 2 ^ 51 then 0 else memGet s.mem pa) ∧
    { t with mem := [], free := 0, tick := 0, steps := 0, agenda := [] } = State.reset)

/-- From every state whose memory lists rising addresses and no byte equal to what an unlisted address reads as, a step of
any kind, turn or event, answers a state of which the same holds (the form is the model's, log entry 6). (R34, R160) -/
def Obligations.StepKeepsMemory : Prop :=
  ∀ s t : State, Memory.wf s.mem → step s = .next t → Memory.wf t.mem

/-- From every state in which the tables of strands, kernels, gather lines and slot-table writes rise, every tree holds at
most 1,024 leaves, each below LEN and within its type, ring sequence numbers are below 2^32 and ring sizes at most
2^8, and phases are below 2^16, a step answers such a state. (R319, R362, R364, R389, R393) -/
def Obligations.StepKeepsTables : Prop :=
  ∀ s t : State, s.tidy → step s = .next t → t.tidy

/-- From every state in which each outstanding operation and queued vector instruction of a strand bears a number below
the next one that the strand gives, and each collective one below the next that the device gives, a step answers such
a state: no number is given twice. (R97, R101, R212, R470) -/
def Obligations.StepKeepsNumbers : Prop :=
  ∀ s t : State, s.numbered → step s = .next t → t.numbered
end

