-- ==== Sys2Proof/Laws/Arith.lean ====
section
/-! SUPPORT. The scalar operations against integer arithmetic. -/

namespace Sys2Proof.Machine
open Sys2Proof

theorem wordOf_of_bits (f : Nat → Bool) (v : Word) (h : ∀ i, i < 64 → f i = v.getLsbD i) : wordOf f = v := by
  apply BitVec.eq_of_getLsbD_eq
  intro i hi
  simp [wordOf, hi, h i hi]

theorem sub_eq_ofInt (a b : Word) : a - b = BitVec.ofInt 64 (a.toInt - b.toInt) := by
  apply BitVec.eq_of_toInt_eq; simp [BitVec.toInt_sub, BitVec.toInt_ofInt]

theorem ushiftRight_eq_ofNat (a : Word) (n : Nat) : a >>> n = BitVec.ofNat 64 (a.toNat / 2 ^ n) := by
  apply BitVec.eq_of_toNat_eq
  simp [Nat.shiftRight_eq_div_pow]
  rw [Nat.mod_eq_of_lt]
  exact Nat.lt_of_le_of_lt (Nat.div_le_self _ _) a.isLt

theorem rotateLeft_eq_wordOf (a : Word) (n : Nat) : a.rotateLeft n = wordOf fun i => a.getLsbD ((i + 64 - n % 64) % 64) := by
  refine (wordOf_of_bits _ _ ?_).symm
  intro i hi
  rw [BitVec.getLsbD_rotateLeft]
  have : n % 64 < 64 := Nat.mod_lt _ (by decide)
  by_cases h : i < n % 64
  · rw [decide_eq_true h, cond_true]
    congr 1; omega
  · rw [decide_eq_false h, cond_false]
    simp [hi]
    congr 1; omega

theorem mulHiU_eq_high (a b : Word) : w64 (a.toNat * b.toNat / 2 ^ 64) = (a.setWidth 128 * b.setWidth 128).extractLsb' 64 64 := by
  apply BitVec.eq_of_toNat_eq
  have := a.isLt; have := b.isLt
  have h : a.toNat * b.toNat < 2 ^ 128 := by
    calc a.toNat * b.toNat < 2^64 * 2^64 := Nat.mul_lt_mul'' ‹_› ‹_›
    _ = 2^128 := by norm_num
  simp only [w64, BitVec.toNat_ofNat, BitVec.extractLsb'_toNat, BitVec.toNat_mul, BitVec.toNat_setWidth, Nat.shiftRight_eq_div_pow]
  rw [Nat.mod_eq_of_lt (show a.toNat < 2^128 by omega), Nat.mod_eq_of_lt (show b.toNat < 2^128 by omega), Nat.mod_eq_of_lt h]

theorem mulHi_eq_high (a b : Word) : BitVec.ofInt 64 (a.toInt * b.toInt / 2 ^ 64) = (a.signExtend 128 * b.signExtend 128).extractLsb' 64 64 := by
  apply BitVec.eq_of_toNat_eq
  have ha := BitVec.toInt_signExtend_of_le (x := a) (v := 128) (by decide)
  have hb := BitVec.toInt_signExtend_of_le (x := b) (v := 128) (by decide)
  have e : (a.signExtend 128 * b.signExtend 128) = BitVec.ofInt 128 (a.toInt * b.toInt) := by
    apply BitVec.eq_of_toInt_eq
    rw [BitVec.toInt_mul, ha, hb, BitVec.toInt_ofInt]
  rw [e]
  simp only [BitVec.toNat_ofInt, BitVec.extractLsb'_toNat, Nat.shiftRight_eq_div_pow]
  generalize a.toInt * b.toInt = z
  omega

theorem sextW_eq_signExtend (a : Word) (n : BitVec 6) : sextW a n = (a.setWidth (n.toNat + 1)).signExtend 64 := by
  unfold sextW sgn
  apply BitVec.eq_of_toInt_eq
  have hn := n.isLt
  have h1 : n.toNat + 1 ≤ 64 := by omega
  rw [BitVec.toInt_signExtend_of_le h1, BitVec.toInt_ofInt, BitVec.toInt_eq_toNat_cond, BitVec.toNat_setWidth]
  have hp : 2 ^ (n.toNat + 1) = 2 * 2 ^ n.toNat := by rw [Nat.pow_succ]; omega
  have hle : 2 ^ n.toNat ≤ 2 ^ 63 := Nat.pow_le_pow_right (by decide) (by omega)
  have hm : a.toNat % 2 ^ (n.toNat + 1) < 2 ^ (n.toNat + 1) := Nat.mod_lt _ (Nat.two_pow_pos _)
  simp only [Nat.add_sub_cancel]
  rw [hp] at hm ⊢
  have hq : 0 < 2 ^ n.toNat := Nat.two_pow_pos _
  generalize 2 ^ n.toNat = q at *
  generalize a.toNat % (2 * q) = r at *
  split <;> split <;> try omega
  · rw [Int.bmod_def]; omega
  · rw [Int.bmod_def]; push_cast; omega

theorem bfxW_eq_fieldOf (a b : Word) : bfxW a b = fieldOf a b := by
  refine (wordOf_of_bits _ _ ?_).symm
  intro i hi
  have hl : bfLen b ≤ 64 := by unfold bfLen fld; split <;> omega
  have e1 : fieldAt b = bfPos b := by simp [fieldAt, bfPos, fld]
  have e2 : fieldLen b = bfLen b := by simp only [fieldLen, bfLen, fld]; norm_num
  simp only [bfxW, w64, e1, e2, BitVec.getLsbD_and, BitVec.getLsbD_ushiftRight, BitVec.getLsbD_ofNat, Nat.testBit_two_pow_sub_one, hi, decide_true, Bool.true_and]
  rw [Bool.and_comm]

theorem bfiW_eq_fieldInto (d a b : Word) : bfiW d a b = fieldInto d a b := by
  refine (wordOf_of_bits _ _ ?_).symm
  intro i hi
  have e1 : fieldAt b = bfPos b := by simp [fieldAt, bfPos, fld]
  have e2 : fieldLen b = bfLen b := by simp only [fieldLen, bfLen, fld]; norm_num
  simp only [bfiW, w64, e1, e2, BitVec.getLsbD_and, BitVec.getLsbD_or, BitVec.getLsbD_not, BitVec.getLsbD_shiftLeft, BitVec.getLsbD_ofNat, hi, decide_true, Bool.true_and, Nat.mul_comm _ (2 ^ bfPos b), Nat.testBit_two_pow_mul, Nat.testBit_two_pow_sub_one]
  by_cases h1 : bfPos b ≤ i
  · by_cases h2 : i < bfPos b + bfLen b
    · have : i - bfPos b < bfLen b := by omega
      have h3 : ¬ i < bfPos b := by omega
      simp [h1, h2, this, h3]
    · have : ¬ (i - bfPos b < bfLen b) := by omega
      simp [h1, h2, this]
  · have h3 : i < bfPos b := by omega
    simp [h1, h3]

theorem wordTarget_eq_ofInt {n : Nat} (pc : Nat) (off : BitVec n) (hn : n ≤ 64) : w64 (wordTarget pc off) = BitVec.ofInt 64 (pc + 4 * off.toInt) := by
  apply BitVec.eq_of_toNat_eq
  have : (immW off).toInt = off.toInt := BitVec.toInt_signExtend_of_le hn
  rw [← this]
  unfold wordTarget
  generalize immW off = x at *
  simp only [w64, BitVec.toNat_ofInt, BitVec.toNat_ofNat, BitVec.toInt_eq_toNat_cond]
  split <;> omega

theorem byteTarget_eq_ofInt (pc : Nat) (x : Word) : w64 (byteTarget pc x) = BitVec.ofInt 64 (pc + x.toInt) := by
  apply BitVec.eq_of_toNat_eq
  simp only [w64, byteTarget, BitVec.toNat_ofInt, BitVec.toNat_ofNat, BitVec.toInt_eq_toNat_cond]
  split <;> omega

end Sys2Proof.Machine
end

