-- ==== Sys2Proof/Laws/Dispatch.lean ====
section
/-! SUPPORT. The dispatch, one lemma per instruction, command and event. -/

namespace Sys2Proof.Machine
open Sys2Proof

@[simp] theorem exec_add {h rd ra rb} (s : State) : exec (.add h rd ra rb) s = execAdd h rd ra rb s := rfl
@[simp] theorem exec_sub {h rd ra rb} (s : State) : exec (.sub h rd ra rb) s = execSub h rd ra rb s := rfl
@[simp] theorem exec_min {h rd ra rb} (s : State) : exec (.min h rd ra rb) s = execMin h rd ra rb s := rfl
@[simp] theorem exec_minu {h rd ra rb} (s : State) : exec (.minu h rd ra rb) s = execMinu h rd ra rb s := rfl
@[simp] theorem exec_and {h rd ra rb} (s : State) : exec (.and h rd ra rb) s = execAnd h rd ra rb s := rfl
@[simp] theorem exec_or {h rd ra rb} (s : State) : exec (.or h rd ra rb) s = execOr h rd ra rb s := rfl
@[simp] theorem exec_xor {h rd ra rb} (s : State) : exec (.xor h rd ra rb) s = execXor h rd ra rb s := rfl
@[simp] theorem exec_andn {h rd ra rb} (s : State) : exec (.andn h rd ra rb) s = execAndn h rd ra rb s := rfl
@[simp] theorem exec_shl {h rd ra rb} (s : State) : exec (.shl h rd ra rb) s = execShl h rd ra rb s := rfl
@[simp] theorem exec_shr {h rd ra rb} (s : State) : exec (.shr h rd ra rb) s = execShr h rd ra rb s := rfl
@[simp] theorem exec_sar {h rd ra rb} (s : State) : exec (.sar h rd ra rb) s = execSar h rd ra rb s := rfl
@[simp] theorem exec_rol {h rd ra rb} (s : State) : exec (.rol h rd ra rb) s = execRol h rd ra rb s := rfl
@[simp] theorem exec_mul {h rd ra rb} (s : State) : exec (.mul h rd ra rb) s = execMul h rd ra rb s := rfl
@[simp] theorem exec_mulh {h rd ra rb} (s : State) : exec (.mulh h rd ra rb) s = execMulh h rd ra rb s := rfl
@[simp] theorem exec_mulhu {h rd ra rb} (s : State) : exec (.mulhu h rd ra rb) s = execMulhu h rd ra rb s := rfl
@[simp] theorem exec_div {h rd ra rb} (s : State) : exec (.div h rd ra rb) s = execDiv h rd ra rb s := rfl
@[simp] theorem exec_divu {h rd ra rb} (s : State) : exec (.divu h rd ra rb) s = execDivu h rd ra rb s := rfl
@[simp] theorem exec_rem {h rd ra rb} (s : State) : exec (.rem h rd ra rb) s = execRem h rd ra rb s := rfl
@[simp] theorem exec_remu {h rd ra rb} (s : State) : exec (.remu h rd ra rb) s = execRemu h rd ra rb s := rfl
@[simp] theorem exec_max {h rd ra rb} (s : State) : exec (.max h rd ra rb) s = execMax h rd ra rb s := rfl
@[simp] theorem exec_maxu {h rd ra rb} (s : State) : exec (.maxu h rd ra rb) s = execMaxu h rd ra rb s := rfl
@[simp] theorem exec_clz {h rd ra} (s : State) : exec (.clz h rd ra) s = execClz h rd ra s := rfl
@[simp] theorem exec_ctz {h rd ra} (s : State) : exec (.ctz h rd ra) s = execCtz h rd ra s := rfl
@[simp] theorem exec_popc {h rd ra} (s : State) : exec (.popc h rd ra) s = execPopc h rd ra s := rfl
@[simp] theorem exec_sext {h rd ra n} (s : State) : exec (.sext h rd ra n) s = execSext h rd ra n s := rfl
@[simp] theorem exec_zext {h rd ra n} (s : State) : exec (.zext h rd ra n) s = execZext h rd ra n s := rfl
@[simp] theorem exec_bfx {h rd ra rb} (s : State) : exec (.bfx h rd ra rb) s = execBfx h rd ra rb s := rfl
@[simp] theorem exec_bfxLit {h rd ra lit} (s : State) : exec (.bfxLit h rd ra lit) s = execBfxLit h rd ra lit s := rfl
@[simp] theorem exec_bfi {h rd ra rb} (s : State) : exec (.bfi h rd ra rb) s = execBfi h rd ra rb s := rfl
@[simp] theorem exec_bfiLit {h rd ra lit} (s : State) : exec (.bfiLit h rd ra lit) s = execBfiLit h rd ra lit s := rfl
@[simp] theorem exec_addi {h rd ra imm} (s : State) : exec (.addi h rd ra imm) s = execAddi h rd ra imm s := rfl
@[simp] theorem exec_addiLit {h rd ra lit} (s : State) : exec (.addiLit h rd ra lit) s = execAddiLit h rd ra lit s := rfl
@[simp] theorem exec_li {h rd imm} (s : State) : exec (.li h rd imm) s = execLi h rd imm s := rfl
@[simp] theorem exec_liLit {h rd lit} (s : State) : exec (.liLit h rd lit) s = execLiLit h rd lit s := rfl
@[simp] theorem exec_sel {h cs rd ra rb} (s : State) : exec (.sel h cs rd ra rb) s = execSel h cs rd ra rb s := rfl
@[simp] theorem exec_adr {h rd imm} (s : State) : exec (.adr h rd imm) s = execAdr h rd imm s := rfl
@[simp] theorem exec_adrLit {h rd lit} (s : State) : exec (.adrLit h rd lit) s = execAdrLit h rd lit s := rfl
@[simp] theorem exec_fadd {h rd ra rb} (s : State) : exec (.fadd h rd ra rb) s = execFadd h rd ra rb s := rfl
@[simp] theorem exec_fsub {h rd ra rb} (s : State) : exec (.fsub h rd ra rb) s = execFsub h rd ra rb s := rfl
@[simp] theorem exec_fmul {h rd ra rb} (s : State) : exec (.fmul h rd ra rb) s = execFmul h rd ra rb s := rfl
@[simp] theorem exec_fdiv {h rd ra rb} (s : State) : exec (.fdiv h rd ra rb) s = execFdiv h rd ra rb s := rfl
@[simp] theorem exec_fmin {h rd ra rb} (s : State) : exec (.fmin h rd ra rb) s = execFmin h rd ra rb s := rfl
@[simp] theorem exec_fmax {h rd ra rb} (s : State) : exec (.fmax h rd ra rb) s = execFmax h rd ra rb s := rfl
@[simp] theorem exec_fsqrt {h rd ra} (s : State) : exec (.fsqrt h rd ra) s = execFsqrt h rd ra s := rfl
@[simp] theorem exec_fclass {h rd ra} (s : State) : exec (.fclass h rd ra) s = execFclass h rd ra s := rfl
@[simp] theorem exec_ffma {h rd ra rb} (s : State) : exec (.ffma h rd ra rb) s = execFfma h rd ra rb s := rfl
@[simp] theorem exec_fcmp {h cd ra rb cond} (s : State) : exec (.fcmp h cd ra rb cond) s = execFcmp h cd ra rb cond s := rfl
@[simp] theorem exec_fcvt {h rd ra kind rm sat} (s : State) : exec (.fcvt h rd ra kind rm sat) s = execFcvt h rd ra kind rm sat s := rfl
@[simp] theorem exec_br {h off} (s : State) : exec (.br h off) s = execBr h off s := rfl
@[simp] theorem exec_brLit {h lit} (s : State) : exec (.brLit h lit) s = execBrLit h lit s := rfl
@[simp] theorem exec_call {h kc off} (s : State) : exec (.call h kc off) s = execCall h kc off s := rfl
@[simp] theorem exec_callLit {h kc lit} (s : State) : exec (.callLit h kc lit) s = execCallLit h kc lit s := rfl
@[simp] theorem exec_jr {h ra} (s : State) : exec (.jr h ra) s = execJr h ra s := rfl
@[simp] theorem exec_callr {h kc ra} (s : State) : exec (.callr h kc ra) s = execCallr h kc ra s := rfl
@[simp] theorem exec_ret {h} (s : State) : exec (.ret h) s = execRet h s := rfl
@[simp] theorem exec_nop {h} (s : State) : exec (.nop h) s = execNop h s := rfl
@[simp] theorem exec_yield {h} (s : State) : exec (.yield h) s = execYield h s := rfl
@[simp] theorem exec_endStrand {h} (s : State) : exec (.endStrand h) s = execEndStrand h s := rfl
@[simp] theorem exec_wspill {h kc} (s : State) : exec (.wspill h kc) s = execWspill h kc s := rfl
@[simp] theorem exec_wfill {h kc} (s : State) : exec (.wfill h kc) s = execWfill h kc s := rfl
@[simp] theorem exec_cmp {h cd ra rb cond} (s : State) : exec (.cmp h cd ra rb cond) s = execCmp h cd ra rb cond s := rfl
@[simp] theorem exec_cmpi {h cd ra cond imm} (s : State) : exec (.cmpi h cd ra cond imm) s = execCmpi h cd ra cond imm s := rfl
@[simp] theorem exec_cmpiLit {h cd ra cond lit} (s : State) : exec (.cmpiLit h cd ra cond lit) s = execCmpiLit h cd ra cond lit s := rfl
@[simp] theorem exec_pand {h cd ca cb} (s : State) : exec (.pand h cd ca cb) s = execPand h cd ca cb s := rfl
@[simp] theorem exec_por {h cd ca cb} (s : State) : exec (.por h cd ca cb) s = execPor h cd ca cb s := rfl
@[simp] theorem exec_pxor {h cd ca cb} (s : State) : exec (.pxor h cd ca cb) s = execPxor h cd ca cb s := rfl
@[simp] theorem exec_pnot {h cd ca} (s : State) : exec (.pnot h cd ca) s = execPnot h cd ca s := rfl
@[simp] theorem exec_pmov {h cd ca} (s : State) : exec (.pmov h cd ca) s = execPmov h cd ca s := rfl
@[simp] theorem exec_rep {h n k stride} (s : State) : exec (.rep h n k stride) s = execRep h n k stride s := rfl
@[simp] theorem exec_ldB {h rd base disp} (s : State) : exec (.ldB h rd base disp) s = execLdB h rd base disp s := rfl
@[simp] theorem exec_ldBLit {h rd base lit} (s : State) : exec (.ldBLit h rd base lit) s = execLdBLit h rd base lit s := rfl
@[simp] theorem exec_ldBu {h rd base disp} (s : State) : exec (.ldBu h rd base disp) s = execLdBu h rd base disp s := rfl
@[simp] theorem exec_ldBuLit {h rd base lit} (s : State) : exec (.ldBuLit h rd base lit) s = execLdBuLit h rd base lit s := rfl
@[simp] theorem exec_ldH {h rd base disp} (s : State) : exec (.ldH h rd base disp) s = execLdH h rd base disp s := rfl
@[simp] theorem exec_ldHLit {h rd base lit} (s : State) : exec (.ldHLit h rd base lit) s = execLdHLit h rd base lit s := rfl
@[simp] theorem exec_ldHu {h rd base disp} (s : State) : exec (.ldHu h rd base disp) s = execLdHu h rd base disp s := rfl
@[simp] theorem exec_ldHuLit {h rd base lit} (s : State) : exec (.ldHuLit h rd base lit) s = execLdHuLit h rd base lit s := rfl
@[simp] theorem exec_ldW {h rd base disp} (s : State) : exec (.ldW h rd base disp) s = execLdW h rd base disp s := rfl
@[simp] theorem exec_ldWLit {h rd base lit} (s : State) : exec (.ldWLit h rd base lit) s = execLdWLit h rd base lit s := rfl
@[simp] theorem exec_ldWu {h rd base disp} (s : State) : exec (.ldWu h rd base disp) s = execLdWu h rd base disp s := rfl
@[simp] theorem exec_ldWuLit {h rd base lit} (s : State) : exec (.ldWuLit h rd base lit) s = execLdWuLit h rd base lit s := rfl
@[simp] theorem exec_ldD {h rd base disp} (s : State) : exec (.ldD h rd base disp) s = execLdD h rd base disp s := rfl
@[simp] theorem exec_ldDLit {h rd base lit} (s : State) : exec (.ldDLit h rd base lit) s = execLdDLit h rd base lit s := rfl
@[simp] theorem exec_ldp {h rd base disp} (s : State) : exec (.ldp h rd base disp) s = execLdp h rd base disp s := rfl
@[simp] theorem exec_ldpLit {h rd base lit} (s : State) : exec (.ldpLit h rd base lit) s = execLdpLit h rd base lit s := rfl
@[simp] theorem exec_stB {h rd base disp} (s : State) : exec (.stB h rd base disp) s = execStB h rd base disp s := rfl
@[simp] theorem exec_stBLit {h rd base lit} (s : State) : exec (.stBLit h rd base lit) s = execStBLit h rd base lit s := rfl
@[simp] theorem exec_stH {h rd base disp} (s : State) : exec (.stH h rd base disp) s = execStH h rd base disp s := rfl
@[simp] theorem exec_stHLit {h rd base lit} (s : State) : exec (.stHLit h rd base lit) s = execStHLit h rd base lit s := rfl
@[simp] theorem exec_stW {h rd base disp} (s : State) : exec (.stW h rd base disp) s = execStW h rd base disp s := rfl
@[simp] theorem exec_stWLit {h rd base lit} (s : State) : exec (.stWLit h rd base lit) s = execStWLit h rd base lit s := rfl
@[simp] theorem exec_stD {h rd base disp} (s : State) : exec (.stD h rd base disp) s = execStD h rd base disp s := rfl
@[simp] theorem exec_stDLit {h rd base lit} (s : State) : exec (.stDLit h rd base lit) s = execStDLit h rd base lit s := rfl
@[simp] theorem exec_stp {h rd base disp} (s : State) : exec (.stp h rd base disp) s = execStp h rd base disp s := rfl
@[simp] theorem exec_stpLit {h rd base lit} (s : State) : exec (.stpLit h rd base lit) s = execStpLit h rd base lit s := rfl
@[simp] theorem exec_aaddD {h rd ra rb} (s : State) : exec (.aaddD h rd ra rb) s = execAaddD h rd ra rb s := rfl
@[simp] theorem exec_aandD {h rd ra rb} (s : State) : exec (.aandD h rd ra rb) s = execAandD h rd ra rb s := rfl
@[simp] theorem exec_aorD {h rd ra rb} (s : State) : exec (.aorD h rd ra rb) s = execAorD h rd ra rb s := rfl
@[simp] theorem exec_axorD {h rd ra rb} (s : State) : exec (.axorD h rd ra rb) s = execAxorD h rd ra rb s := rfl
@[simp] theorem exec_aaddW {h rd ra rb} (s : State) : exec (.aaddW h rd ra rb) s = execAaddW h rd ra rb s := rfl
@[simp] theorem exec_aandW {h rd ra rb} (s : State) : exec (.aandW h rd ra rb) s = execAandW h rd ra rb s := rfl
@[simp] theorem exec_aorW {h rd ra rb} (s : State) : exec (.aorW h rd ra rb) s = execAorW h rd ra rb s := rfl
@[simp] theorem exec_axorW {h rd ra rb} (s : State) : exec (.axorW h rd ra rb) s = execAxorW h rd ra rb s := rfl
@[simp] theorem exec_aminD {h rd ra rb} (s : State) : exec (.aminD h rd ra rb) s = execAminD h rd ra rb s := rfl
@[simp] theorem exec_amaxD {h rd ra rb} (s : State) : exec (.amaxD h rd ra rb) s = execAmaxD h rd ra rb s := rfl
@[simp] theorem exec_axchgD {h rd ra rb} (s : State) : exec (.axchgD h rd ra rb) s = execAxchgD h rd ra rb s := rfl
@[simp] theorem exec_acasD {h rd ra rb} (s : State) : exec (.acasD h rd ra rb) s = execAcasD h rd ra rb s := rfl
@[simp] theorem exec_aminW {h rd ra rb} (s : State) : exec (.aminW h rd ra rb) s = execAminW h rd ra rb s := rfl
@[simp] theorem exec_amaxW {h rd ra rb} (s : State) : exec (.amaxW h rd ra rb) s = execAmaxW h rd ra rb s := rfl
@[simp] theorem exec_axchgW {h rd ra rb} (s : State) : exec (.axchgW h rd ra rb) s = execAxchgW h rd ra rb s := rfl
@[simp] theorem exec_acasW {h rd ra rb} (s : State) : exec (.acasW h rd ra rb) s = execAcasW h rd ra rb s := rfl
@[simp] theorem exec_agadd {h rd ra rb} (s : State) : exec (.agadd h rd ra rb) s = execAgadd h rd ra rb s := rfl
@[simp] theorem exec_bind {h rd ra rb} (s : State) : exec (.bind h rd ra rb) s = execBind h rd ra rb s := rfl
@[simp] theorem exec_unbind {h rd} (s : State) : exec (.unbind h rd) s = execUnbind h rd s := rfl
@[simp] theorem exec_acq {h rd ra scope} (s : State) : exec (.acq h rd ra scope) s = execAcq h rd ra scope s := rfl
@[simp] theorem exec_rel {h rd ra scope} (s : State) : exec (.rel h rd ra scope) s = execRel h rd ra scope s := rfl
@[simp] theorem exec_acqrel {h rd ra scope} (s : State) : exec (.acqrel h rd ra scope) s = execAcqrel h rd ra scope s := rfl
@[simp] theorem exec_waitw {h rd ra scope} (s : State) : exec (.waitw h rd ra scope) s = execWaitw h rd ra scope s := rfl
@[simp] theorem exec_fence {h paths scope} (s : State) : exec (.fence h paths scope) s = execFence h paths scope s := rfl
@[simp] theorem exec_vclaim {h rd ra} (s : State) : exec (.vclaim h rd ra) s = execVclaim h rd ra s := rfl
@[simp] theorem exec_vreneg {h rd ra} (s : State) : exec (.vreneg h rd ra) s = execVreneg h rd ra s := rfl
@[simp] theorem exec_vfree {h} (s : State) : exec (.vfree h) s = execVfree h s := rfl
@[simp] theorem exec_pset {h p ra rb} (s : State) : exec (.pset h p ra rb) s = execPset h p ra rb s := rfl
@[simp] theorem exec_pget {h p ra} (s : State) : exec (.pget h p ra) s = execPget h p ra s := rfl
@[simp] theorem exec_vadd {h pd pa pb rn et} (s : State) : exec (.vadd h pd pa pb rn et) s = execVadd h pd pa pb rn et s := rfl
@[simp] theorem exec_vsub {h pd pa pb rn et} (s : State) : exec (.vsub h pd pa pb rn et) s = execVsub h pd pa pb rn et s := rfl
@[simp] theorem exec_vmul {h pd pa pb rn et} (s : State) : exec (.vmul h pd pa pb rn et) s = execVmul h pd pa pb rn et s := rfl
@[simp] theorem exec_vfma {h pd pa pb rn et} (s : State) : exec (.vfma h pd pa pb rn et) s = execVfma h pd pa pb rn et s := rfl
@[simp] theorem exec_vmin {h pd pa pb rn et} (s : State) : exec (.vmin h pd pa pb rn et) s = execVmin h pd pa pb rn et s := rfl
@[simp] theorem exec_vmax {h pd pa pb rn et} (s : State) : exec (.vmax h pd pa pb rn et) s = execVmax h pd pa pb rn et s := rfl
@[simp] theorem exec_vabs {h pd pa rn et} (s : State) : exec (.vabs h pd pa rn et) s = execVabs h pd pa rn et s := rfl
@[simp] theorem exec_vneg {h pd pa rn et} (s : State) : exec (.vneg h pd pa rn et) s = execVneg h pd pa rn et s := rfl
@[simp] theorem exec_vexp2 {h pd pa rn et} (s : State) : exec (.vexp2 h pd pa rn et) s = execVexp2 h pd pa rn et s := rfl
@[simp] theorem exec_vlog2 {h pd pa rn et} (s : State) : exec (.vlog2 h pd pa rn et) s = execVlog2 h pd pa rn et s := rfl
@[simp] theorem exec_vrcp {h pd pa rn et} (s : State) : exec (.vrcp h pd pa rn et) s = execVrcp h pd pa rn et s := rfl
@[simp] theorem exec_vrsq {h pd pa rn et} (s : State) : exec (.vrsq h pd pa rn et) s = execVrsq h pd pa rn et s := rfl
@[simp] theorem exec_vcopy {h pd pa rn et} (s : State) : exec (.vcopy h pd pa rn et) s = execVcopy h pd pa rn et s := rfl
@[simp] theorem exec_vsum {h mb pa rn et} (s : State) : exec (.vsum h mb pa rn et) s = execVsum h mb pa rn et s := rfl
@[simp] theorem exec_vmaxr {h mb pa rn et} (s : State) : exec (.vmaxr h mb pa rn et) s = execVmaxr h mb pa rn et s := rfl
@[simp] theorem exec_vminr {h mb pa rn et} (s : State) : exec (.vminr h mb pa rn et) s = execVminr h mb pa rn et s := rfl
@[simp] theorem exec_vargmax {h mb pa rn et} (s : State) : exec (.vargmax h mb pa rn et) s = execVargmax h mb pa rn et s := rfl
@[simp] theorem exec_vcmp {h e} (s : State) : exec (.vcmp h e) s = execVcmp h e s := rfl
@[simp] theorem exec_vsel {h e} (s : State) : exec (.vsel h e) s = execVsel h e s := rfl
@[simp] theorem exec_vscale {h e} (s : State) : exec (.vscale h e) s = execVscale h e s := rfl
@[simp] theorem exec_vscaleLit {h e lit} (s : State) : exec (.vscaleLit h e lit) s = execVscaleLit h e lit s := rfl
@[simp] theorem exec_vfill {h e} (s : State) : exec (.vfill h e) s = execVfill h e s := rfl
@[simp] theorem exec_vfillLit {h e lit} (s : State) : exec (.vfillLit h e lit) s = execVfillLit h e lit s := rfl
@[simp] theorem exec_vrand {h e} (s : State) : exec (.vrand h e) s = execVrand h e s := rfl
@[simp] theorem exec_vrandLit {h e lit} (s : State) : exec (.vrandLit h e lit) s = execVrandLit h e lit s := rfl
@[simp] theorem exec_vnzc {h e} (s : State) : exec (.vnzc h e) s = execVnzc h e s := rfl
@[simp] theorem exec_vchain {h e} (s : State) : exec (.vchain h e) s = execVchain h e s := rfl
@[simp] theorem exec_vchainLit {h e lit} (s : State) : exec (.vchainLit h e lit) s = execVchainLit h e lit s := rfl
@[simp] theorem exec_vcvt {h e} (s : State) : exec (.vcvt h e) s = execVcvt h e s := rfl
@[simp] theorem exec_vcvtLit {h e lit} (s : State) : exec (.vcvtLit h e lit) s = execVcvtLit h e lit s := rfl
@[simp] theorem exec_vqmx {h e} (s : State) : exec (.vqmx h e) s = execVqmx h e s := rfl
@[simp] theorem exec_vqmxLit {h e lit} (s : State) : exec (.vqmxLit h e lit) s = execVqmxLit h e lit s := rfl
@[simp] theorem exec_vdqmx {h e} (s : State) : exec (.vdqmx h e) s = execVdqmx h e s := rfl
@[simp] theorem exec_vqa {h e} (s : State) : exec (.vqa h e) s = execVqa h e s := rfl
@[simp] theorem exec_vqaLit {h e lit} (s : State) : exec (.vqaLit h e lit) s = execVqaLit h e lit s := rfl
@[simp] theorem exec_ashape {h a rows cc} (s : State) : exec (.ashape h a rows cc) s = execAshape h a rows cc s := rfl
@[simp] theorem exec_adatum {h a d} (s : State) : exec (.adatum h a d) s = execAdatum h a d s := rfl
@[simp] theorem exec_azero {h a} (s : State) : exec (.azero h a) s = execAzero h a s := rfl
@[simp] theorem exec_astat {h a rd} (s : State) : exec (.astat h a rd) s = execAstat h a rd s := rfl
@[simp] theorem exec_achk {h a rd} (s : State) : exec (.achk h a rd) s = execAchk h a rd s := rfl
@[simp] theorem exec_cld {h e} (s : State) : exec (.cld h e) s = execCld h e s := rfl
@[simp] theorem exec_cldLit {h e lit} (s : State) : exec (.cldLit h e lit) s = execCldLit h e lit s := rfl
@[simp] theorem exec_cldc {h e} (s : State) : exec (.cldc h e) s = execCldc h e s := rfl
@[simp] theorem exec_cldcLit {h e lit} (s : State) : exec (.cldcLit h e lit) s = execCldcLit h e lit s := rfl
@[simp] theorem exec_cldSp {h e} (s : State) : exec (.cldSp h e) s = execCldSp h e s := rfl
@[simp] theorem exec_cldSpLit {h e lit} (s : State) : exec (.cldSpLit h e lit) s = execCldSpLit h e lit s := rfl
@[simp] theorem exec_old {h e} (s : State) : exec (.old h e) s = execOld h e s := rfl
@[simp] theorem exec_oldLit {h e lit} (s : State) : exec (.oldLit h e lit) s = execOldLit h e lit s := rfl
@[simp] theorem exec_oldT {h e} (s : State) : exec (.oldT h e) s = execOldT h e s := rfl
@[simp] theorem exec_oldTLit {h e lit} (s : State) : exec (.oldTLit h e lit) s = execOldTLit h e lit s := rfl
@[simp] theorem exec_ocols {h e} (s : State) : exec (.ocols h e) s = execOcols h e s := rfl
@[simp] theorem exec_adrain {h e} (s : State) : exec (.adrain h e) s = execAdrain h e s := rfl
@[simp] theorem exec_adrainLit {h e lit} (s : State) : exec (.adrainLit h e lit) s = execAdrainLit h e lit s := rfl
@[simp] theorem exec_slotw {h ra rb} (s : State) : exec (.slotw h ra rb) s = execSlotw h ra rb s := rfl
@[simp] theorem exec_hopen {h o rd ra} (s : State) : exec (.hopen h o rd ra) s = execHopen h o rd ra s := rfl
@[simp] theorem exec_hclose {h o rd} (s : State) : exec (.hclose h o rd) s = execHclose h o rd s := rfl
@[simp] theorem exec_hbatch {h o rd} (s : State) : exec (.hbatch h o rd) s = execHbatch h o rd s := rfl
@[simp] theorem exec_hlist {h o rd ra} (s : State) : exec (.hlist h o rd ra) s = execHlist h o rd ra s := rfl
@[simp] theorem exec_hattach {h o rd ra} (s : State) : exec (.hattach h o rd ra) s = execHattach h o rd ra s := rfl
@[simp] theorem exec_hdetach {h o rd ra} (s : State) : exec (.hdetach h o rd ra) s = execHdetach h o rd ra s := rfl
@[simp] theorem exec_hswap {h o rd ra} (s : State) : exec (.hswap h o rd ra) s = execHswap h o rd ra s := rfl
@[simp] theorem exec_hverify {h o rd} (s : State) : exec (.hverify h o rd) s = execHverify h o rd s := rfl
@[simp] theorem exec_hfold {h o rd ra} (s : State) : exec (.hfold h o rd ra) s = execHfold h o rd ra s := rfl
@[simp] theorem exec_tclr {h t ra} (s : State) : exec (.tclr h t ra) s = execTclr h t ra s := rfl
@[simp] theorem exec_tset {h t rd ra} (s : State) : exec (.tset h t rd ra) s = execTset h t rd ra s := rfl
@[simp] theorem exec_tadd {h t rd ra} (s : State) : exec (.tadd h t rd ra) s = execTadd h t rd ra s := rfl
@[simp] theorem exec_tpref {h t rd ra} (s : State) : exec (.tpref h t rd ra) s = execTpref h t rd ra s := rfl
@[simp] theorem exec_tfind {h t rd ra} (s : State) : exec (.tfind h t rd ra) s = execTfind h t rd ra s := rfl
@[simp] theorem exec_tcut {h t rd ra} (s : State) : exec (.tcut h t rd ra) s = execTcut h t rd ra s := rfl
@[simp] theorem exec_ttot {h t rd ra} (s : State) : exec (.ttot h t rd ra) s = execTtot h t rd ra s := rfl
@[simp] theorem exec_tloadM32 {h t ra rb} (s : State) : exec (.tloadM32 h t ra rb) s = execTloadM32 h t ra rb s := rfl
@[simp] theorem exec_tloadM16 {h t ra rb} (s : State) : exec (.tloadM16 h t ra rb) s = execTloadM16 h t ra rb s := rfl
@[simp] theorem exec_tstore {h t ra rb} (s : State) : exec (.tstore h t ra rb) s = execTstore h t ra rb s := rfl
@[simp] theorem exec_ppush {h b rd} (s : State) : exec (.ppush h b rd) s = execPpush h b rd s := rfl
@[simp] theorem exec_ppop {h b rd cd} (s : State) : exec (.ppop h b rd cd) s = execPpop h b rd cd s := rfl
@[simp] theorem exec_ppeek {h b rd cd} (s : State) : exec (.ppeek h b rd cd) s = execPpeek h b rd cd s := rfl
@[simp] theorem exec_pcount {h b rd} (s : State) : exec (.pcount h b rd) s = execPcount h b rd s := rfl
@[simp] theorem exec_peos {h b} (s : State) : exec (.peos h b) s = execPeos h b s := rfl
@[simp] theorem exec_pconf {h b rd} (s : State) : exec (.pconf h b rd) s = execPconf h b rd s := rfl
@[simp] theorem exec_mbw {h mb rd} (s : State) : exec (.mbw h mb rd) s = execMbw h mb rd s := rfl
@[simp] theorem exec_mbr {h mb rd} (s : State) : exec (.mbr h mb rd) s = execMbr h mb rd s := rfl
@[simp] theorem exec_plnew {h o rd ra} (s : State) : exec (.plnew h o rd ra) s = execPlnew h o rd ra s := rfl
@[simp] theorem exec_plset {h o rd ra} (s : State) : exec (.plset h o rd ra) s = execPlset h o rd ra s := rfl
@[simp] theorem exec_plget {h o rd ra} (s : State) : exec (.plget h o rd ra) s = execPlget h o rd ra s := rfl
@[simp] theorem exec_cpy {h rd ra} (s : State) : exec (.cpy h rd ra) s = execCpy h rd ra s := rfl
@[simp] theorem exec_cpynb {h rd ra} (s : State) : exec (.cpynb h rd ra) s = execCpynb h rd ra s := rfl
@[simp] theorem exec_swinit {h ra rb} (s : State) : exec (.swinit h ra rb) s = execSwinit h ra rb s := rfl
@[simp] theorem exec_swwait {h ra rb} (s : State) : exec (.swwait h ra rb) s = execSwwait h ra rb s := rfl
@[simp] theorem exec_rinit {h g rd ra} (s : State) : exec (.rinit h g rd ra) s = execRinit h g rd ra s := rfl
@[simp] theorem exec_rawait {h g rd ra} (s : State) : exec (.rawait h g rd ra) s = execRawait h g rd ra s := rfl
@[simp] theorem exec_rrel {h g rd ra} (s : State) : exec (.rrel h g rd ra) s = execRrel h g rd ra s := rfl
@[simp] theorem exec_rseq {h g rd ra} (s : State) : exec (.rseq h g rd ra) s = execRseq h g rd ra s := rfl
@[simp] theorem exec_reos {h g rd ra} (s : State) : exec (.reos h g rd ra) s = execReos h g rd ra s := rfl
@[simp] theorem exec_gpost {h rd ra} (s : State) : exec (.gpost h rd ra) s = execGpost h rd ra s := rfl
@[simp] theorem exec_gwait {h rd ra} (s : State) : exec (.gwait h rd ra) s = execGwait h rd ra s := rfl
@[simp] theorem exec_gid {h rd ra} (s : State) : exec (.gid h rd ra) s = execGid h rd ra s := rfl
@[simp] theorem exec_dqpush {h rd ra} (s : State) : exec (.dqpush h rd ra) s = execDqpush h rd ra s := rfl
@[simp] theorem exec_dqpop {h rd} (s : State) : exec (.dqpop h rd) s = execDqpop h rd s := rfl
@[simp] theorem exec_dqsplit {h rd ra} (s : State) : exec (.dqsplit h rd ra) s = execDqsplit h rd ra s := rfl
@[simp] theorem exec_dqsteal {h rd ra} (s : State) : exec (.dqsteal h rd ra) s = execDqsteal h rd ra s := rfl
@[simp] theorem exec_suspend {h rd} (s : State) : exec (.suspend h rd) s = execSuspend h rd s := rfl
@[simp] theorem exec_btest {h rd ra rb} (s : State) : exec (.btest h rd ra rb) s = execBtest h rd ra rb s := rfl
@[simp] theorem exec_stb {h rd ra rb} (s : State) : exec (.stb h rd ra rb) s = execStb h rd ra rb s := rfl
@[simp] theorem exec_binit {h rd ra rb} (s : State) : exec (.binit h rd ra rb) s = execBinit h rd ra rb s := rfl
@[simp] theorem exec_bexp {h rd ra rb} (s : State) : exec (.bexp h rd ra rb) s = execBexp h rd ra rb s := rfl
@[simp] theorem exec_barv {h rd ra rb} (s : State) : exec (.barv h rd ra rb) s = execBarv h rd ra rb s := rfl
@[simp] theorem exec_bwait {h rd ra} (s : State) : exec (.bwait h rd ra) s = execBwait h rd ra s := rfl
@[simp] theorem exec_ksig {h rd ra rb} (s : State) : exec (.ksig h rd ra rb) s = execKsig h rd ra rb s := rfl
@[simp] theorem exec_klaunch {h rd ra rb} (s : State) : exec (.klaunch h rd ra rb) s = execKlaunch h rd ra rb s := rfl
@[simp] theorem exec_keos {h rd} (s : State) : exec (.keos h rd) s = execKeos h rd s := rfl
@[simp] theorem exec_cgrp {h e} (s : State) : exec (.cgrp h e) s = execCgrp h e s := rfl
@[simp] theorem exec_cag {h e} (s : State) : exec (.cag h e) s = execCag h e s := rfl
@[simp] theorem exec_cagLit {h e lit} (s : State) : exec (.cagLit h e lit) s = execCagLit h e lit s := rfl
@[simp] theorem exec_crs {h e} (s : State) : exec (.crs h e) s = execCrs h e s := rfl
@[simp] theorem exec_crsLit {h e lit} (s : State) : exec (.crsLit h e lit) s = execCrsLit h e lit s := rfl
@[simp] theorem exec_ca2a {h e} (s : State) : exec (.ca2a h e) s = execCa2a h e s := rfl
@[simp] theorem exec_ca2aLit {h e lit} (s : State) : exec (.ca2aLit h e lit) s = execCa2aLit h e lit s := rfl
@[simp] theorem exec_cbar {h e} (s : State) : exec (.cbar h e) s = execCbar h e s := rfl
@[simp] theorem exec_cwait {h rd ra} (s : State) : exec (.cwait h rd ra) s = execCwait h rd ra s := rfl
@[simp] theorem exec_ctest {h rd ra} (s : State) : exec (.ctest h rd ra) s = execCtest h rd ra s := rfl
@[simp] theorem exec_rseed {h ra} (s : State) : exec (.rseed h ra) s = execRseed h ra s := rfl
@[simp] theorem exec_rgen {h rd ra rb} (s : State) : exec (.rgen h rd ra rb) s = execRgen h rd ra rb s := rfl
@[simp] theorem exec_rnoise {h rd} (s : State) : exec (.rnoise h rd) s = execRnoise h rd s := rfl
@[simp] theorem exec_rlog {h rd ra} (s : State) : exec (.rlog h rd ra) s = execRlog h rd ra s := rfl
@[simp] theorem exec_mseq {h e} (s : State) : exec (.mseq h e) s = execMseq h e s := rfl
@[simp] theorem exec_mseqLit {h e lit} (s : State) : exec (.mseqLit h e lit) s = execMseqLit h e lit s := rfl
@[simp] theorem exec_trap {h imm} (s : State) : exec (.trap h imm) s = execTrap h imm s := rfl
@[simp] theorem exec_eret {h} (s : State) : exec (.eret h) s = execEret h s := rfl
@[simp] theorem exec_eretAb {h} (s : State) : exec (.eretAb h) s = execEretAb h s := rfl
@[simp] theorem exec_csrr {h rd imm} (s : State) : exec (.csrr h rd imm) s = execCsrr h rd imm s := rfl
@[simp] theorem exec_csrw {h rd imm} (s : State) : exec (.csrw h rd imm) s = execCsrw h rd imm s := rfl
@[simp] theorem exec_csrs {h rd imm} (s : State) : exec (.csrs h rd imm) s = execCsrs h rd imm s := rfl
@[simp] theorem exec_csrc {h rd imm} (s : State) : exec (.csrc h rd imm) s = execCsrc h rd imm s := rfl
@[simp] theorem exec_wcall {h rd imm} (s : State) : exec (.wcall h rd imm) s = execWcall h rd imm s := rfl
@[simp] theorem exec_sleep {h rd} (s : State) : exec (.sleep h rd) s = execSleep h rd s := rfl
@[simp] theorem exec_contw {h rd} (s : State) : exec (.contw h rd) s = execContw h rd s := rfl
@[simp] theorem exec_contr {h rd slot} (s : State) : exec (.contr h rd slot) s = execContr h rd slot s := rfl
@[simp] theorem exec_shoot {h rd} (s : State) : exec (.shoot h rd) s = execShoot h rd s := rfl
@[simp] theorem exec_sliceWrite {h rd} (s : State) : exec (.sliceWrite h rd) s = execSliceWrite h rd s := rfl
@[simp] theorem exec_create (s : State) : exec (.create) s = execCreate s := rfl
@[simp] theorem exec_destroy (s : State) : exec (.destroy) s = execDestroy s := rfl
@[simp] theorem exec_qopen (s : State) : exec (.qopen) s = execQopen s := rfl
@[simp] theorem exec_qclose (s : State) : exec (.qclose) s = execQclose s := rfl
@[simp] theorem exec_linkup (s : State) : exec (.linkup) s = execLinkup s := rfl
@[simp] theorem exec_linkfence (s : State) : exec (.linkfence) s = execLinkfence s := rfl
@[simp] theorem exec_linkdown (s : State) : exec (.linkdown) s = execLinkdown s := rfl
@[simp] theorem exec_settvec (s : State) : exec (.settvec) s = execSettvec s := rfl
@[simp] theorem exec_dbgset (s : State) : exec (.dbgset) s = execDbgset s := rfl
@[simp] theorem exec_dstop (s : State) : exec (.dstop) s = execDstop s := rfl
@[simp] theorem exec_dresume (s : State) : exec (.dresume) s = execDresume s := rfl
@[simp] theorem exec_trcset (s : State) : exec (.trcset) s = execTrcset s := rfl
@[simp] theorem exec_loadobj (s : State) : exec (.loadobj) s = execLoadobj s := rfl
@[simp] theorem exec_finalisedCacheDrop {ix} (s : State) : exec (.finalisedCacheDrop ix) s = execFinalisedCacheDrop ix s := rfl
@[simp] theorem exec_powerUp {flash pop ident fw train} (s : State) : exec (.powerUp flash pop ident fw train) s = execPowerUp flash pop ident fw train s := rfl
@[simp] theorem exec_pendingReturn {uid id} (s : State) : exec (.pendingReturn uid id) s = execPendingReturn uid id s := rfl
@[simp] theorem exec_repIterationIssue {uid} (s : State) : exec (.repIterationIssue uid) s = execRepIterationIssue uid s := rfl
@[simp] theorem exec_thermalInterval {core temp} (s : State) : exec (.thermalInterval core temp) s = execThermalInterval core temp s := rfl
@[simp] theorem exec_thermalDisplacement {uid} (s : State) : exec (.thermalDisplacement uid) s = execThermalDisplacement uid s := rfl
@[simp] theorem exec_noiseWordDelivery {cl} (s : State) : exec (.noiseWordDelivery cl) s = execNoiseWordDelivery cl s := rfl
@[simp] theorem exec_noiseHealthFail {cl} (s : State) : exec (.noiseHealthFail cl) s = execNoiseHealthFail cl s := rfl
@[simp] theorem exec_noiseHealthPass {cl} (s : State) : exec (.noiseHealthPass cl) s = execNoiseHealthPass cl s := rfl
@[simp] theorem exec_storeAtHome {ix m} (s : State) : exec (.storeAtHome ix m) s = execStoreAtHome ix m s := rfl
@[simp] theorem exec_readAtHome {uid id} (s : State) : exec (.readAtHome uid id) s = execReadAtHome uid id s := rfl
@[simp] theorem exec_atomicAtHome {uid id} (s : State) : exec (.atomicAtHome uid id) s = execAtomicAtHome uid id s := rfl
@[simp] theorem exec_pageWalk {core ctx va} (s : State) : exec (.pageWalk core ctx va) s = execPageWalk core ctx va s := rfl
@[simp] theorem exec_sliceScrub {slice fixed bad} (s : State) : exec (.sliceScrub slice fixed bad) s = execSliceScrub slice fixed bad s := rfl
@[simp] theorem exec_accessCountFlush {who ctx va} (s : State) : exec (.accessCountFlush who ctx va) s = execAccessCountFlush who ctx va s := rfl
@[simp] theorem exec_hotPageRecord {ix} (s : State) : exec (.hotPageRecord ix) s = execHotPageRecord ix s := rfl
@[simp] theorem exec_wbRetranslate {who ctx va} (s : State) : exec (.wbRetranslate who ctx va) s = execWbRetranslate who ctx va s := rfl
@[simp] theorem exec_releasePerform {core} (s : State) : exec (.releasePerform core) s = execReleasePerform core s := rfl
@[simp] theorem exec_acqAtHome {uid id} (s : State) : exec (.acqAtHome uid id) s = execAcqAtHome uid id s := rfl
@[simp] theorem exec_acqrelExchange {core} (s : State) : exec (.acqrelExchange core) s = execAcqrelExchange core s := rfl
@[simp] theorem exec_waitwRegister {uid id} (s : State) : exec (.waitwRegister uid id) s = execWaitwRegister uid id s := rfl
@[simp] theorem exec_watchPoll {uid id} (s : State) : exec (.watchPoll uid id) s = execWatchPoll uid id s := rfl
@[simp] theorem exec_scopeMissHandle {core} (s : State) : exec (.scopeMissHandle core) s = execScopeMissHandle core s := rfl
@[simp] theorem exec_bindPropagate {src dst} (s : State) : exec (.bindPropagate src dst) s = execBindPropagate src dst s := rfl
@[simp] theorem exec_probeEcho {core isPort ix} (s : State) : exec (.probeEcho core isPort ix) s = execProbeEcho core isPort ix s := rfl
@[simp] theorem exec_laneGrant {cl} (s : State) : exec (.laneGrant cl) s = execLaneGrant cl s := rfl
@[simp] theorem exec_vectorPerform {uid} (s : State) : exec (.vectorPerform uid) s = execVectorPerform uid s := rfl
@[simp] theorem exec_engineOpPerform {core ctx seq} (s : State) : exec (.engineOpPerform core ctx seq) s = execEngineOpPerform core ctx seq s := rfl
@[simp] theorem exec_sectorRequest {core ctx seq} (s : State) : exec (.sectorRequest core ctx seq) s = execSectorRequest core ctx seq s := rfl
@[simp] theorem exec_sectorReply {core ctx seq t} (s : State) : exec (.sectorReply core ctx seq t) s = execSectorReply core ctx seq t s := rfl
@[simp] theorem exec_traverseReservation {core ctx seq} (s : State) : exec (.traverseReservation core ctx seq) s = execTraverseReservation core ctx seq s := rfl
@[simp] theorem exec_traverseData {core ctx seq} (s : State) : exec (.traverseData core ctx seq) s = execTraverseData core ctx seq s := rfl
@[simp] theorem exec_slotFrameBoundary {core} (s : State) : exec (.slotFrameBoundary core) s = execSlotFrameBoundary core s := rfl
@[simp] theorem exec_sliceRerun {core ctx seq} (s : State) : exec (.sliceRerun core ctx seq) s = execSliceRerun core ctx seq s := rfl
@[simp] theorem exec_handleHomePerform {uid id} (s : State) : exec (.handleHomePerform uid id) s = execHandleHomePerform uid id s := rfl
@[simp] theorem exec_handleScrub {ctx va shard} (s : State) : exec (.handleScrub ctx va shard) s = execHandleScrub ctx va shard s := rfl
@[simp] theorem exec_foldJobStart {die} (s : State) : exec (.foldJobStart die) s = execFoldJobStart die s := rfl
@[simp] theorem exec_foldCommit {die} (s : State) : exec (.foldCommit die) s = execFoldCommit die s := rfl
@[simp] theorem exec_foldFail {die} (s : State) : exec (.foldFail die) s = execFoldFail die s := rfl
@[simp] theorem exec_treeUnitPerform {core ctx} (s : State) : exec (.treeUnitPerform core ctx) s = execTreeUnitPerform core ctx s := rfl
@[simp] theorem exec_portValueLand {ix} (s : State) : exec (.portValueLand ix) s = execPortValueLand ix s := rfl
@[simp] theorem exec_portCreditReturn {ix} (s : State) : exec (.portCreditReturn ix) s = execPortCreditReturn ix s := rfl
@[simp] theorem exec_portClosedNotice {uid b} (s : State) : exec (.portClosedNotice uid b) s = execPortClosedNotice uid b s := rfl
@[simp] theorem exec_portDeadlock {kern grp} (s : State) : exec (.portDeadlock kern grp) s = execPortDeadlock kern grp s := rfl
@[simp] theorem exec_copyStart {core e} (s : State) : exec (.copyStart core e) s = execCopyStart core e s := rfl
@[simp] theorem exec_copyError {e} (s : State) : exec (.copyError e) s = execCopyError e s := rfl
@[simp] theorem exec_copyComplete {e} (s : State) : exec (.copyComplete e) s = execCopyComplete e s := rfl
@[simp] theorem exec_gatherPerform {cl} (s : State) : exec (.gatherPerform cl) s = execGatherPerform cl s := rfl
@[simp] theorem exec_groupPlacement {kern grp} (s : State) : exec (.groupPlacement kern grp) s = execGroupPlacement kern grp s := rfl
@[simp] theorem exec_dequeUnitPerform {uid id} (s : State) : exec (.dequeUnitPerform uid id) s = execDequeUnitPerform uid id s := rfl
@[simp] theorem exec_idleMonitorTest {kern grp uid ix} (s : State) : exec (.idleMonitorTest kern grp uid ix) s = execIdleMonitorTest kern grp uid ix s := rfl
@[simp] theorem exec_barrierUnitPerform {uid id} (s : State) : exec (.barrierUnitPerform uid id) s = execBarrierUnitPerform uid id s := rfl
@[simp] theorem exec_barrierPoll {uid id} (s : State) : exec (.barrierPoll uid id) s = execBarrierPoll uid id s := rfl
@[simp] theorem exec_queueTake {ctx qn} (s : State) : exec (.queueTake ctx qn) s = execQueueTake ctx qn s := rfl
@[simp] theorem exec_overrun {kern grp} (s : State) : exec (.overrun kern grp) s = execOverrun kern grp s := rfl
@[simp] theorem exec_kernelCompletion {kern} (s : State) : exec (.kernelCompletion kern) s = execKernelCompletion kern s := rfl
@[simp] theorem exec_transformRun {kern} (s : State) : exec (.transformRun kern) s = execTransformRun kern s := rfl
@[simp] theorem exec_meshInterrupt {core} (s : State) : exec (.meshInterrupt core) s = execMeshInterrupt core s := rfl
@[simp] theorem exec_saveComplete {core} (s : State) : exec (.saveComplete core) s = execSaveComplete core s := rfl
@[simp] theorem exec_restore {core} (s : State) : exec (.restore core) s = execRestore core s := rfl
@[simp] theorem exec_redelivery {ctx core} (s : State) : exec (.redelivery ctx core) s = execRedelivery ctx core s := rfl
@[simp] theorem exec_spillRetry {ctx} (s : State) : exec (.spillRetry ctx) s = execSpillRetry ctx s := rfl
@[simp] theorem exec_portTrainingEnd {port lanes peer} (s : State) : exec (.portTrainingEnd port lanes peer) s = execPortTrainingEnd port lanes peer s := rfl
@[simp] theorem exec_laneFailure {port working} (s : State) : exec (.laneFailure port working) s = execLaneFailure port working s := rfl
@[simp] theorem exec_messageDiscard {wr uid id} (s : State) : exec (.messageDiscard wr uid id) s = execMessageDiscard wr uid id s := rfl
@[simp] theorem exec_meshCountDump (s : State) : exec (.meshCountDump) s = execMeshCountDump s := rfl
@[simp] theorem exec_collectiveReservation {id flow} (s : State) : exec (.collectiveReservation id flow) s = execCollectiveReservation id flow s := rfl
@[simp] theorem exec_collectiveChunk {id flow sec} (s : State) : exec (.collectiveChunk id flow sec) s = execCollectiveChunk id flow sec s := rfl
@[simp] theorem exec_reductionCombine {id chunk sec level ix} (s : State) : exec (.reductionCombine id chunk sec level ix) s = execReductionCombine id chunk sec level ix s := rfl
@[simp] theorem exec_reductionPartialSpill {id chunk sec level ix} (s : State) : exec (.reductionPartialSpill id chunk sec level ix) s = execReductionPartialSpill id chunk sec level ix s := rfl
@[simp] theorem exec_sample {core} (s : State) : exec (.sample core) s = execSample core s := rfl
@[simp] theorem exec_tracePushback (s : State) : exec (.tracePushback) s = execTracePushback s := rfl
@[simp] theorem exec_flitReplay {port corrected} (s : State) : exec (.flitReplay port corrected) s = execFlitReplay port corrected s := rfl
@[simp] theorem exec_powerRemoval (s : State) : exec (.powerRemoval) s = execPowerRemoval s := rfl
@[simp] theorem exec_promiseMissed {which id} (s : State) : exec (.promiseMissed which id) s = execPromiseMissed which id s := rfl
@[simp] theorem exec_tracePushbackRelease (s : State) : exec (.tracePushbackRelease) s = execTracePushbackRelease s := rfl
@[simp] theorem exec_windowEnd {kern grp} (s : State) : exec (.windowEnd kern grp) s = execWindowEnd kern grp s := rfl

end Sys2Proof.Machine
end

