-- ==== Sys2Proof/Laws/Tables.lean ====
section
/-! SUPPORT. Laws of sparse tables. -/

namespace Sys2Proof.Machine
open Sys2Proof

@[simp] theorem tget_tput_same {α : Type} (d : α) (m : Table α) (i : Nat) (x : α) : tget d (tput m i x) i = x := by
  fun_induction tput m i x <;> simp_all [tget]

theorem tget_tput_ne {α : Type} (d : α) (m : Table α) {i j : Nat} (x : α) (h : j ≠ i) :
    tget d (tput m i x) j = tget d m j := by
  fun_induction tput m i x <;> simp_all [tget]

@[simp] theorem tput_tput_same {α : Type} (m : Table α) (i : Nat) (x y : α) : tput (tput m i x) i y = tput m i y := by
  fun_induction tput m i x <;> simp_all [tput]
  rw [if_neg (by omega), if_neg (by omega)]

theorem tget_tdel {α : Type} (d : α) (m : Table α) (i j : Nat) :
    tget d (tdel m i) j = if j = i then d else tget d m j := by
  unfold tdel
  induction m <;> simp only [List.filter_nil, List.filter_cons] <;> grind [tget]

theorem tget_tdel_ne {α : Type} (d : α) (m : Table α) {i j : Nat} (h : j ≠ i) : tget d (tdel m i) j = tget d m j := by
  rw [tget_tdel, if_neg h]

theorem tget_tdel_same {α : Type} (d : α) (m : Table α) (i : Nat) : tget d (tdel m i) i = d := by
  rw [tget_tdel, if_pos rfl]

/-- A put adds nothing but its own pair. -/
theorem tput_subset {α : Type} (m : Table α) (i : Nat) (x : α) : tput m i x ⊆ (i, x) :: m := by
  fun_induction tput m i x <;> intro p <;> grind

theorem mem_tput {α : Type} {m : Table α} {i : Nat} {x : α} {p : Nat × α} (h : p ∈ tput m i x) :
    p = (i, x) ∨ p ∈ m := by simpa using tput_subset m i x h

/-- Keys strictly rising. -/
theorem tput_sorted {α : Type} (m : Table α) (i : Nat) (x : α) (h : m.Pairwise fun a b => a.1 < b.1) :
    (tput m i x).Pairwise fun a b => a.1 < b.1 := by
  fun_induction tput m i x with
  | case1 => exact .cons (fun _ hb => nomatch hb) .nil
  | case2 v m i x => exact .cons (List.pairwise_cons.mp h).1 (List.pairwise_cons.mp h).2
  | case3 k v m i x hne hlt =>
    refine .cons (List.forall_mem_cons.mpr ⟨hlt, fun b hb => ?_⟩) h
    exact Nat.lt_trans hlt ((List.pairwise_cons.mp h).1 b hb)
  | case4 k v m i x hne hle ih =>
    have hs := List.pairwise_cons.mp h
    have low : ∀ b ∈ (i, x) :: m, k < b.1 := List.forall_mem_cons.mpr ⟨by simp only; omega, hs.1⟩
    exact .cons (fun b hb => low b (tput_subset m i x hb)) (ih hs.2)

theorem tdel_sorted {α : Type} (m : Table α) (i : Nat) (h : m.Pairwise fun a b => a.1 < b.1) :
    (tdel m i).Pairwise fun a b => a.1 < b.1 := h.filter _

end Sys2Proof.Machine
end

