-- ==== Sys2Proof/Laws/State.lean ====
section
/-! SUPPORT. One lemma per field per update of the state and of a strand. -/

namespace Sys2Proof.Machine
open Sys2Proof

@[simp] theorem setStrand_phase (s : State) (u : Nat) (t : Strand) : (s.setStrand u t).phase = s.phase := rfl
@[simp] theorem setStrand_failCode (s : State) (u : Nat) (t : Strand) : (s.setStrand u t).failCode = s.failCode := rfl
@[simp] theorem setStrand_cycle (s : State) (u : Nat) (t : Strand) : (s.setStrand u t).cycle = s.cycle := rfl
@[simp] theorem setStrand_cur (s : State) (u : Nat) (t : Strand) : (s.setStrand u t).cur = s.cur := rfl
@[simp] theorem setStrand_mem (s : State) (u : Nat) (t : Strand) : (s.setStrand u t).mem = s.mem := rfl
@[simp] theorem setStrand_poison (s : State) (u : Nat) (t : Strand) : (s.setStrand u t).poison = s.poison := rfl
@[simp] theorem setStrand_tags (s : State) (u : Nat) (t : Strand) : (s.setStrand u t).tags = s.tags := rfl
@[simp] theorem setStrand_ecc (s : State) (u : Nat) (t : Strand) : (s.setStrand u t).ecc = s.ecc := rfl
@[simp] theorem setStrand_eccLog (s : State) (u : Nat) (t : Strand) : (s.setStrand u t).eccLog = s.eccLog := rfl
@[simp] theorem setStrand_nextUid (s : State) (u : Nat) (t : Strand) : (s.setStrand u t).nextUid = s.nextUid := rfl
@[simp] theorem setStrand_cores (s : State) (u : Nat) (t : Strand) : (s.setStrand u t).cores = s.cores := rfl
@[simp] theorem setStrand_parts (s : State) (u : Nat) (t : Strand) : (s.setStrand u t).parts = s.parts := rfl
@[simp] theorem setStrand_ctxs (s : State) (u : Nat) (t : Strand) : (s.setStrand u t).ctxs = s.ctxs := rfl
@[simp] theorem setStrand_kernels (s : State) (u : Nat) (t : Strand) : (s.setStrand u t).kernels = s.kernels := rfl
@[simp] theorem setStrand_nextKern (s : State) (u : Nat) (t : Strand) : (s.setStrand u t).nextKern = s.nextKern := rfl
@[simp] theorem setStrand_tlb (s : State) (u : Nat) (t : Strand) : (s.setStrand u t).tlb = s.tlb := rfl
@[simp] theorem setStrand_counts (s : State) (u : Nat) (t : Strand) : (s.setStrand u t).counts = s.counts := rfl
@[simp] theorem setStrand_descs (s : State) (u : Nat) (t : Strand) : (s.setStrand u t).descs = s.descs := rfl
@[simp] theorem setStrand_hot (s : State) (u : Nat) (t : Strand) : (s.setStrand u t).hot = s.hot := rfl
@[simp] theorem setStrand_writes (s : State) (u : Nat) (t : Strand) : (s.setStrand u t).writes = s.writes := rfl
@[simp] theorem setStrand_pushes (s : State) (u : Nat) (t : Strand) : (s.setStrand u t).pushes = s.pushes := rfl
@[simp] theorem setStrand_credits (s : State) (u : Nat) (t : Strand) : (s.setStrand u t).credits = s.credits := rfl
@[simp] theorem setStrand_watches (s : State) (u : Nat) (t : Strand) : (s.setStrand u t).watches = s.watches := rfl
@[simp] theorem setStrand_noiseBad (s : State) (u : Nat) (t : Strand) : (s.setStrand u t).noiseBad = s.noiseBad := rfl
@[simp] theorem setStrand_noiseWait (s : State) (u : Nat) (t : Strand) : (s.setStrand u t).noiseWait = s.noiseWait := rfl
@[simp] theorem setStrand_folds (s : State) (u : Nat) (t : Strand) : (s.setStrand u t).folds = s.folds := rfl
@[simp] theorem setStrand_scrubs (s : State) (u : Nat) (t : Strand) : (s.setStrand u t).scrubs = s.scrubs := rfl
@[simp] theorem setStrand_copies (s : State) (u : Nat) (t : Strand) : (s.setStrand u t).copies = s.copies := rfl
@[simp] theorem setStrand_nextCopy (s : State) (u : Nat) (t : Strand) : (s.setStrand u t).nextCopy = s.nextCopy := rfl
@[simp] theorem setStrand_copyTurn (s : State) (u : Nat) (t : Strand) : (s.setStrand u t).copyTurn = s.copyTurn := rfl
@[simp] theorem setStrand_gathers (s : State) (u : Nat) (t : Strand) : (s.setStrand u t).gathers = s.gathers := rfl
@[simp] theorem setStrand_colls (s : State) (u : Nat) (t : Strand) : (s.setStrand u t).colls = s.colls := rfl
@[simp] theorem setStrand_nextColl (s : State) (u : Nat) (t : Strand) : (s.setStrand u t).nextColl = s.nextColl := rfl
@[simp] theorem setStrand_clavos (s : State) (u : Nat) (t : Strand) : (s.setStrand u t).clavos = s.clavos := rfl
@[simp] theorem setStrand_meshDump (s : State) (u : Nat) (t : Strand) : (s.setStrand u t).meshDump = s.meshDump := rfl
@[simp] theorem setStrand_unreach (s : State) (u : Nat) (t : Strand) : (s.setStrand u t).unreach = s.unreach := rfl
@[simp] theorem setStrand_dicts (s : State) (u : Nat) (t : Strand) : (s.setStrand u t).dicts = s.dicts := rfl
@[simp] theorem setStrand_guardLog (s : State) (u : Nat) (t : Strand) : (s.setStrand u t).guardLog = s.guardLog := rfl
@[simp] theorem setStrand_guardSel (s : State) (u : Nat) (t : Strand) : (s.setStrand u t).guardSel = s.guardSel := rfl
@[simp] theorem setStrand_cutOff (s : State) (u : Nat) (t : Strand) : (s.setStrand u t).cutOff = s.cutOff := rfl
@[simp] theorem setStrand_textCache (s : State) (u : Nat) (t : Strand) : (s.setStrand u t).textCache = s.textCache := rfl
@[simp] theorem setStrand_config (s : State) (u : Nat) (t : Strand) : (s.setStrand u t).config = s.config := rfl
@[simp] theorem setStrand_fwHash (s : State) (u : Nat) (t : Strand) : (s.setStrand u t).fwHash = s.fwHash := rfl
@[simp] theorem setStrand_populated (s : State) (u : Nat) (t : Strand) : (s.setStrand u t).populated = s.populated := rfl
@[simp] theorem setStrand_trcSel (s : State) (u : Nat) (t : Strand) : (s.setStrand u t).trcSel = s.trcSel := rfl
@[simp] theorem setStrand_traces (s : State) (u : Nat) (t : Strand) : (s.setStrand u t).traces = s.traces := rfl
@[simp] theorem setStrand_traceDrop (s : State) (u : Nat) (t : Strand) : (s.setStrand u t).traceDrop = s.traceDrop := rfl
@[simp] theorem setStrand_pushback (s : State) (u : Nat) (t : Strand) : (s.setStrand u t).pushback = s.pushback := rfl
@[simp] theorem setStrand_traceTurn (s : State) (u : Nat) (t : Strand) : (s.setStrand u t).traceTurn = s.traceTurn := rfl
@[simp] theorem setStrand_free (s : State) (u : Nat) (t : Strand) : (s.setStrand u t).free = s.free := rfl
@[simp] theorem setStrand_tick (s : State) (u : Nat) (t : Strand) : (s.setStrand u t).tick = s.tick := rfl
@[simp] theorem setStrand_steps (s : State) (u : Nat) (t : Strand) : (s.setStrand u t).steps = s.steps := rfl
@[simp] theorem setStrand_agenda (s : State) (u : Nat) (t : Strand) : (s.setStrand u t).agenda = s.agenda := rfl
@[simp] theorem setStrand_core (s : State) (u : Nat) (t : Strand) (j : Nat) : (s.setStrand u t).core j = s.core j := rfl
@[simp] theorem setStrand_ctx (s : State) (u : Nat) (t : Strand) (j : Nat) : (s.setStrand u t).ctx j = s.ctx j := rfl
@[simp] theorem setStrand_kern (s : State) (u : Nat) (t : Strand) (j : Nat) : (s.setStrand u t).kern j = s.kern j := rfl
@[simp] theorem setStrand_part (s : State) (u : Nat) (t : Strand) (i j : Nat) : (s.setStrand u t).part i j = s.part i j := rfl
@[simp] theorem setCore_phase (s : State) (c : Nat) (k : CoreSt) : (s.setCore c k).phase = s.phase := rfl
@[simp] theorem setCore_failCode (s : State) (c : Nat) (k : CoreSt) : (s.setCore c k).failCode = s.failCode := rfl
@[simp] theorem setCore_cycle (s : State) (c : Nat) (k : CoreSt) : (s.setCore c k).cycle = s.cycle := rfl
@[simp] theorem setCore_cur (s : State) (c : Nat) (k : CoreSt) : (s.setCore c k).cur = s.cur := rfl
@[simp] theorem setCore_mem (s : State) (c : Nat) (k : CoreSt) : (s.setCore c k).mem = s.mem := rfl
@[simp] theorem setCore_poison (s : State) (c : Nat) (k : CoreSt) : (s.setCore c k).poison = s.poison := rfl
@[simp] theorem setCore_tags (s : State) (c : Nat) (k : CoreSt) : (s.setCore c k).tags = s.tags := rfl
@[simp] theorem setCore_ecc (s : State) (c : Nat) (k : CoreSt) : (s.setCore c k).ecc = s.ecc := rfl
@[simp] theorem setCore_eccLog (s : State) (c : Nat) (k : CoreSt) : (s.setCore c k).eccLog = s.eccLog := rfl
@[simp] theorem setCore_strands (s : State) (c : Nat) (k : CoreSt) : (s.setCore c k).strands = s.strands := rfl
@[simp] theorem setCore_nextUid (s : State) (c : Nat) (k : CoreSt) : (s.setCore c k).nextUid = s.nextUid := rfl
@[simp] theorem setCore_parts (s : State) (c : Nat) (k : CoreSt) : (s.setCore c k).parts = s.parts := rfl
@[simp] theorem setCore_ctxs (s : State) (c : Nat) (k : CoreSt) : (s.setCore c k).ctxs = s.ctxs := rfl
@[simp] theorem setCore_kernels (s : State) (c : Nat) (k : CoreSt) : (s.setCore c k).kernels = s.kernels := rfl
@[simp] theorem setCore_nextKern (s : State) (c : Nat) (k : CoreSt) : (s.setCore c k).nextKern = s.nextKern := rfl
@[simp] theorem setCore_tlb (s : State) (c : Nat) (k : CoreSt) : (s.setCore c k).tlb = s.tlb := rfl
@[simp] theorem setCore_counts (s : State) (c : Nat) (k : CoreSt) : (s.setCore c k).counts = s.counts := rfl
@[simp] theorem setCore_descs (s : State) (c : Nat) (k : CoreSt) : (s.setCore c k).descs = s.descs := rfl
@[simp] theorem setCore_hot (s : State) (c : Nat) (k : CoreSt) : (s.setCore c k).hot = s.hot := rfl
@[simp] theorem setCore_writes (s : State) (c : Nat) (k : CoreSt) : (s.setCore c k).writes = s.writes := rfl
@[simp] theorem setCore_pushes (s : State) (c : Nat) (k : CoreSt) : (s.setCore c k).pushes = s.pushes := rfl
@[simp] theorem setCore_credits (s : State) (c : Nat) (k : CoreSt) : (s.setCore c k).credits = s.credits := rfl
@[simp] theorem setCore_watches (s : State) (c : Nat) (k : CoreSt) : (s.setCore c k).watches = s.watches := rfl
@[simp] theorem setCore_noiseBad (s : State) (c : Nat) (k : CoreSt) : (s.setCore c k).noiseBad = s.noiseBad := rfl
@[simp] theorem setCore_noiseWait (s : State) (c : Nat) (k : CoreSt) : (s.setCore c k).noiseWait = s.noiseWait := rfl
@[simp] theorem setCore_folds (s : State) (c : Nat) (k : CoreSt) : (s.setCore c k).folds = s.folds := rfl
@[simp] theorem setCore_scrubs (s : State) (c : Nat) (k : CoreSt) : (s.setCore c k).scrubs = s.scrubs := rfl
@[simp] theorem setCore_copies (s : State) (c : Nat) (k : CoreSt) : (s.setCore c k).copies = s.copies := rfl
@[simp] theorem setCore_nextCopy (s : State) (c : Nat) (k : CoreSt) : (s.setCore c k).nextCopy = s.nextCopy := rfl
@[simp] theorem setCore_copyTurn (s : State) (c : Nat) (k : CoreSt) : (s.setCore c k).copyTurn = s.copyTurn := rfl
@[simp] theorem setCore_gathers (s : State) (c : Nat) (k : CoreSt) : (s.setCore c k).gathers = s.gathers := rfl
@[simp] theorem setCore_colls (s : State) (c : Nat) (k : CoreSt) : (s.setCore c k).colls = s.colls := rfl
@[simp] theorem setCore_nextColl (s : State) (c : Nat) (k : CoreSt) : (s.setCore c k).nextColl = s.nextColl := rfl
@[simp] theorem setCore_clavos (s : State) (c : Nat) (k : CoreSt) : (s.setCore c k).clavos = s.clavos := rfl
@[simp] theorem setCore_meshDump (s : State) (c : Nat) (k : CoreSt) : (s.setCore c k).meshDump = s.meshDump := rfl
@[simp] theorem setCore_unreach (s : State) (c : Nat) (k : CoreSt) : (s.setCore c k).unreach = s.unreach := rfl
@[simp] theorem setCore_dicts (s : State) (c : Nat) (k : CoreSt) : (s.setCore c k).dicts = s.dicts := rfl
@[simp] theorem setCore_guardLog (s : State) (c : Nat) (k : CoreSt) : (s.setCore c k).guardLog = s.guardLog := rfl
@[simp] theorem setCore_guardSel (s : State) (c : Nat) (k : CoreSt) : (s.setCore c k).guardSel = s.guardSel := rfl
@[simp] theorem setCore_cutOff (s : State) (c : Nat) (k : CoreSt) : (s.setCore c k).cutOff = s.cutOff := rfl
@[simp] theorem setCore_textCache (s : State) (c : Nat) (k : CoreSt) : (s.setCore c k).textCache = s.textCache := rfl
@[simp] theorem setCore_config (s : State) (c : Nat) (k : CoreSt) : (s.setCore c k).config = s.config := rfl
@[simp] theorem setCore_fwHash (s : State) (c : Nat) (k : CoreSt) : (s.setCore c k).fwHash = s.fwHash := rfl
@[simp] theorem setCore_populated (s : State) (c : Nat) (k : CoreSt) : (s.setCore c k).populated = s.populated := rfl
@[simp] theorem setCore_trcSel (s : State) (c : Nat) (k : CoreSt) : (s.setCore c k).trcSel = s.trcSel := rfl
@[simp] theorem setCore_traces (s : State) (c : Nat) (k : CoreSt) : (s.setCore c k).traces = s.traces := rfl
@[simp] theorem setCore_traceDrop (s : State) (c : Nat) (k : CoreSt) : (s.setCore c k).traceDrop = s.traceDrop := rfl
@[simp] theorem setCore_pushback (s : State) (c : Nat) (k : CoreSt) : (s.setCore c k).pushback = s.pushback := rfl
@[simp] theorem setCore_traceTurn (s : State) (c : Nat) (k : CoreSt) : (s.setCore c k).traceTurn = s.traceTurn := rfl
@[simp] theorem setCore_free (s : State) (c : Nat) (k : CoreSt) : (s.setCore c k).free = s.free := rfl
@[simp] theorem setCore_tick (s : State) (c : Nat) (k : CoreSt) : (s.setCore c k).tick = s.tick := rfl
@[simp] theorem setCore_steps (s : State) (c : Nat) (k : CoreSt) : (s.setCore c k).steps = s.steps := rfl
@[simp] theorem setCore_agenda (s : State) (c : Nat) (k : CoreSt) : (s.setCore c k).agenda = s.agenda := rfl
@[simp] theorem setCore_strand (s : State) (c : Nat) (k : CoreSt) (j : Nat) : (s.setCore c k).strand j = s.strand j := rfl
@[simp] theorem setCore_ctx (s : State) (c : Nat) (k : CoreSt) (j : Nat) : (s.setCore c k).ctx j = s.ctx j := rfl
@[simp] theorem setCore_kern (s : State) (c : Nat) (k : CoreSt) (j : Nat) : (s.setCore c k).kern j = s.kern j := rfl
@[simp] theorem setCore_part (s : State) (c : Nat) (k : CoreSt) (i j : Nat) : (s.setCore c k).part i j = s.part i j := rfl
@[simp] theorem setPart_phase (s : State) (core ctx : Nat) (p : Part) : (s.setPart core ctx p).phase = s.phase := rfl
@[simp] theorem setPart_failCode (s : State) (core ctx : Nat) (p : Part) : (s.setPart core ctx p).failCode = s.failCode := rfl
@[simp] theorem setPart_cycle (s : State) (core ctx : Nat) (p : Part) : (s.setPart core ctx p).cycle = s.cycle := rfl
@[simp] theorem setPart_cur (s : State) (core ctx : Nat) (p : Part) : (s.setPart core ctx p).cur = s.cur := rfl
@[simp] theorem setPart_mem (s : State) (core ctx : Nat) (p : Part) : (s.setPart core ctx p).mem = s.mem := rfl
@[simp] theorem setPart_poison (s : State) (core ctx : Nat) (p : Part) : (s.setPart core ctx p).poison = s.poison := rfl
@[simp] theorem setPart_tags (s : State) (core ctx : Nat) (p : Part) : (s.setPart core ctx p).tags = s.tags := rfl
@[simp] theorem setPart_ecc (s : State) (core ctx : Nat) (p : Part) : (s.setPart core ctx p).ecc = s.ecc := rfl
@[simp] theorem setPart_eccLog (s : State) (core ctx : Nat) (p : Part) : (s.setPart core ctx p).eccLog = s.eccLog := rfl
@[simp] theorem setPart_strands (s : State) (core ctx : Nat) (p : Part) : (s.setPart core ctx p).strands = s.strands := rfl
@[simp] theorem setPart_nextUid (s : State) (core ctx : Nat) (p : Part) : (s.setPart core ctx p).nextUid = s.nextUid := rfl
@[simp] theorem setPart_cores (s : State) (core ctx : Nat) (p : Part) : (s.setPart core ctx p).cores = s.cores := rfl
@[simp] theorem setPart_ctxs (s : State) (core ctx : Nat) (p : Part) : (s.setPart core ctx p).ctxs = s.ctxs := rfl
@[simp] theorem setPart_kernels (s : State) (core ctx : Nat) (p : Part) : (s.setPart core ctx p).kernels = s.kernels := rfl
@[simp] theorem setPart_nextKern (s : State) (core ctx : Nat) (p : Part) : (s.setPart core ctx p).nextKern = s.nextKern := rfl
@[simp] theorem setPart_tlb (s : State) (core ctx : Nat) (p : Part) : (s.setPart core ctx p).tlb = s.tlb := rfl
@[simp] theorem setPart_counts (s : State) (core ctx : Nat) (p : Part) : (s.setPart core ctx p).counts = s.counts := rfl
@[simp] theorem setPart_descs (s : State) (core ctx : Nat) (p : Part) : (s.setPart core ctx p).descs = s.descs := rfl
@[simp] theorem setPart_hot (s : State) (core ctx : Nat) (p : Part) : (s.setPart core ctx p).hot = s.hot := rfl
@[simp] theorem setPart_writes (s : State) (core ctx : Nat) (p : Part) : (s.setPart core ctx p).writes = s.writes := rfl
@[simp] theorem setPart_pushes (s : State) (core ctx : Nat) (p : Part) : (s.setPart core ctx p).pushes = s.pushes := rfl
@[simp] theorem setPart_credits (s : State) (core ctx : Nat) (p : Part) : (s.setPart core ctx p).credits = s.credits := rfl
@[simp] theorem setPart_watches (s : State) (core ctx : Nat) (p : Part) : (s.setPart core ctx p).watches = s.watches := rfl
@[simp] theorem setPart_noiseBad (s : State) (core ctx : Nat) (p : Part) : (s.setPart core ctx p).noiseBad = s.noiseBad := rfl
@[simp] theorem setPart_noiseWait (s : State) (core ctx : Nat) (p : Part) : (s.setPart core ctx p).noiseWait = s.noiseWait := rfl
@[simp] theorem setPart_folds (s : State) (core ctx : Nat) (p : Part) : (s.setPart core ctx p).folds = s.folds := rfl
@[simp] theorem setPart_scrubs (s : State) (core ctx : Nat) (p : Part) : (s.setPart core ctx p).scrubs = s.scrubs := rfl
@[simp] theorem setPart_copies (s : State) (core ctx : Nat) (p : Part) : (s.setPart core ctx p).copies = s.copies := rfl
@[simp] theorem setPart_nextCopy (s : State) (core ctx : Nat) (p : Part) : (s.setPart core ctx p).nextCopy = s.nextCopy := rfl
@[simp] theorem setPart_copyTurn (s : State) (core ctx : Nat) (p : Part) : (s.setPart core ctx p).copyTurn = s.copyTurn := rfl
@[simp] theorem setPart_gathers (s : State) (core ctx : Nat) (p : Part) : (s.setPart core ctx p).gathers = s.gathers := rfl
@[simp] theorem setPart_colls (s : State) (core ctx : Nat) (p : Part) : (s.setPart core ctx p).colls = s.colls := rfl
@[simp] theorem setPart_nextColl (s : State) (core ctx : Nat) (p : Part) : (s.setPart core ctx p).nextColl = s.nextColl := rfl
@[simp] theorem setPart_clavos (s : State) (core ctx : Nat) (p : Part) : (s.setPart core ctx p).clavos = s.clavos := rfl
@[simp] theorem setPart_meshDump (s : State) (core ctx : Nat) (p : Part) : (s.setPart core ctx p).meshDump = s.meshDump := rfl
@[simp] theorem setPart_unreach (s : State) (core ctx : Nat) (p : Part) : (s.setPart core ctx p).unreach = s.unreach := rfl
@[simp] theorem setPart_dicts (s : State) (core ctx : Nat) (p : Part) : (s.setPart core ctx p).dicts = s.dicts := rfl
@[simp] theorem setPart_guardLog (s : State) (core ctx : Nat) (p : Part) : (s.setPart core ctx p).guardLog = s.guardLog := rfl
@[simp] theorem setPart_guardSel (s : State) (core ctx : Nat) (p : Part) : (s.setPart core ctx p).guardSel = s.guardSel := rfl
@[simp] theorem setPart_cutOff (s : State) (core ctx : Nat) (p : Part) : (s.setPart core ctx p).cutOff = s.cutOff := rfl
@[simp] theorem setPart_textCache (s : State) (core ctx : Nat) (p : Part) : (s.setPart core ctx p).textCache = s.textCache := rfl
@[simp] theorem setPart_config (s : State) (core ctx : Nat) (p : Part) : (s.setPart core ctx p).config = s.config := rfl
@[simp] theorem setPart_fwHash (s : State) (core ctx : Nat) (p : Part) : (s.setPart core ctx p).fwHash = s.fwHash := rfl
@[simp] theorem setPart_populated (s : State) (core ctx : Nat) (p : Part) : (s.setPart core ctx p).populated = s.populated := rfl
@[simp] theorem setPart_trcSel (s : State) (core ctx : Nat) (p : Part) : (s.setPart core ctx p).trcSel = s.trcSel := rfl
@[simp] theorem setPart_traces (s : State) (core ctx : Nat) (p : Part) : (s.setPart core ctx p).traces = s.traces := rfl
@[simp] theorem setPart_traceDrop (s : State) (core ctx : Nat) (p : Part) : (s.setPart core ctx p).traceDrop = s.traceDrop := rfl
@[simp] theorem setPart_pushback (s : State) (core ctx : Nat) (p : Part) : (s.setPart core ctx p).pushback = s.pushback := rfl
@[simp] theorem setPart_traceTurn (s : State) (core ctx : Nat) (p : Part) : (s.setPart core ctx p).traceTurn = s.traceTurn := rfl
@[simp] theorem setPart_free (s : State) (core ctx : Nat) (p : Part) : (s.setPart core ctx p).free = s.free := rfl
@[simp] theorem setPart_tick (s : State) (core ctx : Nat) (p : Part) : (s.setPart core ctx p).tick = s.tick := rfl
@[simp] theorem setPart_steps (s : State) (core ctx : Nat) (p : Part) : (s.setPart core ctx p).steps = s.steps := rfl
@[simp] theorem setPart_agenda (s : State) (core ctx : Nat) (p : Part) : (s.setPart core ctx p).agenda = s.agenda := rfl
@[simp] theorem setPart_strand (s : State) (core ctx : Nat) (p : Part) (j : Nat) : (s.setPart core ctx p).strand j = s.strand j := rfl
@[simp] theorem setPart_core (s : State) (core ctx : Nat) (p : Part) (j : Nat) : (s.setPart core ctx p).core j = s.core j := rfl
@[simp] theorem setPart_ctx (s : State) (core ctx : Nat) (p : Part) (j : Nat) : (s.setPart core ctx p).ctx j = s.ctx j := rfl
@[simp] theorem setPart_kern (s : State) (core ctx : Nat) (p : Part) (j : Nat) : (s.setPart core ctx p).kern j = s.kern j := rfl
@[simp] theorem setCtx_phase (s : State) (c : Nat) (x : Ctx) : (s.setCtx c x).phase = s.phase := rfl
@[simp] theorem setCtx_failCode (s : State) (c : Nat) (x : Ctx) : (s.setCtx c x).failCode = s.failCode := rfl
@[simp] theorem setCtx_cycle (s : State) (c : Nat) (x : Ctx) : (s.setCtx c x).cycle = s.cycle := rfl
@[simp] theorem setCtx_cur (s : State) (c : Nat) (x : Ctx) : (s.setCtx c x).cur = s.cur := rfl
@[simp] theorem setCtx_mem (s : State) (c : Nat) (x : Ctx) : (s.setCtx c x).mem = s.mem := rfl
@[simp] theorem setCtx_poison (s : State) (c : Nat) (x : Ctx) : (s.setCtx c x).poison = s.poison := rfl
@[simp] theorem setCtx_tags (s : State) (c : Nat) (x : Ctx) : (s.setCtx c x).tags = s.tags := rfl
@[simp] theorem setCtx_ecc (s : State) (c : Nat) (x : Ctx) : (s.setCtx c x).ecc = s.ecc := rfl
@[simp] theorem setCtx_eccLog (s : State) (c : Nat) (x : Ctx) : (s.setCtx c x).eccLog = s.eccLog := rfl
@[simp] theorem setCtx_strands (s : State) (c : Nat) (x : Ctx) : (s.setCtx c x).strands = s.strands := rfl
@[simp] theorem setCtx_nextUid (s : State) (c : Nat) (x : Ctx) : (s.setCtx c x).nextUid = s.nextUid := rfl
@[simp] theorem setCtx_cores (s : State) (c : Nat) (x : Ctx) : (s.setCtx c x).cores = s.cores := rfl
@[simp] theorem setCtx_parts (s : State) (c : Nat) (x : Ctx) : (s.setCtx c x).parts = s.parts := rfl
@[simp] theorem setCtx_kernels (s : State) (c : Nat) (x : Ctx) : (s.setCtx c x).kernels = s.kernels := rfl
@[simp] theorem setCtx_nextKern (s : State) (c : Nat) (x : Ctx) : (s.setCtx c x).nextKern = s.nextKern := rfl
@[simp] theorem setCtx_tlb (s : State) (c : Nat) (x : Ctx) : (s.setCtx c x).tlb = s.tlb := rfl
@[simp] theorem setCtx_counts (s : State) (c : Nat) (x : Ctx) : (s.setCtx c x).counts = s.counts := rfl
@[simp] theorem setCtx_descs (s : State) (c : Nat) (x : Ctx) : (s.setCtx c x).descs = s.descs := rfl
@[simp] theorem setCtx_hot (s : State) (c : Nat) (x : Ctx) : (s.setCtx c x).hot = s.hot := rfl
@[simp] theorem setCtx_writes (s : State) (c : Nat) (x : Ctx) : (s.setCtx c x).writes = s.writes := rfl
@[simp] theorem setCtx_pushes (s : State) (c : Nat) (x : Ctx) : (s.setCtx c x).pushes = s.pushes := rfl
@[simp] theorem setCtx_credits (s : State) (c : Nat) (x : Ctx) : (s.setCtx c x).credits = s.credits := rfl
@[simp] theorem setCtx_watches (s : State) (c : Nat) (x : Ctx) : (s.setCtx c x).watches = s.watches := rfl
@[simp] theorem setCtx_noiseBad (s : State) (c : Nat) (x : Ctx) : (s.setCtx c x).noiseBad = s.noiseBad := rfl
@[simp] theorem setCtx_noiseWait (s : State) (c : Nat) (x : Ctx) : (s.setCtx c x).noiseWait = s.noiseWait := rfl
@[simp] theorem setCtx_folds (s : State) (c : Nat) (x : Ctx) : (s.setCtx c x).folds = s.folds := rfl
@[simp] theorem setCtx_scrubs (s : State) (c : Nat) (x : Ctx) : (s.setCtx c x).scrubs = s.scrubs := rfl
@[simp] theorem setCtx_copies (s : State) (c : Nat) (x : Ctx) : (s.setCtx c x).copies = s.copies := rfl
@[simp] theorem setCtx_nextCopy (s : State) (c : Nat) (x : Ctx) : (s.setCtx c x).nextCopy = s.nextCopy := rfl
@[simp] theorem setCtx_copyTurn (s : State) (c : Nat) (x : Ctx) : (s.setCtx c x).copyTurn = s.copyTurn := rfl
@[simp] theorem setCtx_gathers (s : State) (c : Nat) (x : Ctx) : (s.setCtx c x).gathers = s.gathers := rfl
@[simp] theorem setCtx_colls (s : State) (c : Nat) (x : Ctx) : (s.setCtx c x).colls = s.colls := rfl
@[simp] theorem setCtx_nextColl (s : State) (c : Nat) (x : Ctx) : (s.setCtx c x).nextColl = s.nextColl := rfl
@[simp] theorem setCtx_clavos (s : State) (c : Nat) (x : Ctx) : (s.setCtx c x).clavos = s.clavos := rfl
@[simp] theorem setCtx_meshDump (s : State) (c : Nat) (x : Ctx) : (s.setCtx c x).meshDump = s.meshDump := rfl
@[simp] theorem setCtx_unreach (s : State) (c : Nat) (x : Ctx) : (s.setCtx c x).unreach = s.unreach := rfl
@[simp] theorem setCtx_dicts (s : State) (c : Nat) (x : Ctx) : (s.setCtx c x).dicts = s.dicts := rfl
@[simp] theorem setCtx_guardLog (s : State) (c : Nat) (x : Ctx) : (s.setCtx c x).guardLog = s.guardLog := rfl
@[simp] theorem setCtx_guardSel (s : State) (c : Nat) (x : Ctx) : (s.setCtx c x).guardSel = s.guardSel := rfl
@[simp] theorem setCtx_cutOff (s : State) (c : Nat) (x : Ctx) : (s.setCtx c x).cutOff = s.cutOff := rfl
@[simp] theorem setCtx_textCache (s : State) (c : Nat) (x : Ctx) : (s.setCtx c x).textCache = s.textCache := rfl
@[simp] theorem setCtx_config (s : State) (c : Nat) (x : Ctx) : (s.setCtx c x).config = s.config := rfl
@[simp] theorem setCtx_fwHash (s : State) (c : Nat) (x : Ctx) : (s.setCtx c x).fwHash = s.fwHash := rfl
@[simp] theorem setCtx_populated (s : State) (c : Nat) (x : Ctx) : (s.setCtx c x).populated = s.populated := rfl
@[simp] theorem setCtx_trcSel (s : State) (c : Nat) (x : Ctx) : (s.setCtx c x).trcSel = s.trcSel := rfl
@[simp] theorem setCtx_traces (s : State) (c : Nat) (x : Ctx) : (s.setCtx c x).traces = s.traces := rfl
@[simp] theorem setCtx_traceDrop (s : State) (c : Nat) (x : Ctx) : (s.setCtx c x).traceDrop = s.traceDrop := rfl
@[simp] theorem setCtx_pushback (s : State) (c : Nat) (x : Ctx) : (s.setCtx c x).pushback = s.pushback := rfl
@[simp] theorem setCtx_traceTurn (s : State) (c : Nat) (x : Ctx) : (s.setCtx c x).traceTurn = s.traceTurn := rfl
@[simp] theorem setCtx_free (s : State) (c : Nat) (x : Ctx) : (s.setCtx c x).free = s.free := rfl
@[simp] theorem setCtx_tick (s : State) (c : Nat) (x : Ctx) : (s.setCtx c x).tick = s.tick := rfl
@[simp] theorem setCtx_steps (s : State) (c : Nat) (x : Ctx) : (s.setCtx c x).steps = s.steps := rfl
@[simp] theorem setCtx_agenda (s : State) (c : Nat) (x : Ctx) : (s.setCtx c x).agenda = s.agenda := rfl
@[simp] theorem setCtx_strand (s : State) (c : Nat) (x : Ctx) (j : Nat) : (s.setCtx c x).strand j = s.strand j := rfl
@[simp] theorem setCtx_core (s : State) (c : Nat) (x : Ctx) (j : Nat) : (s.setCtx c x).core j = s.core j := rfl
@[simp] theorem setCtx_kern (s : State) (c : Nat) (x : Ctx) (j : Nat) : (s.setCtx c x).kern j = s.kern j := rfl
@[simp] theorem setCtx_part (s : State) (c : Nat) (x : Ctx) (i j : Nat) : (s.setCtx c x).part i j = s.part i j := rfl
@[simp] theorem setKern_phase (s : State) (k : Nat) (x : Kernel) : (s.setKern k x).phase = s.phase := rfl
@[simp] theorem setKern_failCode (s : State) (k : Nat) (x : Kernel) : (s.setKern k x).failCode = s.failCode := rfl
@[simp] theorem setKern_cycle (s : State) (k : Nat) (x : Kernel) : (s.setKern k x).cycle = s.cycle := rfl
@[simp] theorem setKern_cur (s : State) (k : Nat) (x : Kernel) : (s.setKern k x).cur = s.cur := rfl
@[simp] theorem setKern_mem (s : State) (k : Nat) (x : Kernel) : (s.setKern k x).mem = s.mem := rfl
@[simp] theorem setKern_poison (s : State) (k : Nat) (x : Kernel) : (s.setKern k x).poison = s.poison := rfl
@[simp] theorem setKern_tags (s : State) (k : Nat) (x : Kernel) : (s.setKern k x).tags = s.tags := rfl
@[simp] theorem setKern_ecc (s : State) (k : Nat) (x : Kernel) : (s.setKern k x).ecc = s.ecc := rfl
@[simp] theorem setKern_eccLog (s : State) (k : Nat) (x : Kernel) : (s.setKern k x).eccLog = s.eccLog := rfl
@[simp] theorem setKern_strands (s : State) (k : Nat) (x : Kernel) : (s.setKern k x).strands = s.strands := rfl
@[simp] theorem setKern_nextUid (s : State) (k : Nat) (x : Kernel) : (s.setKern k x).nextUid = s.nextUid := rfl
@[simp] theorem setKern_cores (s : State) (k : Nat) (x : Kernel) : (s.setKern k x).cores = s.cores := rfl
@[simp] theorem setKern_parts (s : State) (k : Nat) (x : Kernel) : (s.setKern k x).parts = s.parts := rfl
@[simp] theorem setKern_ctxs (s : State) (k : Nat) (x : Kernel) : (s.setKern k x).ctxs = s.ctxs := rfl
@[simp] theorem setKern_nextKern (s : State) (k : Nat) (x : Kernel) : (s.setKern k x).nextKern = s.nextKern := rfl
@[simp] theorem setKern_tlb (s : State) (k : Nat) (x : Kernel) : (s.setKern k x).tlb = s.tlb := rfl
@[simp] theorem setKern_counts (s : State) (k : Nat) (x : Kernel) : (s.setKern k x).counts = s.counts := rfl
@[simp] theorem setKern_descs (s : State) (k : Nat) (x : Kernel) : (s.setKern k x).descs = s.descs := rfl
@[simp] theorem setKern_hot (s : State) (k : Nat) (x : Kernel) : (s.setKern k x).hot = s.hot := rfl
@[simp] theorem setKern_writes (s : State) (k : Nat) (x : Kernel) : (s.setKern k x).writes = s.writes := rfl
@[simp] theorem setKern_pushes (s : State) (k : Nat) (x : Kernel) : (s.setKern k x).pushes = s.pushes := rfl
@[simp] theorem setKern_credits (s : State) (k : Nat) (x : Kernel) : (s.setKern k x).credits = s.credits := rfl
@[simp] theorem setKern_watches (s : State) (k : Nat) (x : Kernel) : (s.setKern k x).watches = s.watches := rfl
@[simp] theorem setKern_noiseBad (s : State) (k : Nat) (x : Kernel) : (s.setKern k x).noiseBad = s.noiseBad := rfl
@[simp] theorem setKern_noiseWait (s : State) (k : Nat) (x : Kernel) : (s.setKern k x).noiseWait = s.noiseWait := rfl
@[simp] theorem setKern_folds (s : State) (k : Nat) (x : Kernel) : (s.setKern k x).folds = s.folds := rfl
@[simp] theorem setKern_scrubs (s : State) (k : Nat) (x : Kernel) : (s.setKern k x).scrubs = s.scrubs := rfl
@[simp] theorem setKern_copies (s : State) (k : Nat) (x : Kernel) : (s.setKern k x).copies = s.copies := rfl
@[simp] theorem setKern_nextCopy (s : State) (k : Nat) (x : Kernel) : (s.setKern k x).nextCopy = s.nextCopy := rfl
@[simp] theorem setKern_copyTurn (s : State) (k : Nat) (x : Kernel) : (s.setKern k x).copyTurn = s.copyTurn := rfl
@[simp] theorem setKern_gathers (s : State) (k : Nat) (x : Kernel) : (s.setKern k x).gathers = s.gathers := rfl
@[simp] theorem setKern_colls (s : State) (k : Nat) (x : Kernel) : (s.setKern k x).colls = s.colls := rfl
@[simp] theorem setKern_nextColl (s : State) (k : Nat) (x : Kernel) : (s.setKern k x).nextColl = s.nextColl := rfl
@[simp] theorem setKern_clavos (s : State) (k : Nat) (x : Kernel) : (s.setKern k x).clavos = s.clavos := rfl
@[simp] theorem setKern_meshDump (s : State) (k : Nat) (x : Kernel) : (s.setKern k x).meshDump = s.meshDump := rfl
@[simp] theorem setKern_unreach (s : State) (k : Nat) (x : Kernel) : (s.setKern k x).unreach = s.unreach := rfl
@[simp] theorem setKern_dicts (s : State) (k : Nat) (x : Kernel) : (s.setKern k x).dicts = s.dicts := rfl
@[simp] theorem setKern_guardLog (s : State) (k : Nat) (x : Kernel) : (s.setKern k x).guardLog = s.guardLog := rfl
@[simp] theorem setKern_guardSel (s : State) (k : Nat) (x : Kernel) : (s.setKern k x).guardSel = s.guardSel := rfl
@[simp] theorem setKern_cutOff (s : State) (k : Nat) (x : Kernel) : (s.setKern k x).cutOff = s.cutOff := rfl
@[simp] theorem setKern_textCache (s : State) (k : Nat) (x : Kernel) : (s.setKern k x).textCache = s.textCache := rfl
@[simp] theorem setKern_config (s : State) (k : Nat) (x : Kernel) : (s.setKern k x).config = s.config := rfl
@[simp] theorem setKern_fwHash (s : State) (k : Nat) (x : Kernel) : (s.setKern k x).fwHash = s.fwHash := rfl
@[simp] theorem setKern_populated (s : State) (k : Nat) (x : Kernel) : (s.setKern k x).populated = s.populated := rfl
@[simp] theorem setKern_trcSel (s : State) (k : Nat) (x : Kernel) : (s.setKern k x).trcSel = s.trcSel := rfl
@[simp] theorem setKern_traces (s : State) (k : Nat) (x : Kernel) : (s.setKern k x).traces = s.traces := rfl
@[simp] theorem setKern_traceDrop (s : State) (k : Nat) (x : Kernel) : (s.setKern k x).traceDrop = s.traceDrop := rfl
@[simp] theorem setKern_pushback (s : State) (k : Nat) (x : Kernel) : (s.setKern k x).pushback = s.pushback := rfl
@[simp] theorem setKern_traceTurn (s : State) (k : Nat) (x : Kernel) : (s.setKern k x).traceTurn = s.traceTurn := rfl
@[simp] theorem setKern_free (s : State) (k : Nat) (x : Kernel) : (s.setKern k x).free = s.free := rfl
@[simp] theorem setKern_tick (s : State) (k : Nat) (x : Kernel) : (s.setKern k x).tick = s.tick := rfl
@[simp] theorem setKern_steps (s : State) (k : Nat) (x : Kernel) : (s.setKern k x).steps = s.steps := rfl
@[simp] theorem setKern_agenda (s : State) (k : Nat) (x : Kernel) : (s.setKern k x).agenda = s.agenda := rfl
@[simp] theorem setKern_strand (s : State) (k : Nat) (x : Kernel) (j : Nat) : (s.setKern k x).strand j = s.strand j := rfl
@[simp] theorem setKern_core (s : State) (k : Nat) (x : Kernel) (j : Nat) : (s.setKern k x).core j = s.core j := rfl
@[simp] theorem setKern_ctx (s : State) (k : Nat) (x : Kernel) (j : Nat) : (s.setKern k x).ctx j = s.ctx j := rfl
@[simp] theorem setKern_part (s : State) (k : Nat) (x : Kernel) (i j : Nat) : (s.setKern k x).part i j = s.part i j := rfl

@[simp] theorem setStrand_strand_same (s : State) (u : Nat) (t : Strand) : (s.setStrand u t).strand u = t :=
  tget_tput_same _ _ _ _
theorem setStrand_strand_ne (s : State) {u v : Nat} (t : Strand) (h : v ≠ u) : (s.setStrand u t).strand v = s.strand v :=
  tget_tput_ne _ _ _ h
@[simp] theorem setStrand_setStrand (s : State) (u : Nat) (t t' : Strand) : (s.setStrand u t).setStrand u t' = s.setStrand u t' := by
  simp [State.setStrand]
@[simp] theorem setCore_core_same (s : State) (c : Nat) (k : CoreSt) : (s.setCore c k).core c = k := tget_tput_same _ _ _ _
@[simp] theorem setCtx_ctx_same (s : State) (c : Nat) (x : Ctx) : (s.setCtx c x).ctx c = x := tget_tput_same _ _ _ _
@[simp] theorem setKern_kern_same (s : State) (k : Nat) (x : Kernel) : (s.setKern k x).kern k = x := tget_tput_same _ _ _ _
theorem setCore_core_ne (s : State) {c d : Nat} (k : CoreSt) (h : d ≠ c) : (s.setCore c k).core d = s.core d :=
  tget_tput_ne _ _ _ h
theorem setCtx_ctx_ne (s : State) {c d : Nat} (x : Ctx) (h : d ≠ c) : (s.setCtx c x).ctx d = s.ctx d := tget_tput_ne _ _ _ h
theorem setKern_kern_ne (s : State) {c d : Nat} (x : Kernel) (h : d ≠ c) : (s.setKern c x).kern d = s.kern d :=
  tget_tput_ne _ _ _ h

@[simp] theorem addFlags_ctx (t : Strand) (n : Nat) : (t.addFlags n).ctx = t.ctx := rfl
@[simp] theorem addFlags_kern (t : Strand) (n : Nat) : (t.addFlags n).kern = t.kern := rfl
@[simp] theorem addFlags_grp (t : Strand) (n : Nat) : (t.addFlags n).grp = t.grp := rfl
@[simp] theorem addFlags_index (t : Strand) (n : Nat) : (t.addFlags n).index = t.index := rfl
@[simp] theorem addFlags_lcore (t : Strand) (n : Nat) : (t.addFlags n).lcore = t.lcore := rfl
@[simp] theorem addFlags_lslot (t : Strand) (n : Nat) : (t.addFlags n).lslot = t.lslot := rfl
@[simp] theorem addFlags_pcore (t : Strand) (n : Nat) : (t.addFlags n).pcore = t.pcore := rfl
@[simp] theorem addFlags_pslot (t : Strand) (n : Nat) : (t.addFlags n).pslot = t.pslot := rfl
@[simp] theorem addFlags_st (t : Strand) (n : Nat) : (t.addFlags n).st = t.st := rfl
@[simp] theorem addFlags_sup (t : Strand) (n : Nat) : (t.addFlags n).sup = t.sup := rfl
@[simp] theorem addFlags_pc (t : Strand) (n : Nat) : (t.addFlags n).pc = t.pc := rfl
@[simp] theorem addFlags_sregs (t : Strand) (n : Nat) : (t.addFlags n).sregs = t.sregs := rfl
@[simp] theorem addFlags_phys (t : Strand) (n : Nat) : (t.addFlags n).phys = t.phys := rfl
@[simp] theorem addFlags_cwp (t : Strand) (n : Nat) : (t.addFlags n).cwp = t.cwp := rfl
@[simp] theorem addFlags_wres (t : Strand) (n : Nat) : (t.addFlags n).wres = t.wres := rfl
@[simp] theorem addFlags_pword (t : Strand) (n : Nat) : (t.addFlags n).pword = t.pword := rfl
@[simp] theorem addFlags_wsp (t : Strand) (n : Nat) : (t.addFlags n).wsp = t.wsp := rfl
@[simp] theorem addFlags_dseed (t : Strand) (n : Nat) : (t.addFlags n).dseed = t.dseed := rfl
@[simp] theorem addFlags_pend (t : Strand) (n : Nat) : (t.addFlags n).pend = t.pend := rfl
@[simp] theorem addFlags_ops (t : Strand) (n : Nat) : (t.addFlags n).ops = t.ops := rfl
@[simp] theorem addFlags_nextOp (t : Strand) (n : Nat) : (t.addFlags n).nextOp = t.nextOp := rfl
@[simp] theorem addFlags_close (t : Strand) (n : Nat) : (t.addFlags n).close = t.close := rfl
@[simp] theorem addFlags_ending (t : Strand) (n : Nat) : (t.addFlags n).ending = t.ending := rfl
@[simp] theorem addFlags_yielded (t : Strand) (n : Nat) : (t.addFlags n).yielded = t.yielded := rfl
@[simp] theorem addFlags_rep (t : Strand) (n : Nat) : (t.addFlags n).rep = t.rep := rfl
@[simp] theorem addFlags_mblost (t : Strand) (n : Nat) : (t.addFlags n).mblost = t.mblost := rfl
@[simp] theorem addFlags_engaged (t : Strand) (n : Nat) : (t.addFlags n).engaged = t.engaged := rfl
@[simp] theorem addFlags_outside (t : Strand) (n : Nat) : (t.addFlags n).outside = t.outside := rfl
@[simp] theorem addFlags_ptrs (t : Strand) (n : Nat) : (t.addFlags n).ptrs = t.ptrs := rfl
@[simp] theorem addFlags_mboxes (t : Strand) (n : Nat) : (t.addFlags n).mboxes = t.mboxes := rfl
@[simp] theorem addFlags_claims (t : Strand) (n : Nat) : (t.addFlags n).claims = t.claims := rfl
@[simp] theorem addFlags_vq (t : Strand) (n : Nat) : (t.addFlags n).vq = t.vq := rfl
@[simp] theorem addFlags_vout (t : Strand) (n : Nat) : (t.addFlags n).vout = t.vout := rfl
@[simp] theorem addFlags_plats (t : Strand) (n : Nat) : (t.addFlags n).plats = t.plats := rfl
@[simp] theorem addFlags_handles (t : Strand) (n : Nat) : (t.addFlags n).handles = t.handles := rfl
@[simp] theorem addFlags_glines (t : Strand) (n : Nat) : (t.addFlags n).glines = t.glines := rfl
@[simp] theorem addFlags_clines (t : Strand) (n : Nat) : (t.addFlags n).clines = t.clines := rfl
@[simp] theorem addFlags_ports (t : Strand) (n : Nat) : (t.addFlags n).ports = t.ports := rfl
@[simp] theorem addFlags_portWait (t : Strand) (n : Nat) : (t.addFlags n).portWait = t.portWait := rfl
@[simp] theorem addFlags_slice (t : Strand) (n : Nat) : (t.addFlags n).slice = t.slice := rfl
@[simp] theorem addFlags_cprogb (t : Strand) (n : Nat) : (t.addFlags n).cprogb = t.cprogb := rfl
@[simp] theorem addFlags_cprogm (t : Strand) (n : Nat) : (t.addFlags n).cprogm = t.cprogm := rfl
@[simp] theorem addFlags_trap (t : Strand) (n : Nat) : (t.addFlags n).trap = t.trap := rfl
@[simp] theorem addFlags_noBreak (t : Strand) (n : Nat) : (t.addFlags n).noBreak = t.noBreak := rfl
@[simp] theorem addFlags_noWatch (t : Strand) (n : Nat) : (t.addFlags n).noWatch = t.noWatch := rfl
@[simp] theorem addFlags_noiseSeq (t : Strand) (n : Nat) : (t.addFlags n).noiseSeq = t.noiseSeq := rfl
@[simp] theorem addFlags_passedEnd (t : Strand) (n : Nat) : (t.addFlags n).passedEnd = t.passedEnd := rfl
@[simp] theorem addFlags_stopWaits (t : Strand) (n : Nat) : (t.addFlags n).stopWaits = t.stopWaits := rfl
@[simp] theorem addFlags_stopDbg (t : Strand) (n : Nat) : (t.addFlags n).stopDbg = t.stopDbg := rfl
@[simp] theorem addFlags_displacing (t : Strand) (n : Nat) : (t.addFlags n).displacing = t.displacing := rfl
@[simp] theorem addFlags_rerunWaits (t : Strand) (n : Nat) : (t.addFlags n).rerunWaits = t.rerunWaits := rfl
@[simp] theorem addFlags_turn (t : Strand) (n : Nat) : (t.addFlags n).turn = t.turn := rfl
@[simp] theorem setPred_ctx (t : Strand) (p : Pr) (b : Bool) : (t.setPred p b).ctx = t.ctx := by
  unfold Strand.setPred; split <;> rfl
@[simp] theorem setPred_kern (t : Strand) (p : Pr) (b : Bool) : (t.setPred p b).kern = t.kern := by
  unfold Strand.setPred; split <;> rfl
@[simp] theorem setPred_grp (t : Strand) (p : Pr) (b : Bool) : (t.setPred p b).grp = t.grp := by
  unfold Strand.setPred; split <;> rfl
@[simp] theorem setPred_index (t : Strand) (p : Pr) (b : Bool) : (t.setPred p b).index = t.index := by
  unfold Strand.setPred; split <;> rfl
@[simp] theorem setPred_lcore (t : Strand) (p : Pr) (b : Bool) : (t.setPred p b).lcore = t.lcore := by
  unfold Strand.setPred; split <;> rfl
@[simp] theorem setPred_lslot (t : Strand) (p : Pr) (b : Bool) : (t.setPred p b).lslot = t.lslot := by
  unfold Strand.setPred; split <;> rfl
@[simp] theorem setPred_pcore (t : Strand) (p : Pr) (b : Bool) : (t.setPred p b).pcore = t.pcore := by
  unfold Strand.setPred; split <;> rfl
@[simp] theorem setPred_pslot (t : Strand) (p : Pr) (b : Bool) : (t.setPred p b).pslot = t.pslot := by
  unfold Strand.setPred; split <;> rfl
@[simp] theorem setPred_st (t : Strand) (p : Pr) (b : Bool) : (t.setPred p b).st = t.st := by
  unfold Strand.setPred; split <;> rfl
@[simp] theorem setPred_sup (t : Strand) (p : Pr) (b : Bool) : (t.setPred p b).sup = t.sup := by
  unfold Strand.setPred; split <;> rfl
@[simp] theorem setPred_pc (t : Strand) (p : Pr) (b : Bool) : (t.setPred p b).pc = t.pc := by
  unfold Strand.setPred; split <;> rfl
@[simp] theorem setPred_sregs (t : Strand) (p : Pr) (b : Bool) : (t.setPred p b).sregs = t.sregs := by
  unfold Strand.setPred; split <;> rfl
@[simp] theorem setPred_phys (t : Strand) (p : Pr) (b : Bool) : (t.setPred p b).phys = t.phys := by
  unfold Strand.setPred; split <;> rfl
@[simp] theorem setPred_cwp (t : Strand) (p : Pr) (b : Bool) : (t.setPred p b).cwp = t.cwp := by
  unfold Strand.setPred; split <;> rfl
@[simp] theorem setPred_wres (t : Strand) (p : Pr) (b : Bool) : (t.setPred p b).wres = t.wres := by
  unfold Strand.setPred; split <;> rfl
@[simp] theorem setPred_wsp (t : Strand) (p : Pr) (b : Bool) : (t.setPred p b).wsp = t.wsp := by
  unfold Strand.setPred; split <;> rfl
@[simp] theorem setPred_dseed (t : Strand) (p : Pr) (b : Bool) : (t.setPred p b).dseed = t.dseed := by
  unfold Strand.setPred; split <;> rfl
@[simp] theorem setPred_pend (t : Strand) (p : Pr) (b : Bool) : (t.setPred p b).pend = t.pend := by
  unfold Strand.setPred; split <;> rfl
@[simp] theorem setPred_ops (t : Strand) (p : Pr) (b : Bool) : (t.setPred p b).ops = t.ops := by
  unfold Strand.setPred; split <;> rfl
@[simp] theorem setPred_nextOp (t : Strand) (p : Pr) (b : Bool) : (t.setPred p b).nextOp = t.nextOp := by
  unfold Strand.setPred; split <;> rfl
@[simp] theorem setPred_close (t : Strand) (p : Pr) (b : Bool) : (t.setPred p b).close = t.close := by
  unfold Strand.setPred; split <;> rfl
@[simp] theorem setPred_ending (t : Strand) (p : Pr) (b : Bool) : (t.setPred p b).ending = t.ending := by
  unfold Strand.setPred; split <;> rfl
@[simp] theorem setPred_yielded (t : Strand) (p : Pr) (b : Bool) : (t.setPred p b).yielded = t.yielded := by
  unfold Strand.setPred; split <;> rfl
@[simp] theorem setPred_rep (t : Strand) (p : Pr) (b : Bool) : (t.setPred p b).rep = t.rep := by
  unfold Strand.setPred; split <;> rfl
@[simp] theorem setPred_vflags (t : Strand) (p : Pr) (b : Bool) : (t.setPred p b).vflags = t.vflags := by
  unfold Strand.setPred; split <;> rfl
@[simp] theorem setPred_mblost (t : Strand) (p : Pr) (b : Bool) : (t.setPred p b).mblost = t.mblost := by
  unfold Strand.setPred; split <;> rfl
@[simp] theorem setPred_engaged (t : Strand) (p : Pr) (b : Bool) : (t.setPred p b).engaged = t.engaged := by
  unfold Strand.setPred; split <;> rfl
@[simp] theorem setPred_outside (t : Strand) (p : Pr) (b : Bool) : (t.setPred p b).outside = t.outside := by
  unfold Strand.setPred; split <;> rfl
@[simp] theorem setPred_ptrs (t : Strand) (p : Pr) (b : Bool) : (t.setPred p b).ptrs = t.ptrs := by
  unfold Strand.setPred; split <;> rfl
@[simp] theorem setPred_mboxes (t : Strand) (p : Pr) (b : Bool) : (t.setPred p b).mboxes = t.mboxes := by
  unfold Strand.setPred; split <;> rfl
@[simp] theorem setPred_claims (t : Strand) (p : Pr) (b : Bool) : (t.setPred p b).claims = t.claims := by
  unfold Strand.setPred; split <;> rfl
@[simp] theorem setPred_vq (t : Strand) (p : Pr) (b : Bool) : (t.setPred p b).vq = t.vq := by
  unfold Strand.setPred; split <;> rfl
@[simp] theorem setPred_vout (t : Strand) (p : Pr) (b : Bool) : (t.setPred p b).vout = t.vout := by
  unfold Strand.setPred; split <;> rfl
@[simp] theorem setPred_plats (t : Strand) (p : Pr) (b : Bool) : (t.setPred p b).plats = t.plats := by
  unfold Strand.setPred; split <;> rfl
@[simp] theorem setPred_handles (t : Strand) (p : Pr) (b : Bool) : (t.setPred p b).handles = t.handles := by
  unfold Strand.setPred; split <;> rfl
@[simp] theorem setPred_glines (t : Strand) (p : Pr) (b : Bool) : (t.setPred p b).glines = t.glines := by
  unfold Strand.setPred; split <;> rfl
@[simp] theorem setPred_clines (t : Strand) (p : Pr) (b : Bool) : (t.setPred p b).clines = t.clines := by
  unfold Strand.setPred; split <;> rfl
@[simp] theorem setPred_ports (t : Strand) (p : Pr) (b : Bool) : (t.setPred p b).ports = t.ports := by
  unfold Strand.setPred; split <;> rfl
@[simp] theorem setPred_portWait (t : Strand) (p : Pr) (b : Bool) : (t.setPred p b).portWait = t.portWait := by
  unfold Strand.setPred; split <;> rfl
@[simp] theorem setPred_slice (t : Strand) (p : Pr) (b : Bool) : (t.setPred p b).slice = t.slice := by
  unfold Strand.setPred; split <;> rfl
@[simp] theorem setPred_cprogb (t : Strand) (p : Pr) (b : Bool) : (t.setPred p b).cprogb = t.cprogb := by
  unfold Strand.setPred; split <;> rfl
@[simp] theorem setPred_cprogm (t : Strand) (p : Pr) (b : Bool) : (t.setPred p b).cprogm = t.cprogm := by
  unfold Strand.setPred; split <;> rfl
@[simp] theorem setPred_trap (t : Strand) (p : Pr) (b : Bool) : (t.setPred p b).trap = t.trap := by
  unfold Strand.setPred; split <;> rfl
@[simp] theorem setPred_noBreak (t : Strand) (p : Pr) (b : Bool) : (t.setPred p b).noBreak = t.noBreak := by
  unfold Strand.setPred; split <;> rfl
@[simp] theorem setPred_noWatch (t : Strand) (p : Pr) (b : Bool) : (t.setPred p b).noWatch = t.noWatch := by
  unfold Strand.setPred; split <;> rfl
@[simp] theorem setPred_noiseSeq (t : Strand) (p : Pr) (b : Bool) : (t.setPred p b).noiseSeq = t.noiseSeq := by
  unfold Strand.setPred; split <;> rfl
@[simp] theorem setPred_passedEnd (t : Strand) (p : Pr) (b : Bool) : (t.setPred p b).passedEnd = t.passedEnd := by
  unfold Strand.setPred; split <;> rfl
@[simp] theorem setPred_stopWaits (t : Strand) (p : Pr) (b : Bool) : (t.setPred p b).stopWaits = t.stopWaits := by
  unfold Strand.setPred; split <;> rfl
@[simp] theorem setPred_stopDbg (t : Strand) (p : Pr) (b : Bool) : (t.setPred p b).stopDbg = t.stopDbg := by
  unfold Strand.setPred; split <;> rfl
@[simp] theorem setPred_displacing (t : Strand) (p : Pr) (b : Bool) : (t.setPred p b).displacing = t.displacing := by
  unfold Strand.setPred; split <;> rfl
@[simp] theorem setPred_rerunWaits (t : Strand) (p : Pr) (b : Bool) : (t.setPred p b).rerunWaits = t.rerunWaits := by
  unfold Strand.setPred; split <;> rfl
@[simp] theorem setPred_turn (t : Strand) (p : Pr) (b : Bool) : (t.setPred p b).turn = t.turn := by
  unfold Strand.setPred; split <;> rfl
@[simp] theorem setLoc_ctx (t : Strand) (l : Loc) (v : Word) : (t.setLoc l v).ctx = t.ctx := by cases l <;> rfl
@[simp] theorem setLoc_kern (t : Strand) (l : Loc) (v : Word) : (t.setLoc l v).kern = t.kern := by cases l <;> rfl
@[simp] theorem setLoc_grp (t : Strand) (l : Loc) (v : Word) : (t.setLoc l v).grp = t.grp := by cases l <;> rfl
@[simp] theorem setLoc_index (t : Strand) (l : Loc) (v : Word) : (t.setLoc l v).index = t.index := by cases l <;> rfl
@[simp] theorem setLoc_lcore (t : Strand) (l : Loc) (v : Word) : (t.setLoc l v).lcore = t.lcore := by cases l <;> rfl
@[simp] theorem setLoc_lslot (t : Strand) (l : Loc) (v : Word) : (t.setLoc l v).lslot = t.lslot := by cases l <;> rfl
@[simp] theorem setLoc_pcore (t : Strand) (l : Loc) (v : Word) : (t.setLoc l v).pcore = t.pcore := by cases l <;> rfl
@[simp] theorem setLoc_pslot (t : Strand) (l : Loc) (v : Word) : (t.setLoc l v).pslot = t.pslot := by cases l <;> rfl
@[simp] theorem setLoc_st (t : Strand) (l : Loc) (v : Word) : (t.setLoc l v).st = t.st := by cases l <;> rfl
@[simp] theorem setLoc_sup (t : Strand) (l : Loc) (v : Word) : (t.setLoc l v).sup = t.sup := by cases l <;> rfl
@[simp] theorem setLoc_pc (t : Strand) (l : Loc) (v : Word) : (t.setLoc l v).pc = t.pc := by cases l <;> rfl
@[simp] theorem setLoc_cwp (t : Strand) (l : Loc) (v : Word) : (t.setLoc l v).cwp = t.cwp := by cases l <;> rfl
@[simp] theorem setLoc_wres (t : Strand) (l : Loc) (v : Word) : (t.setLoc l v).wres = t.wres := by cases l <;> rfl
@[simp] theorem setLoc_wsp (t : Strand) (l : Loc) (v : Word) : (t.setLoc l v).wsp = t.wsp := by cases l <;> rfl
@[simp] theorem setLoc_dseed (t : Strand) (l : Loc) (v : Word) : (t.setLoc l v).dseed = t.dseed := by cases l <;> rfl
@[simp] theorem setLoc_pend (t : Strand) (l : Loc) (v : Word) : (t.setLoc l v).pend = t.pend := by cases l <;> rfl
@[simp] theorem setLoc_ops (t : Strand) (l : Loc) (v : Word) : (t.setLoc l v).ops = t.ops := by cases l <;> rfl
@[simp] theorem setLoc_nextOp (t : Strand) (l : Loc) (v : Word) : (t.setLoc l v).nextOp = t.nextOp := by cases l <;> rfl
@[simp] theorem setLoc_close (t : Strand) (l : Loc) (v : Word) : (t.setLoc l v).close = t.close := by cases l <;> rfl
@[simp] theorem setLoc_ending (t : Strand) (l : Loc) (v : Word) : (t.setLoc l v).ending = t.ending := by cases l <;> rfl
@[simp] theorem setLoc_yielded (t : Strand) (l : Loc) (v : Word) : (t.setLoc l v).yielded = t.yielded := by cases l <;> rfl
@[simp] theorem setLoc_rep (t : Strand) (l : Loc) (v : Word) : (t.setLoc l v).rep = t.rep := by cases l <;> rfl
@[simp] theorem setLoc_vflags (t : Strand) (l : Loc) (v : Word) : (t.setLoc l v).vflags = t.vflags := by cases l <;> rfl
@[simp] theorem setLoc_mblost (t : Strand) (l : Loc) (v : Word) : (t.setLoc l v).mblost = t.mblost := by cases l <;> rfl
@[simp] theorem setLoc_engaged (t : Strand) (l : Loc) (v : Word) : (t.setLoc l v).engaged = t.engaged := by cases l <;> rfl
@[simp] theorem setLoc_outside (t : Strand) (l : Loc) (v : Word) : (t.setLoc l v).outside = t.outside := by cases l <;> rfl
@[simp] theorem setLoc_ptrs (t : Strand) (l : Loc) (v : Word) : (t.setLoc l v).ptrs = t.ptrs := by cases l <;> rfl
@[simp] theorem setLoc_mboxes (t : Strand) (l : Loc) (v : Word) : (t.setLoc l v).mboxes = t.mboxes := by cases l <;> rfl
@[simp] theorem setLoc_claims (t : Strand) (l : Loc) (v : Word) : (t.setLoc l v).claims = t.claims := by cases l <;> rfl
@[simp] theorem setLoc_vq (t : Strand) (l : Loc) (v : Word) : (t.setLoc l v).vq = t.vq := by cases l <;> rfl
@[simp] theorem setLoc_vout (t : Strand) (l : Loc) (v : Word) : (t.setLoc l v).vout = t.vout := by cases l <;> rfl
@[simp] theorem setLoc_plats (t : Strand) (l : Loc) (v : Word) : (t.setLoc l v).plats = t.plats := by cases l <;> rfl
@[simp] theorem setLoc_handles (t : Strand) (l : Loc) (v : Word) : (t.setLoc l v).handles = t.handles := by cases l <;> rfl
@[simp] theorem setLoc_glines (t : Strand) (l : Loc) (v : Word) : (t.setLoc l v).glines = t.glines := by cases l <;> rfl
@[simp] theorem setLoc_clines (t : Strand) (l : Loc) (v : Word) : (t.setLoc l v).clines = t.clines := by cases l <;> rfl
@[simp] theorem setLoc_ports (t : Strand) (l : Loc) (v : Word) : (t.setLoc l v).ports = t.ports := by cases l <;> rfl
@[simp] theorem setLoc_portWait (t : Strand) (l : Loc) (v : Word) : (t.setLoc l v).portWait = t.portWait := by cases l <;> rfl
@[simp] theorem setLoc_slice (t : Strand) (l : Loc) (v : Word) : (t.setLoc l v).slice = t.slice := by cases l <;> rfl
@[simp] theorem setLoc_cprogb (t : Strand) (l : Loc) (v : Word) : (t.setLoc l v).cprogb = t.cprogb := by cases l <;> rfl
@[simp] theorem setLoc_cprogm (t : Strand) (l : Loc) (v : Word) : (t.setLoc l v).cprogm = t.cprogm := by cases l <;> rfl
@[simp] theorem setLoc_trap (t : Strand) (l : Loc) (v : Word) : (t.setLoc l v).trap = t.trap := by cases l <;> rfl
@[simp] theorem setLoc_noBreak (t : Strand) (l : Loc) (v : Word) : (t.setLoc l v).noBreak = t.noBreak := by cases l <;> rfl
@[simp] theorem setLoc_noWatch (t : Strand) (l : Loc) (v : Word) : (t.setLoc l v).noWatch = t.noWatch := by cases l <;> rfl
@[simp] theorem setLoc_noiseSeq (t : Strand) (l : Loc) (v : Word) : (t.setLoc l v).noiseSeq = t.noiseSeq := by cases l <;> rfl
@[simp] theorem setLoc_passedEnd (t : Strand) (l : Loc) (v : Word) : (t.setLoc l v).passedEnd = t.passedEnd := by cases l <;> rfl
@[simp] theorem setLoc_stopWaits (t : Strand) (l : Loc) (v : Word) : (t.setLoc l v).stopWaits = t.stopWaits := by cases l <;> rfl
@[simp] theorem setLoc_stopDbg (t : Strand) (l : Loc) (v : Word) : (t.setLoc l v).stopDbg = t.stopDbg := by cases l <;> rfl
@[simp] theorem setLoc_displacing (t : Strand) (l : Loc) (v : Word) : (t.setLoc l v).displacing = t.displacing := by cases l <;> rfl
@[simp] theorem setLoc_rerunWaits (t : Strand) (l : Loc) (v : Word) : (t.setLoc l v).rerunWaits = t.rerunWaits := by cases l <;> rfl
@[simp] theorem setLoc_turn (t : Strand) (l : Loc) (v : Word) : (t.setLoc l v).turn = t.turn := by cases l <;> rfl
@[simp] theorem setReg_ctx (t : Strand) (r : Reg) (v : Word) : (t.setReg r v).ctx = t.ctx := by
  unfold Strand.setReg; split <;> simp
@[simp] theorem setReg_kern (t : Strand) (r : Reg) (v : Word) : (t.setReg r v).kern = t.kern := by
  unfold Strand.setReg; split <;> simp
@[simp] theorem setReg_grp (t : Strand) (r : Reg) (v : Word) : (t.setReg r v).grp = t.grp := by
  unfold Strand.setReg; split <;> simp
@[simp] theorem setReg_index (t : Strand) (r : Reg) (v : Word) : (t.setReg r v).index = t.index := by
  unfold Strand.setReg; split <;> simp
@[simp] theorem setReg_lcore (t : Strand) (r : Reg) (v : Word) : (t.setReg r v).lcore = t.lcore := by
  unfold Strand.setReg; split <;> simp
@[simp] theorem setReg_lslot (t : Strand) (r : Reg) (v : Word) : (t.setReg r v).lslot = t.lslot := by
  unfold Strand.setReg; split <;> simp
@[simp] theorem setReg_pcore (t : Strand) (r : Reg) (v : Word) : (t.setReg r v).pcore = t.pcore := by
  unfold Strand.setReg; split <;> simp
@[simp] theorem setReg_pslot (t : Strand) (r : Reg) (v : Word) : (t.setReg r v).pslot = t.pslot := by
  unfold Strand.setReg; split <;> simp
@[simp] theorem setReg_st (t : Strand) (r : Reg) (v : Word) : (t.setReg r v).st = t.st := by
  unfold Strand.setReg; split <;> simp
@[simp] theorem setReg_sup (t : Strand) (r : Reg) (v : Word) : (t.setReg r v).sup = t.sup := by
  unfold Strand.setReg; split <;> simp
@[simp] theorem setReg_pc (t : Strand) (r : Reg) (v : Word) : (t.setReg r v).pc = t.pc := by
  unfold Strand.setReg; split <;> simp
@[simp] theorem setReg_cwp (t : Strand) (r : Reg) (v : Word) : (t.setReg r v).cwp = t.cwp := by
  unfold Strand.setReg; split <;> simp
@[simp] theorem setReg_wres (t : Strand) (r : Reg) (v : Word) : (t.setReg r v).wres = t.wres := by
  unfold Strand.setReg; split <;> simp
@[simp] theorem setReg_wsp (t : Strand) (r : Reg) (v : Word) : (t.setReg r v).wsp = t.wsp := by
  unfold Strand.setReg; split <;> simp
@[simp] theorem setReg_dseed (t : Strand) (r : Reg) (v : Word) : (t.setReg r v).dseed = t.dseed := by
  unfold Strand.setReg; split <;> simp
@[simp] theorem setReg_pend (t : Strand) (r : Reg) (v : Word) : (t.setReg r v).pend = t.pend := by
  unfold Strand.setReg; split <;> simp
@[simp] theorem setReg_ops (t : Strand) (r : Reg) (v : Word) : (t.setReg r v).ops = t.ops := by
  unfold Strand.setReg; split <;> simp
@[simp] theorem setReg_nextOp (t : Strand) (r : Reg) (v : Word) : (t.setReg r v).nextOp = t.nextOp := by
  unfold Strand.setReg; split <;> simp
@[simp] theorem setReg_close (t : Strand) (r : Reg) (v : Word) : (t.setReg r v).close = t.close := by
  unfold Strand.setReg; split <;> simp
@[simp] theorem setReg_ending (t : Strand) (r : Reg) (v : Word) : (t.setReg r v).ending = t.ending := by
  unfold Strand.setReg; split <;> simp
@[simp] theorem setReg_yielded (t : Strand) (r : Reg) (v : Word) : (t.setReg r v).yielded = t.yielded := by
  unfold Strand.setReg; split <;> simp
@[simp] theorem setReg_rep (t : Strand) (r : Reg) (v : Word) : (t.setReg r v).rep = t.rep := by
  unfold Strand.setReg; split <;> simp
@[simp] theorem setReg_vflags (t : Strand) (r : Reg) (v : Word) : (t.setReg r v).vflags = t.vflags := by
  unfold Strand.setReg; split <;> simp
@[simp] theorem setReg_mblost (t : Strand) (r : Reg) (v : Word) : (t.setReg r v).mblost = t.mblost := by
  unfold Strand.setReg; split <;> simp
@[simp] theorem setReg_engaged (t : Strand) (r : Reg) (v : Word) : (t.setReg r v).engaged = t.engaged := by
  unfold Strand.setReg; split <;> simp
@[simp] theorem setReg_outside (t : Strand) (r : Reg) (v : Word) : (t.setReg r v).outside = t.outside := by
  unfold Strand.setReg; split <;> simp
@[simp] theorem setReg_ptrs (t : Strand) (r : Reg) (v : Word) : (t.setReg r v).ptrs = t.ptrs := by
  unfold Strand.setReg; split <;> simp
@[simp] theorem setReg_mboxes (t : Strand) (r : Reg) (v : Word) : (t.setReg r v).mboxes = t.mboxes := by
  unfold Strand.setReg; split <;> simp
@[simp] theorem setReg_claims (t : Strand) (r : Reg) (v : Word) : (t.setReg r v).claims = t.claims := by
  unfold Strand.setReg; split <;> simp
@[simp] theorem setReg_vq (t : Strand) (r : Reg) (v : Word) : (t.setReg r v).vq = t.vq := by
  unfold Strand.setReg; split <;> simp
@[simp] theorem setReg_vout (t : Strand) (r : Reg) (v : Word) : (t.setReg r v).vout = t.vout := by
  unfold Strand.setReg; split <;> simp
@[simp] theorem setReg_plats (t : Strand) (r : Reg) (v : Word) : (t.setReg r v).plats = t.plats := by
  unfold Strand.setReg; split <;> simp
@[simp] theorem setReg_handles (t : Strand) (r : Reg) (v : Word) : (t.setReg r v).handles = t.handles := by
  unfold Strand.setReg; split <;> simp
@[simp] theorem setReg_glines (t : Strand) (r : Reg) (v : Word) : (t.setReg r v).glines = t.glines := by
  unfold Strand.setReg; split <;> simp
@[simp] theorem setReg_clines (t : Strand) (r : Reg) (v : Word) : (t.setReg r v).clines = t.clines := by
  unfold Strand.setReg; split <;> simp
@[simp] theorem setReg_ports (t : Strand) (r : Reg) (v : Word) : (t.setReg r v).ports = t.ports := by
  unfold Strand.setReg; split <;> simp
@[simp] theorem setReg_portWait (t : Strand) (r : Reg) (v : Word) : (t.setReg r v).portWait = t.portWait := by
  unfold Strand.setReg; split <;> simp
@[simp] theorem setReg_slice (t : Strand) (r : Reg) (v : Word) : (t.setReg r v).slice = t.slice := by
  unfold Strand.setReg; split <;> simp
@[simp] theorem setReg_cprogb (t : Strand) (r : Reg) (v : Word) : (t.setReg r v).cprogb = t.cprogb := by
  unfold Strand.setReg; split <;> simp
@[simp] theorem setReg_cprogm (t : Strand) (r : Reg) (v : Word) : (t.setReg r v).cprogm = t.cprogm := by
  unfold Strand.setReg; split <;> simp
@[simp] theorem setReg_trap (t : Strand) (r : Reg) (v : Word) : (t.setReg r v).trap = t.trap := by
  unfold Strand.setReg; split <;> simp
@[simp] theorem setReg_noBreak (t : Strand) (r : Reg) (v : Word) : (t.setReg r v).noBreak = t.noBreak := by
  unfold Strand.setReg; split <;> simp
@[simp] theorem setReg_noWatch (t : Strand) (r : Reg) (v : Word) : (t.setReg r v).noWatch = t.noWatch := by
  unfold Strand.setReg; split <;> simp
@[simp] theorem setReg_noiseSeq (t : Strand) (r : Reg) (v : Word) : (t.setReg r v).noiseSeq = t.noiseSeq := by
  unfold Strand.setReg; split <;> simp
@[simp] theorem setReg_passedEnd (t : Strand) (r : Reg) (v : Word) : (t.setReg r v).passedEnd = t.passedEnd := by
  unfold Strand.setReg; split <;> simp
@[simp] theorem setReg_stopWaits (t : Strand) (r : Reg) (v : Word) : (t.setReg r v).stopWaits = t.stopWaits := by
  unfold Strand.setReg; split <;> simp
@[simp] theorem setReg_stopDbg (t : Strand) (r : Reg) (v : Word) : (t.setReg r v).stopDbg = t.stopDbg := by
  unfold Strand.setReg; split <;> simp
@[simp] theorem setReg_displacing (t : Strand) (r : Reg) (v : Word) : (t.setReg r v).displacing = t.displacing := by
  unfold Strand.setReg; split <;> simp
@[simp] theorem setReg_rerunWaits (t : Strand) (r : Reg) (v : Word) : (t.setReg r v).rerunWaits = t.rerunWaits := by
  unfold Strand.setReg; split <;> simp
@[simp] theorem setReg_turn (t : Strand) (r : Reg) (v : Word) : (t.setReg r v).turn = t.turn := by
  unfold Strand.setReg; split <;> simp
@[simp] theorem setReg_pword (t : Strand) (r : Reg) (v : Word) : (t.setReg r v).pword = t.pword := by
  unfold Strand.setReg Strand.loc; split <;> [skip; rfl]; next h => split at h <;> [skip; split at h] <;> simp_all <;> subst h <;> rfl

end Sys2Proof.Machine
end

