-- ==== Sys2Proof/Laws/Issue.lean ====
section
/-! SUPPORT. What the issue of an instruction can do, said once. -/

namespace Sys2Proof.Machine
open Sys2Proof

/-- What an effect is given. -/
theorem exe_def (s : State) (len : Nat) :
    (⟨s.setStrand s.cur (s.me.past len), s.cur, s.me.past len, s.me.pc, len, s.me.noWatch⟩ : Exe) =
      ⟨s.setStrand s.cur ((s.strand s.cur).past len), s.cur, (s.strand s.cur).past len, (s.strand s.cur).pc, len,
        (s.strand s.cur).noWatch⟩ := rfl

/-- An instruction that passes its checks: its effect decides. -/
theorem issue_pass {h : Hdr} {f : Form} {eff : Exe → Eff} {s : State} (hp : s.passes h f.refs)
    (hv : f.priv = true → s.me.sup = true) (hr : f.pendingClass = true → s.room) :
    issue h f eff s =
      (match eff ⟨s.setStrand s.cur (s.me.past f.len), s.cur, s.me.past f.len, s.me.pc, f.len, s.me.noWatch⟩ with
      | .ok s' => .next (closing h f s.cur s')
      | .trap c => .next (trapAt s s.cur s.me.pc f.len c)
      | .trapIn s' c => .next (trapAt (s'.setStrand s.cur s.me) s.cur s.me.pc f.len c)
      | .wait s' => .next (waitAt s' s.cur s.me.pc s.me.noWatch s.me.noBreak)) := by
  obtain ⟨h1, h2, h3⟩ := hp
  have ha : f.refs.any s.me.refPending = false := by simpa using h3
  have hv' : (f.priv && !s.me.sup) = false := by
    cases hf : f.priv <;> simp; exact hv hf
  have hr' : (f.pendingClass && decide (32 ≤ s.me.outstanding)) = false := by
    cases hf : f.pendingClass <;> simp; exact hr hf
  have h2' : (s.me.predBit h.pred == h.pn) = false := by simpa using h2
  unfold State.me at *
  simp only [issue, h1, h2', hv', ha, hr', if_false, Bool.false_eq_true] <;> rfl

/-- The effect changes the issuing strand only. -/
theorem issue_upd {h : Hdr} {f : Form} {eff : Exe → Eff} {s : State} {t : Strand} (hp : s.passes h f.refs)
    (hv : f.priv = true → s.me.sup = true) (hr : f.pendingClass = true → s.room) (he : f.ends = false)
    (ht : eff ⟨s.setStrand s.cur (s.me.past f.len), s.cur, s.me.past f.len, s.me.pc, f.len, s.me.noWatch⟩ =
      .ok ((s.setStrand s.cur (s.me.past f.len)).setStrand s.cur t)) (hc : f.reenters = false := by rfl) :
    issue h f eff s = .next (s.leave h t) := by
  rw [issue_pass hp hv hr, ht]
  simp [State.leave, closing, he, hc]

/-- The same over a changed state. -/
theorem issue_in {h : Hdr} {f : Form} {eff : Exe → Eff} {s s' : State} {t : Strand} (hp : s.passes h f.refs)
    (hv : f.priv = true → s.me.sup = true) (hr : f.pendingClass = true → s.room) (he : f.ends = false)
    (ht : eff ⟨s.setStrand s.cur (s.me.past f.len), s.cur, s.me.past f.len, s.me.pc, f.len, s.me.noWatch⟩ =
      .ok (s'.setStrand s.cur t)) (hc : f.reenters = false := by rfl) :
    issue h f eff s = .next (s.leaveIn h s' t) := by
  rw [issue_pass hp hv hr, ht]
  simp [State.leaveIn, closing, he, hc]

/-- A pending guard raises CLOSURE, whatever the instruction. -/
theorem issue_guard_pending {h : Hdr} {f : Form} {eff : Exe → Eff} {s : State}
    (hg : s.me.refPending (.p h.pred) = true) :
    issue h f eff s = .next (trapAt s s.cur s.me.pc f.len { code := 2 }) := by
  unfold State.me at *
  simp [issue, hg]

/-- A guard that is off skips the instruction, but not its close. -/
theorem issue_skip {h : Hdr} {f : Form} {eff : Exe → Eff} {s : State} (hg : s.me.refPending (.p h.pred) = false)
    (ho : s.me.predBit h.pred = h.pn) :
    issue h f eff s = .next (if h.c then closeAt (s.setStrand s.cur (s.me.past f.len)) s.cur (s.me.past f.len).pc false
      else s.setStrand s.cur (s.me.past f.len)) := by
  unfold State.me at *
  simp [issue, hg, ho]

/-- A turn-settled instruction that writes one register. -/
theorem regOp_next {h : Hdr} {len : Nat} {rd : Reg} {srcs : List Reg} {f : Strand → Word} {s : State}
    (hp : s.passes h (.r rd :: srcs.map .r)) :
    regOp h len rd srcs f s = .next (s.leave h ((s.me.past len).setReg rd (f (s.me.past len)))) :=
  issue_upd hp (by simp) (by simp) rfl rfl

/-- One with floating-point flags. -/
theorem fpOp_next {h : Hdr} {rd : Reg} {srcs : List Reg} {f : Strand → Nat × Nat} {s : State}
    (hp : s.passes h (.r rd :: srcs.map .r)) :
    fpOp h rd srcs f s = .next (s.leave h
      (((s.me.past 4).addFlags (f (s.me.past 4)).2).setReg rd (w64 (f (s.me.past 4)).1))) :=
  issue_upd hp (by simp) (by simp) rfl rfl

/-- One that writes a predicate bit. -/
theorem predOp_next {h : Hdr} {len : Nat} {cd : Pr} {refs : List Ref} {f : Strand → Bool × Nat} {s : State}
    (hp : s.passes h (.p cd :: refs)) :
    predOp h len cd refs f s = .next (s.leave h
      (((s.me.past len).addFlags (f (s.me.past len)).2).setPred cd (f (s.me.past len)).1)) :=
  issue_upd hp (by simp) (by simp) rfl rfl

@[simp] theorem past_loc (t : Strand) (n : Nat) (r : Reg) : (t.past n).loc r = t.loc r := rfl
@[simp] theorem past_getLoc (t : Strand) (n : Nat) (l : Loc) : (t.past n).getLoc l = t.getLoc l := by cases l <;> rfl
@[simp] theorem past_reg (t : Strand) (n : Nat) (r : Reg) : (t.past n).reg r = t.reg r := by
  unfold Strand.reg
  simp
@[simp] theorem past_predBit (t : Strand) (n : Nat) (p : Pr) : (t.past n).predBit p = t.predBit p := rfl
@[simp] theorem past_pword (t : Strand) (n : Nat) : (t.past n).pword = t.pword := rfl

end Sys2Proof.Machine
end

