-- ==== Sys2Proof/Laws/Memory.lean ====
section
/-! SUPPORT. Laws of memory: the canonical form is kept, and a read after a write. -/

namespace Sys2Proof.Machine
open Sys2Proof

theorem memSet_wf (m : List Host.Cell) (a : Nat) (b : Byte) (h : Memory.wf m) : Memory.wf (memSet m a b) := by
  unfold memSet
  split
  · refine ⟨tdel_sorted m a h.1, ?_⟩
    intro c hc
    exact h.2 c (List.mem_filter.1 hc).1
  · next hb =>
    refine ⟨tput_sorted m a b h.1, ?_⟩
    intro c hc
    rcases mem_tput hc with rfl | hc
    · exact hb
    · exact h.2 c hc

theorem memPut_wf (m : List Host.Cell) (a : Nat) (bs : List Byte) (h : Memory.wf m) : Memory.wf (memPut m a bs) := by
  induction bs generalizing m a with
  | nil => exact h
  | cons b bs ih => exact ih _ _ (memSet_wf m a b h)

theorem rawWrite_wf (s : State) (pa : Nat) (bs : List Byte) (h : Memory.wf s.mem) : Memory.wf (rawWrite s pa bs).mem :=
  memPut_wf _ _ _ h

theorem memGet_memSet_same (m : List Host.Cell) (a : Nat) (b : Byte) : memGet (memSet m a b) a = b := by
  unfold memGet memSet
  split
  · next h => rw [h, tget_tdel_same]
  · simp

theorem memGet_memSet_ne (m : List Host.Cell) {a x : Nat} (b : Byte) (h : x ≠ a) :
    memGet (memSet m a b) x = memGet m x := by
  unfold memGet memSet
  split
  · exact tget_tdel_ne _ _ h
  · exact tget_tput_ne _ _ _ h

/-- A write of bytes changes exactly those bytes. -/
theorem memGet_memPut (m : List Host.Cell) (a : Nat) (bs : List Byte) (x : Nat) :
    memGet (memPut m a bs) x = if h : a ≤ x ∧ x < a + bs.length then bs[x - a]'(by omega) else memGet m x := by
  induction bs generalizing m a with
  | nil =>
    have : ¬ (a ≤ x ∧ x < a + 0) := by omega
    simp [memPut, this]
  | cons b bs ih =>
    simp only [memPut, ih, List.length_cons]
    by_cases hx : x = a
    · subst hx
      have h1 : ¬ (x + 1 ≤ x ∧ x < x + 1 + bs.length) := by omega
      have h2 : x ≤ x ∧ x < x + (bs.length + 1) := by omega
      rw [dif_neg h1, dif_pos h2, memGet_memSet_same]
      simp
    · by_cases h1 : a + 1 ≤ x ∧ x < a + 1 + bs.length
      · have h2 : a ≤ x ∧ x < a + (bs.length + 1) := by omega
        rw [dif_pos h1, dif_pos h2]
        have : x - a = (x - (a + 1)) + 1 := by omega
        simp [this]
      · have h2 : ¬ (a ≤ x ∧ x < a + (bs.length + 1)) := by omega
        rw [dif_neg h1, dif_neg h2, memGet_memSet_ne _ _ hx]

end Sys2Proof.Machine
end

