-- ==== Sys2Proof/Laws/PerInstr.lean ====
section
/-! SUPPORT. What holds of every instruction as syntax: the first word's LEN field counts its words (R46). -/

namespace Sys2Proof.Laws

/-- No words, or as many as the first one's LEN field says. -/
def counted (ws : List Nat) : Prop := ws = [] ∨ ∃ w rest, ws = w :: rest ∧ numWords w = rest.length + 1

theorem fld_len (h : Hdr) (len op x : Nat) (hl : len < 4) (ho : op < 2 ^ 7) (hx : x < 2 ^ 17) :
    fld (word h len op x) 30 2 = len := by
  have h1 := h.pred.isLt
  have h2 := Bool.toNat_lt h.c
  have h3 := Bool.toNat_lt h.pn
  unfold fld word
  omega

theorem counted_short (h : Hdr) (op x : Nat) (ho : op < 2 ^ 7) (hx : x < 2 ^ 17) : counted (shortForm h op x) :=
  .inr ⟨_, _, rfl, by simp [numWords, fld_len h 0 op x (by decide) ho hx]⟩

theorem counted_lit (h : Hdr) (op x : Nat) (lit : Word) (ho : op < 2 ^ 7) (hx : x < 2 ^ 17) :
    counted (litForm h op x lit) :=
  .inr ⟨_, _, rfl, by simp [numWords, fld_len h 1 op x (by decide) ho hx]⟩

theorem counted_ext (h : Hdr) (op sub8 : Nat) (e : Ext) (ho : op < 2 ^ 7) (hx : sub8 < 2 ^ 8) :
    counted (extForm h op sub8 e) :=
  .inr ⟨_, _, rfl, by rw [numWords, fld_len h 2 op (sub8 * 2 ^ 9) (by decide) ho (by omega)]; rfl⟩

theorem counted_extLit (h : Hdr) (op sub8 : Nat) (e : Ext) (lit : Word) (ho : op < 2 ^ 7) (hx : sub8 < 2 ^ 8) :
    counted (extLitForm h op sub8 e lit) :=
  .inr ⟨_, _, rfl, by rw [numWords, fld_len h 3 op (sub8 * 2 ^ 9) (by decide) ho (by omega)]; rfl⟩

theorem code_lt_scope (x : Scope) : x.code < 6 := by cases x <;> decide
theorem code_lt_fcond (x : FCond) : x.code < 8 := by cases x <;> decide
theorem code_lt_icond (x : ICond) : x.code < 8 := by cases x <;> decide
theorem code_lt_cvt (x : CvtKind) : x.code < 12 := by cases x <;> decide
theorem code_lt_drm (x : DRm) : x.code < 4 := by cases x <;> decide
theorem code_lt_elty (x : ElTy) : x.code < 6 := by cases x <;> decide
theorem code_lt_bearing (x : Bearing) : x.code < 6 := by cases x <;> decide

theorem lt_xREG3 (rd : Reg) (ra : Reg) (rb : Reg) (sub : Nat) (hs : sub < 2 ^ 2) : xREG3 rd ra rb sub < 2 ^ 17 := by
  have hrd := rd.isLt
  have hra := ra.isLt
  have hrb := rb.isLt
  unfold xREG3; omega

theorem lt_xIMM7 (rd : Reg) (ra : Reg) (imm : BitVec 7) : xIMM7 rd ra imm < 2 ^ 17 := by
  have hrd := rd.isLt
  have hra := ra.isLt
  have himm := imm.isLt
  unfold xIMM7; omega

theorem lt_xIMM12 (rd : Reg) (imm : BitVec 12) : xIMM12 rd imm < 2 ^ 17 := by
  have hrd := rd.isLt
  have himm := imm.isLt
  unfold xIMM12; omega

theorem lt_xWID (rd : Reg) (ra : Reg) (n : BitVec 6) (sub : Nat) (hs : sub < 2 ^ 1) : xWID rd ra n sub < 2 ^ 17 := by
  have hrd := rd.isLt
  have hra := ra.isLt
  have hn := n.isLt
  unfold xWID; omega

theorem lt_xMEM (rd : Reg) (base : Reg) (disp : BitVec 6) (sub : Nat) (hs : sub < 2 ^ 1) : xMEM rd base disp sub < 2 ^ 17 := by
  have hrd := rd.isLt
  have hbase := base.isLt
  have hdisp := disp.isLt
  unfold xMEM; omega

theorem lt_xBRA (off : BitVec 17) : xBRA off < 2 ^ 17 := by
  have hoff := off.isLt
  unfold xBRA; omega

theorem lt_xCAL (kc : BitVec 2) (off : BitVec 15) : xCAL kc off < 2 ^ 17 := by
  have hkc := kc.isLt
  have hoff := off.isLt
  unfold xCAL; omega

theorem lt_xJMP (kc : BitVec 2) (ra : Reg) (sub : Nat) (hs : sub < 2 ^ 2) : xJMP kc ra sub < 2 ^ 17 := by
  have hkc := kc.isLt
  have hra := ra.isLt
  unfold xJMP; omega

theorem lt_xMSC (kc : BitVec 2) (sub : Nat) (hs : sub < 2 ^ 3) : xMSC kc sub < 2 ^ 17 := by
  have hkc := kc.isLt
  unfold xMSC; omega

theorem lt_xCPRF (cd : Pr) (ra : Reg) (rb : Reg) (cond : FCond) : xCPRF cd ra rb cond < 2 ^ 17 := by
  have hcd := cd.isLt
  have hra := ra.isLt
  have hrb := rb.isLt
  have hcond := code_lt_fcond cond
  unfold xCPRF; omega

theorem lt_xCPRI (cd : Pr) (ra : Reg) (rb : Reg) (cond : ICond) : xCPRI cd ra rb cond < 2 ^ 17 := by
  have hcd := cd.isLt
  have hra := ra.isLt
  have hrb := rb.isLt
  have hcond := code_lt_icond cond
  unfold xCPRI; omega

theorem lt_xCPI (cd : Pr) (ra : Reg) (cond : ICond) (imm : BitVec 5) : xCPI cd ra cond imm < 2 ^ 17 := by
  have hcd := cd.isLt
  have hra := ra.isLt
  have hcond := code_lt_icond cond
  have himm := imm.isLt
  unfold xCPI; omega

theorem lt_xPRD (cd : Pr) (ca : Pr) (cb : Pr) (sub : Nat) (hs : sub < 2 ^ 3) : xPRD cd ca cb sub < 2 ^ 17 := by
  have hcd := cd.isLt
  have hca := ca.isLt
  have hcb := cb.isLt
  unfold xPRD; omega

theorem lt_xREPF (n : BitVec 3) (k : BitVec 8) (stride : BitVec 6) : xREPF n k stride < 2 ^ 17 := by
  have hn := n.isLt
  have hk := k.isLt
  have hstride := stride.isLt
  unfold xREPF; omega

theorem lt_xFCV (rd : Reg) (ra : Reg) (kind : CvtKind) (rm : DRm) (sat : Bool) : xFCV rd ra kind rm sat < 2 ^ 17 := by
  have hrd := rd.isLt
  have hra := ra.isLt
  have hkind := code_lt_cvt kind
  have hrm := code_lt_drm rm
  have hsat := Bool.toNat_lt sat
  unfold xFCV; omega

theorem lt_xORD (rd : Reg) (ra : Reg) (scope : Scope) (sub : Nat) (hs : sub < 2 ^ 2) : xORD rd ra scope sub < 2 ^ 17 := by
  have hrd := rd.isLt
  have hra := ra.isLt
  have hscope := code_lt_scope scope
  unfold xORD; omega

theorem lt_xFEN (paths : BitVec 7) (scope : Scope) : xFEN paths scope < 2 ^ 17 := by
  have hpaths := paths.isLt
  have hscope := code_lt_scope scope
  unfold xFEN; omega

theorem lt_xVEC (pd : Ptr) (pa : Ptr) (pb : Ptr) (rn : Reg) (et : ElTy) : xVEC pd pa pb rn et < 2 ^ 17 := by
  have hpd := pd.isLt
  have hpa := pa.isLt
  have hpb := pb.isLt
  have hrn := rn.isLt
  have het := code_lt_elty et
  unfold xVEC; omega

theorem lt_xVUN (pd : Ptr) (pa : Ptr) (rn : Reg) (et : ElTy) (sub : Nat) (hs : sub < 2 ^ 3) : xVUN pd pa rn et sub < 2 ^ 17 := by
  have hpd := pd.isLt
  have hpa := pa.isLt
  have hrn := rn.isLt
  have het := code_lt_elty et
  unfold xVUN; omega

theorem lt_xVRD (mb : Obj2) (pa : Ptr) (rn : Reg) (et : ElTy) (sub : Nat) (hs : sub < 2 ^ 3) : xVRD mb pa rn et sub < 2 ^ 17 := by
  have hmb := mb.isLt
  have hpa := pa.isLt
  have hrn := rn.isLt
  have het := code_lt_elty et
  unfold xVRD; omega

theorem lt_xPTR (p : Ptr) (ra : Reg) (rb : Reg) (sub : Nat) (hs : sub < 2 ^ 2) : xPTR p ra rb sub < 2 ^ 17 := by
  have hp := p.isLt
  have hra := ra.isLt
  have hrb := rb.isLt
  unfold xPTR; omega

theorem lt_xTSH (a : Tile) (rows : BitVec 8) (cc : BitVec 2) : xTSH a rows cc < 2 ^ 17 := by
  have ha := a.isLt
  have hrows := rows.isLt
  have hcc := cc.isLt
  unfold xTSH; omega

theorem lt_xTDT (a : Tile) (d : BitVec 9) : xTDT a d < 2 ^ 17 := by
  have ha := a.isLt
  have hd := d.isLt
  unfold xTDT; omega

theorem lt_xTMS (a : Tile) (rd : Reg) (sub : Nat) (hs : sub < 2 ^ 3) : xTMS a rd sub < 2 ^ 17 := by
  have ha := a.isLt
  have hrd := rd.isLt
  unfold xTMS; omega

theorem lt_xOB2 (o : Obj2) (rd : Reg) (ra : Reg) (sub : Nat) (hs : sub < 2 ^ 3) : xOB2 o rd ra sub < 2 ^ 17 := by
  have ho := o.isLt
  have hrd := rd.isLt
  have hra := ra.isLt
  unfold xOB2; omega

theorem lt_xTRE (t : TreeR) (rd : Reg) (ra : Reg) (sub : Nat) (hs : sub < 2 ^ 4) : xTRE t rd ra sub < 2 ^ 17 := by
  have ht := t.isLt
  have hrd := rd.isLt
  have hra := ra.isLt
  unfold xTRE; omega

theorem lt_xTRL (t : TreeR) (ra : Reg) (rb : Reg) (sub : Nat) (hs : sub < 2 ^ 4) : xTRL t ra rb sub < 2 ^ 17 := by
  have ht := t.isLt
  have hra := ra.isLt
  have hrb := rb.isLt
  unfold xTRL; omega

theorem lt_xPRT (b : Bearing) (rd : Reg) (cd : Pr) (sub : Nat) (hs : sub < 2 ^ 3) : xPRT b rd cd sub < 2 ^ 17 := by
  have hb := code_lt_bearing b
  have hrd := rd.isLt
  have hcd := cd.isLt
  unfold xPRT; omega

theorem lt_xMBX (mb : Obj2) (rd : Reg) (sub : Nat) (hs : sub < 2 ^ 2) : xMBX mb rd sub < 2 ^ 17 := by
  have hmb := mb.isLt
  have hrd := rd.isLt
  unfold xMBX; omega

theorem lt_xRNG (g : Ring) (rd : Reg) (ra : Reg) (sub : Nat) (hs : sub < 2 ^ 3) : xRNG g rd ra sub < 2 ^ 17 := by
  have hg := g.isLt
  have hrd := rd.isLt
  have hra := ra.isLt
  unfold xRNG; omega

theorem lt_xSYS (rd : Reg) (imm : BitVec 8) (sub : Nat) (hs : sub < 2 ^ 4) : xSYS rd imm sub < 2 ^ 17 := by
  have hrd := rd.isLt
  have himm := imm.isLt
  unfold xSYS; omega

/-- The words of an instruction are as many as its LEN asks for; a command or an event has none (R46). -/
def Length.Statement (i : Instr) : Prop := counted (encode i)

theorem Length.add (h : Hdr) (rd : Reg) (ra : Reg) (rb : Reg) : Length.Statement (.add h rd ra rb) := counted_short _ _ _ (by decide) (lt_xREG3 _ _ _ _ (by decide))
theorem Length.sub (h : Hdr) (rd : Reg) (ra : Reg) (rb : Reg) : Length.Statement (.sub h rd ra rb) := counted_short _ _ _ (by decide) (lt_xREG3 _ _ _ _ (by decide))
theorem Length.min (h : Hdr) (rd : Reg) (ra : Reg) (rb : Reg) : Length.Statement (.min h rd ra rb) := counted_short _ _ _ (by decide) (lt_xREG3 _ _ _ _ (by decide))
theorem Length.minu (h : Hdr) (rd : Reg) (ra : Reg) (rb : Reg) : Length.Statement (.minu h rd ra rb) := counted_short _ _ _ (by decide) (lt_xREG3 _ _ _ _ (by decide))
theorem Length.and (h : Hdr) (rd : Reg) (ra : Reg) (rb : Reg) : Length.Statement (.and h rd ra rb) := counted_short _ _ _ (by decide) (lt_xREG3 _ _ _ _ (by decide))
theorem Length.or (h : Hdr) (rd : Reg) (ra : Reg) (rb : Reg) : Length.Statement (.or h rd ra rb) := counted_short _ _ _ (by decide) (lt_xREG3 _ _ _ _ (by decide))
theorem Length.xor (h : Hdr) (rd : Reg) (ra : Reg) (rb : Reg) : Length.Statement (.xor h rd ra rb) := counted_short _ _ _ (by decide) (lt_xREG3 _ _ _ _ (by decide))
theorem Length.andn (h : Hdr) (rd : Reg) (ra : Reg) (rb : Reg) : Length.Statement (.andn h rd ra rb) := counted_short _ _ _ (by decide) (lt_xREG3 _ _ _ _ (by decide))
theorem Length.shl (h : Hdr) (rd : Reg) (ra : Reg) (rb : Reg) : Length.Statement (.shl h rd ra rb) := counted_short _ _ _ (by decide) (lt_xREG3 _ _ _ _ (by decide))
theorem Length.shr (h : Hdr) (rd : Reg) (ra : Reg) (rb : Reg) : Length.Statement (.shr h rd ra rb) := counted_short _ _ _ (by decide) (lt_xREG3 _ _ _ _ (by decide))
theorem Length.sar (h : Hdr) (rd : Reg) (ra : Reg) (rb : Reg) : Length.Statement (.sar h rd ra rb) := counted_short _ _ _ (by decide) (lt_xREG3 _ _ _ _ (by decide))
theorem Length.rol (h : Hdr) (rd : Reg) (ra : Reg) (rb : Reg) : Length.Statement (.rol h rd ra rb) := counted_short _ _ _ (by decide) (lt_xREG3 _ _ _ _ (by decide))
theorem Length.mul (h : Hdr) (rd : Reg) (ra : Reg) (rb : Reg) : Length.Statement (.mul h rd ra rb) := counted_short _ _ _ (by decide) (lt_xREG3 _ _ _ _ (by decide))
theorem Length.mulh (h : Hdr) (rd : Reg) (ra : Reg) (rb : Reg) : Length.Statement (.mulh h rd ra rb) := counted_short _ _ _ (by decide) (lt_xREG3 _ _ _ _ (by decide))
theorem Length.mulhu (h : Hdr) (rd : Reg) (ra : Reg) (rb : Reg) : Length.Statement (.mulhu h rd ra rb) := counted_short _ _ _ (by decide) (lt_xREG3 _ _ _ _ (by decide))
theorem Length.div (h : Hdr) (rd : Reg) (ra : Reg) (rb : Reg) : Length.Statement (.div h rd ra rb) := counted_short _ _ _ (by decide) (lt_xREG3 _ _ _ _ (by decide))
theorem Length.divu (h : Hdr) (rd : Reg) (ra : Reg) (rb : Reg) : Length.Statement (.divu h rd ra rb) := counted_short _ _ _ (by decide) (lt_xREG3 _ _ _ _ (by decide))
theorem Length.rem (h : Hdr) (rd : Reg) (ra : Reg) (rb : Reg) : Length.Statement (.rem h rd ra rb) := counted_short _ _ _ (by decide) (lt_xREG3 _ _ _ _ (by decide))
theorem Length.remu (h : Hdr) (rd : Reg) (ra : Reg) (rb : Reg) : Length.Statement (.remu h rd ra rb) := counted_short _ _ _ (by decide) (lt_xREG3 _ _ _ _ (by decide))
theorem Length.max (h : Hdr) (rd : Reg) (ra : Reg) (rb : Reg) : Length.Statement (.max h rd ra rb) := counted_short _ _ _ (by decide) (lt_xREG3 _ _ _ _ (by decide))
theorem Length.maxu (h : Hdr) (rd : Reg) (ra : Reg) (rb : Reg) : Length.Statement (.maxu h rd ra rb) := counted_short _ _ _ (by decide) (lt_xREG3 _ _ _ _ (by decide))
theorem Length.clz (h : Hdr) (rd : Reg) (ra : Reg) : Length.Statement (.clz h rd ra) := counted_short _ _ _ (by decide) (lt_xREG3 _ _ _ _ (by decide))
theorem Length.ctz (h : Hdr) (rd : Reg) (ra : Reg) : Length.Statement (.ctz h rd ra) := counted_short _ _ _ (by decide) (lt_xREG3 _ _ _ _ (by decide))
theorem Length.popc (h : Hdr) (rd : Reg) (ra : Reg) : Length.Statement (.popc h rd ra) := counted_short _ _ _ (by decide) (lt_xREG3 _ _ _ _ (by decide))
theorem Length.sext (h : Hdr) (rd : Reg) (ra : Reg) (n : BitVec 6) : Length.Statement (.sext h rd ra n) := counted_short _ _ _ (by decide) (lt_xWID _ _ _ _ (by decide))
theorem Length.zext (h : Hdr) (rd : Reg) (ra : Reg) (n : BitVec 6) : Length.Statement (.zext h rd ra n) := counted_short _ _ _ (by decide) (lt_xWID _ _ _ _ (by decide))
theorem Length.bfx (h : Hdr) (rd : Reg) (ra : Reg) (rb : Reg) : Length.Statement (.bfx h rd ra rb) := counted_short _ _ _ (by decide) (lt_xREG3 _ _ _ _ (by decide))
theorem Length.bfxLit (h : Hdr) (rd : Reg) (ra : Reg) (lit : Word) : Length.Statement (.bfxLit h rd ra lit) := counted_lit _ _ _ _ (by decide) (lt_xREG3 _ _ _ _ (by decide))
theorem Length.bfi (h : Hdr) (rd : Reg) (ra : Reg) (rb : Reg) : Length.Statement (.bfi h rd ra rb) := counted_short _ _ _ (by decide) (lt_xREG3 _ _ _ _ (by decide))
theorem Length.bfiLit (h : Hdr) (rd : Reg) (ra : Reg) (lit : Word) : Length.Statement (.bfiLit h rd ra lit) := counted_lit _ _ _ _ (by decide) (lt_xREG3 _ _ _ _ (by decide))
theorem Length.addi (h : Hdr) (rd : Reg) (ra : Reg) (imm : BitVec 7) : Length.Statement (.addi h rd ra imm) := counted_short _ _ _ (by decide) (lt_xIMM7 _ _ _)
theorem Length.addiLit (h : Hdr) (rd : Reg) (ra : Reg) (lit : Word) : Length.Statement (.addiLit h rd ra lit) := counted_lit _ _ _ _ (by decide) (lt_xIMM7 _ _ _)
theorem Length.li (h : Hdr) (rd : Reg) (imm : BitVec 12) : Length.Statement (.li h rd imm) := counted_short _ _ _ (by decide) (lt_xIMM12 _ _)
theorem Length.liLit (h : Hdr) (rd : Reg) (lit : Word) : Length.Statement (.liLit h rd lit) := counted_lit _ _ _ _ (by decide) (lt_xIMM12 _ _)
theorem Length.sel (h : Hdr) (cs : Pr) (rd : Reg) (ra : Reg) (rb : Reg) : Length.Statement (.sel h cs rd ra rb) := counted_short _ _ _ (by omega) (lt_xREG3 _ _ _ _ (by omega))
theorem Length.adr (h : Hdr) (rd : Reg) (imm : BitVec 12) : Length.Statement (.adr h rd imm) := counted_short _ _ _ (by decide) (lt_xIMM12 _ _)
theorem Length.adrLit (h : Hdr) (rd : Reg) (lit : Word) : Length.Statement (.adrLit h rd lit) := counted_lit _ _ _ _ (by decide) (lt_xIMM12 _ _)
theorem Length.fadd (h : Hdr) (rd : Reg) (ra : Reg) (rb : Reg) : Length.Statement (.fadd h rd ra rb) := counted_short _ _ _ (by decide) (lt_xREG3 _ _ _ _ (by decide))
theorem Length.fsub (h : Hdr) (rd : Reg) (ra : Reg) (rb : Reg) : Length.Statement (.fsub h rd ra rb) := counted_short _ _ _ (by decide) (lt_xREG3 _ _ _ _ (by decide))
theorem Length.fmul (h : Hdr) (rd : Reg) (ra : Reg) (rb : Reg) : Length.Statement (.fmul h rd ra rb) := counted_short _ _ _ (by decide) (lt_xREG3 _ _ _ _ (by decide))
theorem Length.fdiv (h : Hdr) (rd : Reg) (ra : Reg) (rb : Reg) : Length.Statement (.fdiv h rd ra rb) := counted_short _ _ _ (by decide) (lt_xREG3 _ _ _ _ (by decide))
theorem Length.fmin (h : Hdr) (rd : Reg) (ra : Reg) (rb : Reg) : Length.Statement (.fmin h rd ra rb) := counted_short _ _ _ (by decide) (lt_xREG3 _ _ _ _ (by decide))
theorem Length.fmax (h : Hdr) (rd : Reg) (ra : Reg) (rb : Reg) : Length.Statement (.fmax h rd ra rb) := counted_short _ _ _ (by decide) (lt_xREG3 _ _ _ _ (by decide))
theorem Length.fsqrt (h : Hdr) (rd : Reg) (ra : Reg) : Length.Statement (.fsqrt h rd ra) := counted_short _ _ _ (by decide) (lt_xREG3 _ _ _ _ (by decide))
theorem Length.fclass (h : Hdr) (rd : Reg) (ra : Reg) : Length.Statement (.fclass h rd ra) := counted_short _ _ _ (by decide) (lt_xREG3 _ _ _ _ (by decide))
theorem Length.ffma (h : Hdr) (rd : Reg) (ra : Reg) (rb : Reg) : Length.Statement (.ffma h rd ra rb) := counted_short _ _ _ (by decide) (lt_xREG3 _ _ _ _ (by decide))
theorem Length.fcmp (h : Hdr) (cd : Pr) (ra : Reg) (rb : Reg) (cond : FCond) : Length.Statement (.fcmp h cd ra rb cond) := counted_short _ _ _ (by decide) (lt_xCPRF _ _ _ _)
theorem Length.fcvt (h : Hdr) (rd : Reg) (ra : Reg) (kind : CvtKind) (rm : DRm) (sat : Bool) : Length.Statement (.fcvt h rd ra kind rm sat) := counted_short _ _ _ (by decide) (lt_xFCV _ _ _ _ _)
theorem Length.br (h : Hdr) (off : BitVec 17) : Length.Statement (.br h off) := counted_short _ _ _ (by decide) (lt_xBRA _)
theorem Length.brLit (h : Hdr) (lit : Word) : Length.Statement (.brLit h lit) := counted_lit _ _ _ _ (by decide) (lt_xBRA _)
theorem Length.call (h : Hdr) (kc : BitVec 2) (off : BitVec 15) : Length.Statement (.call h kc off) := counted_short _ _ _ (by decide) (lt_xCAL _ _)
theorem Length.callLit (h : Hdr) (kc : BitVec 2) (lit : Word) : Length.Statement (.callLit h kc lit) := counted_lit _ _ _ _ (by decide) (lt_xCAL _ _)
theorem Length.jr (h : Hdr) (ra : Reg) : Length.Statement (.jr h ra) := counted_short _ _ _ (by decide) (lt_xJMP _ _ _ (by decide))
theorem Length.callr (h : Hdr) (kc : BitVec 2) (ra : Reg) : Length.Statement (.callr h kc ra) := counted_short _ _ _ (by decide) (lt_xJMP _ _ _ (by decide))
theorem Length.ret (h : Hdr) : Length.Statement (.ret h) := counted_short _ _ _ (by decide) (lt_xJMP _ _ _ (by decide))
theorem Length.nop (h : Hdr) : Length.Statement (.nop h) := counted_short _ _ _ (by decide) (lt_xMSC _ _ (by decide))
theorem Length.yield (h : Hdr) : Length.Statement (.yield h) := counted_short _ _ _ (by decide) (lt_xMSC _ _ (by decide))
theorem Length.endStrand (h : Hdr) : Length.Statement (.endStrand h) := counted_short _ _ _ (by decide) (lt_xMSC _ _ (by decide))
theorem Length.wspill (h : Hdr) (kc : BitVec 2) : Length.Statement (.wspill h kc) := counted_short _ _ _ (by decide) (lt_xMSC _ _ (by decide))
theorem Length.wfill (h : Hdr) (kc : BitVec 2) : Length.Statement (.wfill h kc) := counted_short _ _ _ (by decide) (lt_xMSC _ _ (by decide))
theorem Length.cmp (h : Hdr) (cd : Pr) (ra : Reg) (rb : Reg) (cond : ICond) : Length.Statement (.cmp h cd ra rb cond) := counted_short _ _ _ (by decide) (lt_xCPRI _ _ _ _)
theorem Length.cmpi (h : Hdr) (cd : Pr) (ra : Reg) (cond : ICond) (imm : BitVec 5) : Length.Statement (.cmpi h cd ra cond imm) := counted_short _ _ _ (by decide) (lt_xCPI _ _ _ _)
theorem Length.cmpiLit (h : Hdr) (cd : Pr) (ra : Reg) (cond : ICond) (lit : Word) : Length.Statement (.cmpiLit h cd ra cond lit) := counted_lit _ _ _ _ (by decide) (lt_xCPI _ _ _ _)
theorem Length.pand (h : Hdr) (cd : Pr) (ca : Pr) (cb : Pr) : Length.Statement (.pand h cd ca cb) := counted_short _ _ _ (by decide) (lt_xPRD _ _ _ _ (by decide))
theorem Length.por (h : Hdr) (cd : Pr) (ca : Pr) (cb : Pr) : Length.Statement (.por h cd ca cb) := counted_short _ _ _ (by decide) (lt_xPRD _ _ _ _ (by decide))
theorem Length.pxor (h : Hdr) (cd : Pr) (ca : Pr) (cb : Pr) : Length.Statement (.pxor h cd ca cb) := counted_short _ _ _ (by decide) (lt_xPRD _ _ _ _ (by decide))
theorem Length.pnot (h : Hdr) (cd : Pr) (ca : Pr) : Length.Statement (.pnot h cd ca) := counted_short _ _ _ (by decide) (lt_xPRD _ _ _ _ (by decide))
theorem Length.pmov (h : Hdr) (cd : Pr) (ca : Pr) : Length.Statement (.pmov h cd ca) := counted_short _ _ _ (by decide) (lt_xPRD _ _ _ _ (by decide))
theorem Length.rep (h : Hdr) (n : BitVec 3) (k : BitVec 8) (stride : BitVec 6) : Length.Statement (.rep h n k stride) := counted_short _ _ _ (by decide) (lt_xREPF _ _ _)
theorem Length.ldB (h : Hdr) (rd : Reg) (base : Reg) (disp : BitVec 6) : Length.Statement (.ldB h rd base disp) := counted_short _ _ _ (by decide) (lt_xMEM _ _ _ _ (by decide))
theorem Length.ldBLit (h : Hdr) (rd : Reg) (base : Reg) (lit : Word) : Length.Statement (.ldBLit h rd base lit) := counted_lit _ _ _ _ (by decide) (lt_xMEM _ _ _ _ (by decide))
theorem Length.ldBu (h : Hdr) (rd : Reg) (base : Reg) (disp : BitVec 6) : Length.Statement (.ldBu h rd base disp) := counted_short _ _ _ (by decide) (lt_xMEM _ _ _ _ (by decide))
theorem Length.ldBuLit (h : Hdr) (rd : Reg) (base : Reg) (lit : Word) : Length.Statement (.ldBuLit h rd base lit) := counted_lit _ _ _ _ (by decide) (lt_xMEM _ _ _ _ (by decide))
theorem Length.ldH (h : Hdr) (rd : Reg) (base : Reg) (disp : BitVec 6) : Length.Statement (.ldH h rd base disp) := counted_short _ _ _ (by decide) (lt_xMEM _ _ _ _ (by decide))
theorem Length.ldHLit (h : Hdr) (rd : Reg) (base : Reg) (lit : Word) : Length.Statement (.ldHLit h rd base lit) := counted_lit _ _ _ _ (by decide) (lt_xMEM _ _ _ _ (by decide))
theorem Length.ldHu (h : Hdr) (rd : Reg) (base : Reg) (disp : BitVec 6) : Length.Statement (.ldHu h rd base disp) := counted_short _ _ _ (by decide) (lt_xMEM _ _ _ _ (by decide))
theorem Length.ldHuLit (h : Hdr) (rd : Reg) (base : Reg) (lit : Word) : Length.Statement (.ldHuLit h rd base lit) := counted_lit _ _ _ _ (by decide) (lt_xMEM _ _ _ _ (by decide))
theorem Length.ldW (h : Hdr) (rd : Reg) (base : Reg) (disp : BitVec 6) : Length.Statement (.ldW h rd base disp) := counted_short _ _ _ (by decide) (lt_xMEM _ _ _ _ (by decide))
theorem Length.ldWLit (h : Hdr) (rd : Reg) (base : Reg) (lit : Word) : Length.Statement (.ldWLit h rd base lit) := counted_lit _ _ _ _ (by decide) (lt_xMEM _ _ _ _ (by decide))
theorem Length.ldWu (h : Hdr) (rd : Reg) (base : Reg) (disp : BitVec 6) : Length.Statement (.ldWu h rd base disp) := counted_short _ _ _ (by decide) (lt_xMEM _ _ _ _ (by decide))
theorem Length.ldWuLit (h : Hdr) (rd : Reg) (base : Reg) (lit : Word) : Length.Statement (.ldWuLit h rd base lit) := counted_lit _ _ _ _ (by decide) (lt_xMEM _ _ _ _ (by decide))
theorem Length.ldD (h : Hdr) (rd : Reg) (base : Reg) (disp : BitVec 6) : Length.Statement (.ldD h rd base disp) := counted_short _ _ _ (by decide) (lt_xMEM _ _ _ _ (by decide))
theorem Length.ldDLit (h : Hdr) (rd : Reg) (base : Reg) (lit : Word) : Length.Statement (.ldDLit h rd base lit) := counted_lit _ _ _ _ (by decide) (lt_xMEM _ _ _ _ (by decide))
theorem Length.ldp (h : Hdr) (rd : Reg) (base : Reg) (disp : BitVec 6) : Length.Statement (.ldp h rd base disp) := counted_short _ _ _ (by decide) (lt_xMEM _ _ _ _ (by decide))
theorem Length.ldpLit (h : Hdr) (rd : Reg) (base : Reg) (lit : Word) : Length.Statement (.ldpLit h rd base lit) := counted_lit _ _ _ _ (by decide) (lt_xMEM _ _ _ _ (by decide))
theorem Length.stB (h : Hdr) (rd : Reg) (base : Reg) (disp : BitVec 6) : Length.Statement (.stB h rd base disp) := counted_short _ _ _ (by decide) (lt_xMEM _ _ _ _ (by decide))
theorem Length.stBLit (h : Hdr) (rd : Reg) (base : Reg) (lit : Word) : Length.Statement (.stBLit h rd base lit) := counted_lit _ _ _ _ (by decide) (lt_xMEM _ _ _ _ (by decide))
theorem Length.stH (h : Hdr) (rd : Reg) (base : Reg) (disp : BitVec 6) : Length.Statement (.stH h rd base disp) := counted_short _ _ _ (by decide) (lt_xMEM _ _ _ _ (by decide))
theorem Length.stHLit (h : Hdr) (rd : Reg) (base : Reg) (lit : Word) : Length.Statement (.stHLit h rd base lit) := counted_lit _ _ _ _ (by decide) (lt_xMEM _ _ _ _ (by decide))
theorem Length.stW (h : Hdr) (rd : Reg) (base : Reg) (disp : BitVec 6) : Length.Statement (.stW h rd base disp) := counted_short _ _ _ (by decide) (lt_xMEM _ _ _ _ (by decide))
theorem Length.stWLit (h : Hdr) (rd : Reg) (base : Reg) (lit : Word) : Length.Statement (.stWLit h rd base lit) := counted_lit _ _ _ _ (by decide) (lt_xMEM _ _ _ _ (by decide))
theorem Length.stD (h : Hdr) (rd : Reg) (base : Reg) (disp : BitVec 6) : Length.Statement (.stD h rd base disp) := counted_short _ _ _ (by decide) (lt_xMEM _ _ _ _ (by decide))
theorem Length.stDLit (h : Hdr) (rd : Reg) (base : Reg) (lit : Word) : Length.Statement (.stDLit h rd base lit) := counted_lit _ _ _ _ (by decide) (lt_xMEM _ _ _ _ (by decide))
theorem Length.stp (h : Hdr) (rd : Reg) (base : Reg) (disp : BitVec 6) : Length.Statement (.stp h rd base disp) := counted_short _ _ _ (by decide) (lt_xMEM _ _ _ _ (by decide))
theorem Length.stpLit (h : Hdr) (rd : Reg) (base : Reg) (lit : Word) : Length.Statement (.stpLit h rd base lit) := counted_lit _ _ _ _ (by decide) (lt_xMEM _ _ _ _ (by decide))
theorem Length.aaddD (h : Hdr) (rd : Reg) (ra : Reg) (rb : Reg) : Length.Statement (.aaddD h rd ra rb) := counted_short _ _ _ (by decide) (lt_xREG3 _ _ _ _ (by decide))
theorem Length.aandD (h : Hdr) (rd : Reg) (ra : Reg) (rb : Reg) : Length.Statement (.aandD h rd ra rb) := counted_short _ _ _ (by decide) (lt_xREG3 _ _ _ _ (by decide))
theorem Length.aorD (h : Hdr) (rd : Reg) (ra : Reg) (rb : Reg) : Length.Statement (.aorD h rd ra rb) := counted_short _ _ _ (by decide) (lt_xREG3 _ _ _ _ (by decide))
theorem Length.axorD (h : Hdr) (rd : Reg) (ra : Reg) (rb : Reg) : Length.Statement (.axorD h rd ra rb) := counted_short _ _ _ (by decide) (lt_xREG3 _ _ _ _ (by decide))
theorem Length.aaddW (h : Hdr) (rd : Reg) (ra : Reg) (rb : Reg) : Length.Statement (.aaddW h rd ra rb) := counted_short _ _ _ (by decide) (lt_xREG3 _ _ _ _ (by decide))
theorem Length.aandW (h : Hdr) (rd : Reg) (ra : Reg) (rb : Reg) : Length.Statement (.aandW h rd ra rb) := counted_short _ _ _ (by decide) (lt_xREG3 _ _ _ _ (by decide))
theorem Length.aorW (h : Hdr) (rd : Reg) (ra : Reg) (rb : Reg) : Length.Statement (.aorW h rd ra rb) := counted_short _ _ _ (by decide) (lt_xREG3 _ _ _ _ (by decide))
theorem Length.axorW (h : Hdr) (rd : Reg) (ra : Reg) (rb : Reg) : Length.Statement (.axorW h rd ra rb) := counted_short _ _ _ (by decide) (lt_xREG3 _ _ _ _ (by decide))
theorem Length.aminD (h : Hdr) (rd : Reg) (ra : Reg) (rb : Reg) : Length.Statement (.aminD h rd ra rb) := counted_short _ _ _ (by decide) (lt_xREG3 _ _ _ _ (by decide))
theorem Length.amaxD (h : Hdr) (rd : Reg) (ra : Reg) (rb : Reg) : Length.Statement (.amaxD h rd ra rb) := counted_short _ _ _ (by decide) (lt_xREG3 _ _ _ _ (by decide))
theorem Length.axchgD (h : Hdr) (rd : Reg) (ra : Reg) (rb : Reg) : Length.Statement (.axchgD h rd ra rb) := counted_short _ _ _ (by decide) (lt_xREG3 _ _ _ _ (by decide))
theorem Length.acasD (h : Hdr) (rd : Reg) (ra : Reg) (rb : Reg) : Length.Statement (.acasD h rd ra rb) := counted_short _ _ _ (by decide) (lt_xREG3 _ _ _ _ (by decide))
theorem Length.aminW (h : Hdr) (rd : Reg) (ra : Reg) (rb : Reg) : Length.Statement (.aminW h rd ra rb) := counted_short _ _ _ (by decide) (lt_xREG3 _ _ _ _ (by decide))
theorem Length.amaxW (h : Hdr) (rd : Reg) (ra : Reg) (rb : Reg) : Length.Statement (.amaxW h rd ra rb) := counted_short _ _ _ (by decide) (lt_xREG3 _ _ _ _ (by decide))
theorem Length.axchgW (h : Hdr) (rd : Reg) (ra : Reg) (rb : Reg) : Length.Statement (.axchgW h rd ra rb) := counted_short _ _ _ (by decide) (lt_xREG3 _ _ _ _ (by decide))
theorem Length.acasW (h : Hdr) (rd : Reg) (ra : Reg) (rb : Reg) : Length.Statement (.acasW h rd ra rb) := counted_short _ _ _ (by decide) (lt_xREG3 _ _ _ _ (by decide))
theorem Length.agadd (h : Hdr) (rd : Reg) (ra : Reg) (rb : Reg) : Length.Statement (.agadd h rd ra rb) := counted_short _ _ _ (by decide) (lt_xREG3 _ _ _ _ (by decide))
theorem Length.bind (h : Hdr) (rd : Reg) (ra : Reg) (rb : Reg) : Length.Statement (.bind h rd ra rb) := counted_short _ _ _ (by decide) (lt_xREG3 _ _ _ _ (by decide))
theorem Length.unbind (h : Hdr) (rd : Reg) : Length.Statement (.unbind h rd) := counted_short _ _ _ (by decide) (lt_xREG3 _ _ _ _ (by decide))
theorem Length.acq (h : Hdr) (rd : Reg) (ra : Reg) (scope : Scope) : Length.Statement (.acq h rd ra scope) := counted_short _ _ _ (by decide) (lt_xORD _ _ _ _ (by decide))
theorem Length.rel (h : Hdr) (rd : Reg) (ra : Reg) (scope : Scope) : Length.Statement (.rel h rd ra scope) := counted_short _ _ _ (by decide) (lt_xORD _ _ _ _ (by decide))
theorem Length.acqrel (h : Hdr) (rd : Reg) (ra : Reg) (scope : Scope) : Length.Statement (.acqrel h rd ra scope) := counted_short _ _ _ (by decide) (lt_xORD _ _ _ _ (by decide))
theorem Length.waitw (h : Hdr) (rd : Reg) (ra : Reg) (scope : Scope) : Length.Statement (.waitw h rd ra scope) := counted_short _ _ _ (by decide) (lt_xORD _ _ _ _ (by decide))
theorem Length.fence (h : Hdr) (paths : BitVec 7) (scope : Scope) : Length.Statement (.fence h paths scope) := counted_short _ _ _ (by decide) (lt_xFEN _ _)
theorem Length.vclaim (h : Hdr) (rd : Reg) (ra : Reg) : Length.Statement (.vclaim h rd ra) := counted_short _ _ _ (by decide) (lt_xREG3 _ _ _ _ (by decide))
theorem Length.vreneg (h : Hdr) (rd : Reg) (ra : Reg) : Length.Statement (.vreneg h rd ra) := counted_short _ _ _ (by decide) (lt_xREG3 _ _ _ _ (by decide))
theorem Length.vfree (h : Hdr) : Length.Statement (.vfree h) := counted_short _ _ _ (by decide) (lt_xREG3 _ _ _ _ (by decide))
theorem Length.pset (h : Hdr) (p : Ptr) (ra : Reg) (rb : Reg) : Length.Statement (.pset h p ra rb) := counted_short _ _ _ (by decide) (lt_xPTR _ _ _ _ (by decide))
theorem Length.pget (h : Hdr) (p : Ptr) (ra : Reg) : Length.Statement (.pget h p ra) := counted_short _ _ _ (by decide) (lt_xPTR _ _ _ _ (by decide))
theorem Length.vadd (h : Hdr) (pd : Ptr) (pa : Ptr) (pb : Ptr) (rn : Reg) (et : ElTy) : Length.Statement (.vadd h pd pa pb rn et) := counted_short _ _ _ (by decide) (lt_xVEC _ _ _ _ _)
theorem Length.vsub (h : Hdr) (pd : Ptr) (pa : Ptr) (pb : Ptr) (rn : Reg) (et : ElTy) : Length.Statement (.vsub h pd pa pb rn et) := counted_short _ _ _ (by decide) (lt_xVEC _ _ _ _ _)
theorem Length.vmul (h : Hdr) (pd : Ptr) (pa : Ptr) (pb : Ptr) (rn : Reg) (et : ElTy) : Length.Statement (.vmul h pd pa pb rn et) := counted_short _ _ _ (by decide) (lt_xVEC _ _ _ _ _)
theorem Length.vfma (h : Hdr) (pd : Ptr) (pa : Ptr) (pb : Ptr) (rn : Reg) (et : ElTy) : Length.Statement (.vfma h pd pa pb rn et) := counted_short _ _ _ (by decide) (lt_xVEC _ _ _ _ _)
theorem Length.vmin (h : Hdr) (pd : Ptr) (pa : Ptr) (pb : Ptr) (rn : Reg) (et : ElTy) : Length.Statement (.vmin h pd pa pb rn et) := counted_short _ _ _ (by decide) (lt_xVEC _ _ _ _ _)
theorem Length.vmax (h : Hdr) (pd : Ptr) (pa : Ptr) (pb : Ptr) (rn : Reg) (et : ElTy) : Length.Statement (.vmax h pd pa pb rn et) := counted_short _ _ _ (by decide) (lt_xVEC _ _ _ _ _)
theorem Length.vabs (h : Hdr) (pd : Ptr) (pa : Ptr) (rn : Reg) (et : ElTy) : Length.Statement (.vabs h pd pa rn et) := counted_short _ _ _ (by decide) (lt_xVUN _ _ _ _ _ (by decide))
theorem Length.vneg (h : Hdr) (pd : Ptr) (pa : Ptr) (rn : Reg) (et : ElTy) : Length.Statement (.vneg h pd pa rn et) := counted_short _ _ _ (by decide) (lt_xVUN _ _ _ _ _ (by decide))
theorem Length.vexp2 (h : Hdr) (pd : Ptr) (pa : Ptr) (rn : Reg) (et : ElTy) : Length.Statement (.vexp2 h pd pa rn et) := counted_short _ _ _ (by decide) (lt_xVUN _ _ _ _ _ (by decide))
theorem Length.vlog2 (h : Hdr) (pd : Ptr) (pa : Ptr) (rn : Reg) (et : ElTy) : Length.Statement (.vlog2 h pd pa rn et) := counted_short _ _ _ (by decide) (lt_xVUN _ _ _ _ _ (by decide))
theorem Length.vrcp (h : Hdr) (pd : Ptr) (pa : Ptr) (rn : Reg) (et : ElTy) : Length.Statement (.vrcp h pd pa rn et) := counted_short _ _ _ (by decide) (lt_xVUN _ _ _ _ _ (by decide))
theorem Length.vrsq (h : Hdr) (pd : Ptr) (pa : Ptr) (rn : Reg) (et : ElTy) : Length.Statement (.vrsq h pd pa rn et) := counted_short _ _ _ (by decide) (lt_xVUN _ _ _ _ _ (by decide))
theorem Length.vcopy (h : Hdr) (pd : Ptr) (pa : Ptr) (rn : Reg) (et : ElTy) : Length.Statement (.vcopy h pd pa rn et) := counted_short _ _ _ (by decide) (lt_xVUN _ _ _ _ _ (by decide))
theorem Length.vsum (h : Hdr) (mb : Obj2) (pa : Ptr) (rn : Reg) (et : ElTy) : Length.Statement (.vsum h mb pa rn et) := counted_short _ _ _ (by decide) (lt_xVRD _ _ _ _ _ (by decide))
theorem Length.vmaxr (h : Hdr) (mb : Obj2) (pa : Ptr) (rn : Reg) (et : ElTy) : Length.Statement (.vmaxr h mb pa rn et) := counted_short _ _ _ (by decide) (lt_xVRD _ _ _ _ _ (by decide))
theorem Length.vminr (h : Hdr) (mb : Obj2) (pa : Ptr) (rn : Reg) (et : ElTy) : Length.Statement (.vminr h mb pa rn et) := counted_short _ _ _ (by decide) (lt_xVRD _ _ _ _ _ (by decide))
theorem Length.vargmax (h : Hdr) (mb : Obj2) (pa : Ptr) (rn : Reg) (et : ElTy) : Length.Statement (.vargmax h mb pa rn et) := counted_short _ _ _ (by decide) (lt_xVRD _ _ _ _ _ (by decide))
theorem Length.vcmp (h : Hdr) (e : Ext) : Length.Statement (.vcmp h e) := counted_ext _ _ _ _ (by decide) (by decide)
theorem Length.vsel (h : Hdr) (e : Ext) : Length.Statement (.vsel h e) := counted_ext _ _ _ _ (by decide) (by decide)
theorem Length.vscale (h : Hdr) (e : Ext) : Length.Statement (.vscale h e) := counted_ext _ _ _ _ (by decide) (by decide)
theorem Length.vscaleLit (h : Hdr) (e : Ext) (lit : Word) : Length.Statement (.vscaleLit h e lit) := counted_extLit _ _ _ _ _ (by decide) (by decide)
theorem Length.vfill (h : Hdr) (e : Ext) : Length.Statement (.vfill h e) := counted_ext _ _ _ _ (by decide) (by decide)
theorem Length.vfillLit (h : Hdr) (e : Ext) (lit : Word) : Length.Statement (.vfillLit h e lit) := counted_extLit _ _ _ _ _ (by decide) (by decide)
theorem Length.vrand (h : Hdr) (e : Ext) : Length.Statement (.vrand h e) := counted_ext _ _ _ _ (by decide) (by decide)
theorem Length.vrandLit (h : Hdr) (e : Ext) (lit : Word) : Length.Statement (.vrandLit h e lit) := counted_extLit _ _ _ _ _ (by decide) (by decide)
theorem Length.vnzc (h : Hdr) (e : Ext) : Length.Statement (.vnzc h e) := counted_ext _ _ _ _ (by decide) (by decide)
theorem Length.vchain (h : Hdr) (e : Ext) : Length.Statement (.vchain h e) := counted_ext _ _ _ _ (by decide) (by decide)
theorem Length.vchainLit (h : Hdr) (e : Ext) (lit : Word) : Length.Statement (.vchainLit h e lit) := counted_extLit _ _ _ _ _ (by decide) (by decide)
theorem Length.vcvt (h : Hdr) (e : Ext) : Length.Statement (.vcvt h e) := counted_ext _ _ _ _ (by decide) (by decide)
theorem Length.vcvtLit (h : Hdr) (e : Ext) (lit : Word) : Length.Statement (.vcvtLit h e lit) := counted_extLit _ _ _ _ _ (by decide) (by decide)
theorem Length.vqmx (h : Hdr) (e : Ext) : Length.Statement (.vqmx h e) := counted_ext _ _ _ _ (by decide) (by decide)
theorem Length.vqmxLit (h : Hdr) (e : Ext) (lit : Word) : Length.Statement (.vqmxLit h e lit) := counted_extLit _ _ _ _ _ (by decide) (by decide)
theorem Length.vdqmx (h : Hdr) (e : Ext) : Length.Statement (.vdqmx h e) := counted_ext _ _ _ _ (by decide) (by decide)
theorem Length.vqa (h : Hdr) (e : Ext) : Length.Statement (.vqa h e) := counted_ext _ _ _ _ (by decide) (by decide)
theorem Length.vqaLit (h : Hdr) (e : Ext) (lit : Word) : Length.Statement (.vqaLit h e lit) := counted_extLit _ _ _ _ _ (by decide) (by decide)
theorem Length.ashape (h : Hdr) (a : Tile) (rows : BitVec 8) (cc : BitVec 2) : Length.Statement (.ashape h a rows cc) := counted_short _ _ _ (by decide) (lt_xTSH _ _ _)
theorem Length.adatum (h : Hdr) (a : Tile) (d : BitVec 9) : Length.Statement (.adatum h a d) := counted_short _ _ _ (by decide) (lt_xTDT _ _)
theorem Length.azero (h : Hdr) (a : Tile) : Length.Statement (.azero h a) := counted_short _ _ _ (by decide) (lt_xTMS _ _ _ (by decide))
theorem Length.astat (h : Hdr) (a : Tile) (rd : Reg) : Length.Statement (.astat h a rd) := counted_short _ _ _ (by decide) (lt_xTMS _ _ _ (by decide))
theorem Length.achk (h : Hdr) (a : Tile) (rd : Reg) : Length.Statement (.achk h a rd) := counted_short _ _ _ (by decide) (lt_xTMS _ _ _ (by decide))
theorem Length.cld (h : Hdr) (e : Ext) : Length.Statement (.cld h e) := counted_ext _ _ _ _ (by decide) (by decide)
theorem Length.cldLit (h : Hdr) (e : Ext) (lit : Word) : Length.Statement (.cldLit h e lit) := counted_extLit _ _ _ _ _ (by decide) (by decide)
theorem Length.cldc (h : Hdr) (e : Ext) : Length.Statement (.cldc h e) := counted_ext _ _ _ _ (by decide) (by decide)
theorem Length.cldcLit (h : Hdr) (e : Ext) (lit : Word) : Length.Statement (.cldcLit h e lit) := counted_extLit _ _ _ _ _ (by decide) (by decide)
theorem Length.cldSp (h : Hdr) (e : Ext) : Length.Statement (.cldSp h e) := counted_ext _ _ _ _ (by decide) (by decide)
theorem Length.cldSpLit (h : Hdr) (e : Ext) (lit : Word) : Length.Statement (.cldSpLit h e lit) := counted_extLit _ _ _ _ _ (by decide) (by decide)
theorem Length.old (h : Hdr) (e : Ext) : Length.Statement (.old h e) := counted_ext _ _ _ _ (by decide) (by decide)
theorem Length.oldLit (h : Hdr) (e : Ext) (lit : Word) : Length.Statement (.oldLit h e lit) := counted_extLit _ _ _ _ _ (by decide) (by decide)
theorem Length.oldT (h : Hdr) (e : Ext) : Length.Statement (.oldT h e) := counted_ext _ _ _ _ (by decide) (by decide)
theorem Length.oldTLit (h : Hdr) (e : Ext) (lit : Word) : Length.Statement (.oldTLit h e lit) := counted_extLit _ _ _ _ _ (by decide) (by decide)
theorem Length.ocols (h : Hdr) (e : Ext) : Length.Statement (.ocols h e) := counted_ext _ _ _ _ (by decide) (by decide)
theorem Length.adrain (h : Hdr) (e : Ext) : Length.Statement (.adrain h e) := counted_ext _ _ _ _ (by decide) (by decide)
theorem Length.adrainLit (h : Hdr) (e : Ext) (lit : Word) : Length.Statement (.adrainLit h e lit) := counted_extLit _ _ _ _ _ (by decide) (by decide)
theorem Length.slotw (h : Hdr) (ra : Reg) (rb : Reg) : Length.Statement (.slotw h ra rb) := counted_short _ _ _ (by decide) (lt_xREG3 _ _ _ _ (by decide))
theorem Length.hopen (h : Hdr) (o : Obj2) (rd : Reg) (ra : Reg) : Length.Statement (.hopen h o rd ra) := counted_short _ _ _ (by decide) (lt_xOB2 _ _ _ _ (by decide))
theorem Length.hclose (h : Hdr) (o : Obj2) (rd : Reg) : Length.Statement (.hclose h o rd) := counted_short _ _ _ (by decide) (lt_xOB2 _ _ _ _ (by decide))
theorem Length.hbatch (h : Hdr) (o : Obj2) (rd : Reg) : Length.Statement (.hbatch h o rd) := counted_short _ _ _ (by decide) (lt_xOB2 _ _ _ _ (by decide))
theorem Length.hlist (h : Hdr) (o : Obj2) (rd : Reg) (ra : Reg) : Length.Statement (.hlist h o rd ra) := counted_short _ _ _ (by decide) (lt_xOB2 _ _ _ _ (by decide))
theorem Length.hattach (h : Hdr) (o : Obj2) (rd : Reg) (ra : Reg) : Length.Statement (.hattach h o rd ra) := counted_short _ _ _ (by decide) (lt_xOB2 _ _ _ _ (by decide))
theorem Length.hdetach (h : Hdr) (o : Obj2) (rd : Reg) (ra : Reg) : Length.Statement (.hdetach h o rd ra) := counted_short _ _ _ (by decide) (lt_xOB2 _ _ _ _ (by decide))
theorem Length.hswap (h : Hdr) (o : Obj2) (rd : Reg) (ra : Reg) : Length.Statement (.hswap h o rd ra) := counted_short _ _ _ (by decide) (lt_xOB2 _ _ _ _ (by decide))
theorem Length.hverify (h : Hdr) (o : Obj2) (rd : Reg) : Length.Statement (.hverify h o rd) := counted_short _ _ _ (by decide) (lt_xOB2 _ _ _ _ (by decide))
theorem Length.hfold (h : Hdr) (o : Obj2) (rd : Reg) (ra : Reg) : Length.Statement (.hfold h o rd ra) := counted_short _ _ _ (by decide) (lt_xOB2 _ _ _ _ (by decide))
theorem Length.tclr (h : Hdr) (t : TreeR) (ra : Reg) : Length.Statement (.tclr h t ra) := counted_short _ _ _ (by decide) (lt_xTRE _ _ _ _ (by decide))
theorem Length.tset (h : Hdr) (t : TreeR) (rd : Reg) (ra : Reg) : Length.Statement (.tset h t rd ra) := counted_short _ _ _ (by decide) (lt_xTRE _ _ _ _ (by decide))
theorem Length.tadd (h : Hdr) (t : TreeR) (rd : Reg) (ra : Reg) : Length.Statement (.tadd h t rd ra) := counted_short _ _ _ (by decide) (lt_xTRE _ _ _ _ (by decide))
theorem Length.tpref (h : Hdr) (t : TreeR) (rd : Reg) (ra : Reg) : Length.Statement (.tpref h t rd ra) := counted_short _ _ _ (by decide) (lt_xTRE _ _ _ _ (by decide))
theorem Length.tfind (h : Hdr) (t : TreeR) (rd : Reg) (ra : Reg) : Length.Statement (.tfind h t rd ra) := counted_short _ _ _ (by decide) (lt_xTRE _ _ _ _ (by decide))
theorem Length.tcut (h : Hdr) (t : TreeR) (rd : Reg) (ra : Reg) : Length.Statement (.tcut h t rd ra) := counted_short _ _ _ (by decide) (lt_xTRE _ _ _ _ (by decide))
theorem Length.ttot (h : Hdr) (t : TreeR) (rd : Reg) (ra : Reg) : Length.Statement (.ttot h t rd ra) := counted_short _ _ _ (by decide) (lt_xTRE _ _ _ _ (by decide))
theorem Length.tloadM32 (h : Hdr) (t : TreeR) (ra : Reg) (rb : Reg) : Length.Statement (.tloadM32 h t ra rb) := counted_short _ _ _ (by decide) (lt_xTRL _ _ _ _ (by decide))
theorem Length.tloadM16 (h : Hdr) (t : TreeR) (ra : Reg) (rb : Reg) : Length.Statement (.tloadM16 h t ra rb) := counted_short _ _ _ (by decide) (lt_xTRL _ _ _ _ (by decide))
theorem Length.tstore (h : Hdr) (t : TreeR) (ra : Reg) (rb : Reg) : Length.Statement (.tstore h t ra rb) := counted_short _ _ _ (by decide) (lt_xTRL _ _ _ _ (by decide))
theorem Length.ppush (h : Hdr) (b : Bearing) (rd : Reg) : Length.Statement (.ppush h b rd) := counted_short _ _ _ (by decide) (lt_xPRT _ _ _ _ (by decide))
theorem Length.ppop (h : Hdr) (b : Bearing) (rd : Reg) (cd : Pr) : Length.Statement (.ppop h b rd cd) := counted_short _ _ _ (by decide) (lt_xPRT _ _ _ _ (by decide))
theorem Length.ppeek (h : Hdr) (b : Bearing) (rd : Reg) (cd : Pr) : Length.Statement (.ppeek h b rd cd) := counted_short _ _ _ (by decide) (lt_xPRT _ _ _ _ (by decide))
theorem Length.pcount (h : Hdr) (b : Bearing) (rd : Reg) : Length.Statement (.pcount h b rd) := counted_short _ _ _ (by decide) (lt_xPRT _ _ _ _ (by decide))
theorem Length.peos (h : Hdr) (b : Bearing) : Length.Statement (.peos h b) := counted_short _ _ _ (by decide) (lt_xPRT _ _ _ _ (by decide))
theorem Length.pconf (h : Hdr) (b : Bearing) (rd : Reg) : Length.Statement (.pconf h b rd) := counted_short _ _ _ (by decide) (lt_xPRT _ _ _ _ (by decide))
theorem Length.mbw (h : Hdr) (mb : Obj2) (rd : Reg) : Length.Statement (.mbw h mb rd) := counted_short _ _ _ (by decide) (lt_xMBX _ _ _ (by decide))
theorem Length.mbr (h : Hdr) (mb : Obj2) (rd : Reg) : Length.Statement (.mbr h mb rd) := counted_short _ _ _ (by decide) (lt_xMBX _ _ _ (by decide))
theorem Length.plnew (h : Hdr) (o : Obj2) (rd : Reg) (ra : Reg) : Length.Statement (.plnew h o rd ra) := counted_short _ _ _ (by decide) (lt_xOB2 _ _ _ _ (by decide))
theorem Length.plset (h : Hdr) (o : Obj2) (rd : Reg) (ra : Reg) : Length.Statement (.plset h o rd ra) := counted_short _ _ _ (by decide) (lt_xOB2 _ _ _ _ (by decide))
theorem Length.plget (h : Hdr) (o : Obj2) (rd : Reg) (ra : Reg) : Length.Statement (.plget h o rd ra) := counted_short _ _ _ (by decide) (lt_xOB2 _ _ _ _ (by decide))
theorem Length.cpy (h : Hdr) (rd : Reg) (ra : Reg) : Length.Statement (.cpy h rd ra) := counted_short _ _ _ (by decide) (lt_xREG3 _ _ _ _ (by decide))
theorem Length.cpynb (h : Hdr) (rd : Reg) (ra : Reg) : Length.Statement (.cpynb h rd ra) := counted_short _ _ _ (by decide) (lt_xREG3 _ _ _ _ (by decide))
theorem Length.swinit (h : Hdr) (ra : Reg) (rb : Reg) : Length.Statement (.swinit h ra rb) := counted_short _ _ _ (by decide) (lt_xREG3 _ _ _ _ (by decide))
theorem Length.swwait (h : Hdr) (ra : Reg) (rb : Reg) : Length.Statement (.swwait h ra rb) := counted_short _ _ _ (by decide) (lt_xREG3 _ _ _ _ (by decide))
theorem Length.rinit (h : Hdr) (g : Ring) (rd : Reg) (ra : Reg) : Length.Statement (.rinit h g rd ra) := counted_short _ _ _ (by decide) (lt_xRNG _ _ _ _ (by decide))
theorem Length.rawait (h : Hdr) (g : Ring) (rd : Reg) (ra : Reg) : Length.Statement (.rawait h g rd ra) := counted_short _ _ _ (by decide) (lt_xRNG _ _ _ _ (by decide))
theorem Length.rrel (h : Hdr) (g : Ring) (rd : Reg) (ra : Reg) : Length.Statement (.rrel h g rd ra) := counted_short _ _ _ (by decide) (lt_xRNG _ _ _ _ (by decide))
theorem Length.rseq (h : Hdr) (g : Ring) (rd : Reg) (ra : Reg) : Length.Statement (.rseq h g rd ra) := counted_short _ _ _ (by decide) (lt_xRNG _ _ _ _ (by decide))
theorem Length.reos (h : Hdr) (g : Ring) (rd : Reg) (ra : Reg) : Length.Statement (.reos h g rd ra) := counted_short _ _ _ (by decide) (lt_xRNG _ _ _ _ (by decide))
theorem Length.gpost (h : Hdr) (rd : Reg) (ra : Reg) : Length.Statement (.gpost h rd ra) := counted_short _ _ _ (by decide) (lt_xREG3 _ _ _ _ (by decide))
theorem Length.gwait (h : Hdr) (rd : Reg) (ra : Reg) : Length.Statement (.gwait h rd ra) := counted_short _ _ _ (by decide) (lt_xREG3 _ _ _ _ (by decide))
theorem Length.gid (h : Hdr) (rd : Reg) (ra : Reg) : Length.Statement (.gid h rd ra) := counted_short _ _ _ (by decide) (lt_xREG3 _ _ _ _ (by decide))
theorem Length.dqpush (h : Hdr) (rd : Reg) (ra : Reg) : Length.Statement (.dqpush h rd ra) := counted_short _ _ _ (by decide) (lt_xREG3 _ _ _ _ (by decide))
theorem Length.dqpop (h : Hdr) (rd : Reg) : Length.Statement (.dqpop h rd) := counted_short _ _ _ (by decide) (lt_xREG3 _ _ _ _ (by decide))
theorem Length.dqsplit (h : Hdr) (rd : Reg) (ra : Reg) : Length.Statement (.dqsplit h rd ra) := counted_short _ _ _ (by decide) (lt_xREG3 _ _ _ _ (by decide))
theorem Length.dqsteal (h : Hdr) (rd : Reg) (ra : Reg) : Length.Statement (.dqsteal h rd ra) := counted_short _ _ _ (by decide) (lt_xREG3 _ _ _ _ (by decide))
theorem Length.suspend (h : Hdr) (rd : Reg) : Length.Statement (.suspend h rd) := counted_short _ _ _ (by decide) (lt_xREG3 _ _ _ _ (by decide))
theorem Length.btest (h : Hdr) (rd : Reg) (ra : Reg) (rb : Reg) : Length.Statement (.btest h rd ra rb) := counted_short _ _ _ (by decide) (lt_xREG3 _ _ _ _ (by decide))
theorem Length.stb (h : Hdr) (rd : Reg) (ra : Reg) (rb : Reg) : Length.Statement (.stb h rd ra rb) := counted_short _ _ _ (by decide) (lt_xREG3 _ _ _ _ (by decide))
theorem Length.binit (h : Hdr) (rd : Reg) (ra : Reg) (rb : Reg) : Length.Statement (.binit h rd ra rb) := counted_short _ _ _ (by decide) (lt_xREG3 _ _ _ _ (by decide))
theorem Length.bexp (h : Hdr) (rd : Reg) (ra : Reg) (rb : Reg) : Length.Statement (.bexp h rd ra rb) := counted_short _ _ _ (by decide) (lt_xREG3 _ _ _ _ (by decide))
theorem Length.barv (h : Hdr) (rd : Reg) (ra : Reg) (rb : Reg) : Length.Statement (.barv h rd ra rb) := counted_short _ _ _ (by decide) (lt_xREG3 _ _ _ _ (by decide))
theorem Length.bwait (h : Hdr) (rd : Reg) (ra : Reg) : Length.Statement (.bwait h rd ra) := counted_short _ _ _ (by decide) (lt_xREG3 _ _ _ _ (by decide))
theorem Length.ksig (h : Hdr) (rd : Reg) (ra : Reg) (rb : Reg) : Length.Statement (.ksig h rd ra rb) := counted_short _ _ _ (by decide) (lt_xREG3 _ _ _ _ (by decide))
theorem Length.klaunch (h : Hdr) (rd : Reg) (ra : Reg) (rb : Reg) : Length.Statement (.klaunch h rd ra rb) := counted_short _ _ _ (by decide) (lt_xREG3 _ _ _ _ (by decide))
theorem Length.keos (h : Hdr) (rd : Reg) : Length.Statement (.keos h rd) := counted_short _ _ _ (by decide) (lt_xREG3 _ _ _ _ (by decide))
theorem Length.cgrp (h : Hdr) (e : Ext) : Length.Statement (.cgrp h e) := counted_ext _ _ _ _ (by decide) (by decide)
theorem Length.cag (h : Hdr) (e : Ext) : Length.Statement (.cag h e) := counted_ext _ _ _ _ (by decide) (by decide)
theorem Length.cagLit (h : Hdr) (e : Ext) (lit : Word) : Length.Statement (.cagLit h e lit) := counted_extLit _ _ _ _ _ (by decide) (by decide)
theorem Length.crs (h : Hdr) (e : Ext) : Length.Statement (.crs h e) := counted_ext _ _ _ _ (by decide) (by decide)
theorem Length.crsLit (h : Hdr) (e : Ext) (lit : Word) : Length.Statement (.crsLit h e lit) := counted_extLit _ _ _ _ _ (by decide) (by decide)
theorem Length.ca2a (h : Hdr) (e : Ext) : Length.Statement (.ca2a h e) := counted_ext _ _ _ _ (by decide) (by decide)
theorem Length.ca2aLit (h : Hdr) (e : Ext) (lit : Word) : Length.Statement (.ca2aLit h e lit) := counted_extLit _ _ _ _ _ (by decide) (by decide)
theorem Length.cbar (h : Hdr) (e : Ext) : Length.Statement (.cbar h e) := counted_ext _ _ _ _ (by decide) (by decide)
theorem Length.cwait (h : Hdr) (rd : Reg) (ra : Reg) : Length.Statement (.cwait h rd ra) := counted_short _ _ _ (by decide) (lt_xREG3 _ _ _ _ (by decide))
theorem Length.ctest (h : Hdr) (rd : Reg) (ra : Reg) : Length.Statement (.ctest h rd ra) := counted_short _ _ _ (by decide) (lt_xREG3 _ _ _ _ (by decide))
theorem Length.rseed (h : Hdr) (ra : Reg) : Length.Statement (.rseed h ra) := counted_short _ _ _ (by decide) (lt_xREG3 _ _ _ _ (by decide))
theorem Length.rgen (h : Hdr) (rd : Reg) (ra : Reg) (rb : Reg) : Length.Statement (.rgen h rd ra rb) := counted_short _ _ _ (by decide) (lt_xREG3 _ _ _ _ (by decide))
theorem Length.rnoise (h : Hdr) (rd : Reg) : Length.Statement (.rnoise h rd) := counted_short _ _ _ (by decide) (lt_xREG3 _ _ _ _ (by decide))
theorem Length.rlog (h : Hdr) (rd : Reg) (ra : Reg) : Length.Statement (.rlog h rd ra) := counted_short _ _ _ (by decide) (lt_xREG3 _ _ _ _ (by decide))
theorem Length.mseq (h : Hdr) (e : Ext) : Length.Statement (.mseq h e) := counted_ext _ _ _ _ (by decide) (by decide)
theorem Length.mseqLit (h : Hdr) (e : Ext) (lit : Word) : Length.Statement (.mseqLit h e lit) := counted_extLit _ _ _ _ _ (by decide) (by decide)
theorem Length.trap (h : Hdr) (imm : BitVec 8) : Length.Statement (.trap h imm) := counted_short _ _ _ (by decide) (lt_xSYS _ _ _ (by decide))
theorem Length.eret (h : Hdr) : Length.Statement (.eret h) := counted_short _ _ _ (by decide) (lt_xSYS _ _ _ (by decide))
theorem Length.eretAb (h : Hdr) : Length.Statement (.eretAb h) := counted_short _ _ _ (by decide) (lt_xSYS _ _ _ (by decide))
theorem Length.csrr (h : Hdr) (rd : Reg) (imm : BitVec 8) : Length.Statement (.csrr h rd imm) := counted_short _ _ _ (by decide) (lt_xSYS _ _ _ (by decide))
theorem Length.csrw (h : Hdr) (rd : Reg) (imm : BitVec 8) : Length.Statement (.csrw h rd imm) := counted_short _ _ _ (by decide) (lt_xSYS _ _ _ (by decide))
theorem Length.csrs (h : Hdr) (rd : Reg) (imm : BitVec 8) : Length.Statement (.csrs h rd imm) := counted_short _ _ _ (by decide) (lt_xSYS _ _ _ (by decide))
theorem Length.csrc (h : Hdr) (rd : Reg) (imm : BitVec 8) : Length.Statement (.csrc h rd imm) := counted_short _ _ _ (by decide) (lt_xSYS _ _ _ (by decide))
theorem Length.wcall (h : Hdr) (rd : Reg) (imm : BitVec 8) : Length.Statement (.wcall h rd imm) := counted_short _ _ _ (by decide) (lt_xSYS _ _ _ (by decide))
theorem Length.sleep (h : Hdr) (rd : Reg) : Length.Statement (.sleep h rd) := counted_short _ _ _ (by decide) (lt_xSYS _ _ _ (by decide))
theorem Length.contw (h : Hdr) (rd : Reg) : Length.Statement (.contw h rd) := counted_short _ _ _ (by decide) (lt_xSYS _ _ _ (by decide))
theorem Length.contr (h : Hdr) (rd : Reg) (slot : Fin 16) : Length.Statement (.contr h rd slot) := counted_short _ _ _ (by decide) (lt_xSYS _ _ _ (by decide))
theorem Length.shoot (h : Hdr) (rd : Reg) : Length.Statement (.shoot h rd) := counted_short _ _ _ (by decide) (lt_xSYS _ _ _ (by decide))
theorem Length.sliceWrite (h : Hdr) (rd : Reg) : Length.Statement (.sliceWrite h rd) := counted_short _ _ _ (by decide) (lt_xSYS _ _ _ (by decide))
theorem Length.create : Length.Statement (.create) := .inl rfl
theorem Length.destroy : Length.Statement (.destroy) := .inl rfl
theorem Length.qopen : Length.Statement (.qopen) := .inl rfl
theorem Length.qclose : Length.Statement (.qclose) := .inl rfl
theorem Length.linkup : Length.Statement (.linkup) := .inl rfl
theorem Length.linkfence : Length.Statement (.linkfence) := .inl rfl
theorem Length.linkdown : Length.Statement (.linkdown) := .inl rfl
theorem Length.settvec : Length.Statement (.settvec) := .inl rfl
theorem Length.dbgset : Length.Statement (.dbgset) := .inl rfl
theorem Length.dstop : Length.Statement (.dstop) := .inl rfl
theorem Length.dresume : Length.Statement (.dresume) := .inl rfl
theorem Length.trcset : Length.Statement (.trcset) := .inl rfl
theorem Length.loadobj : Length.Statement (.loadobj) := .inl rfl
theorem Length.finalisedCacheDrop (ix : Nat) : Length.Statement (.finalisedCacheDrop ix) := .inl rfl
theorem Length.powerUp (flash : List (BitVec 8)) (pop : List Nat) (ident : Bool) (fw : List (List (BitVec 8))) (train : Bool) : Length.Statement (.powerUp flash pop ident fw train) := .inl rfl
theorem Length.pendingReturn (uid : Nat) (id : Nat) : Length.Statement (.pendingReturn uid id) := .inl rfl
theorem Length.repIterationIssue (uid : Nat) : Length.Statement (.repIterationIssue uid) := .inl rfl
theorem Length.thermalInterval (core : Nat) (temp : Nat) : Length.Statement (.thermalInterval core temp) := .inl rfl
theorem Length.thermalDisplacement (uid : Nat) : Length.Statement (.thermalDisplacement uid) := .inl rfl
theorem Length.noiseWordDelivery (cl : Nat) : Length.Statement (.noiseWordDelivery cl) := .inl rfl
theorem Length.noiseHealthFail (cl : Nat) : Length.Statement (.noiseHealthFail cl) := .inl rfl
theorem Length.noiseHealthPass (cl : Nat) : Length.Statement (.noiseHealthPass cl) := .inl rfl
theorem Length.storeAtHome (ix : Nat) (m : Fabric) : Length.Statement (.storeAtHome ix m) := .inl rfl
theorem Length.readAtHome (uid : Nat) (id : Nat) : Length.Statement (.readAtHome uid id) := .inl rfl
theorem Length.atomicAtHome (uid : Nat) (id : Nat) : Length.Statement (.atomicAtHome uid id) := .inl rfl
theorem Length.pageWalk (core : Nat) (ctx : Nat) (va : Nat) : Length.Statement (.pageWalk core ctx va) := .inl rfl
theorem Length.sliceScrub (slice : Nat) (fixed : Nat) (bad : List Nat) : Length.Statement (.sliceScrub slice fixed bad) := .inl rfl
theorem Length.accessCountFlush (who : Nat) (ctx : Nat) (va : Nat) : Length.Statement (.accessCountFlush who ctx va) := .inl rfl
theorem Length.hotPageRecord (ix : Nat) : Length.Statement (.hotPageRecord ix) := .inl rfl
theorem Length.wbRetranslate (who : Nat) (ctx : Nat) (va : Nat) : Length.Statement (.wbRetranslate who ctx va) := .inl rfl
theorem Length.releasePerform (core : Nat) : Length.Statement (.releasePerform core) := .inl rfl
theorem Length.acqAtHome (uid : Nat) (id : Nat) : Length.Statement (.acqAtHome uid id) := .inl rfl
theorem Length.acqrelExchange (core : Nat) : Length.Statement (.acqrelExchange core) := .inl rfl
theorem Length.waitwRegister (uid : Nat) (id : Nat) : Length.Statement (.waitwRegister uid id) := .inl rfl
theorem Length.watchPoll (uid : Nat) (id : Nat) : Length.Statement (.watchPoll uid id) := .inl rfl
theorem Length.scopeMissHandle (core : Nat) : Length.Statement (.scopeMissHandle core) := .inl rfl
theorem Length.bindPropagate (src : Nat) (dst : Nat) : Length.Statement (.bindPropagate src dst) := .inl rfl
theorem Length.probeEcho (core : Nat) (isPort : Bool) (ix : Nat) : Length.Statement (.probeEcho core isPort ix) := .inl rfl
theorem Length.laneGrant (cl : Nat) : Length.Statement (.laneGrant cl) := .inl rfl
theorem Length.vectorPerform (uid : Nat) : Length.Statement (.vectorPerform uid) := .inl rfl
theorem Length.engineOpPerform (core : Nat) (ctx : Nat) (seq : Nat) : Length.Statement (.engineOpPerform core ctx seq) := .inl rfl
theorem Length.sectorRequest (core : Nat) (ctx : Nat) (seq : Nat) : Length.Statement (.sectorRequest core ctx seq) := .inl rfl
theorem Length.sectorReply (core : Nat) (ctx : Nat) (seq : Nat) (t : Nat) : Length.Statement (.sectorReply core ctx seq t) := .inl rfl
theorem Length.traverseReservation (core : Nat) (ctx : Nat) (seq : Nat) : Length.Statement (.traverseReservation core ctx seq) := .inl rfl
theorem Length.traverseData (core : Nat) (ctx : Nat) (seq : Nat) : Length.Statement (.traverseData core ctx seq) := .inl rfl
theorem Length.slotFrameBoundary (core : Nat) : Length.Statement (.slotFrameBoundary core) := .inl rfl
theorem Length.sliceRerun (core : Nat) (ctx : Nat) (seq : Nat) : Length.Statement (.sliceRerun core ctx seq) := .inl rfl
theorem Length.handleHomePerform (uid : Nat) (id : Nat) : Length.Statement (.handleHomePerform uid id) := .inl rfl
theorem Length.handleScrub (ctx : Nat) (va : Nat) (shard : Nat) : Length.Statement (.handleScrub ctx va shard) := .inl rfl
theorem Length.foldJobStart (die : Nat) : Length.Statement (.foldJobStart die) := .inl rfl
theorem Length.foldCommit (die : Nat) : Length.Statement (.foldCommit die) := .inl rfl
theorem Length.foldFail (die : Nat) : Length.Statement (.foldFail die) := .inl rfl
theorem Length.treeUnitPerform (core : Nat) (ctx : Nat) : Length.Statement (.treeUnitPerform core ctx) := .inl rfl
theorem Length.portValueLand (ix : Nat) : Length.Statement (.portValueLand ix) := .inl rfl
theorem Length.portCreditReturn (ix : Nat) : Length.Statement (.portCreditReturn ix) := .inl rfl
theorem Length.portClosedNotice (uid : Nat) (b : Nat) : Length.Statement (.portClosedNotice uid b) := .inl rfl
theorem Length.portDeadlock (kern : Nat) (grp : Nat) : Length.Statement (.portDeadlock kern grp) := .inl rfl
theorem Length.copyStart (core : Nat) (e : Nat) : Length.Statement (.copyStart core e) := .inl rfl
theorem Length.copyError (e : Nat) : Length.Statement (.copyError e) := .inl rfl
theorem Length.copyComplete (e : Nat) : Length.Statement (.copyComplete e) := .inl rfl
theorem Length.gatherPerform (cl : Nat) : Length.Statement (.gatherPerform cl) := .inl rfl
theorem Length.groupPlacement (kern : Nat) (grp : Nat) : Length.Statement (.groupPlacement kern grp) := .inl rfl
theorem Length.dequeUnitPerform (uid : Nat) (id : Nat) : Length.Statement (.dequeUnitPerform uid id) := .inl rfl
theorem Length.idleMonitorTest (kern : Nat) (grp : Nat) (uid : Nat) (ix : Nat) : Length.Statement (.idleMonitorTest kern grp uid ix) := .inl rfl
theorem Length.barrierUnitPerform (uid : Nat) (id : Nat) : Length.Statement (.barrierUnitPerform uid id) := .inl rfl
theorem Length.barrierPoll (uid : Nat) (id : Nat) : Length.Statement (.barrierPoll uid id) := .inl rfl
theorem Length.queueTake (ctx : Nat) (qn : Nat) : Length.Statement (.queueTake ctx qn) := .inl rfl
theorem Length.overrun (kern : Nat) (grp : Nat) : Length.Statement (.overrun kern grp) := .inl rfl
theorem Length.kernelCompletion (kern : Nat) : Length.Statement (.kernelCompletion kern) := .inl rfl
theorem Length.transformRun (kern : Nat) : Length.Statement (.transformRun kern) := .inl rfl
theorem Length.meshInterrupt (core : Nat) : Length.Statement (.meshInterrupt core) := .inl rfl
theorem Length.saveComplete (core : Nat) : Length.Statement (.saveComplete core) := .inl rfl
theorem Length.restore (core : Nat) : Length.Statement (.restore core) := .inl rfl
theorem Length.redelivery (ctx : Nat) (core : Nat) : Length.Statement (.redelivery ctx core) := .inl rfl
theorem Length.spillRetry (ctx : Nat) : Length.Statement (.spillRetry ctx) := .inl rfl
theorem Length.portTrainingEnd (port : Nat) (lanes : Nat) (peer : Nat) : Length.Statement (.portTrainingEnd port lanes peer) := .inl rfl
theorem Length.laneFailure (port : Nat) (working : Nat) : Length.Statement (.laneFailure port working) := .inl rfl
theorem Length.messageDiscard (wr : Bool) (uid : Nat) (id : Nat) : Length.Statement (.messageDiscard wr uid id) := .inl rfl
theorem Length.meshCountDump : Length.Statement (.meshCountDump) := .inl rfl
theorem Length.collectiveReservation (id : Nat) (flow : Nat) : Length.Statement (.collectiveReservation id flow) := .inl rfl
theorem Length.collectiveChunk (id : Nat) (flow : Nat) (sec : Nat) : Length.Statement (.collectiveChunk id flow sec) := .inl rfl
theorem Length.reductionCombine (id : Nat) (chunk : Nat) (sec : Nat) (level : Nat) (ix : Nat) : Length.Statement (.reductionCombine id chunk sec level ix) := .inl rfl
theorem Length.reductionPartialSpill (id : Nat) (chunk : Nat) (sec : Nat) (level : Nat) (ix : Nat) : Length.Statement (.reductionPartialSpill id chunk sec level ix) := .inl rfl
theorem Length.sample (core : Nat) : Length.Statement (.sample core) := .inl rfl
theorem Length.tracePushback : Length.Statement (.tracePushback) := .inl rfl
theorem Length.flitReplay (port : Nat) (corrected : Bool) : Length.Statement (.flitReplay port corrected) := .inl rfl
theorem Length.powerRemoval : Length.Statement (.powerRemoval) := .inl rfl
theorem Length.promiseMissed (which : Nat) (id : Nat) : Length.Statement (.promiseMissed which id) := .inl rfl
theorem Length.tracePushbackRelease : Length.Statement (.tracePushbackRelease) := .inl rfl
theorem Length.windowEnd (kern : Nat) (grp : Nat) : Length.Statement (.windowEnd kern grp) := .inl rfl

end Sys2Proof.Laws
end

