-- ==== Sys2Proof/Tests/Slice0.lean ====
section
/-! SUPPORT. The model's own tests: a refused term for each check of WellFormed, words written out from the spec, single steps
whose results the spec gives, and for every statement states and operands that meet its hypotheses. -/

namespace Sys2Proof.Tests
open Sys2Proof Sys2Proof.Machine

set_option Elab.async false

/-- No close, no guard; and the same with the close bit. -/
def hd : Hdr := ⟨false, 0, false⟩
def hc : Hdr := ⟨true, 0, false⟩

-- Well-formedness: a term that each check refuses, beside one that differs only there and passes.

/-- The first term passes, and none of the others does. -/
def onlyFirst (is : List Instr) : Bool :=
  match is with
  | [] => false
  | i :: js => i.wf && js.all fun j => !j.wf

theorem test_wf_literals : onlyFirst [.bfxLit hd 9 10 0x3F3F, .bfxLit hd 9 10 0x4000, .bfxLit hd 9 10 0x40] = true ∧
    onlyFirst [.bfiLit hd 9 10 0x3F3F, .bfiLit hd 9 10 0x4000, .bfiLit hd 9 10 0x80] = true ∧
    onlyFirst [.cmpi hd 1 8 .geu 0, .cmpi hd 1 8 .tst 0, .cmpi hd 1 8 .ntst 0] = true ∧
    onlyFirst [.cmpiLit hd 1 8 .geu 0, .cmpiLit hd 1 8 .tst 0, .cmpiLit hd 1 8 .ntst 0] = true := by decide +kernel

theorem test_wf_registers : onlyFirst [.ldp hd 10 8 0, .ldp hd 11 8 0] = true ∧ onlyFirst [.ldpLit hd 30 8 0, .ldpLit hd 31 8 0] = true ∧
    onlyFirst [.stp hd 0 8 0, .stp hd 1 8 0] = true ∧ onlyFirst [.stpLit hd 10 8 0, .stpLit hd 11 8 0] = true ∧
    onlyFirst [.cpy hd 9 28, .cpy hd 9 29, .cpy hd 9 7] = true ∧ onlyFirst [.cpynb hd 9 8, .cpynb hd 9 29, .cpynb hd 9 7] = true := by
  decide +kernel

theorem test_wf_fields : onlyFirst [.fence hd 1 .die, .fence hd 0 .die] = true ∧
    onlyFirst [.vexp2 hd 0 1 9 .f16, .vexp2 hd 0 1 9 .i32] = true ∧ onlyFirst [.vlog2 hd 0 1 9 .f32, .vlog2 hd 0 1 9 .i16] = true ∧
    onlyFirst [.vrcp hd 0 1 9 .bf16, .vrcp hd 0 1 9 .i8] = true ∧ onlyFirst [.vrsq hd 0 1 9 .f32, .vrsq hd 0 1 9 .i32] = true ∧
    onlyFirst [.adatum hd 0 96, .adatum hd 0 97, .adatum hd 0 (-161)] = true ∧ (Instr.adatum hd 0 (-160)).wf = true ∧
    onlyFirst [.csrw hd 9 0x24, .csrw hd 9 0x25, .csrw hd 9 0x0C] = true := by decide +kernel

/-- An extended instruction with a legal word, and words that differ from it in one field. -/
def onlyLegal (i : Ext → Instr) (e : Ext) (bad : List Ext) : Bool := onlyFirst (i e :: bad.map i)

def x0 : Ext := ⟨10, 0, 0, 0, 0, 0, 0, 0, 0, 0⟩

theorem test_wf_vector : onlyLegal (.vcmp hd) { x0 with mode := 0x25 }
      [{ x0 with f1 := 1 }, { x0 with f2 := 1 }, { x0 with f3 := 1 }, { x0 with mark := 4 }, { x0 with obj0 := 8 }, { x0 with obj1 := 8 },
       { x0 with obj2 := 8 }, { x0 with mode := 0x30 }, { x0 with mode := 0x40 }, { x0 with mode := 0x1E }, { x0 with imm := 1 }] = true ∧
    onlyLegal (.vsel hd) { x0 with mode := 0x2F } [{ x0 with f3 := 1 }, { x0 with obj1 := 8 }, { x0 with mode := 0x30 }, { x0 with mode := 0x40 },
       { x0 with imm := 1 }] = true ∧
    onlyLegal (.vscale hd) { x0 with f1 := 1, f3 := 1, mode := 0x80, obj2 := 3 } [{ x0 with f2 := 1 }, { x0 with obj2 := 1 },
       { x0 with mode := 0x40, obj2 := 4 }, { x0 with mode := 3 }, { x0 with mode := 8 }, { x0 with mode := 0xC0 }, { x0 with imm := 1 }] = true ∧
    onlyLegal (fun e => .vscaleLit hd e 0) { x0 with f1 := 1 } [{ x0 with f3 := 1 }] = true ∧
    onlyLegal (.vfill hd) { x0 with f3 := 1, mode := 0x45, obj2 := 3 } [{ x0 with f1 := 1 }, { x0 with obj1 := 1 }, { x0 with obj2 := 1 },
       { x0 with mode := 6 }, { x0 with mode := 8 }, { x0 with mode := 0x80 }, { x0 with imm := 1 }] = true ∧
    onlyLegal (fun e => .vfillLit hd e 0) x0 [{ x0 with f3 := 1 }] = true ∧
    onlyLegal (.vrand hd) { x0 with f3 := 1, mode := 3, imm := 0xFFFFF } [{ x0 with obj1 := 1 }, { x0 with obj0 := 8 }, { x0 with mode := 1 },
       { x0 with mode := 8 }] = true ∧
    onlyLegal (fun e => .vrandLit hd e 0) x0 [{ x0 with f3 := 1 }] = true ∧
    onlyLegal (.vnzc hd) { x0 with mode := 0x2F, obj0 := 7, obj2 := 3 } [{ x0 with obj0 := 1 }, { x0 with mode := 0x2F, obj0 := 8 }, { x0 with obj2 := 4 },
       { x0 with mode := 0x10 }, { x0 with mode := 0x40 }, { x0 with imm := 1 }] = true := by decide +kernel

theorem test_wf_conversions : onlyLegal (.vchain hd) { x0 with f3 := 1, mode := 0x28 } [x0, { x0 with mode := 9 }, { x0 with mode := 0x31 },
       { x0 with mode := 0x81 }, { x0 with mode := 1, imm := 1 }, { x0 with mode := 1, obj2 := 8 }] = true ∧
    onlyLegal (fun e => .vchainLit hd e 0) { x0 with mode := 1 } [{ x0 with mode := 1, f3 := 1 }] = true ∧
    onlyLegal (.vcvt hd) { x0 with mode := 0xC, imm := 1 + 15 * 32 } [{ x0 with imm := 32 }, { x0 with imm := 7 + 32 }, { x0 with imm := 1 },
       { x0 with mode := 5, imm := 33 }, { x0 with mode := 0x10, imm := 33 }, { x0 with obj2 := 1, imm := 33 }] = true ∧
    onlyLegal (fun e => .vcvtLit hd e 0) { x0 with imm := 33 } [{ x0 with f3 := 1, imm := 33 }] = true ∧
    onlyLegal (.vqmx hd) { x0 with imm := 10 + 3 * 32 } [{ x0 with imm := 11 + 96 }, { x0 with imm := 8 + 4 * 32 }, { x0 with mode := 5, imm := 104 },
       { x0 with mode := 0x10, imm := 104 }] = true ∧
    onlyLegal (fun e => .vqmxLit hd e 0) { x0 with imm := 104 } [{ x0 with f3 := 1, imm := 104 }] = true ∧
    onlyLegal (.vdqmx hd) { x0 with imm := 3 + 8 * 32, mode := 3 } [{ x0 with imm := 8 + 8 * 32 }, { x0 with imm := 3 + 32 }, { x0 with imm := 259, mode := 4 },
       { x0 with imm := 259 + 1024 }, { x0 with imm := 259, f3 := 1 }] = true ∧
    onlyLegal (.vqa hd) { x0 with imm := 8 + 16 * 32, mode := 0x44 } [{ x0 with imm := 16 + 8 * 32 }, { x0 with imm := 8 + 512, mode := 0x60 },
       { x0 with imm := 8 + 512, mode := 0x10 }, { x0 with imm := 8 + 512, mode := 0x80 }, { x0 with imm := 8 + 512, mode := 5 }] = true ∧
    (Instr.vqa hd { x0 with imm := 17 + 10 * 32, mode := 0x10 }).wf = true ∧
    onlyLegal (fun e => .vqaLit hd e 0) { x0 with imm := 520 } [{ x0 with f3 := 1, imm := 520 }] = true := by decide +kernel

theorem test_wf_engine : onlyLegal (.cld hd) { x0 with f3 := 1, obj0 := 15, obj1 := 3 } [{ x0 with obj1 := 4 }, { x0 with mode := 1 }, { x0 with imm := 1 },
       { x0 with f1 := 1 }, { x0 with obj2 := 1 }] = true ∧
    onlyLegal (fun e => .cldLit hd e 0) x0 [{ x0 with f3 := 1 }] = true ∧
    onlyLegal (.cldc hd) x0 [{ x0 with obj1 := 4 }, { x0 with mode := 1 }] = true ∧ onlyLegal (fun e => .cldcLit hd e 0) x0 [{ x0 with f3 := 1 }] = true ∧
    onlyLegal (.cldSp hd) x0 [{ x0 with obj1 := 4 }, { x0 with mode := 1 }] = true ∧ onlyLegal (fun e => .cldSpLit hd e 0) x0 [{ x0 with f3 := 1 }] = true ∧
    onlyLegal (.old hd) { x0 with f1 := 1, mode := 0x10 } [{ x0 with f1 := 1 }, { x0 with obj0 := 4 }, { x0 with mode := 8 }, { x0 with mode := 0x20 },
       { x0 with imm := 1024 }] = true ∧
    onlyLegal (fun e => .oldLit hd e 0) x0 [{ x0 with f3 := 1 }] = true ∧
    onlyLegal (.oldT hd) { x0 with mode := 0xC, imm := 0xFFC00 } [{ x0 with mode := 5 }, { x0 with mode := 0x20 }, { x0 with imm := 1 }, { x0 with f1 := 1 }] = true ∧
    onlyLegal (fun e => .oldTLit hd e 0) x0 [{ x0 with f3 := 1 }] = true ∧
    onlyLegal (.ocols hd) { x0 with f0 := 0, mode := 0x40 } [x0, { x0 with f0 := 0, mode := 0x60 }, { x0 with f0 := 0, mode := 0x80 },
       { x0 with f0 := 0, mode := 1 }, { x0 with f0 := 0, imm := 1 }] = true ∧
    onlyLegal (.adrain hd) { x0 with f3 := 1, imm := 15, mode := 0xC } [{ x0 with f3 := 1, imm := 8 }, { x0 with imm := 7 }, { x0 with imm := 8 + 32 },
       { x0 with imm := 8, mode := 5 }, { x0 with imm := 8, mode := 0x10 }, { x0 with imm := 8, obj1 := 4 }] = true ∧
    onlyLegal (fun e => .adrainLit hd e 0) { x0 with imm := 3 } [{ x0 with f3 := 1, imm := 3 }, { x0 with imm := 8 }] = true ∧
    onlyLegal (.mseq hd) { x0 with imm := 4096 } [x0, { x0 with imm := 4097 }, { x0 with imm := 1, mode := 1 }, { x0 with imm := 1, obj0 := 1 }] = true ∧
    onlyLegal (fun e => .mseqLit hd e 0) { x0 with imm := 1 } [{ x0 with f3 := 1, imm := 1 }] = true := by decide +kernel

theorem test_wf_collectives : onlyLegal (.cgrp hd) { x0 with f1 := 1, f2 := 1, imm := 255 } [{ x0 with f3 := 1 }, { x0 with mark := 8 }, { x0 with mode := 1 },
       { x0 with imm := 256 }] = true ∧
    onlyLegal (.cag hd) { x0 with f3 := 1 } [{ x0 with mark := 8 }, { x0 with mode := 1 }, { x0 with imm := 256 }, { x0 with obj0 := 1 }] = true ∧
    onlyLegal (fun e => .cagLit hd e 0) x0 [{ x0 with f3 := 1 }] = true ∧
    onlyLegal (.crs hd) { x0 with f3 := 1, mode := 0x14 } [{ x0 with mode := 5 }, { x0 with mode := 0x19 }, { x0 with mode := 0x21 }, { x0 with mode := 8 },
       { x0 with imm := 256 }, { x0 with mark := 1 }] = true ∧
    onlyLegal (fun e => .crsLit hd e 0) x0 [{ x0 with f3 := 1 }] = true ∧
    onlyLegal (.ca2a hd) x0 [{ x0 with mark := 8 }, { x0 with mode := 1 }, { x0 with imm := 256 }] = true ∧
    onlyLegal (fun e => .ca2aLit hd e 0) x0 [{ x0 with f3 := 1 }] = true ∧
    onlyLegal (.cbar hd) x0 [{ x0 with f1 := 1 }, { x0 with mark := 8 }, { x0 with mode := 1 }, { x0 with imm := 256 }] = true := by decide +kernel

-- Decoding: words written out from the spec's encodings and its worked examples.

/-- The words decode to the instruction. -/
noncomputable def reads (p : List Nat × Instr) : Bool := match decode p.1 with | .ok i => decide (i = p.2) | .error _ => false
/-- The words decode to no instruction, for that reason. -/
noncomputable def rejects (r : Reject) (ws : List Nat) : Bool := match decode ws with | .ok _ => false | .error e => decide (e = r)

/-- 05 R120 to R127, R132. -/
theorem test_decode_scalar : ([([0x0002B4A8], .add hd 11 9 10),
    ([0x0004B4AB], .andn hd 11 9 10),
    ([0x0006B4AA], .sar hd 11 9 10),
    ([0x0008C6BA], .mulhu hd 12 13 14),
    ([0x000AF845], .divu hd 15 16 17),
    ([0x000CB4A9], .maxu hd 11 9 10),
    ([0x000E9502], .popc hd 9 10),
    ([0x0010A58E], .sext hd 10 11 7),
    ([0x001494FF], .addi hd 9 9 127),
    ([0x00168FFF], .li hd 8 4095),
    ([0x001AD73E], .sel hd 6 13 14 15),
    ([0x0020E002], .adr hd 14 2),
    ([0x271494FF], .addi ⟨true, 3, true⟩ 9 9 127)].all reads) = true := by decide +kernel

/-- 02 R46, R52. -/
theorem test_decode_literal : ([([0x4016A000, 0x3FC00000, 0], .liLit hd 10 0x3FC00000),
    ([0x40129500, 0x804, 0], .bfxLit hd 9 10 0x804),
    ([0x407C9500, 0x1000, 0], .stWLit hd 9 10 0x1000)].all reads) = true := by decide +kernel

/-- 05 R128 to R132. -/
theorem test_decode_float : ([([0x0040A5B0], .fadd hd 10 11 12),
    ([0x0042A582], .fsqrt hd 10 11),
    ([0x0042A583], .fclass hd 10 11),
    ([0x0044A5B0], .ffma hd 10 11 12),
    ([0x00464B62], .fcmp hd 2 11 12 .lt),
    ([0x00489543], .fcvt hd 9 10 .i32F32 .rtz true)].all reads) = true := by decide +kernel

/-- 04 R106 to R116. -/
theorem test_decode_control : ([([0x0061FFFD], .br hd 0x1FFFD),
    ([0x0461FFFD], .br ⟨false, 2, false⟩ 0x1FFFD),
    ([0x00628005], .call hd 1 5),
    ([0x00640680], .jr hd 13),
    ([0x00640681], .callr hd 0 13),
    ([0x00640002], .ret hd),
    ([0x00660000], .nop hd),
    ([0x21660000], .nop ⟨true, 0, true⟩),
    ([0x00664000], .yield hd),
    ([0x00668000], .endStrand hd),
    ([0x0066D000], .wspill hd 1),
    ([0x00673000], .wfill hd 3),
    ([0x00684B62], .cmp hd 2 11 12 .lt),
    ([0x006A287F], .cmpi hd 1 8 .ge 31),
    ([0x006C6240], .pand hd 3 1 2),
    ([0x006C8204], .pmov hd 4 1),
    ([0x006E40C1], .rep hd 1 3 1)].all reads) = true := by decide +kernel

/-- 05 R134, R142, 08 R187, R194 to R202. -/
theorem test_decode_memory : ([([0x0070B6FF], .ldBu hd 11 13 63),
    ([0x0074A604], .ldW hd 10 12 2),
    ([0x0076A601], .ldp hd 10 12 0),
    ([0x00789506], .stB hd 9 10 3),
    ([0x007EE805], .stp hd 14 16 2),
    ([0x0080A634], .aaddD hd 10 12 13),
    ([0x0086B637], .acasW hd 11 12 13),
    ([0x00880634], .agadd hd 0 12 13),
    ([0x008AA634], .bind hd 10 12 13),
    ([0x008AA001], .unbind hd 10),
    ([0x008CB640], .acq hd 11 12 .package),
    ([0x208CB640], .acq ⟨true, 0, false⟩ 11 12 .package),
    ([0x008CE7B2], .acqrel hd 14 15 .die),
    ([0x008CB623], .waitw hd 11 12 .cluster),
    ([0x008E6180], .fence hd 24 .die)].all reads) = true := by decide +kernel

/-- 09 R206 to R228. -/
theorem test_decode_vector : ([([0x00909500], .vclaim hd 9 10),
    ([0x00900002], .vfree hd),
    ([0x00920634], .pset hd 0 12 13),
    ([0x0092C701], .pget hd 3 14),
    ([0x00948158], .vadd hd 2 0 1 11 .f32),
    ([0x00A08A58], .vexp2 hd 2 1 11 .f32),
    ([0x00A20058], .vsum hd 0 0 11 .f32),
    ([0x00D2B400], .mbw hd 1 13),
    ([0x00D22C01], .mbr hd 0 11),
    ([0x80A60200, 0x58000203, 0x008001E8], .vqmx hd ⟨11, 0, 0, 0, 2, 0, 3, 0, 8, 0x1E8⟩)].all reads) = true := by decide +kernel

/-- 10 R231 to R261, 11 R272, R276. -/
theorem test_decode_engine : ([([0x00B00020], .ashape hd 0 1 0),
    ([0x00B07FF8], .ashape hd 3 255 3),
    ([0x00B21F50], .adatum hd 0 0x1F5),
    ([0x00B40901], .astat hd 0 9),
    ([0x00B44B02], .achk hd 2 11),
    ([0x80B60000, 0x5000B000, 0], .cld hd ⟨10, 0, 0, 11, 0, 0, 0, 0, 0, 0⟩),
    ([0xC0B60000, 0x50000000, 0, 0x40, 0], .cldLit hd ⟨10, 0, 0, 0, 0, 0, 0, 0, 0, 0⟩ 0x40),
    ([0x80B60400, 0x6800B000, 0], .cldSp hd ⟨13, 0, 0, 11, 0, 0, 0, 0, 0, 0⟩),
    ([0x80B80200, 0x5000B100, 0x00800000], .oldT hd ⟨10, 0, 0, 11, 1, 0, 0, 0, 8, 0⟩),
    ([0x80B80400, 0, 0x02000000], .ocols hd ⟨0, 0, 0, 0, 0, 0, 0, 0, 0x20, 0⟩),
    ([0x80BA0000, 0x6000D010, 0x0080000F], .adrain hd ⟨12, 0, 0, 13, 0, 1, 0, 0, 8, 0xF⟩),
    ([0x80FA0000, 0x73E11000, 0x10], .mseq hd ⟨14, 15, 16, 17, 0, 0, 0, 0, 0, 0x10⟩),
    ([0x00BE04A8], .slotw hd 9 10)].all reads) = true := by decide +kernel

/-- 12 R293, 14 R322, 15 R334, 16 R349 to R368. -/
theorem test_decode_units : ([([0x00C02980], .hopen hd 0 10 12),
    ([0x00C335C1], .hdetach hd 2 13 14),
    ([0x00C22A04], .hfold hd 0 10 16),
    ([0x00C880E0], .tclr hd 2 14),
    ([0x20C816C4], .tfind ⟨true, 0, false⟩ 0 11 12),
    ([0x00CA14B8], .tloadM16 hd 0 10 11),
    ([0x00CA14B1], .tstore hd 0 10 11),
    ([0x20D06AA1], .ppop ⟨true, 0, false⟩ .pw 21 5),
    ([0x00D15C05], .pconf hd .pa 14),
    ([0x00D82D40], .plnew hd 0 11 10),
    ([0x00D8B1A1], .plset hd 1 12 13),
    ([0x00DA9801], .cpynb hd 9 16),
    ([0x00DC0A55], .swwait hd 20 21),
    ([0x00DE6950], .rinit hd 3 9 10),
    ([0x00DE6D64], .reos hd 3 13 12),
    ([0x00E0B481], .gwait hd 11 9)].all reads) = true := by decide +kernel

/-- 03 R89, 17 R379, R381, 18 R392, 19 R426, 20 R445, 22 R468, 23 R487. -/
theorem test_decode_group : ([([0x00E89500], .gid hd 9 10),
    ([0x00E8B603], .dqsplit hd 11 12),
    ([0x00EAB680], .dqsteal hd 11 13),
    ([0x00EAE001], .suspend hd 14),
    ([0x00EAE7B3], .stb hd 14 15 12),
    ([0x00ECA639], .bexp hd 10 12 14),
    ([0x00EC9603], .bwait hd 9 12),
    ([0x00EE973D], .klaunch hd 9 14 15),
    ([0x00EEB002], .keos hd 11),
    ([0x80F00400, 0x4B1AE000, 0x00100007], .crs hd ⟨9, 12, 13, 14, 0, 0, 0, 0, 1, 7⟩),
    ([0xC0F00200, 0x4B1A0000, 7, 0x1000, 0], .cagLit hd ⟨9, 12, 13, 0, 0, 0, 0, 0, 0, 7⟩ 0x1000),
    ([0x00F2B481], .ctest hd 11 9),
    ([0x00F80580], .rseed hd 11),
    ([0x00F8C4A9], .rgen hd 12 9 10),
    ([0x00FC0005], .trap hd 5),
    ([0x00FC2001], .eretAb hd),
    ([0x00FC520A], .csrr hd 18 0x0A),
    ([0x00FC6C13], .csrw hd 12 0x13),
    ([0x00FC8D03], .csrs hd 13 3),
    ([0x00FCCA01], .wcall hd 10 1),
    ([0x00FCEF00], .sleep hd 15),
    ([0x00FD0A00], .contw hd 10),
    ([0x00FD2A05], .contr hd 10 5)].all reads) = true := by decide +kernel

/-- 02 R55, R56. -/
theorem test_reject_unallocated : ([[0x00000000], [0x00FE0000], [0x0008B4AB], [0x40020000, 0, 0], [0x008CB660], [0x80BC0000, 0, 0]].all (rejects .unallocated)) = true := by decide +kernel

/-- 02 R51, R56. -/
theorem test_reject_reserved : ([[0x000E9506], [0x00640082], [0x00660001], [0x80B60001, 0x5000B000, 0], [0x0064C680]].all (rejects .reserved)) = true := by decide +kernel

/-- 02 R51, R54, R56. -/
theorem test_reject_limits : ([[0x00B20610], [0x008E0180], [0x0076B601], [0x80B60000, 0x5008B000, 0], [0x80FA0000, 0x73E11000, 0x00080010]].all (rejects .limit)) = true := by decide +kernel

-- A small machine: one core in use, one context placed on it, one strand in slot 0.

/-- The whole of a core's resources (19 R419). -/
def allOf : Partn := ⟨[0, 1, 2, 3, 4, 5, 6, 7], 0, 0x40000, [0, 1, 2, 3, 4, 5, 6, 7], 0, 256, 0, 0x60000, 0, 16⟩
def p0 : Part := { Part.init 1 0 with st := .placed, partn := allOf }
def c1 : Ctx := { Ctx.init with st := .active, lwin := 0x80000, ptroot := 0x20000, tvec := 0x130000, tvecSet := true }
def g0 : Group := ⟨0, .resident, [0], 0, 0, 0, 0, 0, 0, [], [], [], [0], [], [], true, none⟩
def k0 : Kernel := { Kernel.init with ctx := 1, st := .running, strands := 1, groups := [g0] }
def t0 : Strand := { Strand.init with ctx := 1, st := .ready, pc := 0x10000 }
/-- A page of 64 KiB in core 0's translation cache: virtual and physical address, TIER, permission bits. -/
def page (va pa tier perm : Nat) : TlbEntry := ⟨0, 1, va, 2 ^ 16, 0, 2 + perm, pa / 2 ^ 16 + tier * 2 ^ 36, 0⟩
/-- Page tables that map the first GiB onto itself for data (07 R162, R163), and trap vectors of the causes 1 and 7. -/
def tables : List Host.Cell := [(0x20000, 1), (0x20009, 0x40), (0x40000, 0x3A), (0x13000A, 2), (0x13003A, 2)]
def s0 : State :=
  { State.reset with
    phase := 5, mem := tables, strands := [(0, t0)], nextUid := 1, parts := [(partKey 0 1, p0)], ctxs := [(1, c1)], kernels := [(0, k0)], nextKern := 1,
    tlb := [page 0x10000 0x10000 0 0x40, page 0x100000 0x100000 0 0x30, page 0x110000 0x110000 0 0x10, page 0x120000 0x120000 0 0x8030, page 0x150000 0x150000 0 0x130] }

/-- Registers w0, w1, ... of a strand whose CWP is 0, and a machine whose strand holds them. -/
def regs (l : List Nat) : Table Word := l.zipIdx.map fun p => (p.2, w64 p.1)
def st (l : List Nat) : State := s0.setStrand 0 { t0 with phys := regs l }
/-- The same with the strand changed. -/
def sw (l : List Nat) (f : Strand → Strand) : State := s0.setStrand 0 (f { t0 with phys := regs l })
/-- The next state of a step, and its strand 0. -/
def nextOf (o : Outcome) : State := match o with | .next t => t | _ => State.reset
def after (o : Outcome) : Strand := (nextOf o).strand 0

-- Results that the spec gives (05 R122 to R132, R137, 04 R105 to R108).

theorem test_add_wraps : (after (exec (.add hd 10 8 9) (st [2 ^ 64 - 1, 2]))).reg 10 = 1 ∧ (after (exec (.add hd 0 8 9) (st [1, 2]))).reg 0 = 0 := by
  decide +kernel
theorem test_mulhu : (after (exec (.mulhu hd 10 8 9) (st [2 ^ 64 - 1, 2 ^ 64 - 1]))).reg 10 = w64 (2 ^ 64 - 2) := by decide +kernel
theorem test_div_by_zero : (after (exec (.div hd 10 8 9) (st [7, 0]))).reg 10 = w64 (2 ^ 64 - 1) ∧ (after (exec (.rem hd 10 8 9) (st [7, 0]))).reg 10 = 7 := by
  decide +kernel
theorem test_rem_sign : (after (exec (.rem hd 10 8 9) (st [2 ^ 64 - 7, 2]))).reg 10 = w64 (2 ^ 64 - 1) ∧
    (after (exec (.div hd 10 8 9) (st [2 ^ 64 - 7, 2]))).reg 10 = w64 (2 ^ 64 - 3) := by decide +kernel
theorem test_sar_sext : (after (exec (.sar hd 10 8 9) (st [2 ^ 63, 63]))).reg 10 = w64 (2 ^ 64 - 1) ∧
    (after (exec (.sext hd 10 8 7) (st [0x80]))).reg 10 = w64 (2 ^ 64 - 128) := by decide +kernel
theorem test_bfx_bfi : (after (exec (.bfxLit hd 9 8 0x804) (st [0xABC5, 0]))).reg 9 = 0xBC ∧
    (after (exec (.bfiLit hd 9 8 0x804) (st [0xFF12, 0x5005]))).reg 9 = 0x5125 := by decide +kernel
theorem test_float_add : (after (exec (.fadd hd 10 8 9) (st [0x3F800000, 0x40000000]))).reg 10 = 0x40400000 ∧
    (after (exec (.fsqrt hd 10 8) (st [0xBF800000]))).reg 10 = 0x7FC00000 ∧ (after (exec (.fsqrt hd 10 8) (st [0xBF800000]))).vflags = 2 := by decide +kernel
theorem test_fcvt_saturates : (after (exec (.fcvt hd 10 8 .f16F32 .rne true) (st [0x47C35000]))).reg 10 = 0x7BFF ∧
    (after (exec (.fcvt hd 10 8 .f32I32 .rne false) (st [0xFFFFFFFF]))).reg 10 = 0xBF800000 := by decide +kernel
theorem test_fclass_zero : (after (exec (.fclass hd 10 8) (st [0x80000000]))).reg 10 = 8 := by decide +kernel
theorem test_cmp_signs : (after (exec (.cmp hd 2 8 9 .lt) (st [2 ^ 64 - 1, 1]))).predBit 2 = true ∧
    (after (exec (.cmp hd 2 8 9 .ltu) (st [2 ^ 64 - 1, 1]))).predBit 2 = false := by decide +kernel
theorem test_call : let t := after (exec (.call hd 0 2) (st [1, 2, 3, 4, 5])); t.pc = 0x10008 ∧ t.cwp = 4 ∧ t.wres = 4 ∧ t.reg 8 = 5 ∧
    t.getLoc (.phys 3) = 0x10004 := by decide +kernel
theorem test_ret : let t := after (exec (.ret hd) (sw [0, 0, 0, 0, 0, 0, 0, 0x20001] fun t => { t with cwp := 8, wres := 8 })); t.pc = 0x20000 ∧
    t.cwp = 0 ∧ t.wres = 0 := by decide +kernel
theorem test_store_load : let s := nextOf (exec (.stB hd 9 8 3) (st [0x80000, 0x1F0])); memGet s.mem 0x8000000003 = 0xF0 ∧
    (after (exec (.ldB hd 10 8 3) s)).reg 10 = w64 (2 ^ 64 - 16) ∧ (after (exec (.ldBu hd 10 8 3) s)).reg 10 = 0xF0 := by decide +kernel

-- The hypotheses of each statement, met at the boundaries of their clauses.

theorem wit_IntegerAndBitResults : (∃ v, IntRule (st [1]).me (.sel hc 0 10 8 9) hc 4 10 [.r 10, .r 8, .r 9, .p 0] v ∧
      (st [1]).passes hc [.r 10, .r 8, .r 9, .p 0]) ∧
    (∃ v, IntRule (st []).me (.adrLit hd 0 0xFFFFFFFFFFFFFFFC) hd 12 0 [.r 0] v ∧ (st []).passes hd [.r 0]) ∧
    (sw [0] fun t => { t with pword := 2, pend := [.s 1] }).passes ⟨true, 1, false⟩ [.r 10, .r 8] := by
  refine ⟨⟨_, .sel .., ?_⟩, ⟨_, .adrLit _ _ _ ?_, ?_⟩, ?_⟩ <;> decide +kernel

theorem wit_Divisions : (∃ v, DivRule (st [2 ^ 63, 1]).me (.div hd 10 8 9) hd 10 [.r 10, .r 8, .r 9] v ∧ (st [2 ^ 63, 1]).passes hd [.r 10, .r 8, .r 9]) ∧
    (∃ v, DivRule (st [1, 2]).me (.remu hd 10 8 9) hd 10 [.r 10, .r 8, .r 9] v) ∧
    ((st [7, 0]).passes hd [.r 10, .r 8, .r 9] ∧ (st [7, 0]).me.reg 9 = 0) ∧
    (st [2 ^ 63, 2 ^ 64 - 1]).passes hd [.r 10, .r 8, .r 9] ∧ (st [2 ^ 63, 2 ^ 64 - 1]).me.reg 8 = BitVec.intMin 64 ∧
    (st [2 ^ 63, 2 ^ 64 - 1]).me.reg 9 = BitVec.allOnes 64 := by
  refine ⟨⟨_, .div _ _ _ _ ?_ ?_, ?_⟩, ⟨_, .remu _ _ _ _ ?_⟩, ?_, ?_⟩ <;> decide +kernel

theorem wit_FloatResultsAndFormats : (∃ v fl, FloatRule (st [1, 2]).me (.ffma hd 10 8 9) hd 10 [.r 10, .r 8, .r 9] v fl ∧
      (st [1, 2]).passes hd [.r 10, .r 8, .r 9]) ∧
    (∃ v fl, FloatRule (st [1]).me (.fcvt hd 10 8 .i32F32 .rtz true) hd 10 [.r 10, .r 8] v fl) ∧
    (e4m3 ∈ [fp32, fp16, bf16, e4m3, e5m2, e2m3, e3m2, e2m1] ∧ 0x7E ≤ e4m3.maxCode ∧ 0x7F7FFFFF ≤ fp32.maxCode) := by
  refine ⟨⟨_, _, .ffma .., ?_⟩, ⟨_, _, .fcvt ..⟩, ?_⟩ <;> decide +kernel

/-- The values that a clause of the special cases takes: ra, rb, and rd. -/
def fin3 (a b d : Nat) : Val × Val × Val := let t := (st [a, b, d]).me; (fpOf (t.reg 8), fpOf (t.reg 9), fpOf (t.reg 10))

theorem wit_FloatSpecialCases : (st []).passes hd [.r 10, .r 8, .r 9] ∧ (fin3 0x7F800000 0xFF800000 0).1 = .inf false ∧ (fin3 0x7F800000 0xFF800000 0).2.1 = .inf true ∧
    (fin3 0x80000000 0 0).1.isZero = true ∧ (fin3 0x80000000 0 0).1.isNeg = true ∧ (fin3 0x80000000 0 0).2.1.isZero = true ∧
    (fin3 0x80000000 0 0).2.1.isNeg = false ∧ (fin3 0x80000000 0x7F800000 0x7FC00000).2 = (.inf false, .nan) ∧
    (match (fin3 0xBF800000 0 0).1 with | .fin neg n _ => neg && n != 0 | _ => false) = true ∧ (fin3 0x7FC00000 0x7F800001 0).1.isNan = true ∧
    (fin3 0x7FC00000 0x7F800001 0).2.1.isNan = true ∧ (fin3 0x7F7FFFFF 0x7F800001 0).1.isNan = false ∧
    (fin3 0x7F7FFFFF 0x7F800000 0).1.lt (fin3 0x7F7FFFFF 0x7F800000 0).2.1 = true := by decide +kernel

theorem wit_FclassResults : (st [0xFFC00000]).passes hd [.r 10, .r 8] ∧ classBit 0xFFC00000 = 8 ∧ classBit 0x7F800001 = 9 ∧ classBit 0x807FFFFF = 2 := by
  decide +kernel

theorem wit_PredicateResults : (∃ b fl, PredRule (st [0x7FC00000]).me (.fcmp hd 0 8 9 .un) hd 4 0 [.p 0, .r 8, .r 9] b fl ∧
      (st [0x7FC00000]).passes hd [.p 0, .r 8, .r 9]) ∧
    (∃ b, PredRule (st []).me (.pnot ⟨false, 15, true⟩ 15 0) ⟨false, 15, true⟩ 4 15 [.p 15, .p 0] b 0 ∧ (st []).passes ⟨false, 15, true⟩ [.p 15, .p 0]) := by
  refine ⟨⟨_, _, .fcmp .., ?_⟩, ⟨_, .pnot .., ?_⟩⟩ <;> decide +kernel

theorem wit_ScalarFrame : (∃ len r v, some (0 : Reg) = some r ∧ (none : Option Pr) = none ∧ 0 = 0 ∧
      IntRule (st [1]).me (.addi hc 0 8 127) hc len r [.r 0, .r 8] v) ∧ (st [1]).passes hc [.r 0, .r 8] ∧ firstFault (st [1]).me = none ∧
    (∃ len p b, some (0 : Pr) = some p ∧ PredRule (st []).me (.pmov hd 0 15) hd len p [.p 0, .p 15] b 0) := by
  refine ⟨⟨_, _, _, rfl, rfl, rfl, .addi ..⟩, ?_, ?_, ⟨_, _, _, rfl, .pmov ..⟩⟩ <;> decide +kernel

theorem wit_BranchesAndWindow : (∃ n, JumpRule (st []).me (.brLit hd 0xFFFFFFFFFFFF0000) hd 12 [] n ∧ (st []).passes hd [] ∧ n % 4 = 0) ∧
    (∃ n, JumpRule (st [2]).me (.jr hd 8) hd 4 [.r 8] n ∧ (st [2]).passes hd [.r 8] ∧ n % 4 ≠ 0) ∧
    (let s := sw [0, 0, 0, 3] fun t => { t with cwp := 4, wres := 72 }; s.me.windowOk ∧ (nextOf (exec (.ret hd) s)).me.windowOk) := by
  refine ⟨⟨_, .brLit .., ?_⟩, ⟨_, .jr .., ?_⟩, ?_⟩ <;> decide +kernel

theorem wit_Calls : (∃ n, CallRule (st [0x20000]).me (.callr hd 3 8) hd 4 [.r 8] 3 n ∧ (st [0x20000]).passes hd [.r 8] ∧
      (st [0x20000]).me.isPending (.phys 15) = false ∧ n % 4 = 0) ∧
    (∃ n, CallRule (st [2]).me (.callr hd 0 8) hd 4 [.r 8] 0 n ∧ (st [2]).passes hd [.r 8] ∧ n % 4 ≠ 0) ∧
    (let s := sw [] fun t => { t with cwp := 95, wres := 72, pend := [.phys 2] }; s.passes hd [] ∧ s.me.isPending (.phys ((95 + 4 - 1) % 96)) = true) := by
  refine ⟨⟨_, .callr .., ?_⟩, ⟨_, .callr .., ?_⟩, ?_⟩ <;> decide +kernel

theorem wit_Returns : let s := sw [0, 0, 0, 3] fun t => { t with cwp := 4, wres := 16 }
    s.passes hd [] ∧ s.me.isPending (.phys 3) = false ∧ (s.me.getLoc (.phys 3)).toNat % 4 = 3 ∧
    (sw [] fun t => { t with pend := [.phys 95] }).me.isPending (.phys 95) = true := by decide +kernel

theorem wit_NopYieldEndAndEnding : (st []).passes hd [] ∧ (st []).me.close = none ∧ (∀ o ∈ (st []).me.ops, ¬o.outstandingFor) ∧
    firstFault (st []).me = none ∧
    (let s := sw [] fun t => { t with yielded := true }; canIssue s (s.strand 0) = true ∧ (s.strand 0).stopWaits = false ∧ (s.strand 0).yielded = true) ∧
    (let s := sw [] fun t => { t with ending := true, displacing := true }; canIssue s (s.strand 0) = true ∧ (s.strand 0).yielded = false ∧
      (s.strand 0).ending = true ∧ (s.strand 0).rep = none ∧ (s.strand 0).vq = []) := by decide +kernel

/-- An answer that is a value, or that is an error, and what it meets. -/
theorem pair_ok {σ ε α : Type} {p : σ → α → Prop} [∀ t a, Decidable (p t a)] {r : σ × Except ε α}
    (h : (match r.2 with | .ok a => decide (p r.1 a) | .error _ => false) = true) : ∃ t a, r = (t, .ok a) ∧ p t a := by
  obtain ⟨t, _ | a⟩ := r
  · cases h
  · exact ⟨t, a, rfl, of_decide_eq_true h⟩
theorem pair_err {σ ε α : Type} {p : σ → ε → Prop} [∀ t a, Decidable (p t a)] {r : σ × Except ε α}
    (h : (match r.2 with | .ok _ => false | .error e => decide (p r.1 e)) = true) : ∃ t e, r = (t, .error e) ∧ p t e := by
  obtain ⟨t, e | _⟩ := r
  · exact ⟨t, e, rfl, of_decide_eq_true h⟩
  · cases h
theorem att_go {p : State → Site → Prop} [∀ t a, Decidable (p t a)] {r : State × Att}
    (h : (match r.2 with | .go w => decide (p r.1 w) | _ => false) = true) : ∃ t w, r = (t, .go w) ∧ p t w := by
  obtain ⟨t, _ | _ | w⟩ := r
  · cases h
  · cases h
  · exact ⟨t, w, rfl, of_decide_eq_true h⟩

/-- The pieces of n 8-byte words from an address on. -/
def words (a n : Nat) : List (Nat × Nat) := (List.range n).map fun j => (a + 8 * j, 8)
/-- An operation that is sent, by strand 0, and a machine with it. -/
def opOf (k : OpKind) (ds : List Loc) : Op := { id := 0, kind := k, path := .s, tpc := 0xFFFC, len := 4, dests := ds }
def so (k : OpKind) (ds : List Loc) : State := sw [] fun t => { t with ops := [opOf k ds], nextOp := 1, pend := ds }

theorem wit_SpillAndFill : (st []).passes hd [] ∧ min (4 * ((0 : BitVec 2).toNat + 1)) (st []).me.wres = 0 ∧
    (let s := sw [] fun t => { t with cwp := 72, wres := 72, wsp := 0xDFF80 }
     s.passes hd [] ∧ (∀ l ∈ (List.range 16).map fun j => Loc.phys ((72 + 96 - 72 + j) % 96), s.me.isPending l = false) ∧
       localOff s 1 0xDFF80 = some 0x5FF80 ∧ 0x5FF80 + 8 * 16 ≤ spadSize s 0 1 ∧ (s.ctx 1).watches = [] ∧
       (∀ j < 16, localBehind s 0 (0xDFF80 + 8 * j) 8 (spadPA s 0 1 (0x5FF80 + 8 * j)) = false)) ∧
    (∃ s1 ws, sitesOf ((sw [] fun t => { t with wres := 72 }).entered 4) (t0.past 4) .write (words 0x10FF80 16) = (s1, .ok ws) ∧
      ((∀ w ∈ ws, w.loc = false ∧ w.wb = false) ∧ (s1.ctx 1).watches = [])) ∧
    (∃ s1 c, sitesOf ((sw [] fun t => { t with wres := 72 }).entered 4) (t0.past 4) .write (words 0x40000000 1) = (s1, .error c) ∧ c.code = 7) ∧
    (let s := sw [] fun t => { t with pend := [.phys 24], wres := 72, cwp := 0, wsp := 4 }
     s.me.isPending (.phys ((0 + 96 - 72 + 0) % 96)) = true ∧ s.me.wsp.toNat % 8 ≠ 0 ∧ s.room ∧ min 4 (72 - s.me.wres) = 0) ∧
    (∃ s1 ws, sitesOf ((st []).entered 4) (t0.past 4) .read (words (0x100020 - 32) 4) = (s1, .ok ws) ∧ ws.length = 4) ∧
    (∃ s1 c, sitesOf ((st []).entered 4) (t0.past 4) .read (words (2 ^ 64 - 32) 4) = (s1, .error c) ∧ c.sub = 0) := by
  refine ⟨?_, ?_, ?_, pair_ok ?_, pair_err ?_, ?_, pair_ok ?_, pair_err ?_⟩ <;> decide +kernel

theorem wit_Loads : (∃ va, LoadRule (st [0x100001]).me (.ldH hd 10 8 0) hd 4 10 8 va 2 true false ∧ (st [0x100001]).passes hd [.r 8, .r 10] ∧ va % 2 ≠ 0) ∧
    (∃ va, LoadRule (st [0x7FFF0]).me (.ldp hd 0 8 0) hd 4 0 8 va 16 false true ∧ (st [0x7FFF0]).passes hd [.r 8, .r 0, .r 1] ∧ va % 16 = 0 ∧
      localOff (st [0x7FFF0]) 1 va = none ∧ (st [0x7FFF0]).room) ∧
    (∃ va, LoadRule (st [0xDFFF0]).me (.ldp hd 0 8 0) hd 4 0 8 va 16 false true ∧ va % 16 = 0 ∧ localOff (st [0xDFFF0]) 1 va = some 0x5FFF0 ∧
      0x5FFF0 + 16 ≤ spadSize (st [0xDFFF0]) 0 1 ∧ localBehind (st [0xDFFF0]) 0 va 16 (spadPA (st [0xDFFF0]) 0 1 0x5FFF0) = false ∧
      isPoisoned (st [0xDFFF0]) (spadPA (st [0xDFFF0]) 0 1 0x5FFF0) 16 = false ∧ ((st [0xDFFF0]).ctx 1).watches = []) ∧
    (∃ va, LoadRule (st [0]).me (.ldBLit hd 10 8 0xE0000) hd 12 10 8 va 1 true false ∧ (st [0]).passes hd [.r 8, .r 10] ∧
      localOff (st [0]) 1 va = some 0x60000 ∧ spadSize (st [0]) 0 1 < 0x60000 + 1) ∧
    (let s := { st [0x80000] with poison := [winBase] }
     localBehind s 0 0x80007 1 (spadPA s 0 1 7) = false ∧ isPoisoned s (spadPA s 0 1 7) 1 = true) := by
  refine ⟨⟨_, .ldH .., ?_⟩, ⟨_, .ldp _ _ _ _ ?_, ?_⟩, ⟨_, .ldp _ _ _ _ ?_, ?_⟩, ⟨_, .ldBLit .., ?_⟩, ?_⟩ <;> decide +kernel

theorem wit_Stores : (∃ va ps, StoreRule (st [0xDFFF0, 1, 2]).me (.stp hd 10 8 0) hd 4 [.r 8, .r 10, .r 11] va ps ∧
      (st [0xDFFF0, 1, 2]).passes hd [.r 8, .r 10, .r 11] ∧ va % ps.flatten.length = 0 ∧ localOff (st [0xDFFF0]) 1 va = some 0x5FFF0 ∧
      0x5FFF0 + ps.flatten.length ≤ spadSize (st [0xDFFF0]) 0 1 ∧
      (∀ j < ps.length, localBehind (st [0xDFFF0]) 0 (va + 8 * j) (ps.getD j []).length (spadPA (st [0xDFFF0]) 0 1 (0x5FFF0 + 8 * j)) = false)) ∧
    (∃ va ps, StoreRule (st [0xE0000]).me (.stB hd 10 8 0) hd 4 [.r 8, .r 10] va ps ∧ ps.length = 1 ∧ localOff (st [0xE0000]) 1 va = some 0x60000 ∧
      spadSize (st [0xE0000]) 0 1 < 0x60000 + ps.flatten.length) ∧
    (∃ va ps, StoreRule (st [0x100004]).me (.stDLit hd 10 8 0) hd 12 [.r 8, .r 10] va ps ∧ (st [0x100004]).passes hd [.r 8, .r 10] ∧
      va % ps.flatten.length ≠ 0) ∧
    (∃ va ps, StoreRule (st [0x10FFF0]).me (.stp hd 10 8 0) hd 4 [.r 8, .r 10, .r 11] va ps ∧ (st [0x10FFF0]).passes hd [.r 8, .r 10, .r 11] ∧
      va % ps.flatten.length = 0 ∧ va = 0x10FFF0 ∧ ps.length = 2 ∧ ∀ p ∈ ps, p.length = 8) ∧
    (∃ s1 ws, sitesOf ((st [0x10FFF0]).entered 4) ((st [0x10FFF0]).me.past 4) .write (words 0x10FFF0 2) = (s1, .ok ws) ∧
      ((∀ w ∈ ws, w.loc = false ∧ w.wb = false) ∧ (s1.ctx 1).watches = [])) := by
  refine ⟨⟨_, _, .stp .., ?_⟩, ⟨_, _, .stB .., ?_⟩, ⟨_, _, .stDLit .., ?_⟩, ⟨_, _, .stp .., ?_⟩, pair_ok ?_⟩ <;> decide +kernel

/-- A store of one byte on its way to 0x100000, and no message of another node. -/
def wr0 : MemWrite := ⟨0, 0, 1, .s, 0x100000, 0x100000, [0xAB], none, 0, true, none, none, false⟩
def noMsg : Fabric := ⟨0, [], false, 0, false, false, 0, 0⟩
def msg8 : Fabric := ⟨2 ^ 39 - 8, [1, 2, 3, 4, 5, 6, 7, 8], true, 7, true, false, 1, 0⟩

/-- An operation of strand 0, in a machine that holds it; and an LDP. -/
def soOp (o : Op) : State := sw [] fun t => { t with ops := [o], nextOp := 1, pend := o.dests }
def pairOp : Op := opOf (.load 0x100000 16 false true) [.phys 0, .phys 1]

theorem wit_ReadsAndStoresAtHome : (let s := { s0 with writes := [wr0] }
      noMsg.bytes = [] ∧ s.writes[0]? = some wr0 ∧ storeReady s 0 wr0 = true ∧ wr0.stb = none ∧ wr0.tag = none ∧ homeOf s wr0.pa = .first) ∧
    homeOf { s0 with populated := [(7, 1)] } (0x200000000000 + 7 * 2 ^ 42) = .port 7 0 ∧
    (msg8.bytes ≠ [] ∧ (unpack s0 msg8).2 = .ok msg8.bytes ∧ msg8.bytes.length = 8 ∧ msg8.src ∉ s0.cutOff ∧ msg8.rel = true ∧ msg8.pa % 8 = 0 ∧ msg8.pa + 7 < 2 ^ 39 ∧
      (let s := { s0 with clavos := [(31, { Clavos.init with st := .up })] }; cfgBit s (1708 + 31) = granuleSecure s msg8.pa ∧
        granuleSecure s (msg8.pa + 7) = granuleSecure s msg8.pa ∧ (s.clav 31).st = .up ∧ (unpack s msg8).2 = .ok msg8.bytes)) ∧
    (∀ p < 32, (s0.clav p).st ≠ .up ∧ (s0.clav p).st ≠ .narrowed) ∧
    (so (.load 0x100000 2 true false) [.phys 0]).sentOp 0 (opOf (.load 0x100000 2 true false) [.phys 0]) ∧
    (∃ s1 bs, readFor (so (.load 0x100000 2 true false) [.phys 0]) 0 (opOf (.load 0x100000 2 true false) [.phys 0]) 0x100000 2 false
      = (s1, .ok bs) ∧ (bs.length = 2 ∧ s1.op 0 0 = some (opOf (.load 0x100000 2 true false) [.phys 0]))) ∧
    (∃ s1 bs, readFor (soOp pairOp) 0 pairOp 0x100000 8 false = (s1, .ok bs) ∧ (bs.length = 8 ∧ s1.op 0 0 = some pairOp)) ∧
    (soOp { pairOp with got := [5] }).sentOp 0 { pairOp with got := [5] } ∧
    (∃ s1 bs, readFor (soOp { pairOp with got := [5] }) 0 { pairOp with got := [5] } 0x100008 8 false = (s1, .ok bs) ∧
      (bs.length = 8 ∧ s1.op 0 0 = some { pairOp with got := [5] })) ∧
    (∃ s1 c, readFor (so (.load 0x40000000 1 true false) []) 0 (opOf (.load 0x40000000 1 true false) []) 0x40000000 1 false = (s1, .error c) ∧
      (c.map (·.code) = some 7 ∧ s1.op 0 0 = some (opOf (.load 0x40000000 1 true false) []) ∧ (s1.strand 0).close = none)) ∧
    (∃ s1 ws, fillFor (so (.wfill 0x100000 2) [.phys 95, .phys 0]) 0 (opOf (.wfill 0x100000 2) [.phys 95, .phys 0]) false [0x100000, 0x100008]
      = (s1, .ok ws) ∧ s1.op 0 0 = some (opOf (.wfill 0x100000 2) [.phys 95, .phys 0])) := by
  refine ⟨?_, ?_, ?_, ?_, ?_, pair_ok ?_, pair_ok ?_, ?_, pair_ok ?_, pair_err ?_, pair_ok ?_⟩ <;> decide +kernel

theorem wit_AtomicsIssue : (st [0x100004, 5]).passes hd [.r 8, .r 9, .r 10] ∧ (st [0x100004, 5]).room ∧ AtomicRule (.acasW hd 10 8 9) hd .cas 4 10 8 9 ∧
    ((st [0x100004]).me.reg 8).toNat % 4 = 0 ∧ gapOf (st [0x100004]) (st [0x100004]).me 0x100004 4 .both = none ∧
    ((st [0x100004]).me.reg 8).toNat % 16 ≠ 0 ∧ AtomicRule (.amaxD hd 10 8 9) hd .max 8 10 8 9 ∧ ((st [0x100004]).me.reg 8).toNat % 8 ≠ 0 ∧
    ((st [0xDFFF0]).me.reg 8).toNat % 16 = 0 ∧ gapOf (st [0xDFFF0]) (st [0xDFFF0]).me 0xDFFF0 16 .both = none := by
  refine ⟨?_, ?_, .acasW .., ?_, ?_, ?_, .amaxD .., ?_, ?_, ?_⟩ <;> decide +kernel

theorem wit_AtomicsAtHome : (so (.atomic .cas 0x100000 4 9 0) [.phys 2]).sentOp 0 (opOf (.atomic .cas 0x100000 4 9 0) [.phys 2]) ∧
    (∃ s1 r, bothFor (so (.atomic .cas 0x100000 4 9 0) [.phys 2]) 0 (opOf (.atomic .cas 0x100000 4 9 0) [.phys 2]) 0x100000 4 false = (s1, .ok r) ∧
      (r.1.loc = false ∧ homeOf s1 r.1.pa = .first ∧ s1.watches = [] ∧ r.2.length = 4 ∧ s1.op 0 0 = some (opOf (.atomic .cas 0x100000 4 9 0) [.phys 2]) ∧
        leNat r.2 = 0)) ∧
    (so (.agadd 0x100010 7 3) []).sentOp 0 (opOf (.agadd 0x100010 7 3) []) ∧
    (∃ s1 r, bothFor (so (.agadd 0x100010 7 3) []) 0 (opOf (.agadd 0x100010 7 3) []) 0x100010 16 false = (s1, .ok r) ∧
      (r.1.loc = false ∧ homeOf s1 r.1.pa = .first ∧ s1.watches = [] ∧ r.2.length = 16 ∧ s1.op 0 0 = some (opOf (.agadd 0x100010 7 3) []))) := by
  refine ⟨?_, pair_ok ?_, ?_, pair_ok ?_⟩ <;> decide +kernel

theorem wit_MemoryCanonical : Memory.wf s0.mem ∧ Memory.wf (homeWrite s0 0x20000 [0, 5]).mem := by decide +kernel

theorem wit_SyncIssue : (st [0x100008]).passes hd [.r 8, .r 10, .l (.pred 15)] ∧ (st [0x100008]).room ∧ ((st [0x100008]).me.reg 8).toNat % 8 = 0 ∧
    gapOf (st [0x100008]) (st [0x100008]).me 0x100008 8 .read = none ∧ gapOf (st [0x100008]) (st [0x100008]).me 0x100008 8 .both = none ∧
    ((st [0x100008]).core 0).relq.length < 8 ∧
    (∃ s1 w, siteOf ((st [0x100008]).entered 4) ((st [0x100008]).me.past 4) 0x100008 8 .write = (s1, .ok w) ∧
      (syncHome s1 w.pa = true ∧ (s1.core 0).relq.length < 8 ∧ (s1.ctx 1).watches = [])) ∧
    gapOf (st [0x100008]) (st [0x100008]).me 0x100008 8 .write = none ∧ ((st [0x100004]).me.reg 8).toNat % 8 ≠ 0 := by
  refine ⟨?_, ?_, ?_, ?_, ?_, ?_, pair_ok ?_, ?_, ?_⟩ <;> decide +kernel

/-- A release of core 0 to 0x100000, and an acquire-release of strand 0. -/
def rel0 : Rel := ⟨0, 1, 0x100000, 0x100000, .package, .rel 5, 0, false, false, false⟩
def rel1 : Rel := ⟨0, 1, 0x100000, 0, .die, .acqrel 0, 0, false, false, false⟩
def arOp : Op := opOf (.acqrel 0x100000 6 .die) [.phys 2, .pred 15]
def ar0 : State := (so arOp.kind arOp.dests).modCore 0 fun k => { k with relq := [rel1] }
def wwOp : Op := opOf (.waitw 0x100000 1 .die) [.phys 2, .pred 15]

theorem wit_AcquiresAndReleases : ((so (.acq 0x100000 .die) [.phys 2, .pred 15]).sentOp 0 (opOf (.acq 0x100000 .die) [.phys 2, .pred 15]) ∧
      ((so (.acq 0x100000 .die) [.phys 2, .pred 15]).strand 0).preempted = false) ∧
    (∃ s1 w, attempt (so (.acq 0x100000 .die) [.phys 2, .pred 15]) 0 (opOf (.acq 0x100000 .die) [.phys 2, .pred 15]) 0x100000 8 .read false = (s1, .go w) ∧
      (w.loc = false ∧ homeOf s1 w.pa = .first ∧ isPoisoned s1 w.pa 8 = false ∧ (s1.ctx (s1.strand 0).ctx).watches = [] ∧
        s1.op 0 0 = some (opOf (.acq 0x100000 .die) [.phys 2, .pred 15]))) ∧
    (∃ s1 w, attempt (so wwOp.kind wwOp.dests) 0 wwOp 0x100000 8 .read false = (s1, .go w) ∧
      (w.loc = false ∧ homeOf s1 w.pa = .first ∧ readLE s1 w.pa 8 ≠ 1 ∧ readLE s1 w.pa 8 = 0 ∧ (s1.watches.any fun x => x.uid == 0 && x.opId == 0) = false)) ∧
    (let x : Watch := ⟨0, 0, 0x100000, 1, false⟩
     let s := { so wwOp.kind wwOp.dests with watches := [x] }
     s.sentOp 0 wwOp ∧ (s.watches.find? fun w => w.uid == 0 && w.opId == 0 && !w.placed) = some x ∧ homeOf s x.pa = .first ∧
       isPoisoned s x.pa 8 = false ∧ readLE s x.pa 8 ≠ x.e) ∧
    (let s := s0.modCore 0 fun k => { k with relq := [rel0] }
     (s.core 0).relq = rel0 :: [] ∧ relReady s 0 rel0 = true ∧ treeBehind s rel0.uid rel0.pa 8 rel0.seq = false ∧ behindWrite s 0 rel0.pa rel0.seq = false ∧ behindAtomic s 0 rel0.pa rel0.seq = false ∧ rel0.wb = false ∧
       homeOf s rel0.pa = .first ∧ localOff s 1 rel0.va = none ∧
       relReady (s.modCore 0 fun k => { k with touchS := 1 }) 0 rel0 = false) ∧
    (let r : Rel := { rel0 with va := 0x120000, wb := true }
     let s := s0.modCore 0 fun k => { k with relq := [r] }
     (s.core 0).relq = r :: [] ∧ relReady s 0 r = true ∧
       (match (xlate (passHub s 0) 0 1 r.va .write false).2 with | .ok x => x.wb | .error _ => false) = true) ∧
    ((ar0.core 0).relq = rel1 :: [] ∧ ar0.op 0 0 = some arOp ∧ relReady ar0 0 rel1 = true) ∧
    (∃ s1 r, bothFor (passHub (popRel ar0 0) 0) 0 arOp 0x100000 8 false = (s1, .ok r) ∧
      (r.1.loc = false ∧ homeOf s1 r.1.pa = .first ∧ s1.watches = [] ∧ s1.op 0 0 = some arOp)) := by
  refine ⟨?_, att_go ?_, att_go ?_, ?_, ?_, ?_, ?_, pair_ok ?_⟩ <;> decide +kernel

/-- All 64 entries of a binding table in use. -/
def full64 : Table Binding := (List.range 64).map fun i => (i, ⟨8 * i, 64, 1⟩)

theorem wit_BindingsAndFences : (st [8, 2 ^ 56 - 1, 1]).passes hd [.r 10, .r 8, .r 9] ∧ ((st [4]).me.reg 8).toNat % 8 ≠ 0 ∧
    (2 ^ 56 - 1) + 1 ≤ 2 ^ 56 ∧ 2 ^ 56 < (2 ^ 56 - 1) + 2 ∧
    (let s := (st [8, 64, 1]).modCore 0 fun k => { k with binds := [(1, full64)] }
     let tab := tget [] (s.core 0).binds 1
     (tab.find? fun x => x.2 == ⟨8, 64, 1⟩) = some (1, ⟨8, 64, 1⟩) ∧ (∀ i < 64, (tget? tab i).isSome = true) ∧ (∀ x ∈ tab, x.2 ≠ ⟨8, 64, 2⟩)) ∧
    (let tab := full64.take 63
     tget? tab 63 = none ∧ (∀ j < 63, (tget? tab j).isSome = true) ∧ (∀ x ∈ tab, x.2 ≠ ⟨8, 64, 2⟩)) ∧
    (let s := (st [0, 0, 63]).modCore 0 fun k => { k with binds := [(1, full64)] }
     s.passes hd [.r 10] ∧ (s.me.reg 10).toNat < 64 ∧ (tget? (tget [] (s.core 0).binds 1) 63).isSome = true) ∧
    (∀ p ∈ [Path.s, .v, .k, .x, .g, .n, .p], pathQuiet ((st []).entered 4) 0 p = true) ∧ releaseWorkDone (st []) 0 .system = true ∧
    (let b : BindMsg := ⟨1, 2, some ⟨8, 64, 1⟩, [1], 0⟩
     let s := s0.modCore 0 fun k => { k with bindOwed := [b] }
     ((s.core 0).bindOwed.find? fun b => b.cores.contains 1) = some b) ∧
    (let s := { s0 with writes := [{ wr0 with pa := 0x101000 }] }.modCore 0 fun k => { k with touchS := 1 }
     (∀ w ∈ s.writes, w.core = 0 → inGroup s false 0 w.pa = false) ∧ (∀ t ∈ s.strands, t.2.ops = []) ∧ bit (s.core 0).touchS 0 = true) ∧
    (let m : ScopeMiss := ⟨1, 0, 0x100000, .package⟩
     let s := setTag (s0.modCore 0 fun k => { k with misses := [m] }) 0x100000 (mkTag .die 0)
     (s.core 0).misses = m :: [] ∧ s.off 0 1 = false ∧ fld (tagOf s m.pa) 3 10 = 0 ∧ fld (tagOf s m.pa) 13 3 < m.sc.code ∧
       releaseWorkDone s 0 m.sc = true ∧ windowAtomic s 0 = false) := by decide +kernel

theorem wit_TranslationAgents : (let s := { s0 with tlb := [] }
      walkWanted s 0 1 0x10000 = true ∧ tlbHit s (tlbCore 0) 1 0x10000 = none ∧ tlbHit s (tlbCluster 0) 1 0x10000 = none ∧
      (match walk s 1 0x10000 with | .ok l => decide (l.va ≤ 0x10000) && decide (0x10000 < l.va + l.size) | .error _ => false) = true) ∧
    (let e : TlbEntry := { page 0x100000 0x200000000000 1 0x4030 with epa := 0x50000, cnt := 16 }
     let s := { s0 with tlb := [e] }
     (s.tlb.find? fun e => e.who == 0 && e.ctx == 1 && decide (e.va ≤ 0x10FFFF) && decide (0x10FFFF < e.va + e.size)) = some e ∧ 16 ≤ e.cnt ∧ s.counts = []) ∧
    (let s := { s0 with counts := [(0, 1, 0x10FFFF, 0x50000, 3)] }
     (s.counts.find? fun q => q.1 == 0 && q.2.1 == 1 && q.2.2.1 == 0x10FFFF) = some (0, 1, 0x10FFFF, 0x50000, 3)) ∧
    (let s := { s0 with hot := [(1, 0x50000, 4095)] }
     s.hot[0]? = some (1, 0x50000, 4095) ∧ (s.ctx 1).nqn = 0) ∧
    (let s := { s0 with hot := [(1, 0x50000, 256)] }.modCtx 1 fun x => { x with nqb := 0x60000, nqn := 16 }
     (s.ctx 1).nqn ≠ 0 ∧ (readLE s (0x60000 + 16 * 16) 8 % 2 ^ 32 + 2 ^ 32 - readLE s (0x60000 + 16 * 16 + 8) 8 % 2 ^ 32) % 2 ^ 32 < (s.ctx 1).nqn) ∧
    ((1023 : Nat) < 1024 ∧ 0x3FF00 < 2 ^ 39 ∧ homeId s0 0x3FF00 = 1023) := by decide +kernel

theorem wit_TrapsTaken : ((1 : Nat) < 34 ∧ (s0.strand 0).trap.intrap = false ∧ vector s0 (s0.strand 0) 1 = some 0x20000) ∧
    vector s0 (s0.strand 0) 33 = some 0 ∧ vector (s0.modCtx 1 fun x => { x with tvec := 0x40000000 }) (s0.strand 0) 33 = none ∧
    ((sw [] fun t => { t with trap := { t.trap with intrap := true } }).strand 0).trap.intrap = true ∧ s0.passes hd [] := by decide +kernel

/-- A load that has faulted, and one that is held in the strand's handler. -/
def badOp : Op := { opOf (.load 0x40000000 8 true false) [.phys 2] with phase := .faulted, cause := { code := 7, addr := 0x40000000, acc := 1 } }
def heldS : State := sw [] fun t =>
  { t with sup := true, ops := [{ badOp with phase := .held, outer := true }], nextOp := 1, pend := [.phys 2],
           trap := { t.trap with intrap := true, tcause := w64 (7 + 2 ^ 16 + 2 ^ 17 + 2 ^ 18), tres := 0x10000, held := 0 } }

theorem wit_CloseFaults : let s := sw [] fun t => { t with ops := [badOp], nextOp := 1, pend := [.phys 2] }
    s.passes hc [] ∧ hc.c = true ∧ s.me.close = none ∧ (∀ x ∈ s.me.ops, ¬x.outstandingFor) ∧ firstFault s.me = some badOp ∧ badOp.holds = true ∧
    s.me.trap.intrap = false ∧ vector s s.me badOp.cause.code = some 0x20000 ∧ badOp.cause.acc < 4 := by decide +kernel

theorem wit_ReturnFromTrap : ((st []).passes hd [] ∧ (st []).me.trap.intrap = false) ∧
    ((st []).me.refPending (.p 1) = false ∧ (st []).me.predBit 1 = false) ∧
    (let s := sw [] fun t => { t with sup := true, trap := { t.trap with intrap := true, tcause := 14, tres := 0x20000, tpc := 0x1FFFC, tlen := 4 } }
     s.me.trap.intrap = true ∧ s.me.trap.tcause.getLsbD 17 = false ∧ s.me.trap.tcause.getLsbD 16 = false) ∧
    (let s := sw [] fun t => { t with sup := true, trap := { t.trap with intrap := true, tcause := 6 + 2 ^ 16 } }
     s.me.trap.tcause.getLsbD 17 = false ∧ s.me.trap.tcause.getLsbD 16 = true) ∧
    (heldS.passes hd [] ∧ heldS.me.trap.tcause.getLsbD 17 = true ∧ heldS.op 0 heldS.me.trap.held = some { badOp with phase := .held, outer := true } ∧
      ∀ x ∈ heldS.me.ops, x.id = heldS.me.trap.held) := by decide +kernel

theorem wit_CsrReadsAndPrivilege : (csrAcc 0 false = some .rw ∧ (CsrAcc.rw ≠ .none) ∧ (st []).passes hd [.r 10] ∧ (st []).me.predPending = false) ∧
    csrAcc 0x32 false = none ∧ csrAcc 0x2E false = some .none ∧ (sw [] fun t => { t with sup := true }).me.sup = true ∧ (st []).me.sup = false := by
  decide +kernel

theorem wit_CsrWrites : (st []).passes hd [.r 10] ∧ csrAcc 0x02 false = some .r ∧ csrAcc 0x04 false = some .rw ∧
    csrAcc 0x31 (sw [] fun t => { t with sup := true }).me.sup = some .rw := by decide +kernel

/-- CSRR of WSTAT reads CWP above WRES (04 R105). -/
theorem test_csr_wstat : (after (exec (.csrr hd 8 2) (sw [] fun t => { t with cwp := 12, wres := 8 }))).getLoc (.phys 12) = 0xC08 := by decide +kernel
/-- A trap's registers (23 R481, R482, R486). -/
theorem test_trap : let t := after (exec (.trap hd 5) (s0.setCtx 1 { c1 with tvec := 0x12FF98 })); t.pc = 0x20000 ∧ t.trap.tpc = 0x10000 ∧
    t.trap.tres = 0x10004 ∧ t.trap.tcause = 0x50E ∧ t.sup = true ∧ t.trap.ppriv = false := by decide +kernel
/-- A compare-and-swap of a word that matches (05 R142). -/
theorem test_cas : let s := nextOf (exec (.atomicAtHome 0 0) (so (.atomic .cas 0x100000 4 9 0) [.phys 2])); readLE s 0x100000 8 = 9 ∧
    (s.op 0 0).map (·.res) = some [0] := by decide +kernel
/-- A release by core 0 writes the word with its tag (08 R185, R197). -/
theorem test_release : let s := nextOf (exec (.releasePerform 0) (s0.modCore 0 fun k => { k with relq := [rel0] })); readLE s 0x100000 8 = 5 ∧
    tagOf s 0x100000 = 0x8000 := by decide +kernel

/-- A restartable kernel of one coordinate, and a machine that runs it with the strand changed. -/
def kr : Kernel := { k0 with cost := List.replicate 16 0 ++ leBytes 4 1 ++ leBytes 4 1 ++ [1] }
def kw (l : List Nat) (f : Strand → Strand) : State := { sw l f with kernels := [(0, kr)] }

theorem wit_SystemCalls : ((st []).passes hd [.r 10] ∧ (st []).room) ∧
    (let s := so (.sleep 0) []
     s.sentOp 0 (opOf (.sleep 0) []) ∧ (s.strand 0).st = .ready ∧ regHeld s (s.strand 0) = false ∧ (s.strand 0).close = none ∧
       frozenNow s 0 = false ∧ 0 ≤ strandCycle s (s.strand 0)) ∧
    ((so (.wcall 5 0) [.phys 2]).sentOp 0 (opOf (.wcall 5 0) [.phys 2])) ∧
    (let s := sw [2 ^ 56 - 2 ^ 16 + 12, 1] fun t => { t with sup := true }
     s.passes hd [.r 8] ∧ s.me.sup = true ∧ s.room ∧ (s.me.reg 8).toNat / 2 ^ 56 = 0 ∧ (s.me.reg 8).toNat / 16 % 2 ^ 12 = 0 ∧
       (s.me.reg 8).toNat % 4 = 0 ∧ (s.me.reg 9).toNat % 4 ≠ 0) ∧
    (let s := kw [2 ^ 63, 0] fun t => t
     s.passes hd [.r 8] ∧ (s.me.reg 8).getLsbD 63 = true ∧ (s.me.reg 9).getLsbD 63 = false ∧ s.me.engagedNow = false ∧
       (s.kern 0).restart = true ∧ (s.me.reg 8).toNat % 2 ^ 32 < (s.kern 0).slices ∧ s.me.wres = 0 ∧ s.me.wsp.toNat % 8 = 0 ∧
       s.watches = [] ∧ (s.ctx 1).watches = [] ∧ s.writes = []) := by decide +kernel

/-- The record at 0x100000 has FULL = 1 and a WSP. -/
def fullRec : List Byte := leBytes 8 0x20000 ++ leBytes 8 0x80400 ++ leBytes 10 0 ++ leBytes 2 1
/-- Two strands, of which the second is one that CONTW has saved, and a CONTR of the first. -/
def contrOp (slot : Nat) : Op := opOf (.contr 0x100000 slot) [.phys 2]
def contrS : State :=
  (so (contrOp 3).kind (contrOp 3).dests).setStrand 1 { t0 with lslot := 3, pslot := 3, st := .saved (.contw 0x100000) none false }

def contrF : State := { contrS with mem := memPut contrS.mem 0x100000 fullRec }
/-- A strand with one older frame resident, at a WSP of 0x100000, and its record at 0x10FF80. -/
def contwS : State := sw [] fun t => { t with wres := 4, cwp := 4, wsp := 0x100000, phys := regs [1, 2, 3, 4, 0x10FF80] }

theorem wit_Continuations : (let s := sw [0x100000] fun t => { t with ops := [opOf (.sleep 9) []], nextOp := 1 }
      s.passes hd (.r 8 :: (List.range 10).map fun i => .r (wreg i)) ∧ s.me.engagedNow = true) ∧
    ((st [0x100040]).me.engagedNow = false ∧ (st [0x100040]).passes hd (.r 8 :: (List.range 10).map fun i => .r (wreg i)) ∧
      ((st [0x100040]).me.reg 8).toNat % 128 ≠ 0 ∧ ((st [0x10FF80]).me.reg 8).toNat % 128 = 0 ∧ (st []).me.wres = 0 ∧ (st []).me.vq = [] ∧
      (st []).me.handles = []) ∧
    (let s := sw [0x100080] fun t => { t with wres := 4, cwp := 4, wsp := 4, phys := regs [0, 0, 0, 0, 0x100080] }
     s.me.engagedNow = false ∧ (s.me.reg 8).toNat % 128 = 0 ∧ s.me.wres ≠ 0 ∧ s.me.wsp.toNat % 8 ≠ 0) ∧
    (∃ s1 ws, sitesOf (contwS.entered 4) (contwS.me.past 4) .write (wordsAt 0x10FF80 16 ++ wordsAt 0x100000 4) = (s1, .ok ws) ∧
      ((∀ w ∈ ws, w.loc = false ∧ w.wb = false) ∧ (s1.ctx 1).watches = [] ∧ (closeHandles s1 0).2 = true)) ∧
    contwS.passes hd (.r 8 :: (List.range 10).map fun i => .r (wreg i)) ∧ contwS.me.wres = 4 ∧ (contwS.me.reg 8).toNat = 0x10FF80 ∧ contwS.me.vq = [] ∧
    contwS.me.engagedNow = false ∧
    (let s := st [0xDFF80]
     s.me.engagedNow = false ∧ localOff s 1 0xDFF80 = some 0x5FF80 ∧ 0x5FF80 + 128 ≤ spadSize s 0 1 ∧ (s.ctx 1).watches = [] ∧
       ∀ i < 16, localBehind s 0 (0xDFF80 + 8 * i) 8 (spadPA s 0 1 (0x5FF80 + 8 * i)) = false) ∧
    ((st [0x100080]).passes hd [.r 8] ∧ ((st [0x100080]).me.reg 8).toNat % 128 = 0) ∧
    (contrS.sentOp 0 (contrOp 3) ∧ regHeld contrS (contrS.strand 0) = false ∧ frozenNow contrS 0 = false) ∧
    (∃ s1 b0, readFor contrS 0 (contrOp 3) 0x100000 64 false = (s1, .ok b0) ∧
      (match readFor s1 0 (contrOp 3) (0x100000 + 64) 64 false with
      | (s2, .ok b1) => decide (s1.strand 0 = contrS.strand 0 ∧ s2.strand 0 = contrS.strand 0 ∧ contwAt s2 (s2.strand 0) 3 = some 1 ∧
          contwAt s2 (s2.strand 0) 4 = none ∧ recordOk (b0 ++ b1) = true ∧ s2.writes = [] ∧ atomicsBefore s2 0 0 = false ∧
          (∀ c ∈ s2.cores, c.2.relq = []) ∧ (s2.strand 1).stopWaits = false ∧ ((s2.setStrand 1 { s2.strand 1 with stopWaits := true }).strand 1).stopWaits = true ∧ recLE (b0 ++ b1) 26 2 % 2 = 0)
      | _ => false) = true) ∧ (contrS.strand 0).close = none ∧
    (∃ s1 b0, readFor contrF 0 (contrOp 3) 0x100000 64 false = (s1, .ok b0) ∧
      (match readFor s1 0 (contrOp 3) (0x100000 + 64) 64 false with
      | (s2, .ok b1) => decide (contwAt s2 (s2.strand 0) 3 = some 1 ∧ recordOk (b0 ++ b1) = true ∧ recLE (b0 ++ b1) 26 2 % 2 = 1) &&
        (match fillFor s2 0 (contrOp 3) false ((List.range 22).map fun i => (recLE (b0 ++ b1) 8 8 + 2 ^ 64 - 176 + 8 * i) % 2 ^ 64) with
        | (s3, .ok _) => decide (s3.op 0 0 = some (contrOp 3) ∧ s3.strand 0 = s2.strand 0 ∧ s3.strand 1 = s2.strand 1)
        | _ => false)
      | _ => false) = true) ∧ recordOk (leBytes 8 2) = false := by
  refine ⟨?_, ?_, ?_, pair_ok ?_, ?_, ?_, ?_, ?_, ?_, ?_, ?_, ?_, pair_ok ?_, ?_, pair_ok ?_, ?_⟩ <;> decide +kernel

/-- VFILL of w0 elements at p0 with w1, OBJ0 marked: its words behind the strand's instruction, and a repetition of it. -/
def repS : State :=
  { (st [4, 4]) with mem := memPut s0.mem 0x10004 ((encode (.vfill hd { x0 with f0 := 8, f3 := 9, mark := 2 })).flatMap (leBytes 4)) }
def fillB : BodyInstr := ⟨.vfill, { x0 with f0 := 8, f3 := 1 }, none, 0x10004, 12, true⟩
def rep0 : Rep := ⟨0, [fillB], 2, 1, 0, 0, 0, false⟩
def repOp : Op := { opOf .rep [] with path := .w }
def repV (f : Strand → Strand) : State := sw [4] fun t => f { t with rep := some rep0, ops := [repOp], nextOp := 1 }

theorem wit_Repetitions : ((st []).passes hd [] ∧ (st []).room ∧ (st []).passes hc [] ∧ (st []).me.rep = none) ∧
    (∃ s1 c, captureBody ((st []).me.past 4) 256 (-32) 8 0x10004 ((st []).entered 4) = (s1, .error c) ∧ c.code = 1) ∧
    (∃ s1 r, captureBody (repS.me.past 4) 2 1 1 0x10004 (repS.entered 4) = (s1, .ok r) ∧
      (r.1.length = 1 ∧ r.2 = 0x10010 ∧ ∀ b ∈ r.1, ∀ x ∈ bodyRefs b 2 1, repS.me.refPending x = false)) ∧
    (let s := repS.setStrand 0 { repS.me with pend := [.phys 0] }
     (match captureBody (s.me.past 4) 2 1 1 0x10004 (s.entered 4) with
     | (_, .ok r) => (r.1.find? fun b => (bodyRefs b 2 1).any s.me.refPending).isSome
     | _ => false) = true) ∧
    (repV fun t => t).me.rep.isSome = true ∧
    (let r := rep0
     let s := repV fun t => t
     (s.strand 0).rep = some r ∧ r.stopped = false ∧ r.iter < r.k ∧ (s.strand 0).st ≠ .ended ∧ s.off 0 1 = false ∧ r.body[r.idx]? = some fillB ∧
       fillB.on = true ∧ (s.strand 0).close = none ∧ r.opId ≠ (s.strand 0).nextOp) ∧
    (∃ c, extEff fillB.op (fieldsAt fillB.e 0 1) fillB.lit ⟨(repV fun t => t).setStrand 0 (repView ((repV fun t => t).strand 0) rep0), 0,
      repView ((repV fun t => t).strand 0) rep0, fillB.addr, fillB.len, none⟩ = .trap c) ∧
    (∃ s', let s := repV fun t => { t with claims := [⟨0, 16, 16, 16, 9, [], none, [], []⟩] }
      extEff fillB.op (fieldsAt fillB.e 0 1) fillB.lit ⟨s.setStrand 0 (repView (s.strand 0) rep0), 0, repView (s.strand 0) rep0, fillB.addr, fillB.len, none⟩ =
        .ok s') ∧
    (∃ s', let s := repV fun t => { t with claims := [⟨0, 16, 16, 16, 9, [], none, [], []⟩], vq := List.replicate 4 {} }
      extEff fillB.op (fieldsAt fillB.e 0 1) fillB.lit ⟨s.setStrand 0 (repView (s.strand 0) rep0), 0, repView (s.strand 0) rep0, fillB.addr, fillB.len, none⟩ =
        .wait s') ∧
    (let t := ((repV fun t => { t with claims := [⟨0, 16, 16, 16, 9, [], none, [], []⟩] }).strand 0)
     let w := repView t rep0
     let e := fieldsAt fillB.e 0 1
     w.held = some ⟨0, 16, 16, 16, 9, [], none, [], []⟩ ∧ t.vq.length < 4 ∧ w.off e.obj0.val % etSize (e.mode.toNat % 8) = 0 ∧
       w.off e.obj0.val + w.count e.f0 * etSize (e.mode.toNat % 8) ≤ spadSize s0 w.lcore w.ctx ∧ w.count e.f0 = 4) ∧
    (let s := sw [] fun t => { t with rep := some { rep0 with iter := 2 }, ops := [repOp], nextOp := 1 }
     s.sentOp 0 repOp ∧ repDone (s.strand 0) repOp = true ∧ regHeld s (s.strand 0) = false ∧ frozenNow s 0 = false) := by
  refine ⟨?_, pair_err ?_, pair_ok ?_, ?_, ?_, ?_, ⟨_, rfl⟩, ⟨_, rfl⟩, ⟨_, rfl⟩, ?_, ?_⟩ <;> decide +kernel

/-- A claim of 16 lanes, granted; and a machine whose strand holds it. -/
def claim0 : Claim := ⟨0, 16, 16, 16, 9, [], none, [], []⟩
def sv (l : List Nat) (f : Strand → Strand) : State := sw l fun t => f { t with claims := [claim0] }

theorem wit_VectorIssue : (∃ u v, VecRule (st [4]).me (.vadd hd 0 1 2 8 .f32) hd 4 [.r 8] u v ∧ (st [4]).passes hd [.r 8] ∧ (st [4]).me.held = none) ∧
    (∃ u v, VecRule (sv [2 ^ 20 - 1] fun t => { t with ptrs := [(1, ⟨2, 0⟩)] }).me (.vneg hd 0 1 8 .i32) hd 4 [.r 8] u v ∧
      (sv [2 ^ 20 - 1] fun t => { t with ptrs := [(1, ⟨2, 0⟩)] }).me.held = some claim0 ∧
      u.any (fun o => (sv [2 ^ 20 - 1] fun t => { t with ptrs := [(1, ⟨2, 0⟩)] }).me.off o.p % o.align != 0) = true) ∧
    (∃ u v, VecRule (sv [1] fun t => { t with ptrs := [(0, ⟨0x5FFFC, 4⟩), (1, ⟨0x60000, 4⟩)] }).me (.vneg hd 0 1 8 .i32) hd 4 [.r 8] u v ∧
      u.all (fun o => (sv [1] fun t => { t with ptrs := [(0, ⟨0x5FFFC, 4⟩), (1, ⟨0x60000, 4⟩)] }).me.off o.p % o.align == 0) = true ∧
      u.any (fun o => decide (o.bytes ≠ 0 ∧ spadSize s0 0 1 < (sv [1] fun t => { t with ptrs := [(0, ⟨0x5FFFC, 4⟩), (1, ⟨0x60000, 4⟩)] }).me.off o.p + o.bytes)) = true) ∧
    (∃ u v, VecRule (sv [1] fun t => { t with ptrs := [(0, ⟨0x5FFFC, 4⟩), (1, ⟨0x5FFFC, 4⟩)] }).me (.vneg hd 0 1 8 .i32) hd 4 [.r 8] u v ∧
      u.all (fun o => (sv [1] fun t => { t with ptrs := [(0, ⟨0x5FFFC, 4⟩), (1, ⟨0x5FFFC, 4⟩)] }).me.off o.p % o.align == 0) = true ∧
      u.all (fun o => decide (o.bytes ≠ 0 → (sv [1] fun t => { t with ptrs := [(0, ⟨0x5FFFC, 4⟩), (1, ⟨0x5FFFC, 4⟩)] }).me.off o.p + o.bytes ≤ spadSize s0 0 1)) = true ∧
      (sv [1] fun t => t).me.vq.length < 4) ∧
    (∃ n, ChainRule (sv [4, 0x5FFF8] fun t => t).me (.vchain hd { x0 with f0 := 8, f3 := 9, mode := 1 }) hd 12 { x0 with f0 := 8, f3 := 9, mode := 1 }
      [.r 8, .r 9] n ∧ (sv [4, 0x5FFF8] fun t => t).passes hd [.r 8, .r 9] ∧ (sv [4, 0x5FFF8] fun t => t).me.held = some claim0 ∧ n % 8 = 0 ∧
      n + 8 * 1 ≤ spadSize s0 0 1 ∧ spadBusy (sv [] fun t => t) 0 1 n 8 = false ∧ spadPoisoned (sv [] fun t => t) 0 1 n 8 = false ∧
      spadPoisoned { (sv [] fun t => t) with poison := [spadPA s0 0 1 n] } 0 1 n 8 = true) ∧
    (stageOk 0x100 = true ∧ stageOk 0 = false) := by
  refine ⟨⟨_, _, .vadd .., ?_⟩, ⟨_, _, .vneg .., ?_⟩, ⟨_, _, .vneg .., ?_⟩, ⟨_, _, .vneg .., ?_⟩, ⟨_, .vchain .., ?_⟩, ?_⟩ <;> decide +kernel

/-- A queued addition of two FP32 elements at 0 and 8 to 16, and reductions of I32 elements. -/
def vAdd : VecOp := { op := 0x4A, et := 0, n := 2, pd := 16, pa := 0, pb := 8, spans := [(16, 8), (0, 8), (8, 8)], cid := 0, opId := 1 }
def vRed (op : Nat) : VecOp := { op := op, et := 3, n := 2, pa := 0, mb := 3, spans := [(0, 8)], cid := 0, opId := 1 }

theorem wit_VectorResults : (let s := sv [] fun t => { t with vq := [vAdd], nextOp := 2 }
      (s.strand 0).vq = vAdd :: [] ∧ (s.strand 0).vout = none ∧ vecReady s (s.strand 0) vAdd = true ∧ (s.strand 0).close = none ∧ s.watches = [] ∧ s.poison = [] ∧
        vAdd.ext = none ∧ vAdd.et < 6 ∧ vAdd.n < 2 ^ 20 ∧ 0x4A ≤ vAdd.op ∧ vAdd.op ≤ 0x4F ∧ vAdd.spans.take 1 = [(16, 2 * etSize 0)] ∧ apart 16 0 (2 * etSize 0) ∧
        apart 16 8 (2 * etSize 0)) ∧
    (let v : VecOp := { vAdd with op := 0x506, pd := 0, pa := 0, spans := [(0, 8), (0, 8)] }
     vecReady (sv [] fun t => { t with vq := [v] }) ((sv [] fun t => { t with vq := [v] }).strand 0) v = true ∧ v.spans.take 1 = [(0, 2 * etSize 0)] ∧ apart 0 0 (2 * etSize 0)) ∧
    (vecReady (sv [] fun t => { t with vq := [vRed 0x511] }) ((sv [] fun t => { t with vq := [vRed 0x511] }).strand 0) (vRed 0x511) = true ∧ 0 < (vRed 0x511).n) := by
  decide +kernel

theorem wit_LanesAndMailboxes : ((st []).passes hd [.r 8, .r 9] ∧ (st []).room ∧ (st []).me.held = none) ∧
    (let w := ((st [256 + 256 * 2 ^ 16]).me.reg 8).toNat
     w % 2 ^ 9 = 256 ∧ w / 2 ^ 16 % 2 ^ 9 = 256) ∧
    (let s := sv [0, 32 + 32 * 2 ^ 16] fun t => { t with nextOp := 10 }
     s.me.held = some claim0 ∧ s.me.claims = [claim0] ∧ claim0.rens = [] ∧ s.me.st = .ready ∧ (s.me.reg 8).toNat = 0 ∧ claim0.grant ≠ 0 ∧ s.me.ops = [] ∧
       rising s.strands ∧ claim0.min ≤ claim0.grant ∧ claim0.grant < (s.me.reg 9).toNat / 2 ^ 16 % 2 ^ 9) ∧
    (let s := sw [] fun t => { t with claims := [⟨0, 32, 16, 0, 0, [], none, [], []⟩], ops := [{ opOf .claim [.phys 2] with path := .v }], nextOp := 1 }
     nextRequest s 0 = some (0, ⟨0, 32, 16, 0, 0, [], none, [], []⟩) ∧ 16 ≤ freeLanes s 0 ∧ s.claim 0 0 = some ⟨0, 32, 16, 0, 0, [], none, [], []⟩ ∧
       s.op 0 0 = some { opOf .claim [.phys 2] with path := .v } ∧ ∀ x ∈ (s.strand 0).claims, x.freed = none) ∧
    (let s := sw [] fun t => { t with claims := [⟨0, 32, 16, 0, 0, [], none, [], []⟩] }
     s.me.held = some ⟨0, 32, 16, 0, 0, [], none, [], []⟩ ∧ s.me.claims = [⟨0, 32, 16, 0, 0, [], none, [], []⟩] ∧ s.passes hd [] ∧ s.room) ∧
    (let s := (sw [] fun t => { t with claims := [⟨0, 256, 256, 0, 0, [], none, [], []⟩] }).setStrand 1 { t0 with pslot := 1, claims := [claim0] }
     nextRequest s 0 = some (0, ⟨0, 256, 256, 0, 0, [], none, [], []⟩) ∧ freeLanes s 0 < 256) ∧
    (let s := sw [] fun t => { t with mboxes := [(3, ⟨true, 7⟩)], ops := [{ opOf (.mbr 3) [.phys 2] with path := .v }], nextOp := 1 }
     s.sentOp 0 { opOf (.mbr 3) [.phys 2] with path := .v } ∧ tget Mailbox.init (s.strand 0).mboxes 3 = ⟨true, 7⟩ ∧
       ∀ y ∈ (s.strand 0).ops.takeWhile (fun y => y.id != 0), y.kind ≠ .mbr 3 ∧ frozenNow s 0 = false ∧ regHeld s (s.strand 0) = false) := by decide +kernel

theorem wit_EngineIssue : (∃ k q org late ds, EngineRule (st [5]).me (.cldLit hc { x0 with f0 := 8, obj1 := 3 } 0xFFF) hc 20 true [.r 8, .l (.qreg 3)] k q org late ds ∧
      (st [5]).passes hc [.r 8, .l (.qreg 3)] ∧ (st [5]).room ∧ (st [5]).me.ops = [] ∧ engineQueued (st [5]) 0 < 16) ∧
    (∃ k q org late ds, EngineRule (st []).me (.ashape hd 15 255 3) hd 4 false [] k q org late ds ∧ (st []).passes hd []) ∧
    (∃ n, CoopRule (st [5]).me (.cldc hd { x0 with f0 := 8, f3 := 9 }) hd 12 { x0 with f0 := 8, f3 := 9 } [.r 8, .l (.qreg 0), .r 9] n ∧
      (st [5]).passes hd [.r 8, .l (.qreg 0), .r 9] ∧ ∀ c ∈ clusterCores (coreCluster 0), engineQueued (st [5]) c < 16) ∧
    (16 ≤ engineQueued (s0.modPart 0 1 fun p => { p with eq := List.replicate 16 ((t0).entry 0 0 0 4 (.azero 0) none 0) }) 0) := by
  refine ⟨⟨_, _, _, _, _, .cldLit .., ?_⟩, ⟨_, _, _, _, _, .ashape .., ?_⟩, ⟨_, .cldc .., ?_⟩, ?_⟩ <;> decide +kernel

/-- An entry of the engine's queue alone, its operation, and the machine with it; tile 3 as given. -/
def ent (k : EngKind) : EngOp := (t0).entry 0 5 0x10000 4 k none 0
def live2 : LTile := { LTile.init with st := .live, rows := 256, cols := 64, phys := [6, 7], datum := -160 }
def en (k : EngKind) (f : Part → Part) : State :=
  (sw [] fun t => { t with ops := [{ opOf .engine [.phys 2] with path := .k }], nextOp := 1 }).modPart 0 1 fun p =>
    f { p with eq := [ent k], tiles := [(3, live2)] }

theorem wit_TileResults : (∀ k ∈ [EngKind.ashape 0 256 256, .ashape 0 1 64, .adatum 3 96, .adatum 1 0, .azero 3, .astat 3 0, .astat 3 (2 ^ 63 + 255 * 256 + 1), .achk 3, .ocols 32],
      (en k id).engineTurn 0 1 (ent k) ∧ ((en k id).strand 0).close = none) ∧
    ((en (.azero 3) id).part 0 1).tile 3 = live2 ∧ live2.wellBound ∧ ((en (.azero 3) id).part 0 1).tile 1 = LTile.init ∧
    ((en (.ocols 32) id).part 0 1).rf = none ∧ tileChecks (en (.achk 3) id) 0 live2 = 0 ∧
    (let held := (((en (.ashape 0 256 256) id).part 0 1).tiles.filter fun t => t.1 != 0).flatMap fun t => t.2.phys
     allOf.tiles.length < 8 + held.length ∧ 1 + held.length ≤ allOf.tiles.length) := by decide +kernel

/-- ASHAPE takes the lowest free physical tiles (10 R231, R238). -/
theorem test_ashape : (((nextOf (exec (.engineOpPerform 0 1 5) (en (.ashape 0 129 64) id))).part 0 1).tile 0).phys = [0, 1] := by decide +kernel
/-- A status word: STATE in [28:26], DATUM in [47:39], ROWS - 1 in [38:31] (10 R259). -/
theorem test_astat : ((nextOf (exec (.engineOpPerform 0 1 5) (en (.astat 3 0) id))).op 0 0).map (fun o => o.res.map fun w => w.toNat / 2 ^ 31) = some [352 * 256 + 255] := by
  decide +kernel
/-- A queued addition writes both sums (09 R221). -/
theorem test_vadd :
    let f (s : State) : State := nextOf (exec (.vectorPerform 0) s)
    let s := f <| f <| f { (sv [] fun t => { t with vq := [vAdd], nextOp := 2 }) with
      mem := memPut s0.mem winBase (leBytes 4 0x3F800000 ++ leBytes 4 0x40000000 ++ leBytes 4 0x40000000 ++ leBytes 4 0xC0000000) }
    (s.strand 0).vq = [] ∧ readLE s (winBase + 16) 4 = 0x40400000 ∧ readLE s (winBase + 20) 4 = 0 := by decide +kernel

/-- An extended vector instruction at the head of a strand's queue: n elements from 256 to 4096, with a third operand at 1024. -/
def vExt (x : ExtOp) (n mode imm : Nat) (spans : List (Nat × Nat)) : VecOp :=
  { ext := some x, n := n, mode := mode, imm := imm, pd := 4096, pa := 256, pb := 1024, pm := 2048, mb := 3, spans := spans, cid := 0, opId := 1 }
def vHead (v : VecOp) : State := sv [] fun t => { t with vq := [v], nextOp := 2, mboxes := [(3, ⟨true, 7⟩)] }
/-- It can be performed, and its operands are apart. -/
def vecMay (v : VecOp) (n m : Nat) : Bool :=
  decide (((vHead v).strand 0).vq = [v] ∧ ((vHead v).strand 0).vout = none ∧ (vHead v).watches = [] ∧ (vHead v).poison = []) &&
    vecReady (vHead v) ((vHead v).strand 0) v &&
    decide (v.n < 2 ^ 20 ∧ clear 4096 n 256 m ∧ clear 4096 n 1024 m ∧ apart 4096 256 n ∧ apart 4096 1024 n)

theorem wit_VectorResults_codes : (vecMay (vExt .vcmp 9 1 0 [(4096, 2)]) 2 36 = true ∧ (vExt .vcmp 9 1 0 [(4096, 2)]).spans.take 1 = [(4096, (9 + 7) / 8)]) ∧
    vecMay (vExt .vsel 9 0 0 [(4096, 36)]) 36 36 = true ∧ vecMay (vExt .vscale 9 64 0 [(4096, 36)]) 36 36 = true ∧ vecMay (vExt .vfill 9 64 0 [(4096, 36)]) 36 36 = true ∧
    vecMay (vExt .vrand 9 0 7 [(4096, 36)]) 36 36 = true ∧ vecMay (vExt .vnzc 9 (32 + 1) 0 [(4096, 2)]) 2 (touchedBytes 1 9) = true ∧
    vecMay (vExt .vchain 9 1 0 [(4096, 36)]) 36 36 = true := by decide +kernel

/-- The conversions: of 85 FP32 elements to E2M3, whose second sector has one, of 33 elements to and from a block
format, and of 33 to and from groups of 32. -/
theorem wit_VectorResults_conversions :
    (let v := vExt .vcvt 85 0 (8 + 13 * 32) [(4096, elemBytes 13 85), (256, elemBytes 8 85)]
     vecMay v (touchedBytes 13 85) (touchedBytes 8 85) = true ∧ v.imm % 32 = 8 ∧ v.imm / 32 % 32 = 13 ∧ (elemFmt 13).bits = 6) ∧
    (let v := vExt .vqmx 33 0 (10 + 15 * 32) [(4096, elemBytes 15 33), (256, elemBytes 10 33), (1024, 2)]
     vecMay v (touchedBytes 15 33) (touchedBytes 10 33) = true ∧ clear 1024 2 256 (touchedBytes 10 33)) ∧
    (let v := vExt .vdqmx 33 0 (15 + 10 * 32) [(4096, elemBytes 10 33), (256, elemBytes 15 33), (1024, 2)]
     vecMay v (touchedBytes 10 33) (touchedBytes 15 33) = true) ∧
    (let v := vExt .vqa 33 16 (17 + 10 * 32) [(4096, elemBytes 10 33), (256, elemBytes 17 33), (1024, 8)]
     vecMay v (touchedBytes 10 33) (touchedBytes 17 33) = true ∧ v.mode.testBit 4 = true) ∧
    (let v := vExt .vqa 33 0 (10 + 17 * 32) [(4096, elemBytes 17 33), (256, elemBytes 10 33), (1024, 8)]
     vecMay v (touchedBytes 17 33) (touchedBytes 10 33) = true ∧ v.mode.testBit 4 = false ∧ clear 1024 8 256 (touchedBytes 10 33)) := by decide +kernel

/-- Reductions of F32, and of no element. -/
theorem wit_VectorResults_reductions : ∀ v ∈ [{ vRed 0x510 with et := 0 }, { vRed 0x513 with et := 0 }, { vRed 0x513 with n := 0, spans := [(0, 0)] }, vRed 0x513],
    vecReady (vHead v) ((vHead v).strand 0) v = true ∧ ((vHead v).strand 0).vout = none := by decide +kernel

/-- Byte 63 of a partly filled sector of 6-bit elements is written as zero (09 R227). -/
theorem test_byte63 :
    let v := vExt .vcvt 1 0 (8 + 13 * 32) [(4096, elemBytes 13 1), (256, elemBytes 8 1)]
    let f (s : State) : State := nextOf (exec (.vectorPerform 0) s)
    let s := f <| f <| f <| f { (vHead v) with mem := memPut s0.mem (winBase + 4096 + 63) [0xAA] }
    (s.strand 0).vq = [] ∧ memGet s.mem (winBase + 4096 + 63) = 0 := by decide +kernel

/-- A BF16 descriptor at index 1 and a bitmap one at index 2 (07 R169), a plat record of 32 by 1 elements at 0x140000 (16 R346), a
mask parameter block at scratchpad offset 0 (11 R277), a handle record of one layer at 0x160000 (12 R279), and layer 6 (12 R283). -/
def platBytes (cad : Nat) : List Byte :=
  leBytes 4 0x31544C50 ++ leBytes 4 (cad * 2 ^ 8 + 2 * 2 ^ 16) ++ leBytes 8 0 ++ leBytes 4 1 ++ leBytes 4 32 ++ leBytes 12 0 ++ leBytes 4 32 ++
    leBytes 4 1 ++ leBytes 4 1 ++ leBytes 4 1 ++ leBytes 4 1 ++ leBytes 8 0
def recW (stat iref : Nat) : HRec := ⟨0x140000, 0x150000, 0, stat, iref, [5, 0, 0, 0, 0, 0, 0, 0], 0⟩
def pl0 : Plat := ⟨true, platBytes 1, 0x140000, 0x150000, [32, 1, 1, 1, 1], false⟩
def rich (s : State) : State :=
  let put (m : List Host.Cell) (p : Nat × List Byte) : List Host.Cell := memPut m p.1 p.2
  { s with mem := [(0x30020, leBytes 8 (10 + 32 * 2 ^ 32)), (0x30040, leBytes 8 (10 + 32 * 2 ^ 32 + 2 ^ 40)), (0x140000, platBytes 1),
      (winBase, leBytes 14 (1 + 4 * 2 ^ 96)), (0x160000, (recW (2 ^ 21 + 2 ^ 6) 0).bytes), (0x1700C0, leBytes 8 0x12)].foldl put s.mem }.modCtx 1
    fun x => { x with cadb := 0x30000, layb := 0x170000, layn := 16, hscrub := 1 }
def entP (k : EngKind) (q : Plat) (org : Nat) : EngOp := { ent k with plat := q, org := org }
def ep (k : EngKind) (q : Plat) (org : Nat) (f : Part → Part) : State :=
  rich ((en k f).modPart 0 1 fun p => { p with eq := [entP k q org] })
def withFmt (p : Part) : Part := { p with rf := some ⟨10, false⟩ }
def pl2 : Plat := { pl0 with record := platBytes 2 }

/-- A load that runs, and its one sector requested. -/
def fl0 : Flight := ⟨0, 0x150000, 0x150000, 0, 2 ^ 30, 1, none, (10 + 32 * 2 ^ 32, 0, 0)⟩
def run0 (f : EngOp → EngOp) : EngOp := f { entP (.cld 3 0 false) pl0 0 with started := true, per := 32 }
def rs (f : EngOp → EngOp) : State := (ep (.cld 3 0 false) pl0 0 withFmt).modPart 0 1 fun p => { p with eq := [], streams := [run0 f] }
def drn (sat : Bool) : EngKind := .adrain 3 10 0 sat 0 0 0

def cldAt (o org : Nat) : Bool := decide (cldFits (ep (.cld 3 o false) pl0 org withFmt) ((ep (.cld 3 o false) pl0 org withFmt).part 0 1) (entP (.cld 3 o false) pl0 org) 3 o)
def spAt (q : Plat) : Bool := decide (cldSpFits (ep (.cldSp 3 0 0) pl2 0 withFmt) ((ep (.cldSp 3 0 0) pl2 0 withFmt).part 0 1) (entP (.cldSp 3 0 0) q 0) 3 0)
def oldAt (k : EngKind) (o : Nat) (tr : Bool) : Bool := decide (oldFits (ep k pl0 0 withFmt) ((ep k pl0 0 withFmt).part 0 1) (entP k pl0 0) o tr)

theorem wit_LoadsAndDrains : (∀ k ∈ [EngKind.cld 3 0 false, .cld 3 480 false, .cld 3 481 false, .old 511 none, .oldT 480 0 false 0 0 none, drn false, .mseq 80 0 0 1],
      (ep k pl0 0 withFmt).engineTurn 0 1 (entP k pl0 0) ∧ ((ep k pl0 0 withFmt).strand 0).close = none) ∧
    (cldAt 480 0 = true ∧ cldAt 481 0 = false ∧ cldAt 0 32 = true ∧ boxFits pl0 0 ∧ ¬boxFits pl0 32) ∧
    (∀ m ∈ [0, 4], (ep (.cldSp 3 m 0) pl2 0 withFmt).engineTurn 0 1 (entP (.cldSp 3 m 0) pl2 0)) ∧
    (spAt pl2 = true ∧ spAt pl0 = false ∧ 0x5FFF0 + pl2.box 1 * (8 + 8 * ((pl2.box 0 + 63) / 64)) = spadSize s0 0 1) ∧
    (oldAt (.old 511 none) 511 false = true ∧ oldAt (.old 512 none) 512 false = false ∧ oldAt (.oldT 480 0 false 0 0 none) 480 true = true ∧
      deliveredFmt (ep (.old 511 none) pl0 0 withFmt) (entP (.old 511 none) pl0 0) = ⟨10, false⟩) := by
  decide +kernel

/-- Before an ADRAIN's rows: it is shaped, with its checks met or not, and with or without a slice. -/
theorem wit_LoadsAndDrains_drain : let s := ep (drn false) pl0 0 withFmt
    let e := entP (drn false) pl0 0
    let d := readDesc s 1 e.plat.cad
    e.started = false ∧ live2.st ≠ .unshaped ∧ sectorRules d e.plat e.org ∧ d.elem = 10 ∧ e.plat.box 1 ≤ live2.rows ∧ e.plat.box 0 ≤ live2.cols ∧
      mxElem 10 = false ∧ boxFits e.plat e.org ∧ tileChecks s 0 live2 = 0 ∧ tileChecks s 0 { live2 with chkfail := true } ≠ 0 ∧
      (s.strand 0).slice = none := by decide +kernel

/-- The parameters of a mask are good or bad, its list fits, and an entry of it is still to be written. -/
theorem wit_LoadsAndDrains_mask : let s := ep (.mseq 80 0 0 1) pl0 0 withFmt
    let b := spadRead s 0 1 0 80
    let e := { entP (.mseq 80 0 0 1) pl0 0 with started := true, row := 1, out := [(80, leBytes 2 0)] }
    maskOk b = true ∧ maskList b 0 = [0] ∧ spadBusy s 0 1 0 80 = false ∧ spadPoisoned s 0 1 0 80 = false ∧ spadBusy s 0 1 80 2 = false ∧
      maskOk (leBytes 80 0) = false ∧ 80 + 2 * 1 ≤ spadSize s 0 1 ∧ s.watches = [] ∧
      (s.modPart 0 1 fun p => { p with eq := [e] }).engineTurn 0 1 e ∧ (s.modPart 0 1 fun p => { p with eq := [{ e with out := [] }] }).engineTurn 0 1 { e with out := [] } := by
  decide +kernel

/-- A reply of a running load of a kind, with its buffer; all of it is there at the seven other cores of the cluster. -/
def rpl (k : EngKind) (buf : Table Nat) (w : Nat × Nat × Nat) : EngOp := run0 fun e => { e with kind := k, flight := [{ fl0 with desc := w }], buf := buf }
def rplS (k : EngKind) (buf : Table Nat) (w : Nat × Nat × Nat) (rf : RFmt) : State :=
  let s := (rs id).modPart 0 1 fun p => { p with streams := [rpl k buf w], rf := some rf }
  ((clusterCores 0).filter (· != 0)).foldl (fun s c => s.modPart c 1 fun p =>
    { p with st := .placed, partn := allOf, rf := some rf, tiles := [(3, live2)], streams := [{ ent (.coop 0 5 3 7) with started := true }] }) s
/-- The reply arrives, of so many codes, of groups or not, in a block format or not. -/
def answers (k : EngKind) (buf : Table Nat) (w : Nat × Nat × Nat) (n : Nat) (qa blk : Bool) : Bool :=
  let e := rpl k buf w
  let s := rplS k buf w ⟨(descOf w).elem, blk⟩
  let f := { fl0 with desc := w }
  decide ((s.part 0 1).streams.find? (fun e => e.seq == 5) = some e ∧ e.flight.find? (fun f => f.t == 0) = some f ∧ reachPA s 1 f.pa = .open ∧
    flightBusy s f = false ∧ (∀ c ∈ loadCores 0 e, frozenNow s c = false) ∧ (∀ x ∈ (s.part 0 1).streams, isCoop 0 5 x = false) ∧
    (s.strand 0).close = none) &&
  (match replySector s 1 { e with flight := [], wide := if e.kind.writes && !e.marks.isEmpty then e.wide else widened s 1 e.snap } f with
  | .ok r => decide (r.qa = qa ∧ r.block = blk ∧ r.codes.length = n ∧ r.elem = (descOf w).elem ∧ (∀ v ∈ r.codes, v < 2 ^ 16) ∧ ∀ v ∈ r.scales, v < 2 ^ 8)
  | .error _ => false)
/-- The words of a descriptor of BF16, of unsigned 8-bit codes in groups of 32, and of a block format of E2M1, with what stands beside at 512. -/
def wBf : Nat × Nat × Nat := (10 + 32 * 2 ^ 32, 0, 0)
def wQa : Nat × Nat × Nat := (17 + 32 * 2 ^ 16 + 8 * 2 ^ 24 + 64 * 2 ^ 32 + 2 ^ 41, 512, 0)
def wMx : Nat × Nat × Nat := (15 + 32 * 2 ^ 8 + 128 * 2 ^ 32 + 2 ^ 41, 512, 0)

theorem wit_LoadsAndDrains_replies : answers (.cld 3 0 false) [] wBf 32 false false = true ∧ answers (.cld 3 0 true) [] wBf 32 false false = true ∧
    answers (.cldSp 3 0 0) [(0, 2 * 2 ^ 32), (1, 5)] wBf 32 false false = true ∧ answers (.old 0 none) [] wBf 32 false false = true ∧
    answers (.oldT 0 0 false 0 0 none) [] wBf 32 false false = true ∧ answers (.oldT 0 0 false 0 0 none) [] wMx 128 false true = true ∧
    live2.wellBound ∧ 10 ∈ residentCodes ∧ 15 ∈ residentCodes ∧ tget? ([] : Table Nat) (2 ^ 30) = none ∧
    (let s := rplS (.cld 3 0 true) [] wBf ⟨10, false⟩
     loadCores 0 (rpl (.cld 3 0 true) [] wBf) = clusterCores 0 ∧ ∀ c ∈ clusterCores 0, ((s.part c 1).tile 3) = live2 ∧
       (c ≠ 0 → (s.part c 1).streams.find? (isCoop 0 5) = some { ent (.coop 0 5 3 7) with started := true })) := by decide +kernel

theorem wit_LoadsAndDrains_groups : (let e := rpl (.cld 3 0 false) [] wQa
    let s := rplS (.cld 3 0 false) [] wQa ⟨10, false⟩
    match replySector s 1 { e with flight := [], wide := widened s 1 e.snap } { fl0 with desc := wQa } with
    | .ok r => r.qa && r.codes.length == 64 && r.group == 32 && r.elem == 17
    | .error _ => false) = true := by decide +kernel

theorem wit_LoadsAndDrains_rows :
    (let e := entP (drn false) pl0 0
     let z (f : EngOp → EngOp) : State := (ep (drn false) pl0 0 withFmt).modPart 0 1 fun p => { p with eq := [f { e with started := true, per := 32 }] }
     let row := drainRow (z id) 0 { e with started := true, per := 32 } live2 32 10 0 false 0 0 0 0
     (z id).engineTurn 0 1 { e with started := true, per := 32 } ∧ 0 < e.plat.box 1 ∧ row.1.length = 1 ∧
       (match drainSites (z id) 0 0 1 row.1 with | (_, .ok ws) => ws.length == 1 | _ => false) = true ∧
       (z fun e => { e with out := [(0x150000, leBytes 8 7)] }).engineTurn 0 1 { e with started := true, per := 32, out := [(0x150000, leBytes 8 7)] } ∧
       (match drainSite (z id) 0 0 1 0x150000 8 with | (s1, .ok w) => decide (homeOf s1 w.pa = .first ∧ s1.watches = []) | _ => false) = true ∧
       (z fun e => { e with row := 1 }).engineTurn 0 1 { e with started := true, per := 32, row := 1 } ∧ e.plat.box 1 ≤ 1 ∧
       pl0.base % 64 = 0 ∧ 32 ≤ 512 / (elemFmt 10).bits ∧ mxElem 10 = false) ∧
    -- the last sector of 6-bit elements, and 32 of 4 bits with their scale beside them
    (85 % 84 % 4 ≠ 0 ∧ 88 % 84 % 4 = 0 ∧ (elemFmt 13).bits = 6 ∧ mxElem 15 = true ∧ (elemFmt 15).bits = 4 ∧
      (∀ b < 32 / 32, ∀ j < 32, 0x150000 + 64 * ((0 + j) / 128) + 64 ≤ 0x150200 + (0 + 32 * b) / 32)) := by decide +kernel

theorem wit_EngineEvents : (let e := run0 id
      let s := rs id
      (s.part 0 1).streams.find? (fun e => e.seq == 5) = some e ∧ canAsk s 0 (s.part 0 1) e = true ∧ engineNext s 0 = some 1 ∧ e.nextSector = some 0 ∧
        frozenNow s 0 = false ∧
        ((s.parts.filter fun q => q.2.core == 0).map fun q => (q.2.streams.map fun x => x.flight.length).foldl (· + ·) 0).foldl (· + ·) 0 = 0) ∧
    (∃ s1 f, askSector ((rs id).modCore 0 fun c => { c with engTurn := 1 }) 0 1 (run0 id) 0 = (s1, .ok f) ∧
      (flightBusy s1 f = false ∧ s1.part 0 1 = (rs id).part 0 1)) ∧
    (let e := run0 fun e => { e with flight := [fl0] }
     let s := { (rs fun e => { e with flight := [fl0] }) with poison := [0x150000] }
     reachPA s 1 fl0.pa = .open ∧ frozenNow s 0 = false ∧ flightBusy s fl0 = false ∧
       (match replySector s 1 { e with flight := [], wide := widened s 1 e.snap } fl0 with | .error c => c.code == 10 | .ok _ => false) = true ∧ e.heldAt = 0 ∧ loadCores 0 e = [0]) ∧
    (let e := run0 fun e => { e with toReserve := [1, 2] }
     ((rs fun e => { e with toReserve := [1, 2] }).part 0 1).streams.find? (fun e => e.seq == 5) = some e ∧ engineQueued (rs id) 1 < 16) ∧
    (let x : EngOp := { ent (.member 0 5) with seq := 0 }
     let e := run0 fun e => { e with kind := .old 0 (some 1), toSend := [1], marks := [0] }
     let s := (rs fun e => { e with kind := .old 0 (some 1), toSend := [1], marks := [0] }).modPart 1 1 fun p => { p with st := .placed, partn := allOf, eq := [x] }
     (∀ t < e.known.1, t ∈ e.marks) ∧ s.off 1 1 = false ∧ (s.part 1 1).eq.find? (isMember 0 5) = some x ∧ unblocked s (s.part 1 1) x = true ∧ (s.strand e.uid).lcore = 0 ∧
       frozenNow s 1 = false ∧ loadCores 0 e = [0] ∧ (s.strand e.uid).close = none) ∧
    ((sw [] fun t => { t with sup := true }).passes hd [.r 8, .r 9] ∧ (sw [] fun t => { t with sup := true }).me.sup = true) ∧
    rising ([(0, 5), (63, 0x8001)] : Table Nat) ∧ s0.cycle % 2 ^ 14 = 0 ∧ ({ s0 with cycle := 2 ^ 14 - 1 } : State).cycle % 2 ^ 14 ≠ 0 ∧
    (((s0.modPart 0 1 fun p => { p with eq := [{ ent (drn false) with heldAt := 3 }] }).part 0 1).eq.find? (fun e => e.seq == 5 && e.heldAt == 3)
      = some { ent (drn false) with heldAt := 3 }) := by
  refine ⟨?_, pair_ok (by decide +kernel), ?_⟩ <;> decide +kernel

/-- A strand with handle 1 open on the record at 0x160000, of three layers. -/
def hnd : Handle := ⟨true, 0x160000, 0x140000, 0x150000, 7, 3, [5, 9, 11], 0x160000⟩
def sh (l : List Nat) : State := sw l fun t => { t with handles := [(1, hnd)] }

theorem wit_HandleIssue : (∃ b c, HandleRule (st [0x160000]).me (.hswap hd 0 10 8) hd .hswap 0 10 [10, 8] b c ∧ (st [0x160000]).passes hd (handleOperands .hswap 0 [10, 8]) ∧
      (st [0x160000]).room ∧ (st [0x160000]).me.close = none ∧ (st [0x160000]).me.ops = [] ∧ ((st [0x160000]).me.handle 0).op = false) ∧
    (∃ b c, HandleRule (sh [0x160020]).me (.hswap hd 1 10 8) hd .hswap 1 10 [10, 8] b c ∧ ((sh [0x160020]).me.handle 1).op = true ∧
      c = some { code := 6, addr := 0x160020 }) ∧
    (∃ b, HandleRule (sh []).me (.hclose hd 1 10) hd .hclose 1 10 [10] b none ∧ ((sh []).me.handle 1).op = true) ∧
    ((sh [0x160040, 9]).passes hd (handleOperands .hfold 1 [10, 8]) ∧ ((sh [0x160040]).me.reg 8).toNat % 64 = 0 ∧ ((sh [0x160040]).me.reg 9).toNat % 32 = 0 ∧
      ((s0.ctx 1).secure = cfgBit s0 (608 + coreDie 0)) ∧ rising s0.strands ∧ foldsReserved s0 0 < 8) ∧
    ((sh [7]).me.reg 8).toNat % 16 < 8 ∧ ((sh [8]).me.reg 8).toNat % 16 = 8 ∧ hnd.gen < 2 ^ 16 ∧ hnd.nl < 16 ∧ ((sh [9]).me.reg 8).toNat % 16 = 9 ∧
    10 ≤ ((sh [15]).me.reg 8).toNat % 16 := by
  refine ⟨⟨_, _, .hswap .., ?_⟩, ⟨_, _, .hswap .., ?_⟩, ⟨_, .hclose .., ?_⟩, ?_⟩ <;> decide +kernel

def hOp (op : HOp) (b : Nat) : Op := opOf (.handle op 1 0x160000 b) [.phys 2]
def hs (op : HOp) (b : Nat) (r : HRec) : State :=
  let s := rich (sw [] fun t => { t with ops := [hOp op b], nextOp := 1, handles := [(1, hnd)] })
  { s with mem := memPut s.mem 0x160000 r.bytes }
def job (st nsec : Nat) (f : Option Cause) (out : List (Nat × List Byte)) : FoldJob :=
  ⟨0, 1, 0x160000, hnd, 0x1A0000, 0x1B0000, 0, st, nsec, 7, f, platBytes 1, out, 0x1B0000, [], 0⟩

/-- A record of IMODE 1 whose digest table at 0x190000 is zero, open, with HSCRUB set. -/
def scrubbed : State := { (hs .hlist 0 (recW (2 ^ 6 + 2 ^ 4) 0x190000)) with cycle := 5 }

theorem wit_HandlesAtHome : (∀ p ∈ [(HOp.hlist, 0), (.hattach, 6), (.hdetach, 5), (.hdetach, 6), (.hswap, 0x1B0041), (.hclose, 0), (.hopen, 0)],
      let s := hs p.1 p.2 (recW (2 ^ 21 + 2 ^ 6) 0)
      s.sentOp 0 (hOp p.1 p.2) ∧ snapshotInUse s 0 1 (fun x => x.phase != .late) = false ∧ earlierOp s 0 0x160000 64 0 = false ∧
        (hReadRec s 0x160000).psn = false ∧ (hReadRec s 0x160000).fold = false ∧ (hReadRec s 0x160000).prev = 0 ∧ (hReadRec s 0x160000).nl < 8 ∧
        (hReadRec s 0x160000).list = [5] ∧ layerOf s 1 6 ≠ none ∧ layerOf s 1 7 = none) ∧
    (∃ s1 r, readRecord (hs .hattach 6 (recW 0 0)) 0 (hOp .hattach 6) 0x160000 = (s1, .ok r) ∧ (r.1 = 0x160000 ∧ s1.watches = [] ∧
      s1.op 0 0 = some (hOp .hattach 6))) ∧
    (∃ s1 c, readRecord { (hs .hattach 6 (recW 0 0)) with poison := [0x160000] } 0 (hOp .hattach 6) 0x160000 = (s1, .error c) ∧
      (c.map (·.code) = some 10 ∧ s1.op 0 0 = some (hOp .hattach 6) ∧ (s1.strand 0).close = none)) ∧
    (recW 8 0).psn = true ∧ (recW 2 0).fold = true ∧
    (∃ s1 r, readRecord (hs .hopen 0 (recW 0x40 0)) 0 (hOp .hopen 0) 0x160000 = (s1, .ok r) ∧
      (r.2 = recW 0x40 0 ∧ r.2.psn = false ∧ r.2.imode = 0 ∧ r.2.hold < 2047 ∧ (recW (0x40 + 2047 * 2 ^ 21) 0).hold = 2047 ∧
      (match readPlat s1 0 (hOp .hopen 0) r.2 false with
      | (s2, .ok p) => decide (s2.mem = s1.mem ∧ s2.watches = [] ∧ s2.op 0 0 = some (hOp .hopen 0)) && r.2.wellFormed s2 1 p && !(recW 0x41 0).wellFormed s2 1 p
      | _ => false) = true ∧
      (match readPlat { s1 with poison := [0x140000] } 0 (hOp .hopen 0) r.2 false with
      | (s2, .error (some k)) => decide (k.code = 10 ∧ s2.op 0 0 = some (hOp .hopen 0) ∧ (s2.strand 0).close = none)
      | _ => false) = true)) ∧
    verifyOk scrubbed 1 (recW (2 ^ 6 + 2 ^ 4) 0x190000) = false := by
  refine ⟨?_, pair_ok ?_, pair_err ?_, ?_, ?_, pair_ok ?_, ?_⟩ <;> decide +kernel

theorem wit_HandlesAtHome_scrub : (∃ t ∈ scrubbed.strands, t.2.ctx = 1 ∧ ∃ h ∈ t.2.handles, h.2.op = true ∧ h.2.raddr = 0x160000) ∧
    (match checkLeaf scrubbed 1 0x160000 .read true (walk scrubbed 1 0x160000) with
      | .ok x => decide (hReadRec scrubbed x.pa = recW (2 ^ 6 + 2 ^ 4) 0x190000 ∧ tget (0, 0) scrubbed.scrubs x.pa = (0, 0))
      | .error _ => false) = true ∧
    (let r := recW (2 ^ 6 + 2 ^ 4) 0x190000
     (scrubbed.ctx 1).hscrub ≠ 0 ∧ r.imode = 1 ∧ 0 + (scrubbed.ctx 1).hscrub ≤ scrubbed.cycle ∧ handlePlat scrubbed 1 r = .ok (platBytes 1) ∧
       baseLen scrubbed 1 r (platBytes 1) = 64 ∧
       (match readVA scrubbed 1 (sectorPieces (r.base + 0) 64), readVA scrubbed 1 (sectorPieces (r.iref + 0) 32) with
       | .ok l, .ok d => sha256 l != d
       | _, _ => false) = true) := by
  refine ⟨?_, ?_, ?_⟩ <;> decide +kernel

/-- A machine with one job of die 0, and an HFOLD of a listed record that has its entry of the queue. -/
def fj (j : FoldJob) : State := rich { s0 with folds := [j] }
def recL : HRec := recW (2 ^ 21 + 2 ^ 6) 0
def foldOp : Op := { opOf (.handle .hfold 1 0x160000 0x140100) [.phys 2] with resv := true }
def foldS : State :=
  let s := hs .hfold 0 recL
  { s.setStrand 0 { s.strand 0 with ops := [foldOp] } with mem := memPut s.mem 0x140100 (leBytes 8 0x1B0000) }

/-- A job that runs, with the first GiB of the context under descriptor 1 and the second in the host range. -/
def fz (base dest : Nat) (ids : List Nat) : FoldJob := { job 1 0 none [] with dest := dest, snap := { hnd with base := base, ids := ids, nl := ids.length } }
def fzs (j : FoldJob) : State :=
  let s := fj j
  { s with mem := memPut (memPut s.mem 0x40001 [1]) 0x40010 (leBytes 8 0x13A ++ leBytes 8 (2 ^ 35 + 2 ^ 37)) }
/-- The steps of HFOLD up to the record's home, and what the home answers for a record. -/
def foldHome (r : HRec) (d : Nat × Nat) : Option Nat :=
  let s := { foldS with mem := memPut foldS.mem 0x160000 r.bytes }
  match readRecord s 0 foldOp 0x160000 with
  | (s2, .ok (_, q)) =>
    match (if q.psn = true then (s2, .ok []) else readPlat s2 0 foldOp q false) with
    | (s3, .ok p) => match hFoldHome s3 1 q d.1 d.2 p with
      | .done _ c _ => if s3.op 0 0 = some foldOp then some c else none
      | _ => none
    | _ => none
  | _ => none

theorem wit_HandlesAtHome_folds : (∀ j ∈ [job 0 5 none [], job 1 0 none [(0x1B0000, [1])], job 1 1 none [], job 2 1 none [], job 1 1 (some { code := 8 }) []],
      foldAt (fj j) 0 = some j) ∧
    homeOf (fj (job 0 0 none [])) 0x1B0000 = .first ∧
    (let j := job 1 1 none []
     regionSectors (readDesc (fj j) 1 (platCad j.plat)) (platBox j.plat 0) (platBox j.plat 1) (platStr j.plat 1) j.snap.base ≤ j.nsec) ∧
    (∃ s1 pa, hSite 0x160000 (foldXl (fj (job 2 1 none [])) 0 1 0x160000 .both) = (s1, .ok pa) ∧ (pa = 0x160000 ∧ s1.watches = [] ∧
      s1.folds = [job 2 1 none []] ∧
      (match foldXl (hWriteRec s1 pa (hCommit (hReadRec s1 pa) 0x1B0000 0)) 0 1 0x1A0000 .write with
      | (s2, .ok x) => decide (x.wb = false ∧ s2.mem = (hWriteRec s1 pa (hCommit (hReadRec s1 pa) 0x1B0000 0)).mem ∧ s2.watches = [] ∧ pa + 64 ≤ x.pa)
      | _ => false) = true ∧
      (match foldXl (hWriteRec s1 pa ((hReadRec s1 pa).setStat 1 1 0)) 0 1 0x1A0000 .write with
      | (s2, .ok x) => decide (x.wb = false ∧ s2.mem = (hWriteRec s1 pa ((hReadRec s1 pa).setStat 1 1 0)).mem ∧ s2.watches = [] ∧ pa + 64 ≤ x.pa)
      | _ => false) = true)) := by
  refine ⟨?_, ?_, ?_, pair_ok ?_⟩ <;> decide +kernel

theorem wit_HandlesAtHome_hfold : foldS.sentOp 0 foldOp ∧ earlierOp foldS 0 0x160000 64 0 = false ∧
    (∃ s1 d, readRequest foldS 0 foldOp 0x140100 = (s1, .ok d) ∧ (d = (0x1B0000, 0) ∧
      (match readRecord s1 0 foldOp 0x160000 with
      | (s2, .ok (pa, r)) =>
        (match (if r.psn = true then (s2, .ok []) else readPlat s2 0 foldOp r false) with
        | (s4, .ok p) =>
          (match hFoldHome s4 1 r d.1 d.2 p, foldXl s4 0 1 0x140100 .write with
          | .done _ 0 q, (s3, .ok x) =>
            decide (q = p ∧ pa = 0x160000 ∧ x.wb = false ∧ s3.mem = s4.mem ∧ s3.watches = [] ∧ s3.op 0 0 = some foldOp ∧ x.pa + 32 ≤ pa)
          | _, _ => false)
        | _ => false)
      | _ => false) = true)) ∧
    (∃ s1 c, readRequest { foldS with poison := [0x140100] } 0 foldOp 0x140100 = (s1, .error c) ∧
      (c.map (·.code) = some 10 ∧ s1.op 0 0 = some foldOp ∧ (s1.strand 0).close = none)) ∧
    (∀ c ∈ [(foldHome { recL with stat := 8 } (0x1B0000, 0), 10), (foldHome { recL with stat := 1 } (0x1B0000, 0), 3), (foldHome { recL with stat := recL.stat + 2 } (0x1B0000, 0), 7),
      (foldHome { recL with prev := 64 } (0x1B0000, 0), 7), (foldHome { recL with stat := 0, ids := List.replicate 8 0 } (0x1B0000, 0), 14),
      (foldHome { recL with stat := recL.stat + 2 * 2 ^ 4 } (0x1B0000, 0), 13), (foldHome recL (0x1B0001, 0), 15), (foldHome recL (0, 0), 15),
      (foldHome recL (0x1B0000, 64), 15), (foldHome { recL with stat := recL.stat + 2 ^ 4 } (0x1B0000, 0), 15), (foldHome recL (0x150000, 0), 15),
      (foldHome recL (0x150000 - 64, 0), 0), (foldHome recL (0x150040, 0), 0)], c.1 = some c.2) := by
  refine ⟨?_, ?_, pair_ok ?_, pair_err ?_, ?_⟩ <;> decide +kernel

/-- A running job's next sector: its page, its bytes, its layers, and where it goes. -/
theorem wit_HandlesAtHome_sectors : (let j := fz 0x150000 0x150000 [6]
      foldAt (fzs j) 0 = some j ∧ j.nsec < regionSectors (readDesc (fzs j) 1 (platCad j.plat)) (platBox j.plat 0) (platBox j.plat 1) (platStr j.plat 1) j.snap.base) ∧
    (∃ s1 x, foldXl (fzs (fz 0x150000 0x150000 [6])) 0 1 0x150000 .read = (s1, .ok x) ∧
      (let d := readDesc s1 1 x.leaf.cad
       let f : Flight := ⟨0, 0x150000, x.pa, x.leaf.base, x.leaf.size, x.leaf.cad, none, d.words⟩
       s1.folds = (fzs (fz 0x150000 0x150000 [6])).folds ∧ x.leaf.cad = foldRef (fzs (fz 0x150000 0x150000 [6])) (fz 0x150000 0x150000 [6]) ∧ x.leaf.cad = 1 ∧ d.valid = true ∧ shadowBad d 0x150000 x.leaf.size = false ∧ flightBusy s1 f = false ∧
         reachPA s1 1 x.pa = .open ∧
         (match storedSector { s1 with poison := [0x150000] } 1 x.leaf.base 0x150000 x.leaf.size none d with | .error k => k == 10 | .ok _ => false) = true ∧
         (match storedSector s1 1 x.leaf.base 0x150000 x.leaf.size none d with
         | .ok q =>
           let seen (ids : List Nat) := amend s1 1 { hnd with ids := ids, nl := ids.length } pl0 f d false ⟨d.elem, decide (d.block ≠ 0), d.qa, q.1, q.2, d.per, d.group⟩
           (match seen [5], seen [6], foldXl s1 0 1 0x150000 .write, foldXl s1 0 1 0x1B0000 .write with
           | .error 17, .ok _, (s2, .ok w), (_, .ok v) =>
             decide (s2.folds = s1.folds ∧ w.wb = false ∧ w.leaf.size = x.leaf.size ∧ w.leaf.cad = x.leaf.cad ∧ ((0x1B0000 : Int) - 0x150000) % v.leaf.size ≠ 0)
           | _, _, _, _ => false)
         | .error _ => false) = true)) ∧
    (∃ s1 x, foldXl (fj (fz 0x150000 0x150000 [6])) 0 1 0x150000 .read = (s1, .ok x) ∧ (x.leaf.cad = 0)) ∧
    (∃ s1 c, foldXl (fzs (fz (2 ^ 31) 0x150000 [6])) 0 1 (2 ^ 31) .read = (s1, .error c) ∧ (c.code = 7 ∧ s1.folds = (fzs (fz (2 ^ 31) 0x150000 [6])).folds)) ∧
    (∃ s1 x, foldXl (fzs (fz (2 ^ 30) 0x150000 [6])) 0 1 (2 ^ 30) .read = (s1, .ok x) ∧
      (x.leaf.cad = foldRef (fzs (fz (2 ^ 30) 0x150000 [6])) (fz (2 ^ 30) 0x150000 [6]) ∧ reachPA s1 1 x.pa ≠ .open)) := by
  refine ⟨?_, pair_ok ?_, pair_ok ?_, pair_err ?_, pair_ok ?_⟩ <;> decide +kernel

/-- A tree of two leaves, and a machine whose unit has an operation on it at its head. -/
def tree2 : TreeReg := ⟨2, true, [(0, 3), (1, 65535)], false, false, false⟩
def tOp (op : TOp) (a b : Nat) : Op := opOf (.tree op 7 a b) [.phys 2]
def tr (op : TOp) (a b : Nat) : State :=
  (so (.tree op 7 a b) [.phys 2]).modPart 0 1 fun p => { p with trees := [(7, tree2)], tq := [(0, 0, 0)] }

theorem wit_Trees : (∃ a b ds, TreeRule (st [1, 2]).me (.tfind hd 7 10 8) hd .tfind 7 [10, 8] a b ds ∧ (st [1, 2]).passes hd [] ∧
      (7 : TreeR).val < ((st []).part 0 1).partn.trees.length ∧ treesQueued (st []) 0 < 16 ∧ reach (st []) 0 1 = .open ∧ (st []).room) ∧
    (16 ≤ treesQueued (s0.modPart 0 1 fun p => { p with tq := List.replicate 16 (0, 0, 0) }) 0 ∧
      ((s0.modPart 0 1 fun p => { p with partn := Partn.init }).part 0 1).partn.trees.length ≤ (0 : TreeR).val) ∧
    (TreeMemRule (.tstore hd 7 8 9) hd .tstore 7 8 9 ∧ ((st [2 ^ 19 - 4, 0]).me.reg 8).toNat % 2 ^ 19 % 4 = 0 ∧
      0x5F000 + 4 * (1024 % 2 ^ 11) ≤ min 0x60000 (spadSize s0 0 1) ∧ min 0x60000 (spadSize s0 0 1) < 0x5F000 + 4 * (1025 % 2 ^ 11)) ∧
    (∀ p ∈ [(TOp.tset, 1, 65535), (.tset, 1, 65536), (.tadd, 0, 2 ^ 64 - 4), (.tadd, 0, 2 ^ 64 - 3), (.tfind, 65537, 0), (.tfind, 65538, 0), (.tcut, 1, 0), (.ttot, 1, 0),
        (.tclr, 1024, 0), (.tclr, 1025, 0), (.tpref, 2, 0), (.tload16, 0x80000, 1024), (.tload16, 0x80000, 1025), (.tstore, 0x80000, 2)],
      let s := tr p.1 p.2.1 p.2.2
      (s.part 0 1).tq = (0, (tOp p.1 p.2.1 p.2.2).id, 0) :: [] ∧ s.off 0 1 = false ∧ frozenNow s 0 = false ∧ treeBefore s 0 1 0 = false ∧
        (s.strand 0).ctx = 1 ∧ s.sentOp 0 (tOp p.1 p.2.1 p.2.2) ∧ (s.strand 0).lcore = 0 ∧
        (s.strand 0).close = none ∧ s.watches = [] ∧ (tget TreeReg.init (s.part 0 1).trees 7).ok ∧ tree2.lmax = 65535 ∧
        spadBehind s 0 0 p.2.1 0 (4 * (p.2.2 % 2 ^ 11)) = false ∧ leafSum tree2 2 = 65538) ∧
    (spadPoisoned s0 0 1 0 4096 = false ∧ (decodeFlt fp32 (spadLE s0 0 1 0 4)).isNan = false) := by
  refine ⟨⟨_, _, _, .tfind .., ?_⟩, ?_, ⟨.tstore .., ?_⟩, ?_, ?_⟩ <;> decide +kernel

/-- TFIND at a mass that the first leaf does not hold (14 R325); TTOT with OP 1 (14 R326). -/
theorem test_tfind : ((nextOf (exec (.treeUnitPerform 0 1) (tr .tfind 3 0))).op 0 0).map (·.res) = some [w64 (1 + 3 * 2 ^ 16)] ∧
    ((nextOf (exec (.treeUnitPerform 0 1) (tr .ttot 1 0))).op 0 0).map (·.res) = some [w64 (65535 + 2 ^ 32)] := by decide +kernel
/-- HATTACH appends the layer and steps the generation (12 R296). -/
theorem test_hattach : let s := nextOf (exec (.handleHomePerform 0 0) (hs .hattach 6 (recW (2 ^ 21 + 2 ^ 6) 0))); (hReadRec s 0x160000).list = [5, 6] ∧
    (hReadRec s 0x160000).gen = 1 := by decide +kernel
/-- A mask of one block keeps it: the list is written, then the answer returns (11 R278). -/
theorem test_mseq : let run (s : State) := nextOf (exec (.engineOpPerform 0 1 5) s)
    let s := run (run (run (ep (.mseq 80 0 0 1) pl0 0 withFmt)))
    readLE s (winBase + 80) 2 = 0 ∧ (s.op 0 0).map (·.res) = some [1] := by decide +kernel


/-- Two strands of one group: slots 0 and 1 of core 0, so that bearing 4 (U) has a member and the others none (15 R330). -/
def two (l : List Nat) (f : Strand → Strand) : State :=
  { (sw l f) with strands := [(0, f { t0 with phys := regs l }), (1, { t0 with lslot := 1, pslot := 1, index := 1 })], nextUid := 2 }
def port4 (q : List (Bool × Word)) (credit : Nat) (sink closed : Bool) (t : Strand) : Strand := t.setPort 4 ⟨q, credit, sink, closed⟩

/-- READY is in rotation: the witnesses below say READY. -/
theorem ready_inRotation (t : Strand) (h : t.st = .ready) : t.inRotation := .inl h

theorem wit_Closes : ((st []).passes hc [] ∧ hc.c = true ∧ (∀ o ∈ (st []).me.ops, o.phase = .late)) ∧
    (let s := so (.load 0x100000 8 true false) [.phys 2]
     s.passes hc [] ∧ (∃ o ∈ s.me.ops, o.outstandingFor) ∧ ∀ o ∈ s.me.ops, o.outstandingFor → behindFault (s.setStrand s.cur (s.me.past 4)) s.cur o = false) ∧
    (Instr.endStrand ⟨false, 15, false⟩).hdr? = some ⟨false, 15, false⟩ ∧
    (sw [] fun t => { t with pend := [.pred 15] }).me.refPending (.p 15) = true ∧
    (st []).me.refPending (.p 15) = false ∧ (st []).me.predBit 15 = false ∧ (st []).me.predBit 0 = true := by decide +kernel

def doneOf (ds : List Loc) (r : List Word) : Op := { opOf (.load 0x100000 8 true false) ds with phase := .done, res := r }
def doneS (ds : List Loc) (r : List Word) : State := sw [] fun t => { t with ops := [doneOf ds r], nextOp := 1, pend := ds }

theorem wit_OperationsReturn : ∀ p ∈ [(([] : List Loc), ([] : List Word)), ([.phys 2], [7]), ([.pred 15], [1]), ([.s 7], [9])],
    (doneS p.1 p.2).op 0 0 = some (doneOf p.1 p.2) ∧ ((doneS p.1 p.2).strand 0).st = .ready ∧ ((doneS p.1 p.2).strand 0).close = none ∧
      regHeld (doneS p.1 p.2) ((doneS p.1 p.2).strand 0) = false ∧ frozenNow (doneS p.1 p.2) 0 = false := by decide +kernel

theorem wit_Ports : (∀ p ∈ [(0, false, false), (0, true, false), (1, false, true), (8, false, false)],
      let s := two [7, 3] (port4 [(true, 0), (false, 5)] p.1 p.2.1 p.2.2)
      s.passes hd [.r 8] ∧ s.passes hd [.r 10, .p 15] ∧ s.room ∧ s.me.close = none ∧ memberOf (s.entered 4) (s.me.past 4) 4 = some 1 ∧
        memberOf (s.entered 4) (s.me.past 4) 5 = none ∧ memberOf (s.entered 4) (s.me.past 4) 0 = none) ∧
    (∀ b ∈ [Bearing.pe, .pa], ∀ k ∈ [false, true], let s := sw [3] fun t => t.setPort b.code ⟨[], 8, k, false⟩
      s.passes hd [.r 10, .p 0] ∧ memberOf (s.entered 4) (s.me.past 4) b.code = none ∧ (s.me.port b.code).sink = k) ∧
    (∀ k ∈ [OpKind.pop 4, .peek 4], ∀ tok ∈ [true, false],
      let o := opOf k [.phys 2, .pred 15]
      let s := two [] fun t => port4 [(tok, 5), (false, 6)] 8 false false { t with ops := [o], nextOp := 1, pend := o.dests }
      s.sentOp 0 o ∧ (s.strand 0).st = .ready ∧ (s.strand 0).close = none ∧ regHeld s (s.strand 0) = false ∧ frozenNow s 0 = false ∧ ((s.strand 0).port 4).q = [(tok, 5), (false, 6)] ∧
        (∀ y ∈ (s.strand 0).ops.takeWhile (fun y => y.id != o.id), y.kind ≠ .pop 4 ∧ y.kind ≠ .peek 4) ∧ memberOf s (s.strand 0) 4 = some 1) ∧
    (let o := opOf (.pop 4) [.phys 2, .pred 15]
     let s := two [] fun t => port4 [(true, 5), (false, 6)] 8 false false { t with ops := [o], nextOp := 1 }
     s.passes hd [.r 10] ∧ s.me.close = none ∧ (s.me.ops.filter fun x => x.phase == .sent && (x.kind == .pop 4 || x.kind == .peek 4)) = [o] ∧
       (s.me.ops.filter fun x => x.id == o.id) = [o] ∧ (s.me.port 4).q = (true, 5) :: [(false, 6)] ∧ (s.me.ops.takeWhile fun y => y.id != o.id) = []) ∧
    (let s := { (two [] id) with pushes := [⟨0, 4, 1, 5, false, 9⟩], credits := [(0, 4)] }
     (∀ x ∈ s.pushes.take 0, x.dst = 1 → x.into ≠ 5) ∧ (s.strand 1).st ≠ .ended ∧ reach s (s.strand 1).pcore 1 = .open ∧ s.credits[0]? = some (0, 4) ∧
       ((s.strand 0).port 4).closed = false ∧ reach s (s.strand 0).pcore 1 = .open) ∧
    (let s := (two [] id).setStrand 1 { t0 with lslot := 1, pslot := 1, index := 1, st := .ended }
     memberOf s (s.strand 0) 4 = some 1 ∧ (s.strand 1).st = .ended ∧ (s.strand 0).st ≠ .ended ∧ ((s.strand 0).port 4).closed = false ∧ (0, 4) ∉ s.credits ∧
       reach s 0 1 = .open ∧ ∀ x ∈ s.ctxs, ∀ e ∈ x.2.spill ++ x.2.refused, e.2 ≠ .port 0 4 3 0) ∧
    (∀ n ∈ [99, 100], let s : State := ({ (sw [] fun t => { (port4 [] 0 false false t) with st := .parked .portReady, portWait := some 4 }) with
        kernels := [(0, { k0 with groups := [{ g0 with stall := n }] })] } : State).setCtx 1 { c1 with tvec := 0x12FF60, pstall := 100 }
     (s.kern 0).groups.find? (fun g => g.num == 0) = some { g0 with stall := n } ∧ (groupStrands s 0 0).filter (fun u => portParked (s.strand u)) = [0] ∧
       (s.strand 0).close = none ∧ (s.strand 0).trap.intrap = false ∧ vector s (s.strand 0) 21 ≠ none ∧ vector s (s.strand 0) 21 ≠ some 0) ∧
    (let o := opOf (.peek 4) [.phys 2, .pred 15]
     let s : State := ({ (sw [] fun t => { (port4 [] 0 false false t) with st := .parked .close, close := some (0x10004, false), ops := [o], nextOp := 1 }) with
        kernels := [(0, { k0 with groups := [{ g0 with stall := 100 }] })] } : State).setCtx 1 { c1 with tvec := 0x12FF60, pstall := 100 }
     (groupStrands s 0 0).filter (fun u => portParked (s.strand u)) = [0] ∧ (s.strand 0).ops = [o] ∧ (s.strand 0).trap.intrap = false ∧
       vector s (s.strand 0) 21 ≠ none ∧ vector s (s.strand 0) 21 ≠ some 0) := by
  refine ⟨?_, ?_, ?_, ?_, ?_, ?_, ?_, ?_⟩ <;> decide +kernel

/-- Two members of a group, one before its push and one in a close, at the limit. -/
def twoParked : State :=
  let s := (two [] fun t => { (port4 [] 0 false false t) with st := .parked .portReady, portWait := some 4 })
  let t1 := s.strand 1
  ({ (s.setStrand 1 { t1 with st := .parked .close, close := some (0x10004, false), ops := [opOf (.peek 5) [.phys 3, .pred 15]], nextOp := 1 }) with
      kernels := [(0, { k0 with groups := [{ g0 with stall := 100 }] })] } : State).setCtx 1 { c1 with tvec := 0x12FF60, pstall := 100 }
theorem wit_Ports_deadlock : (twoParked.kern 0).groups.find? (fun g => g.num == 0) = some { g0 with stall := 100 } ∧
    (groupStrands twoParked 0 0).filter (fun u => portParked (twoParked.strand u)) = [0, 1] ∧
    ∀ u ∈ [0, 1], (twoParked.strand u).trap.intrap = false ∧ vector twoParked (twoParked.strand u) 21 ≠ none ∧
      vector twoParked (twoParked.strand u) 21 ≠ some 0 ∧ ((twoParked.strand u).ops.map Op.id).Nodup ∧
      ∀ o ∈ (twoParked.strand u).ops, o.phase ≠ .faulted := by decide +kernel

def ringS (r : RingSt) : State := (st [2 ^ 20 * 6 + 2 ^ 24 * 8]).modPart 0 1 fun p => { p with rings := [(15, r)] }

theorem wit_PlatsSyncAndRings : (∀ p ∈ [(0, pl0), (1, pl0), (5, pl0), (6, pl0), (7, pl0), (0, Plat.init)],
      let s := rich (sw [p.1, 0x140000] fun t => { t with plats := [(0, p.2)] })
      s.passes hd [.r 9, .r 8, .l (.qreg 0)] ∧ (s.me.reg 8).toNat % 16 = p.1 ∧ tget Plat.init s.me.plats 0 = p.2 ∧
        (p.2 = pl0 → platBaseOk 1 (readDesc s 1 1) 0x140000 = true ∧ platBaseOk 1 (readDesc s 1 1) 0x140001 = false)) ∧
    (∃ s1 bs, readFor (rich (so (.plnew 3 0x150000 0x140000) [.qreg 3])) 0 (opOf (.plnew 3 0x150000 0x140000) [.qreg 3]) 0x140000 64 false = (s1, .ok bs) ∧
      (s1.op 0 0 = some (opOf (.plnew 3 0x150000 0x140000) [.qreg 3]) ∧ (s1.strand 0).close = none ∧ platReason s1 1 bs 0x150000 = none ∧
        platReason s1 1 bs 0x150001 ≠ none)) ∧
    (∀ o ∈ [0, 0x5FFF0, 0x60000, 8], let s := st [o, 2 ^ 36 - 1]
      s.passes hd [.r 8, .r 9] ∧ s.watches = [] ∧ spadSize s 0 1 = 0x60000 ∧ (o % 16 = 0 ∨ o = 8)) ∧
    ((ringS RingSt.init).passes hd [.r 10, .r 8] ∧ ((ringS RingSt.init).part 0 1).partn.rn = 16 ∧ (s0.part 1 1).partn.rn ≤ (0 : Ring).val ∧
      (let a := ((ringS RingSt.init).me.reg 8).toNat
       a % 2 ^ 19 % 64 = 0 ∧ 6 ≤ a / 2 ^ 20 % 16 ∧ a / 2 ^ 24 % 16 ≤ 8 ∧ a % 2 ^ 19 + 2 ^ (a / 2 ^ 24 % 16 + a / 2 ^ 20 % 16) ≤ 0x60000) ∧
      (let r : RingSt := { RingSt.init with ln := 2, wp := 1, rp := 2 ^ 32 - 1 }
       seqOff r.rp (2 ^ 32 - 1) < seqOff r.rp r.wp ∧ r.done.testBit ((2 ^ 32 - 1) % 2 ^ r.ln) = false ∧ seqOff r.rp r.wp ≤ seqOff r.rp 1 ∧ seqOff r.rp 2 < 2 ^ r.ln ∧
         2 ^ r.ln ≤ seqOff r.rp 3)) ∧
    (∀ e ∈ [0, 1], let o := opOf (.swwait 16 e) []
     (so o.kind []).sentOp 0 o ∧ ((so o.kind []).strand 0).st = .ready ∧ regHeld (so o.kind []) ((so o.kind []).strand 0) = false ∧ (syncAt (so o.kind []) 0 1 16).gen = 0) ∧
    (let o := opOf (.rawait 15 0) [.phys 2]
     let s := (so o.kind o.dests).modPart 0 1 fun p => { p with rings := [(15, { RingSt.init with ln := 2, wp := 1, full := 1 })] }
     s.sentOp 0 o ∧ rawaitRes (tget RingSt.init (s.part 0 1).rings 15) 0 ≠ none) := by
  refine ⟨?_, pair_ok ?_, ?_, ?_, ?_, ?_⟩ <;> decide +kernel


theorem touch_done {α : Type} {p : State → α → Prop} [∀ t a, Decidable (p t a)] {r : Touch α}
    (h : (match r with | .done t a => decide (p t a) | _ => false) = true) : ∃ t a, r = .done t a ∧ p t a := by
  cases r with
  | done t a => exact ⟨t, a, rfl, of_decide_eq_true h⟩
  | wait t => cases h
  | lost t => cases h
  | fault t c => cases h
theorem touch_fault {α : Type} {p : State → Cause → Prop} [∀ t a, Decidable (p t a)] {r : Touch α}
    (h : (match r with | .fault t a => decide (p t a) | _ => false) = true) : ∃ t a, r = .fault t a ∧ p t a := by
  cases r with
  | fault t a => exact ⟨t, a, rfl, of_decide_eq_true h⟩
  | wait t => cases h
  | lost t => cases h
  | done t c => cases h

/-- Copy requests (16 R352): of core 0's sync word at the end of the scratchpad and slot 1 of ring 15; a copy that an engine holds. -/
def rq (src dst w2 w3 : Nat) : List Word := [w64 src, w64 dst, w64 w2, w64 w3]
def w3Of (dm : Nat) : Nat := 0x5FFF0 + 2 ^ 28 + 15 * 2 ^ 29 + 2 ^ 33 + dm * 2 ^ 36 + 2 ^ 38
def cp0 (q : List Word) (e : Option Nat) (moved : Nat) (err : Option (Nat × Nat)) : Copy := ⟨0, 0, 0, 0, 0, 1, false, q, e, [], moved, 0, 0x160000, [], err, []⟩
def cps (q : List Word) (n : Nat) : State := { (sw [] fun t => { t with phys := (List.range 4).map fun i => (i, q.getD i 0) }) with
  copies := (List.range n).map fun i => { cp0 q none 0 none with id := i }, nextCopy := n }
def cpe (c : Copy) : State := { (rich s0) with copies := [c], nextCopy := 1 }

/-- A gather descriptor (16 R367) of two rows of 8 bytes, three positions, and its index list. -/
def gd (base moff : Nat) : List Byte := leBytes 8 base ++ leBytes 4 2 ++ leBytes 4 64 ++ leBytes 4 3 ++ leBytes 4 128 ++ leBytes 4 8 ++ leBytes 4 8 ++
  leBytes 4 moff ++ leBytes 4 0 ++ leBytes 8 0xAA ++ leBytes 16 0
def gmem (s : State) (base moff : Nat) : State :=
  { s with mem := memPut (memPut s.mem winBase (gd base moff)) (winBase + 64) (leBytes 4 1 ++ leBytes 4 (2 ^ 32 - 1) ++ leBytes 4 2) }
def gth (base pos : Nat) (mask : List Nat) : Gather := ⟨0, 0, 3, 0, 1, 0, 0, gd base 160, [], pos, 0, mask, none, [], false, none⟩
def gts (base pos : Nat) (mask : List Nat) : State :=
  { (gmem (sw [] fun t => { t with glines := [(3, ⟨1, 0⟩)] }) base 160) with gathers := [gth base pos mask] }

theorem wit_CopiesAndGathers : (∀ x ∈ [(rq 0x150000 0x160000 1 0, 0, false, 0), (rq 0x150000 0x160000 (2 ^ 36 - 1) (w3Of 0), 7, true, 0),
      (rq 0x150000 0x160000 (2 ^ 36) 0, 0, false, 3), (rq 0x150000 0x160000 64 0, 8, true, 1), (rq 0x150000 0x160001 64 (2 ^ 36), 0, false, 2),
      (rq 0x150000 0x160000 64 (2 ^ 47), 0, false, 3), (rq 0x150000 0x160000 64 (2 ^ 46), 0, false, 3), (rq 0x150000 0x160000 64 (2 ^ 28 + 0x60000 - 8), 0, false, 2)],
      let s := cps x.1 x.2.1
      s.passes hd (.r 10 :: (List.range 4).map fun i => .r (Fin.ofNat 32 (8 + i))) ∧ s.room ∧ s.me.close = none ∧ (∀ o ∈ s.me.ops, o.id < s.me.nextOp) ∧
        s.me.isPending (.hreg ((x.1.getD 3 0).toNat / 2 ^ 34 % 4)) = false ∧
        (x.2.2.1 = false → (s.copies.filter fun c => c.engine.isNone && c.core == s.me.pcore).length < 8) ∧ copyAnswer s x.1 x.2.2.1 = x.2.2.2) ∧
    (8 ≤ ((cps (rq 0 0 1 0) 8).copies.filter fun c => c.engine.isNone && c.core == 0).length ∧ (w3Of 1) / 2 ^ 36 % 4 = 1 ∧
      ({ t0 with pend := [.hreg (w3Of 1 / 2 ^ 34 % 4)] }).isPending (.hreg (w3Of 1 / 2 ^ 34 % 4)) = true) := by
  refine ⟨?_, ?_⟩ <;> decide +kernel

theorem wit_CopiesAndGathers_moves : (let s := cps (rq 0x150000 0x160000 1 0) 2
      let c : Copy := { cp0 (rq 0x150000 0x160000 1 0) none 0 none with id := 0 }
      s.copies.find? (fun c => c.engine == some 23) = none ∧ coreDie 0 = 23 / 24 ∧
        (s.copies.filter fun c => c.engine.isNone && c.core == 0 && !s.off 0 c.ctx).head? = some c ∧ engineOf s 1 23 = true ∧
        tget 0 s.copyTurn 0 ≤ 512 ∧ rising s.copyTurn ∧ (∀ x ∈ s.copies, x.core = 0)) ∧
    (∀ x ∈ [(rq 0x150010 0x160020 99 0, 0, 0, 8), (rq 0x40000000 0x160020 99 0, 0, 0, 8), (rq 0x1234 0x160001 (99 + 2 ^ 36) 0, 0, 0, 1), (rq 0x150010 0x160020 99 (w3Of 2), 99, 27, 1),
        (rq 0x150010 0x160020 99 0, 0, 8, 8), (rq 0x150010 0x40000000 99 0, 96, 1, 1)],
      let c : Copy := { cp0 x.1 (some 0) x.2.1 none with buf := List.replicate x.2.2.1 7 }
      (cpe c).copies.find? (fun c => c.engine == some 0) = some c ∧ c.avail ≠ 0 ∧ c.pieceLen = x.2.2.2) ∧
    (let c := cp0 (rq 0x150010 0x160020 99 0) (some 0) 0 none
     ∃ s1 bs, engineRead (cpe c) (tlbCopy 0) 1 0x150010 48 0 0 [] = .done s1 bs ∧ (∃ x ∈ s1.copies, x.id = 0)) ∧
    (let c := cp0 (rq 0x40000000 0x160020 99 0) (some 0) 0 none
     ∃ s1 k, engineRead (cpe c) (tlbCopy 0) 1 0x40000000 64 0 0 [] = .fault s1 k ∧ (k.code = 7 ∧ ∃ x ∈ s1.copies, x.id = 0)) ∧
    (let c : Copy := { cp0 (rq 0x150010 0x160020 99 0) (some 0) 0 none with buf := List.replicate 8 7 }
     ∃ s1 pa, engineWrite (cpe c) (tlbCopy 0) c 0x160020 (leBytes 8 7) true false = .done s1 pa ∧ (pa = 0x160020 ∧ ∃ x ∈ s1.copies, x.id = 0)) ∧
    (let c : Copy := { cp0 (rq 0x150010 0x40000000 99 0) (some 0) 96 none with buf := [7] }
     ∃ s1 k, engineWrite (cpe c) (tlbCopy 0) c 0x40000060 [7] false false = .fault s1 k ∧ (k.code = 7 ∧ ∃ x ∈ s1.copies, x.id = 0)) ∧
    (∃ s1 x, xlateBy (cpe (cp0 (rq 0 0 1 0) (some 0) 0 none)) (some (tlbCopy 0)) 1 0x1A0000 .write false = (s1, .ok x) ∧
      (x.wb = false ∧ homeOf s1 x.pa = .first ∧ s1.watches = [])) := by
  refine ⟨?_, ?_, touch_done ?_, touch_fault ?_, touch_done ?_, touch_fault ?_, pair_ok ?_⟩ <;> decide +kernel

/-- What a digest check says: it passes (1), or fails at an offset, naming a record or none; it waits (0). -/
def verdict : Digest → Nat × Nat × Option Nat
  | .pass => (1, 0, none)
  | .fail off psn => (2, off, psn)
  | .wait => (0, 0, none)

theorem wit_CopiesAndGathers_ends : (∀ x ∈ [(0, none), (0, some (7, 64)), (1, none), (2, none)],
      let c := cp0 (rq 0x140000 0x150000 63 (w3Of x.1)) (some 0) 95 x.2
      let s := cpe c
      s.copies.find? (fun c => c.engine == some 0) = some c ∧ s.watches = [] ∧ c.total ≤ c.moved ∧ cSv (cW3 c.req) = true ∧ cSoff (cW3 c.req) + 16 ≤ spadSize s 0 1 ∧
        cRv (cW3 c.req) = true ∧ cRing (cW3 c.req) < (s.part 0 1).partn.rn ∧ reach s (cScore (cW3 c.req)) 1 = .open ∧ (s.ctx 1).xern = 0) ∧
    (∀ x ∈ [(63, recW (2 ^ 6 + 2 ^ 4) 0x190000, (1, 0, none)), (64, recW (2 ^ 6 + 2 ^ 4) 0x190000, (2, 0, some 0x160000)), (64, recW 2 0, (2, 0, none))],
      let s := cpe { (cp0 (rq 0x140000 0x150000 x.1 (w3Of 1)) (some 0) 64 none) with hash := leBytes 64 1 }
      verdict (digestCheck { s with mem := memPut s.mem 0x160000 x.2.1.bytes } { (cp0 (rq 0x140000 0x150000 x.1 (w3Of 1)) (some 0) 64 none) with hash := leBytes 64 1 }) = x.2.2) ∧
    (let o := opOf (.swwait 0x5FFF0 0) []
     let s := so o.kind []
     rising s.strands ∧ s.sentOp 0 o ∧ (∀ x ∈ (s.strand 0).ops, x.id = o.id → x = o) ∧ (s.strand 0).lcore = cScore (w3Of 0) ∧ (s.strand 0).ctx = 1 ∧ cSoff (w3Of 0) = 0x5FFF0) ∧
    (gatherLegal (spadRead (gmem (st [0]) 0x150000 160) 0 1 0 64) 0x60000 ∧ gatherLegal (gd 0 (2 ^ 32 - 1)) 192 ∧ ¬gatherLegal (gd 4 160) 0x60000) ∧
    (let s := gmem (st [0]) 0x150000 160
     s.passes hd [.r 10, .r 8] ∧ s.room ∧ s.me.close = none ∧ spadPoisoned s 0 1 0 64 = false ∧ (s.gathers.filter fun g => g.cluster == coreCluster s.me.pcore).length < 16 ∧ rising s.me.glines) ∧
    (let t := { t0 with glines := (List.range 4).map fun i => (i, (⟨1, 0⟩ : GLine)) }
     ∀ i < 4, (tget (⟨0, 0⟩ : GLine) t.glines i).st ≠ 0) ∧
    (∀ g ∈ [(⟨0, 0⟩ : GLine), ⟨1, 0⟩, ⟨2, 7⟩],
      let s := sw [] fun t => { t with ops := [opOf (.gwait 3) [.phys 2]], nextOp := 1, glines := [(3, g)] }
      s.sentOp 0 (opOf (.gwait 3) [.phys 2]) ∧ (s.strand 0).st = .ready ∧ regHeld s (s.strand 0) = false ∧ frozenNow s 0 = false ∧ tget (⟨0, 0⟩ : GLine) (s.strand 0).glines 3 = g) ∧
    (∀ x ∈ [(0, 1), (1, 2 ^ 32 - 1), (2, 2), (3, 0)],
      let s := gts 0x150000 x.1 [2]
      s.gathers.find? (fun g => g.cluster == 0) = some (gth 0x150000 x.1 [2]) ∧ reach s 0 1 = .open ∧ s.watches = [] ∧
        (x.1 < 3 → spadLE s 0 1 (gIoff (gd 0x150000 160) + 4 * x.1) 4 = x.2 ∧ spadPoisoned s 0 1 (64 + 4 * x.1) 4 = false) ∧
        (tget (⟨0, 0⟩ : GLine) (s.strand 0).glines 3).st = 1 ∧ rising (s.strand 0).glines) ∧
    spadPoisoned { (gts 0x150000 0 []) with poison := [winBase + 64] } 0 1 64 4 = true ∧
    (∀ x ∈ [(none, [], false), (some 1, [], false), (some 1, leBytes 8 7, true)],
      let g : Gather := { gth 0x150000 0 [] with idx := x.1, row := x.2.1, whole := x.2.2 }
      let s := { (gts 0x150000 0 []) with gathers := [g] }
      s.gathers.find? (fun g => g.cluster == 0) = some g ∧ g.pos < gCnt g.desc ∧ reach s 0 1 = .open) ∧
    (let g : Gather := { gth 0x150000 0 [] with idx := some 1 }
     ∃ s1 bs, engineRead { (gts 0x150000 0 []) with gathers := [g] } (tlbGather 0) 1 0x150040 8 0 0 [] = .done s1 bs ∧ g ∈ s1.gathers) ∧
    (let s := { (gts 0x40000000 0 []) with gathers := [{ gth 0x40000000 0 [] with idx := some 1 }] }
     ∃ s1 c, engineRead s (tlbGather 0) 1 0x40000040 8 0 0 [] = .fault s1 c ∧
      (s1.watches = [] ∧ s1.strands = s.strands ∧ s1.off 0 1 = false ∧ c.code = 7)) := by
  have h1 : gatherLegal (spadRead (gmem (st [0]) 0x150000 160) 0 1 0 64) 0x60000 := by dsimp only [gatherLegal]; decide +kernel
  have h2 : gatherLegal (gd 0 (2 ^ 32 - 1)) 192 := by dsimp only [gatherLegal]; decide +kernel
  refine ⟨?_, ?_, ?_, ⟨h1, h2, fun h => absurd h.2.2.2.2.2.2.2.2.2.2.2.2.1 ?_⟩, ?_, ?_, ?_, ?_, ?_, ?_, touch_done ?_, touch_fault ?_⟩ <;> decide +kernel


/-- A kernel whose groups use deques (17 R379): a machine of two of its strands, and one with a deque operation on its way. -/
def kdq : Kernel := { k0 with cost := List.replicate 24 0 ++ [8] }
def dq (l : List Nat) (d : List Nat) (f : Strand → Strand) : State :=
  { (two l f) with kernels := [(0, kdq)] }.modPart 0 1 fun p => { p with deque := d, deqGrp := some 0 }
def dqo (op : DOp) (a : Nat) (d : List Nat) : State := dq [] d fun t => { t with ops := [opOf (.deque op a) [.phys 2]], nextOp := 1 }
def rg (lo hi : Nat) : Nat := lo + hi * 2 ^ 32

theorem wit_GroupsAndDeques : (∀ v ∈ List.range 9, (dq [v] [] id).passes hd [.r 10, .r 8] ∧ (dq [v] [] id).room ∧ ((dq [v] [] id).me.reg 8).toNat % 16 = v) ∧
    ((st [1]).kern 0).usesDeques = false ∧ ((dq [1] [] id).kern 0).usesDeques = true ∧ (dq [1] [] id).groupAt 0 0 = some g0 ∧
      ((dq [64] [] id).me.reg 8).toNat % 64 < g0.cores.length ∧ g0.cores.length ≤ ((dq [1] [] id).me.reg 8).toNat % 64 ∧
    ((∃ d v, DequeRule .push (rg 1 1) [] d v) ∧ (∃ d v, DequeRule .push (rg 0 1) (List.replicate 64 (rg 0 1)) d v) ∧
      (∃ d v, DequeRule .push (rg 0 1) (List.replicate 63 (rg 0 1)) d v) ∧ (∃ d v, DequeRule .pop 0 [] d v) ∧
      (∃ d v, DequeRule .pop 0 ([] ++ [rg 0 1]) d v) ∧ (∃ d v, DequeRule .split (2 ^ 32) [rg 0 4] d v) ∧ (∃ d v, DequeRule .split 4 ([] ++ [rg 0 4]) d v) ∧
      (∃ d v, DequeRule .split 3 ([] ++ [rg 0 4]) d v) ∧ (∃ d v, DequeRule .steal 0 [] d v) ∧ (∃ d v, DequeRule .steal 0 [rg 4 5] d v) ∧
      ∃ d v, DequeRule .steal 0 [rg 4 6, 7] d v) ∧
    (∀ x ∈ [(DOp.push, rg 1 1, []), (.push, rg 0 1, List.replicate 64 (rg 0 1)), (.pop, 0, [rg 0 1]), (.split, 3, [rg 0 4]), (.steal, 0, [rg 4 6, 7])],
      let s := dqo x.1 x.2.1 x.2.2
      s.sentOp 0 (opOf (.deque x.1 x.2.1) [.phys 2]) ∧ (s.kern (s.strand 0).kern).usesDeques = true ∧ (s.strand 0).lcore = 0 ∧ s.groupAt 0 0 = some g0 ∧
        (x.1 = .steal → g0.cores[x.2.1 % 64]? = some 0) ∧ reach s 0 1 = .open ∧ frozenNow s 0 = false ∧ (s.part 0 1).deque = x.2.2 ∧
        ((s.strand 0).ops.takeWhile fun y => y.id != 0) = [] ∧ (s.part 0 1).deqGrp = some ((s.strand 0).kern * 2 ^ 32 + (s.strand 0).grp) ∧
        ((s.modPart 0 1 fun p => { p with deqGrp := none }).part 0 1).deqGrp ≠ some ((s.strand 0).kern * 2 ^ 32 + (s.strand 0).grp)) := by
  refine ⟨?_, ?_, ?_, ?_, ?_, ?_, ?rules, ?_⟩
  case rules =>
   exact ⟨⟨_, _, .pushNone _ _ (by decide)⟩, ⟨_, _, .pushFull _ _ (by decide) (by decide)⟩, ⟨_, _, .push _ _ (by decide) (by decide)⟩, ⟨_, _, .popNone _⟩,
    ⟨_, _, .pop ..⟩, ⟨_, _, .splitNone _ _ (.inr (by decide))⟩, ⟨_, _, .splitAll _ _ _ (by decide) (by decide)⟩, ⟨_, _, .split _ _ _ (by decide) (by decide)⟩,
    ⟨_, _, .stealNone _⟩, ⟨_, _, .stealAll _ _ _ (by decide)⟩, ⟨_, _, .steal _ _ _ (by decide)⟩⟩
  all_goals decide +kernel

def susp (g : Group) : State :=
  { (dq [] [] fun t => { t with ops := [opOf .suspend [.phys 2]], nextOp := 1 }) with kernels := [(0, { kdq with groups := [g] })] }
def relK (k : RelKind) (sc : Scope) : Rel := ⟨0, 1, 0x150000, 0, sc, k, 0, false, false, false⟩
def blk (type size wi : Nat) : List Byte := leBytes 8 0x1A0000 ++ leBytes 8 0 ++ leBytes 8 wi ++ leBytes 8 0 ++ leBytes 1 size ++ leBytes 1 type
def rk (k : OpKind) (r : RelKind) (type size wi : Nat) : State :=
  let s := (so k [.phys 2]).modCore 0 fun c => { c with relq := [relK r .system] }
  { s with mem := memPut s.mem 0x1C0000 (blk type size wi) }.modCtx 1 fun x => { x with queues := [(5, 0x1C0000)] }

theorem wit_GroupsAndDeques_monitor : (∀ g ∈ [g0, { g0 with idle := [1] }, { g0 with view := [0] }],
      let s := susp g
      let t := s.strand 0
      s.groupAt 0 0 = some g ∧ t.st ≠ .ended ∧ (suspendOf t).isSome = true ∧ 0 ∉ g.idle ∧ (∀ n ∈ g.notes, n.1 ≠ 0) ∧
        ∀ x ∈ t.ops, x.kind = .suspend) ∧
    (let g := { g0 with notes := [(1, 0, false)] }
     let s := (susp g).setStrand 1 { t0 with lslot := 1, pslot := 1, index := 1, st := .ended }
     s.groupAt 0 0 = some g ∧ (s.strand 1).st = .ended ∧ (s.strand 0).st ≠ .ended) ∧
    (let g := { g0 with notes := [(1, 0, true), (0, 0, false)], idle := [0] }
     (susp g).groupAt 0 0 = some g ∧ g.notes[0]? = some (1, 0, true) ∧ (∀ m ∈ g.notes.take 0, m.2.1 ≠ 0) ∧ 0 ∈ g.idle) ∧
    (∀ a ∈ [0x150000, 0x150004, 0x150040], (st [a, 63]).passes hd [.r 10, .r 8, .r 9] ∧ (st [a, 63]).room ∧ gapOf (st [a, 63]) (st [a, 63]).me a 8 .both = none ∧
      ((st [a, 63]).core (st [a, 63]).me.pcore).relq.length < 8) ∧
    (let s := rk (.ksig 0x150000 9) (.ksig 0) 2 4 0
     (s.core 0).relq = [relK (.ksig 0) .system] ∧ relReady s 0 (relK (.ksig 0) .system) = true ∧ s.op 0 0 = some (opOf (.ksig 0x150000 9) [.phys 2])) ∧
    (∃ s1 p, bothFor (passHub (popRel (rk (.ksig 0x150000 9) (.ksig 0) 2 4 0) 0) 0) 0 (opOf (.ksig 0x150000 9) [.phys 2]) 0x150000 8 false = (s1, .ok p) ∧
      (p.1.loc = false ∧ homeOf s1 p.1.pa = .first ∧ s1.watches = [] ∧ s1.op 0 0 = some (opOf (.ksig 0x150000 9) [.phys 2]) ∧ p.2.length = 8)) ∧
    (∀ x ∈ [(2, 4, 15, 5), (2, 4, 16, 5), (1, 4, 0, 5), (2, 4, 0, 6)],
      let s := rk (.klaunch 0x150000 x.2.2.2) (.klaunch 0) x.1 x.2.1 x.2.2.1
      relReady s 0 (relK (.klaunch 0) .system) = true ∧ s.op 0 0 = some (opOf (.klaunch 0x150000 x.2.2.2) [.phys 2]) ∧ s.watches = [] ∧
        (tget? (s.ctx 1).queues x.2.2.2).isSome = (x.2.2.2 == 5) ∧ readLE s (0x1C0000 + 33) 1 = x.1 ∧ readLE s (0x1C0000 + 16) 8 = x.2.2.1 ∧
        (match readVA (popRel (passHub s 0) 0) 1 (sectorPieces 0x150000 128) with | .ok b => b.length == 128 | .error _ => false) = true ∧
        cpHeld (popRel (passHub s 0) 0) 1 0x1A0780 128 = false ∧
        (match cpWrite (popRel (passHub s 0) 0) 1 0x1A0780 [List.replicate 64 0, List.replicate 64 0] with
        | some t => t.watches.isEmpty && t.strands == s.strands | none => false) = true) ∧
    (∀ k ∈ [k0, kr, { kr with cost := List.replicate 16 0 ++ leBytes 4 1 ++ leBytes 4 1 ++ [4] }],
      let s := { (sw [] fun t => { t with ops := [opOf .keos [.phys 2]], nextOp := 1 }) with kernels := [(0, k)] }
      s.sentOp 0 (opOf .keos [.phys 2]) ∧ (s.strand 0).st = .ready ∧ (s.strand 0).close = none ∧ regHeld s (s.strand 0) = false ∧ frozenNow s 0 = false ∧
        (s.kern 0).standing = ({ kr with cost := List.replicate 16 0 ++ leBytes 4 1 ++ leBytes 4 1 ++ [4] } == k)) := by
  refine ⟨?_, ?_, ?_, ?_, ?_, pair_ok ?_, ?_, ?_⟩ <;> decide +kernel

/-- A machine with core 1 placed too, and pages of core 0's cache that lead to core 1's scratchpad and barriers. -/
def far (l : List Nat) (f : Strand → Strand) : State :=
  { (sw l f) with tlb := s0.tlb ++ [page 0x160000 (winBase + winSize) 0 0x30, page 0x170000 (winBase + winSize + 0x380000) 0 0x30] }.modPart 1 1
    fun _ => { p0 with core := 1 }
def barO (op : BOp) (a b e : Nat) (x : Barrier) : State :=
  (far [] fun t => { t with ops := [opOf (.barrier op a b e) [.phys 2]], nextOp := 1 }).modPart 1 1 fun p => { p with barriers := [(2, x)] }

theorem wit_Barriers : (∀ x ∈ [(0, 0), (255, 2), (0x170020, 1), (0x170010, 3)],
      let s := st [x.1, x.2, 65535]
      s.passes hd [.r 10, .r 8, .r 9] ∧ s.room ∧ s.me.close = none ∧ (∀ o ∈ s.me.ops, o.id < s.me.nextOp) ∧
        (x.1 < 256 → x.1 < (s.part s.me.lcore s.me.ctx).partn.nb) ∧ (256 ≤ x.1 → x.1 % 16 = 0) ∧ reach s s.me.pcore s.me.ctx = .open ∧ frozenNow s s.me.pcore = false ∧
        barBehind (s.entered 4) s.cur s.me.pcore s.steps = false ∧ arrivalHeld s s.cur s.steps = false ∧ (barrierOf s 0 1 x.1).phase < 2 ^ 16 ∧
        s.watches = []) ∧
    ((s0.part 1 1).partn.nb ≤ 0 ∧ ((st [0x108, 0]).me.reg 8).toNat % 16 ≠ 0 ∧ 256 ≤ ((st [0x108, 0]).me.reg 8).toNat) ∧
    (∀ x ∈ [(BOp.binit, 4, 0), (.bexp, 4095, 0), (.barv, 1, 0), (.bwait, 0, 65535), (.bwait, 0, 3), (.btest, 0, 0), (.btest, 1, 0)],
      let s := barO x.1 0x170020 x.2.1 x.2.2 ⟨65535, 1, 0, false, 2 ^ 36 - 8⟩
      s.sentOp 0 (opOf (.barrier x.1 0x170020 x.2.1 x.2.2) [.phys 2]) ∧ (s.strand 0).preempted = false ∧ (x.1 = .btest → x.2.1 < 2) ∧
        barBehind s 0 1 0 = false ∧ refBlocked s (s.strand 0) 0x170020 = false ∧ frozenNow s 1 = false ∧ arrivalHeld s 0 0 = false ∧ reach s 1 1 = .open ∧ (barrierOf s 1 1 2).phase = 65535) ∧
    (∃ s1 p, barrierRef (barO .barv 0x170020 1 0 Barrier.init) ((barO .barv 0x170020 1 0 Barrier.init).strand 0) 0x170020 = (s1, .ok p) ∧
      (p = (1, 2) ∧ s1.op 0 0 = some (opOf (.barrier .barv 0x170020 1 0) [.phys 2]) ∧ s1.strand 0 = (barO .barv 0x170020 1 0 Barrier.init).strand 0)) ∧
    (let w (u : Nat) (placed : Bool) : Watch := ⟨u, 0, barrierPA (barO .barv 0 1 0 Barrier.init) 1 1 2, 65535, placed⟩
     let s := { (barO .bwait 0x170020 0 65535 ⟨65535, 1, 0, false, 0⟩) with watches := [w 0 false] }
     (s.watches.find? fun w => w.uid == 0 && w.opId == 0 && !w.placed) = some (w 0 false) ∧ (w 1 true).uid ≠ 0 ∧ (w 1 true).placed = true ∧
       s.op (w 0 false).uid 0 = some (opOf (.barrier .bwait 0x170020 0 65535) [.phys 2]) ∧
       (barrierFields .barv 1 ⟨65535, 1, 0, false, 0⟩).arr < 2 * (barrierFields .barv 1 ⟨65535, 1, 0, false, 0⟩).expc) ∧
    (∃ s1 w, siteOf ((far [7, 0x80000, 0] id).entered 4) ((far [7, 0x80000, 0] id).me.past 4) 0x80000 8 .write = (s1, .ok w) ∧
      (inSpad s1 w.pa 0 = true ∧ refBlocked s1 ((far [7, 0x80000, 0] id).me.past 4) 0 = false ∧ inSpad s1 w.pa 1 = false ∧ w.wb = false ∧ homeOf s1 w.pa = .window 0 0 ∧ reach s1 0 1 = .open ∧ barBehind s1 0 0 s1.steps = false ∧
        localBehind s1 0 0x80000 8 w.pa = false ∧ s1.strand 0 = (far [7, 0x80000, 0] id).me.past 4 ∧ winCheck s1 1 0 0 true = none ∧ winCheck s1 1 0 7 true = none ∧
        s1.watches = [] ∧ (s1.ctx 1).watches = [])) ∧
    (∃ s1 w, siteOf ((far [7, 0x160008, 0x170020] id).entered 4) ((far [7, 0x160008, 0x170020] id).me.past 4) 0x160008 8 .write = (s1, .ok w) ∧
      (inSpad s1 w.pa 1 = true ∧ refBlocked s1 ((far [7, 0x160008, 0x170020] id).me.past 4) 0x170020 = false ∧ w.wb = false ∧ homeOf s1 w.pa = .window 1 8 ∧ s1.watches = [])) ∧
    (let x : MemWrite := ⟨0, 0, 1, .s, 0x160008, winBase + winSize + 8, leBytes 8 7, some (2, 1), 0, true, none, none, false⟩
     let s := { (far [] id) with writes := [x] }
     noMsg.bytes = [] ∧ s.writes[0]? = some x ∧ storeReady s 0 x = true ∧ reachPA s 1 x.pa = .open ∧ homeOf s x.pa = .window 1 8 ∧
       winCheck s 1 1 8 true = none ∧ winCheck s 1 1 15 true = none ∧ s.watches = [] ∧ (barrierOf s 1 1 2).phase < 2 ^ 16) := by
  refine ⟨?_, ?_, ?_, pair_ok ?_, ?_, pair_ok ?_, pair_ok ?_, ?_⟩ <;> decide +kernel


/-- Collective group 3 of context 1: the strands in slots 0 and 1 of core 0 (22 R466), and a collective of theirs. -/
def ents : List Nat := [0xFFFF * 2 ^ 32, 0xFFFF * 2 ^ 32 + 2 ^ 12]
def grp (st : Nat) (joined : List Nat) : CollGroup := { CollGroup.init with st := st, members := ents, joined := joined }
def col (l : List Nat) (c : CollGroup) (f : Strand → Strand) : State :=
  (two l f).modCtx 1 fun x => { x with colls := [(3, c)], rspb := 0x1B0000, rspn := 2 }
def cl0 (op : COp) (len : Nat) (ms : List CollMember) : Coll :=
  { id := 0, ctx := 1, g := 3, seq := 0, op := op, len := len, n := 2, members := ms, resv := [], moving := [], parts := [], done := [], abort := none }
def m1 : CollMember := ⟨1, 1, 2, 0x150000, 0x1A0000, none⟩
def m0 : CollMember := ⟨0, 0, 0, 0x150000, 0x1A0000, none⟩
def ce : Ext := { x0 with f0 := 10, f1 := 8, f2 := 9, f3 := 11, imm := 3 }
def cop (k : OpKind) (c : CollGroup) (l : List (Nat × CLine)) : State := col [] c fun t => { t with ops := [opOf k [.phys 2]], nextOp := 1, clines := l }

theorem wit_Collectives : (∃ op src dst len refs, CollRule (col [0x150000, 0x1A0000, 0, 64] (grp 2 [0, 1]) id).me (.cag hd ce) hd ce op src dst len refs ∧
      (col [0x150000, 0x1A0000, 0, 64] (grp 2 [0, 1]) id).passes hd refs ∧ (op = .ag ∧ len = 64)) ∧
    (∃ op src dst len refs, CollRule (col [] (grp 2 [0, 1]) id).me (.cbar hd ce) hd ce op src dst len refs ∧ (col [] (grp 2 [0, 1]) id).passes hd refs) ∧
    (∀ x ∈ [(0, []), (2, [0, 1])],
      let s := { (col [0x150000, 0x1A0000, 0, 64] (grp x.1 x.2) id) with colls := [cl0 .ag 64 [m1]], nextColl := 1 }
      s.room ∧ s.me.close = none ∧ (∀ o ∈ s.me.ops, o.id < s.me.nextOp) ∧ (∀ d ∈ s.colls, d.id < s.nextColl) ∧ (s.coll 1 3).st = x.1 ∧
        (s.coll 1 3).members.findIdx? (listed s s.me) = some 0 ∧ (∀ e ∈ [2 ^ 13 + 0xFFFF * 2 ^ 32], listed s s.me e = false) ∧ (s.cline 0 0).st = 0 ∧
        2 ≤ (s.coll 1 3).members.length ∧ (s.colls.find? fun d => d.ctx == 1 && d.g == 3 && d.seq == tget 0 (s.coll 1 3).seqs 0) = some (cl0 .ag 64 [m1]) ∧
        (cl0 .ag 64 [m1]).abort = none ∧ (cl0 .bar 0 [m1]).members.length + 1 = (cl0 .bar 0 [m1]).n ∧
        (cl0 .ag 128 []).members.length + 1 < (cl0 .ag 128 []).n) ∧
    (collArgs .ag 0 64 (2 ^ 32 - 64) ∧ ¬collArgs .ag 0 64 (2 ^ 32) ∧ ¬collArgs .a2a 0 64 0 ∧ ¬collArgs (.rs 0 0) 32 0 64 ∧ collArgs .bar 0 0 0) ∧
    (listLegal 0 2 ents ∧ ¬listLegal 4 2 ents ∧ ¬listLegal 0 1 (ents.take 1) ∧ ¬listLegal 0 2 [0, 0]) ∧
    (∀ c ∈ [CollGroup.init, grp 1 [], grp 2 [0, 1], grp 3 [0, 1], { grp 3 [0, 1] with left := [1] }], ∀ n ∈ [0, 2, 1024, 1025],
      let s := cop (.cgrp 3 0x150000 n) c []
      s.sentOp 0 (opOf (.cgrp 3 0x150000 n) [.phys 2]) ∧ (s.strand 0).st = .ready ∧ (s.strand 0).close = none ∧ regHeld s (s.strand 0) = false ∧ frozenNow s 0 = false ∧ s.coll 1 3 = c) ∧
    (let s := cop (.cgrp 3 0x150000 2) CollGroup.init []
     let s := { s with mem := memPut s.mem 0x150000 (ents.flatMap (leBytes 8)) }
     (match readVA s 1 (sectorPieces 0x150000 16) with | .ok bs => bs == ents.flatMap (leBytes 8) | .error _ => false) = true ∧
       ents.findIdx? (listed s (s.strand 0)) = some 0) ∧
    (∀ l ∈ [(⟨0, 0, 0⟩ : CLine), ⟨1, 0, 0⟩, ⟨2, 0, 1⟩, ⟨2, 0, 0x202⟩],
      let s := cop (.cwait 3) (grp 2 [0, 1]) [(3, l)]
      s.sentOp 0 (opOf (.cwait 3) [.phys 2]) ∧ (s.strand 0).st = .ready ∧ (s.strand 0).close = none ∧ regHeld s (s.strand 0) = false ∧ frozenNow s 0 = false ∧ s.cline 0 3 = l) := by
  refine ⟨⟨_, _, _, _, _, .cag .., ?_⟩, ⟨_, _, _, _, _, .cbar .., ?_⟩, ?_, ?args, ?legal, ?_, ?_, ?_⟩
  case args => unfold collArgs; decide
  case legal => unfold listLegal; decide
  all_goals decide +kernel

def cs (c : Coll) : State := { (col [] (grp 2 [0, 1]) id) with colls := [c], nextColl := 1, cycle := 65536 }
def rp (level : Nat) : RPart := ⟨0, 0, level, 0, List.replicate 64 1, 0, none⟩

theorem wit_Collectives_flows : (∀ c ∈ [cl0 .ag 64 [m0, m1], cl0 .a2a 64 [m0, m1], cl0 (.rs 4 0) 64 [m0, m1], { cl0 .ag 64 [m0, m1] with resv := [(0, 1)] }],
      (cs c).colls.find? (fun c => c.id == 0) = some c ∧ collTurn (cs c) c = true ∧ c.member 0 = some m0 ∧ c.member 1 = some m1 ∧ (0 < c.secs ∧ 0 < c.flows) ∧
        c.done.length + 1 < c.n * c.secs ∧ c.moving = [] ∧ (cs c).watches = []) ∧
    (tget 0 (cl0 .ag 64 []).resv 0 < (cl0 .ag 64 []).n - 1 ∧ (cl0 .ag 64 []).n - 1 ≤ tget 0 { cl0 .ag 64 [] with resv := [(0, 1)] }.resv 0) ∧
    (∃ s1 bs, collRead (cs (cl0 .ag 64 [m0, m1])) (cl0 .ag 64 [m0, m1]) m0 0 = .done s1 bs ∧
      (match collWrite s1 (cl0 .ag 64 [m0, m1]) m0 0 (bs.take 8) with | .done t _ => t.colls == s1.colls | _ => false) = true) ∧
    (∃ s2 k, collWrite (cs (cl0 .ag 64 [])) (cl0 .ag 64 []) { m0 with dst := 0x40000000 } 0 (List.replicate 8 0) = .fault s2 k ∧
      (s2.colls = (cs (cl0 .ag 64 [])).colls ∧ (cl0 .ag 64 [m0]).members.length < 2)) ∧
    (let c := { cl0 (.rs 4 0) 64 [m0, m1] with parts := [rp 1] }
     c.whole 0 0 = some (rp 1) ∧ (match collWrite (cs c) c m0 0 ((rsFinal 4 0 (rp 1).bytes).take 8) with | .done t _ => t.colls == [c] | _ => false) = true) ∧
    (let c := { cl0 .ag 64 [m0, m1] with moving := [⟨0, 0, List.replicate 64 7, [1], 56⟩] }
     (c.moving.find? fun q => q.flow == 0 && q.sec == 0) = some ⟨0, 0, List.replicate 64 7, [1], 56⟩ ∧ c.member 1 = some m1 ∧
       (match collWrite (cs c) c m1 56 (List.replicate 8 7) with | .done t _ => t.colls == [c] | _ => false) = true) ∧
    (nodesAt 2 0 = 2 ∧ 1 < nodesAt 2 0 ∧ 0 < nodesAt 2 1 ∧ 2 * 0 + 1 < nodesAt 2 0 ∧ nodesAt 3 0 = 2 * 1 + 1) ∧
    (∃ s1 a, rsChild (cs (cl0 (.rs 4 0) 64 [m0, m1])) (cl0 (.rs 4 0) 64 [m0, m1]) 4 0 0 0 0 0 = .done s1 a ∧
      (s1.colls = [cl0 (.rs 4 0) 64 [m0, m1]] ∧ (match rsChild s1 (cl0 (.rs 4 0) 64 [m0, m1]) 4 0 0 0 0 1 with | .done t _ => t.colls == s1.colls | _ => false) = true)) ∧
    (let c := { cl0 (.rs 4 0) 64 [m0, m1] with parts := [rp 0] }
     (c.parts.find? fun p => p.chunk == 0 && p.sec == 0 && p.level == 0 && p.ix == 0 && p.spill.isNone) = some (rp 0) ∧ 0 < ((cs c).ctx 1).rspn ∧
       (∀ q ∈ c.parts, q.spill ≠ some 0) ∧ (rp 0).since + 65536 ≤ (cs c).cycle) ∧
    (List.replicate 64 (1 : Byte)).length = 64 := by
  refine ⟨?_, ?_, touch_done ?_, touch_fault ?_, ?_, ?_, ?_, touch_done ?_, ?_, ?_⟩ <;> decide +kernel

def nz (mode : Nat) (nlogi : Nat) (bad : Bool) : State :=
  { (so .rnoise [.phys 2]) with noiseWait := [(0, [(0, 0), (1, 0)])], noiseBad := [(0, bad)] }.modCtx 1
    fun x => { x with nlogb := 0x1C0000, nlogn := 4, nlogi := nlogi, nlogMode := mode }

theorem wit_RandomNumbers : (∀ l ∈ [[0, 0], [2 ^ 32, 7], [3, 2 ^ 64 - 1]], (st l).passes hd [.r 10, .r 8, .r 9] ∧ (st l).room) ∧
    ((kw [] id).kern 0).det = false ∧ (({ (st []) with kernels := [(0, { k0 with cost := List.replicate 24 0 ++ [2] })] } : State).kern 0).det = true ∧
    (st []).me.sup = false ∧ (sw [3] fun t => { t with sup := true }).me.sup = true ∧
    (∀ x ∈ [(0, 0, false), (1, 3, false), (1, 4, false), (2, 3, false), (2, 4, false), (0, 0, true)],
      let s := nz x.1 x.2.1 x.2.2
      tget [] s.noiseWait 0 = [(0, 0), (1, 0)] ∧ s.op 0 0 = some (opOf .rnoise [.phys 2]) ∧ tget false s.noiseBad 0 = x.2.2 ∧ (s.ctx 1).nlogMode = x.1 ∧
        (s.ctx 1).nlogi = x.2.1 ∧ (s.ctx 1).nlogn = 4 ∧ s.watches = []) := by decide +kernel


/-- A group with a member on node 9, and a port that is up for it (22 R466). -/
def entsA : List Nat := [0xFFFF * 2 ^ 32, 9 * 2 ^ 32]
def upS (s : State) : State :=
  { s with config := List.replicate (0x5C0 + 44) 0 ++ leBytes 4 (2 ^ 31), clavos := [(31, { Clavos.init with st := .up, lanes := 8 })] }
def grpA (st : Nat) (joined left : List Nat) : State := upS (col [] { CollGroup.init with st := st, members := entsA, joined := joined, left := left } id)

theorem wit_Collectives_away : (∀ x ∈ [(1, [], []), (1, [0], []), (2, [0, 1], []), (3, [0, 1], [])],
      let s := grpA x.1 x.2.1 x.2.2
      let c := s.coll 1 3
      (s.ctx 1).st = .active ∧ c.st = x.1 ∧ c.joined = x.2.1 ∧ c.left = x.2.2 ∧ c.members[1]? = some (9 * 2 ^ 32) ∧ listedHere s (9 * 2 ^ 32) = false ∧
        nodeUp s (s.ctx 1).secure (9 * 2 ^ 32 / 2 ^ 32 % 2 ^ 16) = true ∧ c.members.length = 2 ∧ (∃ y ∈ c.members, listedHere s y = true) ∧ s.colls = []) ∧
    ([] : List Nat).length + 1 < [0, 1].length ∧ collFits .ag 64 = true ∧ collFits (.rs 0 0) 128 = true ∧ collFits .bar 0 = true := by decide +kernel
theorem wit_Collectives_legal : listLegal 0 2 entsA := by
  unfold listLegal
  decide

/-- A collective's write to the host range that no port takes, and a router's 16 slots (22 R460, R477). -/
def lostC : Coll := { cl0 .ag 64 [m0] with n := 2 }
theorem wit_Collectives_lost : (let s := cs lostC
      let v := { s with unreach := [(false, engineMsg true 0 0, 0)], cycle := 2 ^ 20 }
      (discarded v (engineMsg true 0 0) (2 ^ 51)).2 = true ∧ (discarded s (engineMsg true 0 0) (2 ^ 51)).2 = false ∧ lostC.members.length < lostC.n) ∧
    (let full : Coll := { cl0 (.rs 4 0) 64 [m0, m1] with parts := (List.range 16).map fun i => ⟨0, i + 1, 0, 0, [], 0, none⟩ }
     let up : RPart := ⟨0, 0, 1, 0, [], 0, none⟩
     let taken (s : State) (c : Coll) (p : RPart) : Nat := (s.colls.flatMap fun d => d.parts.filter fun q => q.spill.isNone && partRouter s d q == partRouter s c p &&
       !(d.id == c.id && q.chunk == p.chunk && q.sec == p.sec && q.level + 1 == p.level && q.ix / 2 == p.ix)).length
     taken (cs full) full up = 16 ∧ taken (cs (cl0 (.rs 4 0) 64 [m0, m1])) (cl0 (.rs 4 0) 64 [m0, m1]) up = 0 ∧
       (∀ q ∈ full.moving, ¬(q.flow = 0 ∧ q.sec = 0)) ∧ listedHere (cs full) (partEntry (cs full) full up) = true) := by decide +kernel

/-- A leaf whose sibling is still to come keeps the router's slot (22 R472): the sibling is on a node that no port reaches yet. -/
theorem wit_Collectives_leaf : let c : Coll := cl0 (.rs 4 0) 64 [m0, { m1 with away := some 9 }]
    let s : State := cs c
    (match rsChild s c 4 0 0 0 0 0 with
    | .done s1 _ => (match rsChild s1 c 4 0 0 0 0 1 with | .wait s2 => decide (s2.colls = s.colls ∧ s2.ctxs = s.ctxs ∧ s2.config = s.config) | _ => false)
    | _ => false) = true ∧ 2 * 0 + 1 < nodesAt c.n 0 ∧ c.parts = [] := by decide +kernel

/-- A copy whose sector no port brings or takes any more, and a gather that writes its mask (16 R355, R370, 22 R460). -/
def farS (c : Copy) : State :=
  let s := cpe c
  { s with mem := memPut s.mem 0x40010 (leBytes 8 0x13A ++ leBytes 8 (2 ^ 35 + 2 ^ 37)), cycle := 2 ^ 20,
           unreach := [(false, engineMsg false (tlbCopy 0) (2 ^ 30), 0), (false, engineMsg true (tlbCopy 0) (2 ^ 30), 0)] }
theorem wit_CopiesAndGathers_lost : (let c := cp0 (rq (2 ^ 30) 0x160000 99 0) (some 0) 0 none
      (match engineRead (farS c) (tlbCopy 0) 1 (2 ^ 30) 64 0 0 [] with | .lost s1 _ => s1.copies.any fun x => x.id == 0 | _ => false) = true) ∧
    (let c : Copy := { cp0 (rq 0x150000 (2 ^ 30) 99 0) (some 0) 0 none with buf := List.replicate 64 7 }
     (match engineWrite (farS c) (tlbCopy 0) c (2 ^ 30) (leBytes 8 7) true false with | .lost s1 _ => s1.copies.any fun x => x.id == 0 | _ => false) = true) ∧
    (∀ r ∈ [List.replicate 9 (1 : Byte), [4]], let g : Gather := { gth 0x150000 3 [2] with fin := some 0, row := r }
     let s := { (gts 0x150000 3 [2]) with gathers := [g] }
     s.gathers.find? (fun g => g.cluster == 0) = some g ∧ g.fin = some 0 ∧ reach s 0 1 = .open ∧ s.watches = []) ∧
    (gHasMask (gd 0x150000 160) = true ∧ gHasMask (gd 0x150000 0xFFFFFFFF) = false) := by decide +kernel

/-- A noise entry in a granule of the other world faults the request (24 R496). -/
theorem wit_RandomNumbers_world : let s := { (nz 1 0 false) with config := List.replicate (0x7C0 - 1) 0 ++ [0] }
    let x := s.ctx 1
    (x.nlogMode = 1 ∨ x.nlogMode = 2) ∧ x.nlogi < x.nlogn ∧
      granuleSecure (s.modCtx 1 fun y => { y with secure := true }) 0x1C0000 ≠ ((s.modCtx 1 fun y => { y with secure := true }).ctx 1).secure ∧
      (opOf .rnoise [.phys 2]).child = none ∧ (s.strand 0).close = none := by decide +kernel

/-- A TSTORE of three leaves goes atom by atom: its first, its last, one that waits for a line, and none (14 R327). -/
theorem wit_Trees_atoms : (∀ x ∈ [([], 2), ([0], 1), ([0, 0], 0)],
      let o : Op := { tOp .tstore 0x80000 3 with got := x.1 }
      let s := tr .tstore 0x80000 3
      let r := tget TreeReg.init (s.part 0 1).trees 7
      (s.part 0 1).tq = [(0, o.id, 0)] ∧ r.ok ∧ ((atomsOf 0 ((List.range 3).flatMap fun j => leBytes 4 (r.leaf j))).drop x.1.length).length = x.2) ∧
    spadBusy ((tr .tstore 0x80000 3).modCore 0 fun k => { k with inflight := [winBase / 64] }) 0 1 0 8 = true ∧
    spadBusy (tr .tstore 0x80000 3) 0 1 0 8 = false ∧
    (reach ((st []).modPart 0 1 fun p => { p with st := .saving }) 0 1 = .wait ∨ reach ((st []).modPart 0 1 fun p => { p with st := .saving }) 0 1 = .divert) := by
  decide +kernel


/-- The system queue's block at address 0, and one command in it (20 R432): its number, its operand, and its last word. -/
def sys (n a w3 : Nat) (more : List (Nat × List Byte)) (s : State) : State :=
  let put (m : List Host.Cell) (p : Nat × List Byte) : List Host.Cell := memPut m p.1 p.2
  { s with mem := ([(0, leBytes 8 0x1C0000 ++ leBytes 8 0 ++ leBytes 8 5 ++ leBytes 8 4 ++ leBytes 1 2),
    (0x1C0000, leBytes 8 n ++ leBytes 8 a ++ leBytes 8 0 ++ leBytes 8 w3)] ++ more).foldl put s.mem }
/-- A context block for context 2 (20 R430), a queue block (21 R448), a debug block (23 R482), a load block (02 R65). -/
def ctxB (c : Nat) : List Byte := leBytes 8 0 ++ leBytes 144 0 ++ leBytes 8 4096 ++ leBytes 8 65536 ++ leBytes 8 c ++ leBytes 8 10 ++ leBytes 72 0
def queueB (c q : Nat) : List Byte := leBytes 32 0 ++ leBytes 1 16 ++ leBytes 1 2 ++ leBytes 2 c ++ leBytes 1 q ++ leBytes 27 0
def dbgB (c samp : Nat) : List Byte := leBytes 8 c ++ leBytes 4 samp ++ leBytes 148 0
def loadB (c o st : Nat) : List Byte := leBytes 8 c ++ leBytes 8 o ++ leBytes 8 st ++ leBytes 8 0

theorem wit_Commands : (∀ x ∈ [(0, 0, 0), (14, 0, 0), (7, 31, 1), (4, 1, 2 ^ 64 - 1)], (sys x.1 x.2.1 x.2.2 [] s0).posted x.1 x.2.1 0x1C0000 ∧
      readLE (sys x.1 x.2.1 x.2.2 [] s0) (0x1C0000 + 24) 8 = x.2.2 ∧ (sys x.1 x.2.1 x.2.2 [] s0).watches = []) ∧
    (s0.phase = 5 ∧ readLE s0 16 8 ≤ readLE s0 24 8) ∧
    (let s := sys 1 0x1D0000 0 [(0x1D0000, ctxB 2)] s0
     let b := readBytes s 0x1D0000 256
     blockOk 0x1D0000 b = true ∧ blockOk 0x1D0001 b = false ∧ blkW b 21 % 2 ^ 12 = 2 ∧ (s.ctx 2).st = .free ∧ (s.ctx 1).st ≠ .free ∧ (blkW b 21).testBit 12 = false ∧
       granuleSecure s 0x1D0000 = false ∧ ∀ x ∈ [1, 2, 5, 7, 10, 14, 17, 18].map (blkW b), granuleSecure s x = false) ∧
    ((s0.ctx 1).secure = false ∧ (s0.ctx 1).st = .active ∧ (s0.ctx 2).st = .free ∧ 2 ^ 12 - 1 < 2 ^ 12 ∧ 2 ^ 12 / 2 ^ 12 ≠ 0) ∧
    (∀ x ∈ [(1, 5, true), (1, 6, false), (2, 6, false)],
      let s := (sys 3 0x1D0000 0 [(0x1D0000, queueB x.1 x.2.1)] s0).modCtx 1 fun c => { c with queues := [(5, 0x1C0040)] }
      let b := readBytes s 0x1D0000 64
      queueOk 0x1D0000 b = true ∧ queueOk 0x1D0020 b = false ∧ recLE b 34 2 = x.1 ∧ recLE b 36 1 = x.2.1 ∧ ((tget? (s.ctx 1).queues x.2.1).isSome = x.2.2) ∧
        granuleSecure s 0x1D0000 = (s.ctx 1).secure) ∧
    (∀ st ∈ [ClavosSt.down, .training, .up, .narrowed, .fenced],
      let s := { s0 with clavos := [(31, { Clavos.init with st := st })] }
      (s.clav 31).st = st ∧ portSecure s 31 = false ∧ 31 / 2 ^ 5 = 0) ∧
    (let b := readBytes (sys 9 0x1D0000 0 [(0x1D0000, dbgB 1 1024)] s0) 0x1D0000 160
     dbgOk 0x1D0000 b = true ∧ dbgOk 0x1D0010 b = false ∧ recLE b 0 8 = 1 ∧ dbgOk 0x1D0000 (dbgB 1 1023) = false) ∧
    (∀ x ∈ [StrandSt.ready, .parked .wordChanged, .stopped none, .stopped (some .wordChanged)],
      let s := sw [] fun t => { t with st := x }
      slotOwner s 0 0 = some 0 ∧ slotOwner s 0 15 = none ∧ cfgBit s 0 = false ∧ (s.strand 0).st = x ∧ (s.strand 0).close = none) ∧
    (let s := sys 13 0x1D0000 0 [(0x1D0000, loadB 1 0x1E0000 0x1F0000), (0x1E0000, leBytes 4 0x3146504C ++ leBytes 2 1)] s0
     readLE s 0x1D0000 8 = 1 ∧ readLE s 0x1D0008 8 = 0x1E0000 ∧ readLE s 0x1D0010 8 = 0x1F0000 ∧ readLE s 0x1D0018 8 = 0 ∧ granuleSecure s 0x1F0000 = false ∧ granuleSecure s 0x1D0000 = (s.ctx 1).secure ∧
       (objectBytes s 0x1E0000).length = 64 ∧ granuleSecure s (0x1E0000 + min 0 63) = false ∧ 0x1C0000 + 24 ≤ 0x1F0000) ∧
    (let s := (sys 2 1 0 [] s0).modCtx 1 fun c => { c with st := .teardown }
     (s.ctx 1).st = .teardown ∧ tearBusy s 1 = false ∧ tearBusy { s with writes := [wr0] } 1 = true ∧ tearBusy { s with folds := [job 2 0 none []] } 1 = true) ∧
    (recLE (leBytes 4 0x54414E46) 0 4 = 0x54414E46 ∧ recLE (leBytes 4 0x3146504C ++ leBytes 2 0 ++ leBytes 2 1) 4 2 = 0 ∧
      recLE (leBytes 4 0x3146504C ++ leBytes 2 0 ++ leBytes 2 1) 6 2 ≠ 0) := by
  refine ⟨?_, ?_⟩
  · unfold State.posted
    decide +kernel
  · decide +kernel

/-- A handle whose record lies in a write-blocked page holds back END and CONTW (07 R181, 12 R304). -/
theorem wit_NopYieldEndAndEnding_waits : let s := sw [0x100080] fun t => { t with ending := true, handles := [(1, { hnd with raddr := 0x120000 })] }
    canIssue s (s.strand 0) = true ∧ (s.strand 0).ending = true ∧ (closeHandles s 0).2 = false ∧
      (let w := sitesOf (s.entered 4) (s.me.past 4) .write (wordsAt 0x100080 16)
       (match w.2 with | .ok ws => ws.all fun x => !x.loc && !x.wb | .error _ => false) = true ∧ (closeHandles w.1 0).2 = false) := by decide +kernel


/-- A posted launch record (21 R451) of one group of one strand, and the machine that takes it: core 0 is usable (24 R492) and has a save block. -/
def costB (flags : Nat) : List Byte := leBytes 8 1000 ++ leBytes 8 0 ++ leBytes 4 1 ++ leBytes 4 1 ++ leBytes 1 flags ++ leBytes 7 0
def recB (type sub kaddr deadl depa : Nat) (cost : List Byte) : List Byte := leBytes 1 type ++ leBytes 1 sub ++ leBytes 2 0 ++ leBytes 4 1 ++ leBytes 8 0x1E0000 ++
  leBytes 8 0x1D0000 ++ leBytes 8 0x1D0200 ++ leBytes 8 deadl ++ leBytes 8 depa ++ leBytes 16 0 ++ cost ++ leBytes 24 0 ++ leBytes 8 kaddr
def pla (wi : Nat) (r : List Byte) (ks : Table Kernel) : State :=
  let put (m : List Host.Cell) (p : Nat × List Byte) : List Host.Cell := memPut m p.1 p.2
  { s0 with kernels := ks, config := List.replicate 0x40 0 ++ [1], cycle := 5000,
            mem := [(0x1C0000, leBytes 8 0x1A0000 ++ leBytes 8 0 ++ leBytes 8 wi ++ leBytes 8 1 ++ leBytes 1 4 ++ leBytes 1 2), (0x1A0080, r), (0x1F0000, leBytes 8 0x200000),
              (0x150000, leBytes 8 1)].foldl put s0.mem }.modCtx 1
    fun x => { x with queues := [(5, 0x1C0000)], posted := [(5, wi)], saveb := 0x1F0000, loaded := [⟨0x10000, 64, 0, 0, 1, false, []⟩] }
def gp : Group := { g0 with st := .pending, start := 5000, window := 1000, slots := [1], plan := [(0, allOf)] }
def kp (st : KernSt) : Kernel := { k0 with st := st, groups := [gp], cost := costB 0, kaddr := 0x10000, g := 1 }

theorem wit_Placement_records : (let s := pla 2 (recB 1 0 0x10000 0 0 (costB 0)) [(0, k0)]
     let wi (s : State) : Nat := if readLE s 0x1C0021 1 = 2 then tget 0 (s.ctx 1).posted 5 else readLE s 0x1C0010 8
     let host (n : Nat) : State := { s with mem := memPut (memPut s.mem 0x1C0021 [1]) 0x1C0010 [BitVec.ofNat 8 n] }
     tget? (s.ctx 1).queues 5 = some 0x1C0000 ∧ tget? (s.ctx 1).queues 6 = none ∧ wi s = 2 ∧ readLE s 0x1C0018 8 = 1 ∧
       wi (pla 1 [] []) ≤ readLE (pla 1 [] []) 0x1C0018 8 ∧ wi (host 2) = 2 ∧ wi (host 1) = 1 ∧ depWaits s 1 0x150000 = true ∧ depWaits s 1 0x150008 = false ∧ depWaits s 1 0 = false ∧
       admitHeld s 1 (recB 1 0 0x10000 0 0 (costB 0)) = false ∧
       (let q : State := { s with tags := [(0x150008 / 64, mkTag .cluster 5)] }
        (match checkLeaf q 1 0x150008 .read true (walk q 1 0x150008) with
          | .ok x => decide (x.pa = 0x150008) && (homeRead q 1 x.pa 8).isOk && tagMiss (tagOf q x.pa) cpParty .system && !tagMiss (tagOf s x.pa) cpParty .system
          | .error _ => false) = true ∧ (q.core 5).misses = [] ∧ depWaits q 1 0x150008 = true)) ∧
    (let s := pla 2 (recB 1 0 0x10000 0 0 (costB 0)) [(0, k0)]
     let one : State := { s with poison := [0x1A00C0] }
     let all : State := { s with poison := [0x1A0080] }
     (readVA one 1 (sectorPieces 0x1A0080 128)).isOk = false ∧ (readVA all 1 [(0x1A0090, 8)]).isOk = false ∧
       (match readVA (logVA one 1 (sectorPieces 0x1A0080 128)) 1 [(0x1A0090, 8)] with
        | .ok b => decide (leNat b % 64 = 0) && cpWritable one 1 (leNat b) 64 && (writeAdmission one { Kernel.init with ctx := 1, adma := leNat b } 6 one.cycle).isSome
        | .error _ => false) = true) ∧
    (∃ r, readVA (pla 2 (recB 1 0 0x10000 0 0 (costB 0)) [(0, k0)]) 1 (sectorPieces 0x1A0080 128) = .ok r ∧ r = recB 1 0 0x10000 0 0 (costB 0)) ∧
    (let s := pla 2 (recB 1 0 0x10000 0 0 (costB 0)) [(0, k0)]
     let k := kernelOf 1 (recB 1 0 0x10000 0 0 (costB 0))
     k.adma % 64 = 0 ∧ cpWritable s 1 k.adma 64 = true ∧ k.xform = 0 ∧ badRec (recB 1 0 0x10000 0 0 (costB 0)) = false ∧ badRec (recB 1 1 0x10000 0 0 (costB 0)) = true ∧
       cpWritable s 1 k.cmpa 32 = true ∧ k.argn = 0 ∧ (writeAdmission s k 5 s.cycle).isSome = true ∧
       (match admitKernel s k (recB 1 0 0x10000 0 0 (costB 0)) none with
       | .ok k' => k'.st == .admitted && k'.groups.length == 1 && (writeAdmission s k' 0 s.cycle).isSome | .error _ => false) = true ∧
       admitKernel s k (recB 1 0 0x10000 1 0 (costB 0)) none = .error 3 ∧ (∀ l ∈ (s.ctx 2).loaded, l.addr ≠ k.kaddr)) := by
  refine ⟨?_, ?_, ⟨_, ?_, rfl⟩, ?_⟩ <;> decide +kernel

/-- A digest transform (21 R454): its control block at 0x1E0000. -/
def dig : Kernel := { (kp .running) with xform := 4, par := 0x1E0000, g := 0 }
def xs (src dst : Nat) (k : Kernel) : State :=
  let s := pla 2 [] [(0, k)]
  { s with mem := memPut s.mem 0x1E0000 (leBytes 8 src ++ leBytes 8 dst ++ leBytes 8 64 ++ leBytes 40 0) }

/-- A second group of a deterministic kernel is placed by the kernel's own count of cycles (19 R423). -/
theorem wit_Placement_det : let k : Kernel := { kp .running with cost := (costB 0).set 24 2, groups := [{ g0 with num := 1, start := 4990 }, gp], detCyc := 10 }
    let s := pla 2 [] [(0, k)]
    s.groupAt 0 0 = some gp ∧ (s.kern 0).det = true ∧ (s.kern 0).st = .running ∧ gp.start ≤ ((s.kern 0).groups.map (·.start)).min?.getD 0 + (s.kern 0).detCyc ∧
      (∀ h ∈ (s.kern 0).groups, h.st = .pending → ¬(h.start < gp.start ∨ h.start = gp.start ∧ h.num < gp.num)) ∧
      (∀ c ∈ gp.cores, coreFree s (s.kern 0) gp c = true) := by decide +kernel

theorem wit_PlacementAndBudgets : (∀ st ∈ [KernSt.admitted, .running],
      let s := pla 2 [] [(0, kp st)]
      s.groupAt 0 0 = some gp ∧ gp.st = .pending ∧ (s.kern 0).xform = 0 ∧ (s.kern 0).st = st ∧ gp.start ≤ s.cycle ∧
        (∀ h ∈ (s.kern 0).groups, h.st = .pending → ¬(h.start < gp.start ∨ h.start = gp.start ∧ h.num < gp.num)) ∧
        (∀ c ∈ gp.cores, coreFree s (s.kern 0) gp c = true) ∧ gp.cores.Nodup) ∧
    (∀ n ∈ [1000, 1001],
      let s := pla 2 [] [(0, { kp .running with groups := [{ gp with st := .resident, cyc := n, start := 4000 }] })]
      (1 * (s.kern 0).costLE 0 8 < n) = (n = 1001) ∧ (s.kern 0).slices + (if (s.kern 0).restart then 1 else 0) = 1 ∧ (s.kern 0).st = .running ∧ rising s.strands ∧
        gp.start - 1000 + gp.window ≤ s.cycle ∧ s.cycle < gp.start + gp.window ∧ (s.kern 0).standing = false) ∧
    (let s := pla 2 [] [(0, kp .closing)]
     (s.kern 0).st = .closing ∧ (s.kern 0).owes = none ∧ (s.kern 0).sigOwed = false ∧ cpHeld s 1 (s.kern 0).cmpa 32 = false ∧ (s.kern 0).siga = 0 ∧ kernelPublished s 0 = true ∧ rising s.kernels ∧ (s.ctx 1).st = .active ∧ (∀ x ∈ s.kernels, x.1 ≠ 0 → x.2.ctx = 1 → x.2.st = .complete) ∧
       kernelPublished { s with writes := [wr0] } 0 = false ∧ ((pla 2 [] [(0, { kp .complete with owes := some 0 })]).kern 0).owes = some 0) ∧
    (∀ x ∈ [(4999, true), (5000, false)],
      let s := pla 2 [] [(0, { kp .running with tprom := x.1 })]
      (s.kern 0).xform = 0 ∧ (s.kern 0).late = false ∧ decide ((s.kern 0).tprom < s.cycle) = x.2 ∧ (s.kern 0).standing = false) ∧
    ((∀ g ∈ dig.groups, g.start ≤ (xs 0 0 dig).cycle) ∧ dig.xform ≠ 0 ∧ ({ dig with st := .admitted } : Kernel).st = .admitted ∧ dig.st = .running) ∧
    (∀ g ∈ dig.groups, g.cyc ≤ dig.costLE 0 8 ∧ g.bytes ≤ dig.costLE 8 8) ∧
    (({ gp with cyc := 1001 } : Group).cyc ≤ dig.costLE 0 8) = False := by
  refine ⟨?_, ?_, ?_, ?_, ?_, ?_, eq_false ?_⟩ <;> decide +kernel

/-- A signal to SIGA by the command processor: none, into a word, and into a write-blocked page (21 R453). -/
theorem wit_PlacementAndBudgets_signal : (match checkLeaf (pla 2 [] []) 1 0x150000 .both true (walk (pla 2 [] []) 1 0x150000) with
      | .ok y => decide (homeOf (pla 2 [] []) y.pa = .first ∧ y.wb = false) && (homeRead (pla 2 [] []) 1 y.pa 8).isOk
      | .error _ => false) = true ∧
    (let s := pla 2 [] []
     let w : State := { s with mem := memPut s.mem 0x40001 [0x80] }
     (cpSignal s 1 0x150000 1).isSome = true ∧ cpSignal w 1 0x150000 1 = none ∧
       (match checkLeaf w 1 0x150000 .both true (walk w 1 0x150000) with | .ok y => y.wb | .error _ => false) = true) ∧
    ({ (kp .complete) with sigOwed := true, siga := 0x150000 } : Kernel).owes = none := by
  decide +kernel

/-- The digest's control block, one row, and what it writes; and a code of 16 bits in a described page. -/
def digB : List Byte := leBytes 8 0x150000 ++ leBytes 8 0x1A0000 ++ leBytes 8 64 ++ leBytes 40 0
def digO : List XOut := (atomsOf 0x1A0000 (leBytes 32 7)).map fun a => .bytes a.1 a.2 (a.1 % 64 == 0)
def xr : XRun := ⟨tlbCopy 0, 1, 0⟩
def xd (k : Kernel) : State := let s := rich (xs 0x150000 0x1A0000 k); { s with mem := memPut s.mem 0x40001 [1] }

theorem wit_PlacementAndBudgets_transforms : xEngine (xs 0x150000 0x1A0000 dig) dig = some (tlbCopy 0) ∧
    (∃ s1 b, xBlock (xs 0x150000 0x1A0000 dig) xr dig = (s1, .ok b) ∧ (b = digB ∧ dig.xblk = [])) ∧
    (∃ s1 c, xBlock { (xs 0x150000 0x1A0000 dig) with poison := [0x1E0000] } xr dig = (s1, .error c) ∧ (c.map (·.code) = some 10)) ∧
    (∃ s1 r, xNext (xs 0x150000 0x1A0000 dig) xr { dig with xblk := digB } = (s1, .ok r) ∧ (r.isSome = true)) ∧
    (∃ s1 r, xNext (xs 0x150000 0x1A0000 dig) xr { dig with xblk := digB, xpos := 1 } = (s1, .ok r) ∧ (r = none)) ∧
    (∃ s2 l, xAtom (xs 0x150000 0x1A0000 dig) xr ⟨0, 0, 0⟩ 0 0x1A0000 digO = (s2, .ok l) ∧ (l.length = 3)) ∧
    (∃ s1 b, xGet (xs 0x150000 0x1A0000 dig) xr (sectorPieces 0x150000 64) = (s1, .ok b) ∧ (b.length = 64)) ∧
    (∃ s1 y, xBytesAt (xs 0x150000 0x1A0000 dig) xr 0x1A0000 8 .write true = (s1, .ok y) ∧ (homeOf s1 y.pa = .first)) ∧
    (let s := xd dig
     let d := readDesc s 1 1
     d.bits = 16 ∧ (elemPlace d 0x150000 33).2 * (d.bits / 8) + d.bits / 8 ≤ 64 ∧
       (match xSector s xr (elemPlace d 0x150000 33).1 1 .write true with
        | (s1, .ok y) => decide (homeOf s1 y.pa = .first ∧ y.pa % 64 = 0)
        | _ => false) = true) ∧
    (let k : Kernel := { dig with xblk := digB, xout := digO }
     (match xWork { (xs 0x150000 0x1A0000 k) with mem := memPut (xs 0x150000 0x1A0000 k).mem 0x40001 [0x80] } 0 k with
      | (_, .error none) => true | _ => false) = true) ∧
    (let k : Kernel := { dig with xblk := leBytes 8 0x40000000 ++ digB.drop 8 }
     (match xWork (xs 0x150000 0x1A0000 k) 0 k with | (_, .error (some c)) => c.code == 7 | _ => false) = true) := by
  refine ⟨?_, pair_ok ?_, pair_err ?_, pair_ok ?_, pair_ok ?_, pair_ok ?_, pair_ok ?_, pair_ok ?_, ?_, ?_, ?_⟩ <;> decide +kernel


theorem snd_eq {σ β : Type} [DecidableEq β] {r : σ × β} (v : β) {p : σ → Prop} [∀ t, Decidable (p t)] (h : (decide (r.2 = v) && decide (p r.1)) = true) :
    ∃ t, r = (t, v) ∧ p t := by
  obtain ⟨a, b⟩ := r
  simp only [Bool.and_eq_true, decide_eq_true_eq] at h
  obtain ⟨rfl, h⟩ := h
  exact ⟨a, rfl, h⟩

/-- A core whose part is being saved, into a block at 0x200000; its partition has no scratchpad, tiles or operand store. -/
def emptyOf : Partn := ⟨[], 0, 0, [], 0, 0, 0, 0, 0, 0⟩
def pre (st : PlaceSt) (ent : Nat) (wsp : Nat) (f : Strand → Strand) : State :=
  { ((sw [] fun t => f { t with wsp := w64 wsp }).modPart 0 1 fun p => { p with st := st, partn := emptyOf }) with
    mem := memPut s0.mem 0x1F0000 (leBytes 8 ent) }.modCtx 1 fun x => { x with saveb := 0x1F0000, spqb := 0x1C0000, spqn := 1 }
/-- What the save of core 0 writes, and where it stops. -/
def saves (s : State) : State × Option SaveStop :=
  ((savedWith s 0).filter fun u => (s.part 0 (s.strand u).ctx).st == .none).foldl (saveGuest 0) (((heldParts s 0).filter Part.off).foldl (savePart 0) (s, none))
def hotS (temp dis froz : Nat) (f : Strand → Strand) : State :=
  let s : State := { (two [] id) with strands := [(0, t0), (1, f { t0 with lslot := 15, pslot := 15 })], cycle := 2 ^ 14 }
  s.modCore 0 fun k => { k with temp := temp, disabled := dis, frozen := froz }

theorem thot_pos (t c : Nat) : Config.tcool t c < Config.thot t c ∧ 0 < Config.thot t c := by unfold Config.thot; omega

theorem wit_PreemptionAndThermal : (let s := pre .placed 0 0 id
     (∀ k ∈ s.kernels, k.2.det = false) ∧ (s.parts.filter fun p => p.2.core == 0 && p.2.st != .none).map (·.2) ≠ [] ∧
       (∀ p ∈ (s.parts.filter fun p => p.2.core == 0 && p.2.st != .none).map (·.2), p.st = .placed) ∧
       (s.parts.filter fun p => p.2.core == 1 && p.2.st != .none).map (·.2) = []) ∧
    (∀ f ∈ [0, 1, 2], let s := pre .saving 0x200000 0x150000 fun t => if f = 0 then t else { t with st := if f = 1 then .parked .wordChanged else .stopped none }
     (∃ p ∈ heldParts s 0, p.st = .saving) ∧ quiet s 0 = true ∧ savedWith s 0 = [0] ∧ rising s.strands) ∧
    (∃ t, saves (pre .saving 0x200000 0x150000 id) = (t, none) ∧ t.strands = (pre .saving 0x200000 0x150000 id).strands) ∧
    (∃ t, saves (pre .saving 0 0x150000 id) = (t, some (.fault 1 0x1F0000)) ∧ True) ∧
    (∃ t, saves { (pre .saving 0x200000 0x150000 id) with mem := memPut (pre .saving 0x200000 0x150000 id).mem 0x40001 [0x80] } = (t, some .waits) ∧ True) ∧
    -- a strand that displacement brought to the core, of a context with no part there
    (let s := { (pre .saving 0x200000 0x150000 id) with parts := [(partKey 0 2, { p0 with ctx := 2, st := .saving, partn := emptyOf })] }
     s.off 0 1 = true ∧ savedWith s 0 = [0] ∧ (s.part 0 1).st = .none ∧ (saves s).2.isSome = true) ∧
    quiet { (pre .saving 0x200000 0x150000 id) with writes := [wr0] } 0 = false ∧
    (∀ w ∈ [(none, false), (some Wake.ring, false), (none, true)],
      let s := pre .saved 0x200000 0x150000 fun t => { t with st := .saved .preempted w.1 w.2 }
      (heldParts s 0).map (·.st) = [.saved] ∧ (heldParts ((s.modPart 0 1 fun p => { p with st := .restoring })) 0).map (·.st) = [.restoring] ∧ rising s.strands ∧ s.slotStrand 0 0 = none ∧ (s.strand 0).close = none ∧ (s.strand 0).stopWaits = false ∧ (s.strand 0).ops = []) ∧
    (let e : Spill := .complete (cp0 (rq 0x140000 0x150000 63 (w3Of 0)) none 64 none) 0
     let s := (pre .placed 0 0 id).modCtx 1 fun x => { x with spill := [(0, e)], refused := [(0, .reply 0 9)] }
     s.off 0 1 = false ∧ ((s.ctx 1).spill.find? fun e => e.1 == 0) = some (0, e) ∧ (redeliver s 1 0 e).isSome = true ∧ (redeliver s 1 0 (.reply 0 9)).isSome = true ∧
       ((s.ctx 1).refused.find? fun e => e.1 == 0) = some (0, .reply 0 9)) ∧
    (let s := (pre .saved 0 0 id).modCtx 1 fun x => { x with refused := [(0, .reply 0 9)] }
     s.off 0 1 = true ∧ (s.ctx 1).spill.length < (s.ctx 1).spqn ∧ (s.ctx 1).refused = [(0, .reply 0 9)]) := by
  refine ⟨?_, ?_, snd_eq _ ?_, snd_eq _ ?_, snd_eq _ ?_, ?_, ?_, ?_, ?_, ?_⟩ <;> decide +kernel

theorem wit_PreemptionAndThermal_heat : (∀ x ∈ [(0, 0), (0, 7), (1, 0), (2 ^ 15, 0), (2 ^ 16 - 2, 3)],
      let s := hotS 0 x.1 x.2 id
      s.cycle ≠ 0 ∧ s.cycle % 2 ^ 14 = 0 ∧ (s.core 0).thermAt ≠ s.cycle ∧ detCore s 0 = false ∧ (∀ k ∈ s.kernels, k.2.det = false) ∧ (s.core 0).disabled < 2 ^ 16 ∧ (s.core 0).disabled = x.1 ∧ (s.core 0).frozen = x.2) ∧
    (∀ i < 16, i ≠ 0 → (2 ^ 16 - 2).testBit i = true) ∧ (0 : Nat).testBit 15 = false ∧ (2 ^ 15 : Nat).testBit 14 = false ∧
    (hotS 0 0 0 id).slotStrand 0 15 = some 1 ∧ (hotS 0 0 0 id).slotStrand 0 14 = none ∧
    (∀ w ∈ [StrandSt.ready, .parked .close, .stopped none], let t := (hotS 0 0 0 fun t => { t with st := w }).strand 1
      t.displacing = false ∧ t.ending = false ∧ t.ops = [] ∧ t.st = w) ∧
    (∀ t c, Config.tcool t c < Config.thot t c ∧ 0 < Config.thot t c) ∧ s0.cycle = 0 ∧
    (let s := s0.setStrand 0 { t0 with displacing := true, ops := [opOf (.sleep 9) []] }
     (s.strand 0).engagedNow = true ∧ s.off 0 1 = false ∧ (s.strand 0).st = .ready ∧ (s.strand 0).close = none) ∧
    (∃ q, storeFrames (s0.setStrand 0 { t0 with displacing := true, wsp := 0x150000 }) 0 = (q, none) ∧ q.strand 0 = { t0 with displacing := true, wsp := 0x150000 }) ∧
    (let t := { t0 with displacing := true, wsp := 0x150000 }
     t.st = .ready ∧ t.engagedNow = false ∧ t.vq = [] ∧ t.trap.intrap = false ∧ t.close = none ∧ t.ending = false ∧ t.pcore < 512 ∧ (s0.setStrand 0 t).off 0 1 = false) := by
  refine ⟨?_, ?_, ?_, ?_, ?_, ?_, ?_, thot_pos, ?_, ?_, snd_eq _ ?_, ?_⟩ <;> decide +kernel

theorem wit_PreemptionAndThermal_place : displaceTo s0 0 = some (1, 0) ∧ (∀ k ∈ s0.kernels, k.2.det = false) := by
  have h (c : Nat) : decide ((s0.core c).temp < thot s0 c) = true := decide_eq_true (thot_pos _ c).2
  refine ⟨?_, by decide +kernel⟩
  unfold displaceTo
  simp only [h]
  decide +kernel


def cla (st : ClavosSt) (lanes recent since : Nat) : State :=
  { s0 with clavos := [(31, { Clavos.init with st := st, lanes := lanes, recent := recent, since := since })], cycle := 2 ^ 24 }
/-- A store to the fabric, with no port up, first seen at cycle 0. -/
def away : MemWrite := { wr0 with pa := 2 ^ 51 + 2 ^ 50 }
def disc (cyc : Nat) : State := { s0 with writes := [away], unreach := [(false, (true, 0, 0), 0)], cycle := cyc }

theorem wit_LinksAndTrace : (∀ x ∈ [(ClavosSt.training, 0), (.training, 1), (.up, 0), (.narrowed, 0), (.down, 0)], let s := cla x.1 8 4094 x.2
      (s.clav 31).st = x.1 ∧ decide ((s.clav 31).since + 2 ^ 24 ≤ s.cycle) = (x.2 == 0)) ∧
    (4096 ≤ ((cla .up 8 4095 0).clav 31).recent + 1 ∧ ((cla .up 8 4094 0).clav 31).recent + 1 < 4096) ∧
    (∀ c ∈ [2 ^ 20 - 1, 2 ^ 20], (disc c).writes[0]? = some away ∧ homeOf (disc c) away.pa = .host ∧ fabricUp (disc c) away.pa = false ∧
      waitsSince (disc c) (true, 0, 0) = some 0) ∧
    waitsSince { (disc 0) with unreach := [] } (true, 0, 0) = none ∧ homeOf s0 wr0.pa ≠ .host ∧
    (let s := { s0 with config := List.replicate (0x5C0 + 24) 0 ++ leBytes 8 0x1C0000 ++ leBytes 8 0x1D0000, cycle := 2 ^ 20 }
     cfgLE s (0x5C0 + 32) 8 = 0x1D0000 ∧ cfgLE s (0x5C0 + 24) 8 = 0x1C0000 ∧ s.phase = 5 ∧ (s.meshDump + 1) * 2 ^ 20 ≤ s.cycle ∧
       0x1C0000 + 512 ≤ 0x1D0000 ∧ ({ s with cycle := 2 ^ 20 - 1 } : State).cycle < (s.meshDump + 1) * 2 ^ 20) ∧
    cfgLE s0 (0x5C0 + 32) 8 = 0 ∧
    (∀ c ∈ [1024, 1040], let s := ({ s0 with cycle := c, trcSel := 3 } : State).modCtx 1 fun x => { x with samp := 1024 }
     let p := s.part 0 1
     (s.strands.find? fun x => inSlot x.2 p.core (s.cycle % 16)) = some (0, t0) ∧ t0.ctx = p.ctx ∧ (∀ y w e, t0.st ≠ .saved y w e) ∧ p.st = .placed ∧
       (s.ctx p.ctx).samp ≠ 0 ∧ decide ((s.cycle - p.since) % 1024 = 0) = (c == 1024) ∧ s.cycle ≠ p.since ∧ p.sampled ≠ s.cycle ∧
       s.trcSel.testBit 0 = true ∧ s.trcSel.testBit 1 = true ∧ cfgBit s p.core = false ∧ tget 0 s.traceDrop (coreDie p.core) = 0 ∧
       (tget [] s.traces (coreDie p.core)).length < 4096) := by
  have h : ∀ y w e, t0.st ≠ .saved y w e := fun _ _ _ => StrandSt.noConfusion
  simp only [show (∀ y w e, t0.st ≠ .saved y w e) = True from eq_true h]
  decide +kernel

theorem wit_LinksAndTrace_nodes : homeOf s0 (2 ^ 51) = .host ∧ 2 ^ 51 % 64 + 8 ≤ 64 ∧ homeOf s0 0x20000 = .first ∧
    homeOf { s0 with populated := [(0, 2 ^ 30)] } 0x200000000000 = .port 0 0 := by decide +kernel

/-- A chunk of 64 tokens of one literal byte, 128 input bytes, in GUARDED mode and in SERVICE mode; a malformed chunk (22 R463, R465). -/
def litChunk : Fabric := ⟨0x300000, (List.range 64).flatMap fun i => [0#8, BitVec.ofNat 8 i], false, 7, false, false, 1, 0⟩
theorem test_watchdog : (match (unpack { cla .up 8 0 0 with guardSel := true } litChunk).2 with | .error c => c == 1 | .ok _ => false) = true ∧
    (match (unpack { cla .up 8 0 0 with phase := 5 } litChunk).2 with | .ok b => b == (List.range 64).map (BitVec.ofNat 8) | .error _ => false) = true ∧
    (match (unpack { cla .up 8 0 0 with phase := 5 } { litChunk with bytes := [0xC0] }).2 with | .error c => c == 3 | .ok _ => false) = true := by
  decide +kernel
theorem wit_LinksAndTrace_streams : litChunk.bytes ≠ [] ∧ fabricIn (cla .up 8 0 0) litChunk.pa = true ∧
    4 * litChunk.src + litChunk.vc % 4 ∉ (cla .up 8 0 0).cutOff ∧ litChunk.drst = false ∧
    4 * litChunk.src + litChunk.vc % 4 ∈ { cla .up 8 0 0 with cutOff := [28] }.cutOff ∧
    (match (unpack { cla .up 8 0 0 with guardSel := true } litChunk).2 with | .error c => c == 1 | .ok _ => false) = true := by decide +kernel

/-- A host's release of a queue's WIDX (21 R449): the word, and its order tag, SYSTEM by a fabric node (08 R185). -/
theorem test_node_release : (match execStoreAtHome 0 ⟨0x300008, leBytes 8 5, true, 7, true, false, 1, 0⟩ (cla .up 8 0 0) with
    | .next t => readLE t 0x300008 8 == 5 && tagOf t 0x300000 == 5 * 2 ^ 13 + 1023 * 8 | _ => false) = true ∧
    (match execStoreAtHome 0 ⟨0x300008, leBytes 8 5, true, 7, true, false, 1, 0⟩ (cla .down 8 0 0) with
    | .next t => readLE t 0x300008 8 == 0 | _ => false) = true := by decide +kernel

/-- A strand whose turn is next, at an address, and the state after the time to its slot (00 R5); a NOP stands at 0x10004. -/
noncomputable def turnOf (pc : Nat) (f : Strand → Strand) : State :=
  { (sw [] fun t => f { t with pc := pc }) with agenda := [.issue 0], mem := memPut s0.mem 0x10000 (leBytes 4 0x00000000 ++ leBytes 4 0x00660000) }
noncomputable def ripe (pc : Nat) (f : Strand → Strand) : State :=
  let q := takeMove (turnOf pc f)
  elapse q.2.2 q.2.1

theorem wit_StepRunsDecoded : (takeMove (turnOf 0x10000 id)).1 = .issue 0 ∧ s0.agenda = [] ∧ detOwner (ripe 0x10004 id) (.issue 0) = none ∧
    (∀ m ∈ [Move.event .meshCountDump, .node 0 [], .upset 0 true, .guard true, .lineError 0 1 0x100000, .residue 0 3 0, .peer 1 (.leave 3 0), .idle],
      (takeMove { s0 with agenda := [m] }).1 = m) ∧
    encode .meshCountDump = [] ∧ encode (.nop hd) ≠ [] ∧ decode [0x00660000] = .ok (.nop hd) ∧ decode [0] = .error .unallocated ∧
    (∃ r x, xlate s0 0 1 0x10004 .fetch false = (r, .ok x) ∧
      (match homeRead r 1 x.pa 4 with | .ok b => numWords (leNat b) == 1 | .error _ => false) = true) := by
  refine ⟨?_, ?_, ?_, ?_, ?_, ?_, ?_, ?_, pair_ok ?_⟩ <;> decide +kernel

theorem wit_StepRunsDecoded_turns : (∀ x ∈ [(false, false), (true, false), (false, true)],
      let s := ripe 0x10004 fun t => { t with yielded := x.1, ending := x.2 }
      canIssue s (s.strand 0) = true ∧ stopDue s (s.strand 0) = false ∧ (s.strand 0).st = .ready ∧ (s.strand 0).yielded = x.1 ∧ (s.strand 0).ending = x.2) ∧
    (let s := ripe 0x10004 fun t => { t with stopWaits := true }
     stopDue s (s.strand 0) = true) ∧ (ripe 0x10004 id).cycle % 16 = t0.pslot ∧
    (let s := ripe 0x10004 fun t => { t with st := .ended }
     canIssue s (s.strand 0) = false ∧ stopDue s (s.strand 0) = false) ∧
    (let s := cpe (cp0 (rq 0 0 1 0) none 0 none)
     s.agenda = [] ∧ (∀ k ∈ s.kernels, k.2.lockstep = false) ∧ firstDue s = some (0, 0) ∧ wantsTurn t0 = true ∧ offered s t0 = true ∧ t0.pslot < 16 ∧
       (s.core t0.pcore).frozen ≤ 7 ∧ s.cycle < 2 ^ 64) ∧
    (let s : State := { s0 with cycle := 2 ^ 14 }
     s.cycle ≠ 0 ∧ s.cycle % 2 ^ 14 = 0) := by decide +kernel

theorem wit_StepRunsDecoded_fetches : (let s := beginTurn (ripe 0x10004 id) 0
      (fetchInstr s 0 1 0x10004).2 = .ok [0x00660000] ∧ breakHit (fetchInstr s 0 1 0x10004).1 (s.strand 0) = none) ∧
    (fetchInstr (beginTurn (ripe 0x10000 id) 0) 0 1 0x10000).2 = .ok [0] ∧ (fetchInstr (beginTurn (ripe 0x200000 id) 0) 0 1 0x200000).2.isOk = false := by
  decide +kernel

/-- A machine whose kernel is deterministic (19 R410), with two strands, its count of cycles and what it has still to do. -/
def detS (f : Strand → Strand) (g : Kernel → Kernel) : State := { (two [] f) with kernels := [(0, g { k0 with cost := List.replicate 24 0 ++ [2] })] }

/-- A sweep is due at cycle 0 of no kernel that has swept; an event of a begun sweep comes; a stop and a late reply hold it. -/
theorem wit_StepRunsDecoded_det : detOwner (detS id id) (.issue 0) = some 0 ∧ detOwner (detS id id) (.issue 1) = some 0 ∧ detOwner (detS id id) (.guard true) = none ∧
    rising (detS id id).kernels ∧ ((detS id id).kern 0).lockstep = true ∧ detOff (detS id id) 0 = false ∧ freeMove (detS id id) (.issue 0) = false ∧
    (let s := detS id fun k => { k with todo := [.kernelCompletion 0] }
     (s.kernels.find? fun k => k.2.lockstep && !k.2.todo.isEmpty && !detStill s k.1).map (·.1) = some 0 ∧ detStill s 0 = false) ∧
    detStill (detS id fun k => { k with hold := 16 }) 0 = true ∧
    ((detS id fun k => { k with detCyc := 32 }).kern 0).detCyc % 16 = t0.pslot ∧
    turnIn (detS id fun k => { k with detCyc := 32 }) ((detS id id).strand 0) = some 0 := by decide +kernel
/-- Whatever its fixed latency, a sweep is due when the count reaches the next multiple. -/
theorem wit_StepRunsDecoded_due : let n := Config.detLatency k0.kaddr + 1
    let s := detS id fun k => { k with detCyc := n, swept := 0 }
    (s.kern 0).todo = [] ∧ (s.kern 0).swept < (s.kern 0).detCyc ∧ (s.kern 0).detCyc % (Config.detLatency (s.kern 0).kaddr + 1) = 0 :=
  ⟨rfl, Nat.succ_pos _, Nat.mod_self _⟩
theorem wit_StepRunsDecoded_frozen : let s := (detS id id).setStrand 1 { t0 with lslot := 1, pslot := 1, index := 1, st := .stopped none }
    rising s.strands ∧ (s.kern (s.strand 0).kern).lockstep = true ∧ (s.strand 1).kern = (s.strand 0).kern ∧ (s.strand 1).st = .stopped none ∧
      (∃ x ∈ s.strands, x.1 = 1) ∧ canIssue s (s.strand 0) = false := by decide +kernel
theorem wit_StepRunsDecoded_place : inDet (detS id id) 0 (fun s => .next s) = .next (detS id id) := rfl

/-- A property of the default and of every entry holds of every reading of a table. -/
theorem tget_all {α : Type} {P : α → Prop} (d : α) (m : Table α) (hd : P d) (hm : ∀ p ∈ m, P p.2) (i : Nat) : P (tget d m i) := by
  induction m with
  | nil => exact hd
  | cons p m ih =>
    simp only [tget]
    split
    · exact hm p (by simp)
    · exact ih fun q hq => hm q (by simp [hq])

theorem wit_StepKeepsMemory : Memory.wf s0.mem ∧ ∃ t, step { s0 with agenda := [.event .tracePushback] } = .next t := ⟨by decide +kernel, _, rfl⟩

theorem wit_StepKeepsTables : s0.tidy := by
  refine ⟨by decide +kernel, by decide +kernel, fun u => ?_, fun c => ?_, fun core ctx k => ?_⟩
  · exact tget_all (P := fun t : Strand => rising t.glines) Strand.init s0.strands (by decide +kernel) (by decide +kernel) u
  · exact tget_all (P := fun t : CoreSt => rising t.stabNew) CoreSt.init s0.cores (by decide +kernel) (by decide +kernel) c
  · have h : (s0.part core ctx).trees = [] ∧ (s0.part core ctx).barriers = [] ∧ (s0.part core ctx).rings = [] :=
      tget_all (P := fun p : Part => p.trees = [] ∧ p.barriers = [] ∧ p.rings = []) (Part.init ctx core) s0.parts ⟨rfl, rfl, rfl⟩ (by decide +kernel) _
    simp only [barrierOf, h.1, h.2.1, h.2.2, tget]
    decide +kernel

theorem wit_StepKeepsNumbers : s0.numbered ∧ (sw [] fun t => { t with ops := [{ id := 6, kind := .rep, path := .w, tpc := 0, len := 4, dests := [] }], nextOp := 7 }).numbered := by
  refine ⟨⟨fun u => ?_, by decide +kernel⟩, ⟨fun u => ?_, by decide +kernel⟩⟩
  · exact tget_all (P := fun t : Strand => (∀ o ∈ t.ops, o.id < t.nextOp) ∧ ∀ v ∈ t.vq, v.opId < t.nextOp) Strand.init s0.strands (by decide +kernel) (by decide +kernel) u
  · exact tget_all (P := fun t : Strand => (∀ o ∈ t.ops, o.id < t.nextOp) ∧ ∀ v ∈ t.vq, v.opId < t.nextOp) Strand.init (sw [] _).strands (by decide +kernel) (by decide +kernel) u

/-- The signature of RFC 6979 A.2.5 (P-256, SHA-256, "sample"), and one that differs in a digit. -/
def rfcKey : List Byte := beBytes 32 0x60FED4BA255A9D31C961EB74C6356D68C049B8923B61FA6CE669622E60F29FB6 ++
  beBytes 32 0x7903FE1008B8BC99A41AE9E95628BC64F2F1B20C2D7E9F5177A3C294D4462299
def rfcSig (s : Nat) : List Byte := beBytes 32 0xEFD48B2AACB6A8FD1140DD9CD45E81D69D2C877B56AAF991C34D0EA84EAF3716 ++ beBytes 32 s
theorem test_ecdsa : ecdsaOk (sha256 [0x73, 0x61, 0x6D, 0x70, 0x6C, 0x65]) rfcKey (rfcSig 0xF7CB1C942D657C41D436C7A1B6E29F65F3E900DBB9AFF4064DC4AB2F843ACDA8) = true ∧
    ecdsaOk (sha256 [0x73, 0x61, 0x6D, 0x70, 0x6C, 0x65]) rfcKey (rfcSig 0xF7CB1C942D657C41D436C7A1B6E29F65F3E900DBB9AFF4064DC4AB2F843ACDA9) = false := by
  decide +kernel

/-- A configuration record of no ranges and keys (24 R492), signed for Decgor by the key 3 times the base point, for the operator by 5 times it. -/
def flash (nr : Nat) (opSig : Nat) : List Byte := leBytes 4 0x31474643 ++ leBytes 6 0 ++ leBytes 2 nr ++ leBytes 116 0 ++
  beBytes 32 0x51590b7a515140d2d784c85608668fdfef8c82fd1f5be52421554a0dc3d033ed ++ beBytes 32 0xe0c17da8904a727d8ae1bf36bf8a79260d012f00d4d80888d1d0bb44fda16da4 ++
  List.replicate 0x700 0 ++
  beBytes 32 0x8e533b6fa0bf7b4625bb30667c01fb607ef9f8b8a80fef5b300628703187b2a3 ++ beBytes 32 0x1280f5b46e604cf6cae204196dca6b5cd6813880524c7bab59290cc0116e7b75 ++
  beBytes 32 0x3ed113b7883b4c590638379db0c21cda16742ed0255048bf433391d374bc21d1 ++ beBytes 32 opSig
def goodSig : Nat := 0x44d2f292fa9f780ae32a232d83f3c7364a1d808e7ba6055c79a85556e663c2a8

theorem wit_ResetAndPower : State.reset.phase = 0 ∧ s0.phase ≠ 0 ∧ configOk (flash 0 goodSig) = true ∧ configOk (flash 257 goodSig) = false ∧
    (∀ p < 32, (tget Clavos.init State.reset.clavos p).st = .down) := by
  refine ⟨?_, ?_, ?_, ?_, ?_⟩ <;> decide +kernel

theorem wit_ResetAndPower_unsigned : signaturesOk [] = false := by
  have h : ecdsaOk (sha256 (([] : List Byte).take (recordLen [] - 64))) ((([] : List Byte).drop 0x80).take 64) ((([] : List Byte).drop (recordLen [] - 64)).take 64) = false := by
    decide +kernel
  simp only [signaturesOk, signedUnder, h, Bool.and_false]

theorem wit_ResetAndPower_signed : signedUnder (beBytes 32 0x5ecbe4d1a6330a44c8f7ef951d4bf165e6c6b721efada985fb41661bc6e7fd6c ++
      beBytes 32 0x8734640c4998ff7e374b06ce1a64a2ecd82ab036384fb83d9a79b127a27d5032) (flash 0 goodSig) = true := by
  decide +kernel

theorem wit_EncodeDecode : (Instr.cldLit hc { x0 with f0 := 31, obj1 := 1 } 511).wf = true ∧ encode (.cldLit hc { x0 with f0 := 31, obj1 := 1 } 511) ≠ [] ∧
    (Instr.trap ⟨true, 15, true⟩ 255).wf = true ∧ encode (.trap ⟨true, 15, true⟩ 255) ≠ [] := by decide +kernel

theorem wit_DecodesTheSpecsWords : decode [0x0002B4A8] = .ok (.add hd 11 9 10) ∧ decode [0x0002B4A8, 0xFFFFFFFF] = .ok (.add hd 11 9 10) := by decide +kernel


-- One step of each of these families, with the results that the spec gives.

/-- PPUSH spends a credit (15 R336); PPOP of a token gives 0 and the flag (15 R333). -/
theorem test_ports : let s := nextOf (exec (.ppush hd .pf 8) (two [9] (port4 [] 8 false false)))
    s.pushes = [⟨0, 4, 1, 5, false, 9⟩] ∧ ((s.strand 0).port 4).credit = 7 := by decide +kernel
/-- A sync word of target 64 that counts a copy of 64 bytes steps its generation (16 R358, R359); RREL of slot 0 moves the read position (16 R364). -/
theorem test_copy_counts :
    let c := cp0 (rq 0x140000 0x150000 64 (0x5FFF0 + 2 ^ 28)) (some 0) 64 none
    let s := nextOf (exec (.swinit hd 8 9) (st [0x5FFF0, 64]))
    let t := nextOf (exec (.copyComplete 0) { s with copies := [c] })
    (syncAt t 0 1 0x5FFF0).gen = 1 ∧ (syncAt t 0 1 0x5FFF0).count = 0 ∧ t.copies = [] := by decide +kernel
/-- A position whose index is all ones gives zeros; one past the table the fill, and the count rises (16 R369). -/
theorem test_gather : let s := nextOf (exec (.gatherPerform 0) (nextOf (exec (.gatherPerform 0) (gts 0x150000 2 []))))
    readLE s (winBase + 144) 8 = 0xAA ∧ (s.gathers.map fun g => (g.pos, g.noor)) = [(3, 1)] := by decide +kernel
/-- DQSTEAL takes the upper half, rounded up (17 R384); DQSPLIT the first a values of the newest range (17 R383). -/
theorem test_deques : let s := nextOf (exec (.dequeUnitPerform 0 0) (dqo .steal 0 [rg 0 5, rg 8 9])); let t := nextOf (exec (.dequeUnitPerform 0 0) (dqo .split 2 [rg 0 5, rg 8 12]))
    ((s.part 0 1).deque = [rg 0 2, rg 8 9] ∧ (s.op 0 0).map (·.res) = some [w64 (rg 2 5)]) ∧
    (t.part 0 1).deque = [rg 0 5, rg 10 12] ∧ (t.op 0 0).map (·.res) = some [w64 (rg 8 10)] := by decide +kernel
/-- The arrival that completes a phase returns the phase it arrived in, and the phase wraps at 16 bits (18 R393, R396). -/
theorem test_arrival : let s := nextOf (exec (.barv hd 10 8 9) ((st [0, 1]).modPart 0 1 fun p => { p with barriers := [(0, ⟨65535, 2, 1, false, 0⟩)] }))
    barrierOf s 0 1 0 = ⟨0, 2, 0, false, 0⟩ ∧ (s.op 0 0).map (·.res) = some [65535] := by decide +kernel
/-- A group of two that both have joined is ACTIVE, and the second's CGRP returns its rank (22 R466). -/
theorem test_cgrp : let s := cop (.cgrp 3 0x150000 2) (grp 1 [1]) []
    let t := nextOf (exec (.pendingReturn 0 0) { s with mem := memPut s.mem 0x150000 (ents.flatMap (leBytes 8)) })
    (t.coll 1 3).st = 2 ∧ (t.strand 0).getLoc (.phys 2) = 0 := by decide +kernel
/-- LINKUP of a port that is DOWN trains it (22 R458); DSTOP has a READY strand stop at its turn (25 R503). -/
theorem test_commands : let s := nextOf (exec .linkup (sys 5 31 0 [] s0)); let t := nextOf (exec .dstop (sys 10 0 0 [] s0))
    ((s.clav 31).st = .training ∧ readLE s (0x1C0000 + 16) 8 = 0 ∧ readLE s 24 8 = 5) ∧ (t.strand 0).stopWaits = true := by decide +kernel
/-- A group at its start is placed: its strand is READY at the kernel's entry, with its launch values (19 R417, R405). -/
theorem test_placement : let s := nextOf (exec (.groupPlacement 0 0) (pla 2 [] [(0, kp .admitted)]))
    (s.kern 0).st = .running ∧ (s.strand 1).st = .ready ∧ (s.strand 1).pc = 0x10000 ∧ (s.strand 1).pslot = 1 := by decide +kernel
/-- A group over its budget ends its kernel (19 R412). -/
theorem test_overrun : let s := nextOf (exec (.overrun 0 0) (pla 2 [] [(0, { kp .running with groups := [{ gp with st := .resident, cyc := 1001 }] })]))
    (s.kern 0).st = .aborted ∧ (s.kern 0).cause = 31 ∧ (s.strand 0).st = .ended := by decide +kernel
/-- Two sums of a reduction of 64-bit integers wrap (22 R472). -/
theorem test_reduction : rsBytes 4 0 (leBytes 64 (2 ^ 64 - 1)) (leBytes 64 2) = leBytes 64 1 := by decide +kernel

end Sys2Proof.Tests
end

/-! PROOFS. The turn that a step takes where two entries of the strand table bear one number (00 R5): `firstDue` times
the turn by the entry that it meets, `State.strand` answers the first entry of the number. -/

namespace Sys2Proof.Machine
open Sys2Proof

/-- A strand that is READY in slot k of core 0. -/
def readyIn (k : Nat) : Strand := { Strand.init with pslot := k, st := .ready }

/-- The machine at cycle 0 with a strand in slot 1 and a strand in slot 0, both under the number 0, and a turn of
number 0 next on its agenda. Its strand table is not `rising`. -/
def sharedNumber : State :=
  { State.reset with strands := [(0, readyIn 1), (0, readyIn 0)], agenda := [.issue 0] }

/-- Strand 0 is the first of the two, in slot 1. -/
theorem strand_sharedNumber : sharedNumber.strand 0 = readyIn 1 := rfl

/-- The planned turn waits a cycle, for the slot of the first entry. -/
theorem moveIn_plan_sharedNumber :
    moveIn sharedNumber (plan sharedNumber).1 (plan sharedNumber).2.1 = 1 := by decide +kernel

/-- The slot of the second entry has its turn at once, under the same number. -/
theorem firstDue_sharedNumber : firstDue sharedNumber = some (0, 0) := by decide +kernel

/-- The turn that is due comes first, so number 0 has a turn at cycle 0. -/
theorem takeMove_sharedNumber :
    takeMove sharedNumber = (.issue 0, 0, { sharedNumber with tick := sharedNumber.tick + 1 }) := by
  have before : beforeTurn sharedNumber (plan sharedNumber) =
      (.issue 0, 0, { sharedNumber with tick := sharedNumber.tick + 1 }) := by
    simp [beforeTurn, moveIn_plan_sharedNumber, firstDue_sharedNumber]
  exact before

/-- Refutes O54: its clause that a turn comes in a cycle of its strand's slot lacks the hypothesis `rising s.strands`.
In `sharedNumber`, two of whose strands bear one number, the turn of strand 0 comes at cycle 0, in the slot of the
second entry, while strand 0 is the first entry and its slot is 1. -/
theorem not_stepRunsDecoded : ¬ Obligations.StepRunsDecoded := by
  unfold Obligations.StepRunsDecoded
  rintro ⟨⟨-, -, -, -, -, -, -, -, -, hstep, -⟩, -⟩
  obtain ⟨hturn, -⟩ := hstep sharedNumber
  rw [takeMove_sharedNumber] at hturn
  obtain ⟨hslot, -⟩ := hturn 0 rfl
  have inSlotOne : 0 % 16 = (sharedNumber.strand 0).pslot := hslot (by decide) rfl (by decide) (by decide)
  rw [strand_sharedNumber] at inSlotOne
  exact absurd inSlotOne (by decide)

end Sys2Proof.Machine

/-! PROOFS. Memory stays in its canonical form: one lemma per function of the model, in the order of its files. A function that
writes no memory leaves it as it was (`_mem`); one that writes keeps it canonical (`_canon`). -/

namespace Sys2Proof.Machine
open Sys2Proof

/-! Canonical memory, as a name of its own, and what keeps it in a loop, an effect and an outcome. -/

/-- Memory in its canonical form (SPEC log entry 6), as a name of its own: the lemmas below move it from state to state
and never look inside. -/
def Canon (m : List Host.Cell) : Prop := Memory.wf m

/-- Every state that an effect answers has canonical memory. -/
def Eff.Canon : Eff → Prop
  | .ok s | .trapIn s _ | .wait s => Machine.Canon s.mem
  | .trap _ => True

/-- The state that an outcome answers, if it answers one, has canonical memory. -/
def CanonAfter : Outcome → Prop
  | .next s => Canon s.mem
  | .fault _ | .refused _ => True

/-- A write that has landed at a window leaves canonical memory. -/
def Landed.Canon : Landed → Prop
  | .done s => Machine.Canon s.mem
  | .outside | .engaged => True

/-- Whatever an engine's access comes to, its state has canonical memory. -/
def Touch.Canon {α : Type} : Touch α → Prop
  | .done s _ | .fault s _ | .lost s _ | .wait s => Machine.Canon s.mem

/-- Whatever a step of a fold job comes to, its state has canonical memory. -/
def FoldStep.Canon : FoldStep → Prop
  | .wait s | .fail s _ | .go s _ => Machine.Canon s.mem

theorem canon_memPut {m : List Host.Cell} (hm : Canon m) (a : Nat) (bs : List Byte) : Canon (memPut m a bs) :=
  memPut_wf m a bs hm

/-- What stays of canonical memory when addresses are cleared is canonical. -/
theorem canon_filter {m : List Host.Cell} (hm : Canon m) (p : Host.Cell → Bool) : Canon (m.filter p) :=
  ⟨hm.1.filter p, fun c hc => hm.2 c (List.mem_of_mem_filter hc)⟩

theorem canon_nil : Canon [] := ⟨.nil, nofun⟩

/-- A loop whose every turn leaves memory alone leaves it alone. -/
theorem foldl_mem {α : Type} {f : State → α → State} (hf : ∀ s x, (f s x).mem = s.mem) (xs : List α) (s : State) :
    (xs.foldl f s).mem = s.mem :=
  List.foldlRecOn xs f (motive := fun t => t.mem = s.mem) rfl fun t ht x _ => (hf t x).trans ht

/-- A loop whose every turn keeps memory canonical keeps it canonical. -/
theorem foldl_canon {α : Type} {f : State → α → State} (hf : ∀ s x, Canon s.mem → Canon (f s x).mem) (xs : List α)
    {s : State} (hm : Canon s.mem) : Canon (xs.foldl f s).mem :=
  List.foldlRecOn xs f (motive := fun t => Canon t.mem) hm fun t ht x _ => hf t x ht

/-- The same of a loop that carries a second value. -/
theorem foldl_fst_canon {α β : Type} {f : State × β → α → State × β}
    (hf : ∀ a x, Canon a.1.mem → Canon (f a x).1.mem) (xs : List α) {a : State × β} (hm : Canon a.1.mem) :
    Canon (xs.foldl f a).1.mem :=
  List.foldlRecOn xs f (motive := fun b => Canon b.1.mem) hm fun b hb x _ => hf b x hb

theorem canonAfter_next {s : State} : CanonAfter (.next s) ↔ Canon s.mem := .rfl

theorem getD_canon {o : Option State} {s : State} (ho : ∀ t, o = some t → Canon t.mem) (hs : Canon s.mem) :
    Canon (o.getD s).mem := by
  cases o with
  | none => exact hs
  | some t => exact ho t rfl

/-! Memory, its translation and its logs: only a raw write changes memory. -/

theorem rawWrite_canon {s : State} (hm : Canon s.mem) (pa : Nat) (bs : List Byte) : Canon (rawWrite s pa bs).mem :=
  canon_memPut hm pa bs

@[simp] theorem cleanWord_mem (s : State) (pa : Nat) : (cleanWord s pa).mem = s.mem := rfl

@[simp] theorem tlbDrop_mem (s : State) (p : TlbEntry → Bool) : (tlbDrop s p).mem = s.mem := rfl

@[simp] theorem tlbFill_mem (s : State) (who ctx : Nat) (l : Leaf) : (tlbFill s who ctx l).mem = s.mem := by
  unfold tlbFill
  grind [tlbDrop_mem]

@[simp] theorem gatherCount_mem (s : State) (who ctx va n : Nat) : (gatherCount s who ctx va n).mem = s.mem := rfl

@[simp] theorem logBad_mem (s : State) (pa : Nat) : (logBad s pa).mem = s.mem := rfl

@[simp] theorem logWalk_mem (s : State) (ctx va : Nat) (r : Except Nat Leaf) : (logWalk s ctx va r).mem = s.mem := by
  unfold logWalk
  split
  · split
    · cases (walkPath s va 4 0 (s.ctx ctx).ptroot).getLast? <;> rfl
    · rfl
  · rfl

@[simp] theorem findLeaf_mem (s : State) (who : Nat) (lvl2 : Option Nat) (ctx va : Nat) :
    (findLeaf s who lvl2 ctx va).1.mem = s.mem := by
  unfold findLeaf
  grind [tlbFill_mem, logWalk_mem]

@[simp] theorem xlate_mem (s : State) (core ctx va : Nat) (acc : Acc) (sup : Bool) :
    (xlate s core ctx va acc sup).1.mem = s.mem :=
  findLeaf_mem ..

@[simp] theorem xlateBy_mem (s : State) (who : Option Nat) (ctx va : Nat) (acc : Acc) (sup : Bool) :
    (xlateBy s who ctx va acc sup).1.mem = s.mem := by
  unfold xlateBy
  grind [findLeaf_mem, logWalk_mem]

/-! Shared operations: writes at homes, reports, traps, closes, and the issue of an instruction. -/

@[simp] theorem modStrand_mem (s : State) (u : Nat) (f : Strand → Strand) : (s.modStrand u f).mem = s.mem := rfl

@[simp] theorem modCore_mem (s : State) (c : Nat) (f : CoreSt → CoreSt) : (s.modCore c f).mem = s.mem := rfl

@[simp] theorem modPart_mem (s : State) (core ctx : Nat) (f : Part → Part) : (s.modPart core ctx f).mem = s.mem := rfl

@[simp] theorem mapParts_mem (s : State) (f : Part → Part) : (s.mapParts f).mem = s.mem := rfl

@[simp] theorem modCtx_mem (s : State) (c : Nat) (f : Ctx → Ctx) : (s.modCtx c f).mem = s.mem := rfl

@[simp] theorem modKern_mem (s : State) (k : Nat) (f : Kernel → Kernel) : (s.modKern k f).mem = s.mem := rfl

@[simp] theorem setTag_mem (s : State) (pa tag : Nat) : (setTag s pa tag).mem = s.mem := rfl

@[simp] theorem openWord_mem (s : State) : (s.openWord).1.mem = s.mem := rfl

@[simp] theorem setOp_mem (s : State) (u : Nat) (o : Op) : (s.setOp u o).mem = s.mem := rfl

@[simp] theorem acqDone_mem (s : State) (u : Nat) (o : Op) (pa v tag : Nat) (sc : Scope) :
    (acqDone s u o pa v tag sc).mem = s.mem := by
  unfold acqDone
  grind [modCore_mem, setOp_mem]

@[simp] theorem fireWatches_mem (s : State) (pa n : Nat) : (fireWatches s pa n).mem = s.mem := by
  unfold fireWatches
  grind [acqDone_mem, foldl_mem]

/-- A write at a home is a write of its bytes to memory, whatever watches it fires. -/
theorem homeWrite_mem (s : State) (pa : Nat) (bs : List Byte) : (homeWrite s pa bs).mem = memPut s.mem pa bs :=
  fireWatches_mem (rawWrite s pa bs) pa bs.length

theorem homeWrite_canon {s : State} (hm : Canon s.mem) (pa : Nat) (bs : List Byte) : Canon (homeWrite s pa bs).mem := by
  rw [homeWrite_mem]
  exact canon_memPut hm pa bs

theorem releaseWrite_canon {s : State} (hm : Canon s.mem) (pa v tag : Nat) : Canon (releaseWrite s pa v tag).mem := by
  unfold releaseWrite
  rw [fireWatches_mem, setTag_mem]
  exact rawWrite_canon hm ..

theorem ringPost_canon {s : State} (hm : Canon s.mem) (base n m : Nat) (bs : List Byte) :
    Canon (ringPost s base n m bs).mem := by
  unfold ringPost
  grind [homeWrite_canon, releaseWrite_canon]

theorem report_canon {s : State} (hm : Canon s.mem) (kind ctx code slot core addr : Nat) :
    Canon (report s kind ctx code slot core addr).mem :=
  ringPost_canon hm ..

theorem cpWrite_canon {s : State} {ctx va : Nat} {ws : List (List Byte)} {s' : State}
    (he : cpWrite s ctx va ws = some s') (hm : Canon s.mem) : Canon s'.mem := by
  fun_induction cpWrite s ctx va ws <;> grind [homeWrite_canon]

theorem cpRelease_canon {s : State} {ctx va v : Nat} {s' : State}
    (he : cpRelease s ctx va v = some s') (hm : Canon s.mem) : Canon s'.mem := by
  unfold cpRelease at he
  grind [releaseWrite_canon]

theorem writeCompletion_canon {s : State} (hm : Canon s.mem) (kid status : Nat) :
    Canon (writeCompletion s kid status).mem := by
  unfold writeCompletion
  grind [modKern_mem, cpWrite_canon, report_canon, cpRelease_canon]

@[simp] theorem releaseParts_mem (s : State) (ctx : Nat) (cores : List Nat) :
    (releaseParts s ctx cores).mem = s.mem := by
  unfold releaseParts
  grind [foldl_mem]

@[simp] theorem settleCtx_mem (s : State) (c : Nat) : (settleCtx s c).mem = s.mem := by
  unfold settleCtx
  split <;> rfl

@[simp] theorem evict_mem (s : State) (u : Nat) : (evict s u).mem = s.mem := rfl

@[simp] theorem endGroup_mem (s : State) (kid gnum : Nat) : (endGroup s kid gnum).mem = s.mem := by
  unfold endGroup
  grind [modPart_mem, modKern_mem, releaseParts_mem, foldl_mem]

@[simp] theorem clearEnts_mem (s : State) (kid gnum : Nat) : (clearEnts s kid gnum).mem = s.mem := by
  unfold clearEnts
  grind [modCore_mem, modKern_mem, foldl_mem]

theorem abortKernel_canon {s : State} (hm : Canon s.mem) (kid cause gnum : Nat) :
    Canon (abortKernel s kid cause gnum).mem := by
  unfold abortKernel
  grind [evict_mem, clearEnts_mem, endGroup_mem, modKern_mem, modCtx_mem, settleCtx_mem, writeCompletion_canon,
    foldl_canon]

@[simp] theorem traceRec_mem (s : State) (core slot typ sel data : Nat) :
    (traceRec s core slot typ sel data).mem = s.mem := by
  unfold traceRec
  grind

theorem takeTrap_canon {s : State} (hm : Canon s.mem) (u : Nat) (d : Delivery) : Canon (takeTrap s u d).mem := by
  unfold takeTrap
  grind [abortKernel_canon, setStrand_mem, traceRec_mem]

theorem trapAt_canon {s : State} (hm : Canon s.mem) (u pc len : Nat) (c : Cause) : Canon (trapAt s u pc len c).mem :=
  takeTrap_canon hm ..

theorem deliver_canon {s : State} (hm : Canon s.mem) (u : Nat) (o : Op) (resume : Nat) :
    Canon (deliver s u o resume).mem := by
  unfold deliver
  grind [takeTrap_canon, setStrand_mem]

@[simp] theorem wakeRun_mem (s : State) (t : Strand) : (wakeRun s t).mem = s.mem := by
  unfold wakeRun
  split <;> rfl

theorem closeCheck_canon {s : State} (hm : Canon s.mem) (u : Nat) : Canon (closeCheck s u).mem := by
  unfold closeCheck
  grind [setStrand_mem, deliver_canon, wakeRun_mem]

theorem closeAt_canon {s : State} (hm : Canon s.mem) (u resume : Nat) (isEnd : Bool) :
    Canon (closeAt s u resume isEnd).mem := by
  unfold closeAt
  grind [closeCheck_canon, modStrand_mem]

theorem closing_canon {s : State} (hm : Canon s.mem) (h : Hdr) (f : Form) (u : Nat) : Canon (closing h f u s).mem := by
  unfold closing
  grind [closeAt_canon]

@[simp] theorem waitAt_mem (s : State) (u pc : Nat) (skip : Option Nat) (brk : Bool) :
    (waitAt s u pc skip brk).mem = s.mem := rfl

/-- An instruction keeps memory canonical if its effect does: what the issue itself adds is a trap, a wait or a
close. -/
theorem issue_canon {s : State} (hm : Canon s.mem) {h : Hdr} {f : Form} {eff : Exe → Eff}
    (heff : ∀ x, Canon x.s.mem → (eff x).Canon) : CanonAfter (issue h f eff s) := by
  unfold issue
  have hx := heff ⟨s.setStrand s.cur ((s.strand s.cur).past f.len), s.cur, (s.strand s.cur).past f.len,
    (s.strand s.cur).pc, f.len, (s.strand s.cur).noWatch⟩ hm
  grind [trapAt_canon, closeAt_canon, setStrand_mem, waitAt_mem, closing_canon, CanonAfter, Eff.Canon]

theorem exe_upd_canon {x : Exe} (hm : Canon x.s.mem) (t : Strand) : (x.upd t).Canon := by
  unfold Exe.upd
  grind [setStrand_mem, Eff.Canon]

theorem exe_send_canon {x : Exe} (hm : Canon x.s.mem) (kind : OpKind) (path : Path) (dests : List Loc) :
    (x.send kind path dests).Canon := by
  unfold Exe.send
  grind [exe_upd_canon]

theorem opReturn_canon {s : State} (hm : Canon s.mem) (u : Nat) (o : Op) : Canon (opReturn s u o).mem := by
  unfold opReturn
  grind [closeCheck_canon, setStrand_mem]

theorem opFault_canon {s : State} (hm : Canon s.mem) (u : Nat) (o : Op) (c : Cause) : Canon (opFault s u o c).mem := by
  unfold opFault
  grind [closeCheck_canon, setOp_mem, modStrand_mem]

@[simp] theorem opDone_mem (s : State) (u : Nat) (o : Op) (res : List Word) : (opDone s u o res).mem = s.mem := rfl

@[simp] theorem touch_mem (s : State) (core pa : Nat) : (touch s core pa).mem = s.mem := by
  unfold touch
  split <;> rfl

@[simp] theorem passHub_mem (s : State) (core : Nat) : (passHub s core).mem = s.mem := rfl

/-! Reads through translation, and the scratchpad. -/

@[simp] theorem logVA_mem (s : State) (ctx : Nat) (ps : List (Nat × Nat)) : (logVA s ctx ps).mem = s.mem := by
  fun_induction logVA s ctx ps <;> grind [logWalk_mem, logBad_mem]

@[simp] theorem logSpad_mem (s : State) (core ctx o : Nat) : (logSpad s core ctx o).mem = s.mem := rfl

theorem spadWrite_canon {s : State} (hm : Canon s.mem) (core ctx o : Nat) (bs : List Byte) :
    Canon (spadWrite s core ctx o bs).mem :=
  homeWrite_canon hm ..

/-! Forms on registers and predicates, and jumps. -/

theorem regOp_canon {s : State} (hm : Canon s.mem) (h : Hdr) (len : Nat) (rd : Reg) (srcs : List Reg)
    (f : Strand → Word) : CanonAfter (regOp h len rd srcs f s) :=
  issue_canon hm fun _ hx => exe_upd_canon hx ..

theorem fpOp_canon {s : State} (hm : Canon s.mem) (h : Hdr) (rd : Reg) (srcs : List Reg) (f : Strand → Nat × Nat) :
    CanonAfter (fpOp h rd srcs f s) :=
  issue_canon hm fun _ hx => exe_upd_canon hx ..

theorem predOp_canon {s : State} (hm : Canon s.mem) (h : Hdr) (len : Nat) (cd : Pr) (refs : List Ref)
    (f : Strand → Bool × Nat) : CanonAfter (predOp h len cd refs f s) :=
  issue_canon hm fun _ hx => exe_upd_canon hx ..

theorem jump_canon {x : Exe} (hm : Canon x.s.mem) (target : Nat) (t : Strand) : (jump x target t).Canon := by
  unfold jump
  grind [exe_upd_canon, Eff.Canon]

/-! Accesses of a strand and its stores. -/

@[simp] theorem siteOf_mem (s : State) (t : Strand) (va n : Nat) (acc : Acc) : (siteOf s t va n acc).1.mem = s.mem := by
  unfold siteOf
  grind [xlate_mem]

@[simp] theorem sitesOf_mem (s : State) (t : Strand) (acc : Acc) (ps : List (Nat × Nat)) :
    (sitesOf s t acc ps).1.mem = s.mem := by
  fun_induction sitesOf s t acc ps <;> grind [siteOf_mem]

@[simp] theorem charge_mem (s : State) (kern grp pa n : Nat) : (charge s kern grp pa n).mem = s.mem := rfl

@[simp] theorem noteAccess_mem (s : State) (t : Strand) (va pa n : Nat) : (noteAccess s t va pa n).mem = s.mem := rfl

theorem storePiece_canon {s : State} (hm : Canon s.mem) (u : Nat) (t : Strand) (stop : Bool) (va : Nat) (w : Site)
    (bs : List Byte) : Canon (storePiece s u t stop va w bs).mem := by
  unfold storePiece
  grind [homeWrite_canon, modCore_mem, touch_mem, noteAccess_mem]

theorem storePieces_canon {s : State} (hm : Canon s.mem) (u : Nat) (t : Strand) (stop : Bool) (va : Nat)
    (ps : List (Site × List Byte)) : Canon (storePieces s u t stop va ps).mem := by
  fun_induction storePieces s u t stop va ps <;> grind [storePiece_canon]

@[simp] theorem stopAfter_mem (s : State) (u : Nat) (stop : Bool) : (stopAfter s u stop).mem = s.mem := by
  unfold stopAfter
  split <;> rfl

theorem storeEff_canon {x : Exe} (hm : Canon x.s.mem) (va : Nat) (parts : List (List Byte)) (f : Strand → Strand) :
    (storeEff x va parts f).Canon := by
  unfold storeEff
  grind [sitesOf_mem, stopAfter_mem, modStrand_mem, storePieces_canon, Eff.Canon]

/-! Homes of windows, and diversion. -/

@[simp] theorem setLines_mem (s : State) (ls : List Nat) : (setLines s ls).mem = s.mem :=
  foldl_mem (fun _ _ => modCore_mem ..) ..

@[simp] theorem clearLines_mem (s : State) (ls : List Nat) : (clearLines s ls).mem = s.mem :=
  foldl_mem (fun _ _ => modCore_mem ..) ..

@[simp] theorem discardIn_mem (s : State) (secure : Bool) (k : Bool × Nat × Nat) :
    (discardIn s secure k).1.mem = s.mem := by
  unfold discardIn
  grind

@[simp] theorem discarded_mem (s : State) (k : Bool × Nat × Nat) (pa : Nat) : (discarded s k pa).1.mem = s.mem :=
  discardIn_mem ..

@[simp] theorem openBytes_mem (n : Nat) (s : State) : (openBytes n s).1.mem = s.mem := by
  fun_induction openBytes n s <;> grind [openWord_mem]

theorem divert_canon {s : State} (hm : Canon s.mem) (ctx core : Nat) (m : Spill) : Canon (divert s ctx core m).mem := by
  unfold divert
  grind [setCtx_mem, homeWrite_canon]

theorem windowWrite_canon {s : State} (hm : Canon s.mem) (ctx core off pa : Nat) (bs : List Byte) :
    (windowWrite s ctx core off pa bs).Canon := by
  unfold windowWrite
  grind [modStrand_mem, homeWrite_canon, Landed.Canon]

theorem landWrite_canon {s : State} (hm : Canon s.mem) (ctx uid pa : Nat) (bs : List Byte) :
    Canon (landWrite s ctx uid pa bs).mem := by
  unfold landWrite
  grind [windowWrite_canon, modStrand_mem, homeWrite_canon, Landed.Canon]

theorem landRelease_canon {s : State} (hm : Canon s.mem) (ctx uid pa v tag : Nat) :
    Canon (landRelease s ctx uid pa v tag).mem := by
  unfold landRelease
  grind [releaseWrite_canon, landWrite_canon]

/-! Compressed messages. -/

@[simp] theorem selectGuard_mem (s : State) (on : Bool) : (selectGuard s on).mem = s.mem := rfl

@[simp] theorem unpack_mem (s : State) (m : Fabric) : (unpack s m).1.mem = s.mem := by
  unfold unpack
  grind

theorem haltCtx_canon {s : State} (hm : Canon s.mem) (c : Nat) : Canon (haltCtx s c).mem := by
  unfold haltCtx
  grind [clearLines_mem, report_canon, abortKernel_canon, foldl_canon]

theorem malformed_canon {s : State} (hm : Canon s.mem) (m : Fabric) (code : Nat) : Canon (malformed s m code).mem := by
  unfold malformed
  grind [haltCtx_canon]

/-! Loads, stores and atomics at their issue. -/

theorem exe_trySend_canon {x : Exe} {s : State} (hx : Canon x.s.mem) (hm : Canon s.mem) (kind : OpKind) (path : Path)
    (dests : List Loc) : (x.trySend s kind path dests).Canon := by
  unfold Exe.trySend
  grind [setStrand_mem, Eff.Canon]

theorem loadEff_canon {x : Exe} (hm : Canon x.s.mem) (va n : Nat) (sx pair : Bool) (ds : List Loc) :
    (loadEff x va n sx pair ds).Canon := by
  unfold loadEff
  split
  · trivial
  · split
    · exact exe_trySend_canon hm hm ..
    · grind [logBad_mem, exe_upd_canon, Eff.Canon]

theorem loadOp_canon {s : State} (hm : Canon s.mem) (h : Hdr) (len : Nat) (rd base : Reg) (d : Word) (n : Nat)
    (sx pair : Bool) : CanonAfter (loadOp h len rd base d n sx pair s) :=
  issue_canon hm fun _ hx => loadEff_canon hx ..

theorem storeOp_canon {s : State} (hm : Canon s.mem) (h : Hdr) (len : Nat) (rd base : Reg) (d : Word) (n : Nat) :
    CanonAfter (storeOp h len rd base d n s) := by
  refine issue_canon hm fun x hx => ?_
  grind [storeEff_canon, Eff.Canon]

theorem storePair_canon {s : State} (hm : Canon s.mem) (h : Hdr) (len : Nat) (rd base : Reg) (d : Word) :
    CanonAfter (storePair h len rd base d s) := by
  refine issue_canon hm fun x hx => ?_
  grind [storeEff_canon, Eff.Canon]

@[simp] theorem atomicIssue_mem (s : State) (t : Strand) (va n : Nat) : (atomicIssue s t va n).mem = s.mem := by
  unfold atomicIssue
  grind [modCore_mem, siteOf_mem, touch_mem]

theorem atomicOp_canon {s : State} (hm : Canon s.mem) (h : Hdr) (o : AOp) (n : Nat) (rd ra rb : Reg) :
    CanonAfter (atomicOp h o n rd ra rb s) := by
  refine issue_canon hm fun x hx => ?_
  grind [setStrand_mem, atomicIssue_mem, Eff.Canon]

theorem execAgadd_canon {s : State} (hm : Canon s.mem) (h : Hdr) (rd ra rb : Reg) :
    CanonAfter (execAgadd h rd ra rb s) := by
  refine issue_canon hm fun x hx => ?_
  grind [setStrand_mem, atomicIssue_mem, Eff.Canon]

/-! Bindings, acquires, releases and fences at their issue. -/

@[simp] theorem bindChange_mem (s : State) (core ctx i : Nat) (b : Option Binding) :
    (bindChange s core ctx i b).mem = s.mem := rfl

theorem execBind_canon {s : State} (hm : Canon s.mem) (h : Hdr) (rd ra rb : Reg) :
    CanonAfter (execBind h rd ra rb s) := by
  refine issue_canon hm fun x hx => ?_
  grind [exe_upd_canon, setStrand_mem, bindChange_mem, Eff.Canon]

theorem execUnbind_canon {s : State} (hm : Canon s.mem) (h : Hdr) (rd : Reg) : CanonAfter (execUnbind h rd s) := by
  refine issue_canon hm fun x hx => ?_
  grind [setStrand_mem, bindChange_mem, exe_upd_canon, Eff.Canon]

theorem execAcq_canon {s : State} (hm : Canon s.mem) (h : Hdr) (rd ra : Reg) (scope : Scope) :
    CanonAfter (execAcq h rd ra scope s) := by
  refine issue_canon hm fun x hx => ?_
  grind [exe_upd_canon, Eff.Canon]

theorem execWaitw_canon {s : State} (hm : Canon s.mem) (h : Hdr) (rd ra : Reg) (scope : Scope) :
    CanonAfter (execWaitw h rd ra scope s) := by
  refine issue_canon hm fun x hx => ?_
  grind [exe_upd_canon, Eff.Canon]

theorem execRel_canon {s : State} (hm : Canon s.mem) (h : Hdr) (rd ra : Reg) (scope : Scope) :
    CanonAfter (execRel h rd ra scope s) := by
  refine issue_canon hm fun x hx => ?_
  grind [siteOf_mem, setStrand_mem, modCore_mem, Eff.Canon]

theorem queueRelease_canon {x : Exe} (hm : Canon x.s.mem) (va : Nat) (sc : Scope) (kind : OpKind)
    (rk : Nat → RelKind) (ds : List Loc) (ps : List (Nat × Nat)) : (queueRelease x va sc kind rk ds ps).Canon := by
  unfold queueRelease
  grind [setStrand_mem, modCore_mem, Eff.Canon]

theorem execAcqrel_canon {s : State} (hm : Canon s.mem) (h : Hdr) (rd ra : Reg) (scope : Scope) :
    CanonAfter (execAcqrel h rd ra scope s) := by
  refine issue_canon hm fun x hx => ?_
  grind [queueRelease_canon, Eff.Canon]

theorem execFence_canon {s : State} (hm : Canon s.mem) (h : Hdr) (paths : BitVec 7) (scope : Scope) :
    CanonAfter (execFence h paths scope s) := by
  refine issue_canon hm fun x hx => ?_
  grind [modCore_mem, passHub_mem, Eff.Canon]

/-! Memory operations and releases at their homes. -/

theorem attempt_canon {s : State} (hm : Canon s.mem) (u : Nat) (o : Op) (va n : Nat) (acc : Acc) (force : Bool) :
    Canon (attempt s u o va n acc force).1.mem := by
  unfold attempt
  split
  · exact hm
  · extract_lets src t r
    have hr : Canon r.1.mem := by rwa [siteOf_mem]
    clear_value r
    split
    · exact hr
    · split
      · exact hr
      · split <;> grind [divert_canon]

@[simp] theorem markStop_mem (s : State) (u : Nat) (o : Op) (va n : Nat) (acc : Acc) :
    (markStop s u o va n acc).mem = s.mem := rfl

@[simp] theorem readLogged_mem (s : State) (ctx pa n : Nat) (loc : Bool) :
    (readLogged s ctx pa n loc).1.mem = s.mem := by
  unfold readLogged
  grind [logBad_mem]

@[simp] theorem readSite_mem (s : State) (u : Nat) (o : Op) (va n : Nat) (w : Site) :
    (readSite s u o va n w).1.mem = s.mem := by
  unfold readSite
  grind [readLogged_mem, noteAccess_mem, modCore_mem]

theorem readFor_canon {s : State} (hm : Canon s.mem) (u : Nat) (o : Op) (va n : Nat) (force : Bool) :
    Canon (readFor s u o va n force).1.mem := by
  unfold readFor
  grind [attempt_canon, readSite_mem, markStop_mem]

@[simp] theorem gotWord_mem (s : State) (u : Nat) (o : Op) (w : Word) : (gotWord s u o w).mem = s.mem := rfl

theorem fillFor_canon {s : State} (hm : Canon s.mem) (u : Nat) (o : Op) (force : Bool) (vas : List Nat) :
    Canon (fillFor s u o force vas).1.mem := by
  fun_induction fillFor s u o force vas <;> grind [readFor_canon]

@[simp] theorem touchNew_mem (s : State) (core : Nat) (w : Site) : (touchNew s core w).mem = s.mem := by
  unfold touchNew
  grind [touch_mem]

theorem bothFor_canon {s : State} (hm : Canon s.mem) (u : Nat) (o : Op) (va n : Nat) (force : Bool) :
    Canon (bothFor s u o va n force).1.mem := by
  unfold bothFor
  grind [attempt_canon, readLogged_mem, touchNew_mem, noteAccess_mem, markStop_mem]

theorem settle_canon {s : State} (hm : Canon s.mem) (u : Nat) (o : Op) (c : Option Cause) :
    Canon (settle s u o c).mem := by
  unfold settle
  grind [opFault_canon]

theorem performMem_canon {s : State} (hm : Canon s.mem) (u : Nat) (o : Op) (force : Bool) :
    Canon (performMem s u o force).mem := by
  unfold performMem
  split
  case h_1 => grind [readFor_canon, settle_canon, gotWord_mem, opDone_mem]
  case h_2 => grind [readFor_canon, settle_canon, opFault_canon, setStrand_mem, opDone_mem]
  case h_3 => grind [fillFor_canon, settle_canon, opDone_mem]
  case h_4 | h_5 => grind [bothFor_canon, settle_canon, opDone_mem, homeWrite_canon, landWrite_canon]
  case h_6 | h_7 => grind [attempt_canon, opFault_canon, readLogged_mem, acqDone_mem, noteAccess_mem, markStop_mem]
  case h_8 => grind [bothFor_canon, settle_canon, acqDone_mem, releaseWrite_canon, landRelease_canon]
  case h_9 => grind [bothFor_canon, settle_canon, opDone_mem, releaseWrite_canon, landRelease_canon]
  case h_10 => exact hm

theorem onSent_canon {s : State} (hm : Canon s.mem) {u id : Nat} {f : Op → State} (hf : ∀ o, Canon (f o).mem) :
    Canon (onSent s u id f).mem := by
  unfold onSent
  grind

theorem execReadAtHome_canon {s : State} (hm : Canon s.mem) (uid id : Nat) : CanonAfter (execReadAtHome uid id s) := by
  unfold execReadAtHome
  grind [onSent_canon, performMem_canon, CanonAfter]

theorem execAtomicAtHome_canon {s : State} (hm : Canon s.mem) (uid id : Nat) :
    CanonAfter (execAtomicAtHome uid id s) := by
  unfold execAtomicAtHome
  grind [onSent_canon, performMem_canon, CanonAfter]

theorem onWait_canon {s : State} (hm : Canon s.mem) {u id : Nat} {f : Op → State} (hf : ∀ o, Canon (f o).mem) :
    Canon (onWait s u id f).mem := by
  unfold onWait
  grind [onSent_canon]

theorem execAcqAtHome_canon {s : State} (hm : Canon s.mem) (uid id : Nat) : CanonAfter (execAcqAtHome uid id s) := by
  unfold execAcqAtHome
  grind [onWait_canon, performMem_canon, CanonAfter]

theorem execWaitwRegister_canon {s : State} (hm : Canon s.mem) (uid id : Nat) :
    CanonAfter (execWaitwRegister uid id s) := by
  unfold execWaitwRegister
  grind [onWait_canon, performMem_canon, CanonAfter]

theorem execWatchPoll_canon {s : State} (hm : Canon s.mem) (uid id : Nat) : CanonAfter (execWatchPoll uid id s) := by
  unfold execWatchPoll
  grind [onWait_canon, readLogged_mem, opFault_canon, acqDone_mem, CanonAfter]

theorem execPageWalk_canon {s : State} (hm : Canon s.mem) (core ctx va : Nat) :
    CanonAfter (execPageWalk core ctx va s) := by
  unfold execPageWalk
  grind [findLeaf_mem, CanonAfter]

theorem execSliceScrub_canon {s : State} (hm : Canon s.mem) (slice fixed : Nat) (bad : List Nat) :
    CanonAfter (execSliceScrub slice fixed bad s) := by
  unfold execSliceScrub
  grind [CanonAfter]

theorem addCount_canon {s : State} (hm : Canon s.mem) (ctx epa n : Nat) : Canon (addCount s ctx epa n).mem := by
  unfold addCount
  grind [homeWrite_canon]

theorem execAccessCountFlush_canon {s : State} (hm : Canon s.mem) (who ctx va : Nat) :
    CanonAfter (execAccessCountFlush who ctx va s) := by
  unfold execAccessCountFlush
  grind [addCount_canon, CanonAfter]

@[simp] theorem lineError_mem (s : State) (core ctx va : Nat) : (lineError s core ctx va).mem = s.mem := rfl

theorem execHotPageRecord_canon {s : State} (hm : Canon s.mem) (i : Nat) : CanonAfter (execHotPageRecord i s) := by
  unfold execHotPageRecord
  grind [ringPost_canon, homeWrite_canon, CanonAfter]

theorem execWbRetranslate_canon {s : State} (hm : Canon s.mem) (who ctx va : Nat) :
    CanonAfter (execWbRetranslate who ctx va s) := by
  unfold execWbRetranslate
  grind [tlbDrop_mem, CanonAfter]

@[simp] theorem relSite_mem (s : State) (core : Nat) (r : Rel) : (relSite s core r).1.mem = s.mem := by
  unfold relSite
  grind [xlate_mem]

@[simp] theorem popRel_mem (s : State) (core : Nat) : (popRel s core).mem = s.mem := rfl

theorem performRel_canon {s : State} (hm : Canon s.mem) (core : Nat) (r : Rel) (v : Nat) :
    Canon (performRel s core r v).mem := by
  unfold performRel
  grind [relSite_mem, passHub_mem, noteAccess_mem, stopAfter_mem, landRelease_canon, popRel_mem, divert_canon,
    releaseWrite_canon]

theorem performKlaunch_canon {s : State} (hm : Canon s.mem) (u : Nat) (o : Op) (va q : Nat) :
    Canon (performKlaunch s u o va q).mem := by
  unfold performKlaunch
  grind [opFault_canon, logVA_mem, opDone_mem, cpWrite_canon, modCtx_mem, releaseWrite_canon]

@[simp] theorem requeueRel_mem (s : State) (u : Nat) (o : Op) : (requeueRel s u o).mem = s.mem := by
  unfold requeueRel
  grind [modCore_mem]

theorem relStep_canon {s : State} (hm : Canon s.mem) (core : Nat) : Canon (relStep s core).mem := by
  unfold relStep
  split
  · exact hm
  · split
    · exact hm
    · split <;> grind [performRel_canon, popRel_mem, performMem_canon, passHub_mem, performKlaunch_canon]

theorem execAcqrelExchange_canon {s : State} (hm : Canon s.mem) (core : Nat) :
    CanonAfter (execAcqrelExchange core s) := by
  unfold execAcqrelExchange
  grind [popRel_mem, performMem_canon, passHub_mem, CanonAfter]

theorem execScopeMissHandle_canon {s : State} (hm : Canon s.mem) (core : Nat) :
    CanonAfter (execScopeMissHandle core s) := by
  unfold execScopeMissHandle
  grind [modCore_mem, divert_canon, setTag_mem, passHub_mem, traceRec_mem, CanonAfter]

theorem execBindPropagate_canon {s : State} (hm : Canon s.mem) (src dst : Nat) :
    CanonAfter (execBindPropagate src dst s) := by
  unfold execBindPropagate
  grind [modCore_mem, CanonAfter]

theorem execProbeEcho_canon {s : State} (hm : Canon s.mem) (core : Nat) (isPort : Bool) (i : Nat) :
    CanonAfter (execProbeEcho core isPort i s) := by
  unfold execProbeEcho
  grind [modCore_mem, CanonAfter]

/-! Handles: their records and their closing. -/

@[simp] theorem verifyLog_mem (s : State) (ctx : Nat) (r : HRec) : (verifyLog s ctx r).mem = s.mem := by
  unfold verifyLog
  grind [logVA_mem]

@[simp] theorem hSite_mem (va : Nat) (r : State × Except Cause Xl) : (hSite va r).1.mem = r.1.mem := by
  unfold hSite
  grind [logBad_mem]

@[simp] theorem hAddr_mem (s : State) (core ctx va : Nat) (sup : Bool) : (hAddr s core ctx va sup).1.mem = s.mem :=
  (hSite_mem ..).trans (xlate_mem ..)

theorem hWriteRec_canon {s : State} (hm : Canon s.mem) (pa : Nat) (r : HRec) : Canon (hWriteRec s pa r).mem :=
  homeWrite_canon hm ..

theorem closeHandle_canon {s : State} {t : Strand} {h : Handle} {s' : State}
    (he : closeHandle s t h = some s') (hm : Canon s.mem) : Canon s'.mem := by
  unfold closeHandle at he
  grind [hAddr_mem, hWriteRec_canon]

theorem closeEach_canon {s : State} (hm : Canon s.mem) (u : Nat) (hs : List (Nat × Handle)) :
    Canon (closeEach s u hs).1.mem := by
  fun_induction closeEach s u hs <;> grind [closeHandle_canon, modStrand_mem]

theorem closeHandles_canon {s : State} (hm : Canon s.mem) (u : Nat) : Canon (closeHandles s u).1.mem :=
  closeEach_canon hm ..

/-! Sectors. -/

@[simp] theorem useDesc_mem (s : State) (core ctx cad : Nat) : (useDesc s core ctx cad).1.mem = s.mem := by
  unfold useDesc
  grind [openWord_mem]

@[simp] theorem requestSector_mem (s : State) (lcore core ctx t va cad ref : Nat) (d : Desc) :
    (requestSector s lcore core ctx t va cad ref d).1.mem = s.mem := by
  unfold requestSector
  grind [xlate_mem]

/-! Tiles, and operations sent to the contracting engine. -/

@[simp] theorem cleanWords_mem (s : State) (core off n : Nat) : (cleanWords s core off n).mem = s.mem := rfl

@[simp] theorem cleanTiles_mem (s : State) (core : Nat) (phys : List Nat) : (cleanTiles s core phys).mem = s.mem :=
  foldl_mem (fun _ _ => cleanWords_mem ..) ..

@[simp] theorem cleanRow_mem (s : State) (core : Nat) (p : Partn) (elem r : Nat) :
    (cleanRow s core p elem r).mem = s.mem := rfl

@[simp] theorem pushEngine_mem (s : State) (core ctx : Nat) (f : Nat → EngOp) :
    (pushEngine s core ctx f).mem = s.mem := rfl

theorem exe_engine_canon {x : Exe} (hm : Canon x.s.mem) (kind : EngKind) (q : Option Nat) (org : Nat) (late : Bool)
    (dests : List Loc) (coop : Option (Nat × Nat)) : (x.engine kind q org late dests coop).Canon := by
  unfold Exe.engine
  grind [pushEngine_mem, setStrand_mem, foldl_canon, Eff.Canon]

/-! Lane claims and vector forms. -/

@[simp] theorem setClaim_mem (s : State) (u : Nat) (c : Claim) : (s.setClaim u c).mem = s.mem := rfl

@[simp] theorem renegotiate_mem (s : State) (u : Nat) (c : Claim) (seq : Nat) :
    (renegotiate s u c seq).mem = s.mem := by
  unfold renegotiate
  split <;> rfl

@[simp] theorem settleRens_mem (fuel : Nat) (s : State) (u cid : Nat) : (settleRens fuel s u cid).mem = s.mem := by
  fun_induction settleRens fuel s u cid <;> grind [setClaim_mem, renegotiate_mem, opDone_mem]

@[simp] theorem settleFree_mem (s : State) (u : Nat) : (settleFree s u).mem = s.mem := by
  unfold settleFree
  grind [setStrand_mem, opDone_mem, foldl_mem]

theorem execVclaim_canon {s : State} (hm : Canon s.mem) (h : Hdr) (rd ra : Reg) :
    CanonAfter (execVclaim h rd ra s) := by
  refine issue_canon hm fun x hx => ?_
  grind [exe_upd_canon, Eff.Canon]

theorem execVreneg_canon {s : State} (hm : Canon s.mem) (h : Hdr) (rd ra : Reg) :
    CanonAfter (execVreneg h rd ra s) := by
  refine issue_canon hm fun x hx => ?_
  grind [setClaim_mem, setStrand_mem, settleRens_mem, Eff.Canon]

theorem execVfree_canon {s : State} (hm : Canon s.mem) (h : Hdr) : CanonAfter (execVfree h s) := by
  refine issue_canon hm fun x hx => ?_
  grind [settleFree_mem, setClaim_mem, setStrand_mem, Eff.Canon]

theorem execLaneGrant_canon {s : State} (hm : Canon s.mem) (cl : Nat) : CanonAfter (execLaneGrant cl s) := by
  unfold execLaneGrant
  grind [setClaim_mem, opDone_mem, settleFree_mem, settleRens_mem, CanonAfter]

theorem vecIssue_canon {x : Exe} (hm : Canon x.s.mem) (uses : List PtrUse) (v : VecOp) : (vecIssue x uses v).Canon := by
  unfold vecIssue
  grind [exe_upd_canon, Eff.Canon]

theorem vecBin_canon {s : State} (hm : Canon s.mem) (h : Hdr) (op : Nat) (pd pa pb : Ptr) (rn : Reg) (et : ElTy) :
    CanonAfter (vecBin h op pd pa pb rn et s) :=
  issue_canon hm fun _ hx => vecIssue_canon hx ..

theorem vecUn_canon {s : State} (hm : Canon s.mem) (h : Hdr) (sel : Nat) (pd pa : Ptr) (rn : Reg) (et : ElTy) :
    CanonAfter (vecUn h sel pd pa rn et s) :=
  issue_canon hm fun _ hx => vecIssue_canon hx ..

theorem vecRed_canon {s : State} (hm : Canon s.mem) (h : Hdr) (sel : Nat) (mb : Obj2) (pa : Ptr) (rn : Reg)
    (et : ElTy) : CanonAfter (vecRed h sel mb pa rn et s) :=
  issue_canon hm fun _ hx => vecIssue_canon hx ..

theorem vchainEff_canon {x : Exe} (hm : Canon x.s.mem) (e : Ext) (lit : Option Word) : (vchainEff e lit x).Canon := by
  unfold vchainEff
  grind [logSpad_mem, vecIssue_canon, Eff.Canon]

/-! Barriers, and stores that land at one. -/

@[simp] theorem barrierRef_mem (s : State) (t : Strand) (v : Nat) : (barrierRef s t v).1.mem = s.mem := by
  unfold barrierRef
  grind [xlate_mem]

@[simp] theorem setBarrier_mem (s : State) (core ctx j : Nat) (b : Barrier) :
    (setBarrier s core ctx j b).mem = s.mem := rfl

@[simp] theorem wakeBarrier_mem (s : State) (ctx pa phase : Nat) : (wakeBarrier s ctx pa phase).mem = s.mem := by
  unfold wakeBarrier
  grind [opDone_mem, foldl_mem]

@[simp] theorem advanceBar_mem (fuel : Nat) (s : State) (core ctx j : Nat) :
    (advanceBar fuel s core ctx j).mem = s.mem := by
  fun_induction advanceBar fuel s core ctx j <;> grind [wakeBarrier_mem, setBarrier_mem]

@[simp] theorem barStep_mem (s : State) (core ctx j : Nat) (b : Barrier) : (barStep s core ctx j b).mem = s.mem :=
  advanceBar_mem ..

theorem performBar_canon {s : State} (hm : Canon s.mem) (u : Nat) (o : Op) (force : Bool) :
    Canon (performBar s u o force).mem := by
  unfold performBar
  split
  · split
    · exact hm
    · extract_lets t r
      have hr : Canon r.1.mem := by rwa [barrierRef_mem]
      clear_value r
      split
      · exact opFault_canon hr ..
      · split <;> grind [opDone_mem, divert_canon, barStep_mem]
  · exact hm

theorem ownBarrier_canon {s : State} (hm : Canon s.mem) (u id : Nat) : Canon (ownBarrier s u id).mem := by
  unfold ownBarrier
  grind [performBar_canon]

theorem barIssue_canon {x : Exe} (hm : Canon x.s.mem) (o : BOp) (a b e : Nat) (rd : Reg) :
    (barIssue x o a b e rd).Canon := by
  unfold barIssue
  grind [ownBarrier_canon, setStrand_mem, Eff.Canon]

theorem execBwait_canon {s : State} (hm : Canon s.mem) (h : Hdr) (rd ra : Reg) : CanonAfter (execBwait h rd ra s) := by
  refine issue_canon hm fun x hx => ?_
  grind [barIssue_canon, renegotiate_mem, Eff.Canon]

theorem landStb_canon {s : State} (hm : Canon s.mem) (ctx uid pa : Nat) (bs : List Byte) (core j : Nat) :
    Canon (landStb s ctx uid pa bs core j).mem := by
  unfold landStb
  grind [barStep_mem, landWrite_canon]

theorem execStb_canon {s : State} (hm : Canon s.mem) (h : Hdr) (rd ra rb : Reg) :
    CanonAfter (execStb h rd ra rb s) := by
  refine issue_canon hm fun x hx => ?_
  grind [siteOf_mem, barrierRef_mem, setStrand_mem, noteAccess_mem, stopAfter_mem, landStb_canon, Eff.Canon]

theorem execBarrierUnitPerform_canon {s : State} (hm : Canon s.mem) (uid id : Nat) :
    CanonAfter (execBarrierUnitPerform uid id s) := by
  unfold execBarrierUnitPerform
  grind [onWait_canon, performBar_canon, CanonAfter]

theorem execBarrierPoll_canon {s : State} (hm : Canon s.mem) (uid id : Nat) :
    CanonAfter (execBarrierPoll uid id s) := by
  unfold execBarrierPoll
  grind [onWait_canon, opDone_mem, CanonAfter]

theorem landStore_canon {s : State} (hm : Canon s.mem) (w : MemWrite) : Canon (landStore s w).mem := by
  unfold landStore
  grind [stopAfter_mem, landStb_canon, landRelease_canon, landWrite_canon]

theorem landFabric_canon {s : State} (hm : Canon s.mem) (m : Fabric) : Canon (landFabric s m).mem := by
  unfold landFabric
  grind [unpack_mem, malformed_canon, releaseWrite_canon, homeWrite_canon]

theorem execStoreAtHome_canon {s : State} (hm : Canon s.mem) (i : Nat) (m : Fabric) :
    CanonAfter (execStoreAtHome i m s) := by
  unfold execStoreAtHome
  grind [divert_canon, landStore_canon, landFabric_canon, CanonAfter]

/-! Sync words and rings. -/

theorem putSync_canon {s : State} (hm : Canon s.mem) (core ctx o : Nat) (y : Sync) :
    Canon (putSync s core ctx o y).mem :=
  spadWrite_canon hm ..

@[simp] theorem swTest_mem (s : State) (u : Nat) (o : Op) : (swTest s u o).mem = s.mem := by
  unfold swTest
  grind [opDone_mem]

theorem countSync_canon {s : State} (hm : Canon s.mem) (core ctx o n err : Nat) :
    Canon (countSync s core ctx o n err).mem := by
  unfold countSync
  grind [putSync_canon, swTest_mem, foldl_canon]

theorem execSwinit_canon {s : State} (hm : Canon s.mem) (h : Hdr) (ra rb : Reg) :
    CanonAfter (execSwinit h ra rb s) := by
  refine issue_canon hm fun x hx => ?_
  grind [putSync_canon, Eff.Canon]

theorem execSwwait_canon {s : State} (hm : Canon s.mem) (h : Hdr) (ra rb : Reg) :
    CanonAfter (execSwwait h ra rb s) := by
  refine issue_canon hm fun x hx => ?_
  grind [setStrand_mem, swTest_mem, Eff.Canon]

theorem ringOp_canon {s : State} (hm : Canon s.mem) (h : Hdr) (g : Ring) (rd ra : Reg)
    (f : RingSt → Nat → Nat → RingSt × Nat) : CanonAfter (ringOp h g rd ra f s) := by
  refine issue_canon hm fun x hx => ?_
  grind [setStrand_mem, setPart_mem, Eff.Canon]

theorem execRawait_canon {s : State} (hm : Canon s.mem) (h : Hdr) (g : Ring) (rd ra : Reg) :
    CanonAfter (execRawait h g rd ra s) := by
  refine issue_canon hm fun x hx => ?_
  grind [exe_send_canon, Eff.Canon]

/-! Copies and gathers. -/

theorem engineRead_canon {s : State} (hm : Canon s.mem) (who ctx va n kern grp : Nat) (own : List Nat) :
    (engineRead s who ctx va n kern grp own).Canon := by
  unfold engineRead
  grind [xlateBy_mem, logBad_mem, charge_mem, gatherCount_mem, discarded_mem, Touch.Canon]

theorem engineWrite_canon {s : State} (hm : Canon s.mem) (who : Nat) (k : Copy) (va : Nat) (bs : List Byte)
    (first last : Bool) (tag : Option Copy) : (engineWrite s who k va bs first last tag).Canon := by
  unfold engineWrite
  extract_lets ctx r
  have hr : Canon r.1.mem := by rwa [xlateBy_mem]
  clear_value r
  split
  · exact hr
  · extract_lets note q
    have hnote {s : State} (hs : Canon s.mem) : Canon (note s).mem := by grind [charge_mem, gatherCount_mem]
    clear_value note
    split
    · exact hr
    · split <;> grind [divert_canon, windowWrite_canon, discarded_mem, homeWrite_canon, Landed.Canon, Touch.Canon]

theorem cpyOp_canon {s : State} (hm : Canon s.mem) (h : Hdr) (nb : Bool) (rd ra : Reg) :
    CanonAfter (cpyOp h nb rd ra s) := by
  refine issue_canon hm fun x hx => ?_
  grind [setStrand_mem, opDone_mem, Eff.Canon]

@[simp] theorem setCopy_mem (s : State) (c : Copy) : (s.setCopy c).mem = s.mem := rfl

@[simp] theorem takeCopy_mem (s : State) (e : Nat) (c : Copy) : (takeCopy s e c).mem = s.mem :=
  setLines_mem ..

theorem copyRead_canon {s : State} (hm : Canon s.mem) (e : Nat) (c : Copy) : (copyRead s e c).Canon := by
  unfold copyRead
  grind [engineRead_canon, Touch.Canon]

theorem reportLost_canon {s : State} (hm : Canon s.mem) (ctx core pa : Nat) : Canon (reportLost s ctx core pa).mem :=
  report_canon hm ..

theorem copyStep_canon {s : State} (hm : Canon s.mem) (e : Nat) (c : Copy) : Canon (copyStep s e c).mem := by
  unfold copyStep
  grind [copyRead_canon, setCopy_mem, openBytes_mem, reportLost_canon, engineWrite_canon, cleanWord_mem, clearLines_mem,
    Touch.Canon]

theorem execCopyStart_canon {s : State} (hm : Canon s.mem) (core e : Nat) : CanonAfter (execCopyStart core e s) := by
  unfold execCopyStart
  grind [copyStep_canon, takeCopy_mem, CanonAfter]

theorem landComplete_canon {s : State} (hm : Canon s.mem) (c : Copy) (err : Nat) :
    Canon (landComplete s c err).mem := by
  unfold landComplete
  grind [countSync_canon, setPart_mem]

theorem finishCopy_canon {s : State} (hm : Canon s.mem) (c : Copy) (err : Nat) : Canon (finishCopy s c err).mem := by
  unfold finishCopy
  grind [divert_canon, landComplete_canon]

@[simp] theorem digestLog_mem (s : State) (c : Copy) : (digestLog s c).mem = s.mem := by
  unfold digestLog
  grind [logVA_mem]

theorem execCopyComplete_canon {s : State} (hm : Canon s.mem) (e : Nat) : CanonAfter (execCopyComplete e s) := by
  unfold execCopyComplete
  grind [finishCopy_canon, clearLines_mem, hWriteRec_canon, digestLog_mem, setCopy_mem, CanonAfter]

theorem postError_canon {s : State} (hm : Canon s.mem) (c : Copy) (code off : Nat) :
    Canon (postError s c code off).mem :=
  ringPost_canon hm ..

theorem execCopyError_canon {s : State} (hm : Canon s.mem) (e : Nat) : CanonAfter (execCopyError e s) := by
  unfold execCopyError
  grind [finishCopy_canon, postError_canon, clearLines_mem, CanonAfter]

@[simp] theorem postGather_mem (s : State) (u : Nat) (o : Op) (line : Nat) (d : List Byte) :
    (postGather s u o line d).mem = s.mem := by
  unfold postGather
  grind [setLines_mem, opDone_mem]

theorem execGpost_canon {s : State} (hm : Canon s.mem) (h : Hdr) (rd ra : Reg) : CanonAfter (execGpost h rd ra s) := by
  refine issue_canon hm fun x hx => ?_
  grind [logSpad_mem, setStrand_mem, opDone_mem, postGather_mem, Eff.Canon]

theorem gatherPut_canon {s : State} (hm : Canon s.mem) (g : Gather) (o : Nat) (bs : List Byte) (ends : List Nat) :
    Canon (gatherPut s g o bs ends).mem := by
  unfold gatherPut
  grind [divert_canon, clearLines_mem, homeWrite_canon]

@[simp] theorem signalLine_mem (s : State) (u line : Nat) (res : Word) : (signalLine s u line res).mem = s.mem := by
  unfold signalLine
  grind [setStrand_mem]

theorem finishGather_canon {s : State} (hm : Canon s.mem) (g : Gather) (code : Nat) :
    Canon (finishGather s g code).mem := by
  unfold finishGather
  grind [divert_canon, signalLine_mem, clearLines_mem]

@[simp] theorem setGather_mem (s : State) (g g' : Gather) : (s.setGather g g').mem = s.mem := rfl

theorem endGather_canon {s : State} (hm : Canon s.mem) (g : Gather) (code : Nat) : Canon (endGather s g code).mem := by
  unfold endGather
  grind [setGather_mem, finishGather_canon]

theorem gatherEnd_canon {s : State} (hm : Canon s.mem) (g : Gather) (code : Nat) : Canon (gatherEnd s g code).mem := by
  unfold gatherEnd
  grind [setGather_mem, gatherPut_canon, finishGather_canon]

theorem gatherIndex_canon {s : State} (hm : Canon s.mem) (g : Gather) : Canon (gatherIndex s g).mem := by
  unfold gatherIndex
  grind [endGather_canon, logSpad_mem, setGather_mem]

theorem gatherRead_canon {s : State} (hm : Canon s.mem) (g : Gather) (k : Nat) : Canon (gatherRead s g k).mem := by
  unfold gatherRead
  grind [engineRead_canon, endGather_canon, openBytes_mem, reportLost_canon, setGather_mem, Touch.Canon]

theorem gatherWrite_canon {s : State} (hm : Canon s.mem) (g : Gather) : Canon (gatherWrite s g).mem :=
  gatherPut_canon hm ..

theorem execGatherPerform_canon {s : State} (hm : Canon s.mem) (cl : Nat) : CanonAfter (execGatherPerform cl s) := by
  unfold execGatherPerform
  grind [gatherEnd_canon, endGather_canon, gatherIndex_canon, gatherWrite_canon, gatherRead_canon, CanonAfter]

/-! Handle operations. -/

@[simp] theorem unsentStatus_mem (s : State) (code : Nat) : (unsentStatus s code).1.mem = s.mem := rfl

theorem handleNow_canon {s : State} (hm : Canon s.mem) (x : Exe) (o : HOp) (h : Nat) (rd : Reg) (v : Word) :
    (handleNow x s o h rd v).Canon := by
  unfold handleNow
  grind [setStrand_mem, opReturn_canon, Eff.Canon]

theorem handleDecided_canon {x : Exe} (hm : Canon x.s.mem) (o : HOp) (h : Nat) (rd : Reg) (code : Nat) :
    (handleDecided x o h rd code).Canon := by
  unfold handleDecided
  grind [unsentStatus_mem, handleNow_canon]

theorem onHandle_canon {x : Exe} (hm : Canon x.s.mem) (o : HOp) (h : Obj2) (rd : Reg) (b : Nat) (bad : Option Cause) :
    (onHandle x o h rd b bad).Canon := by
  unfold onHandle
  grind [handleDecided_canon, exe_upd_canon, Eff.Canon]

theorem execHopen_canon {s : State} (hm : Canon s.mem) (h : Hdr) (o : Obj2) (rd ra : Reg) :
    CanonAfter (execHopen h o rd ra s) := by
  refine issue_canon hm fun x hx => ?_
  grind [handleDecided_canon, exe_upd_canon, Eff.Canon]

theorem execHlist_canon {s : State} (hm : Canon s.mem) (h : Hdr) (o : Obj2) (rd ra : Reg) :
    CanonAfter (execHlist h o rd ra s) := by
  refine issue_canon hm fun x hx => ?_
  grind [handleNow_canon, exe_upd_canon]

theorem foldReserve_canon {s : State} (hm : Canon s.mem) (u : Nat) (o : Op) : Canon (foldReserve s u o).mem := by
  unfold foldReserve
  grind [opFault_canon, setOp_mem]

theorem execHfold_canon {s : State} (hm : Canon s.mem) (h : Hdr) (o : Obj2) (rd ra : Reg) :
    CanonAfter (execHfold h o rd ra s) := by
  refine issue_canon hm fun x hx => ?_
  grind [onHandle_canon, foldReserve_canon, Eff.Canon]

theorem foldResult_canon {s : State} (hm : Canon s.mem) (req result cause fgen nsec faddr : Nat) :
    Canon (foldResult s req result cause fgen nsec faddr).mem :=
  releaseWrite_canon (homeWrite_canon hm ..) ..

@[simp] theorem foldXl_mem (s : State) (die ctx va : Nat) (acc : Acc) : (foldXl s die ctx va acc).1.mem = s.mem :=
  xlateBy_mem ..

@[simp] theorem readRequest_mem (s : State) (u : Nat) (o : Op) (req : Nat) : (readRequest s u o req).1.mem = s.mem := by
  unfold readRequest
  grind [xlate_mem, logBad_mem, markStop_mem, noteAccess_mem]

@[simp] theorem readRecord_mem (s : State) (u : Nat) (o : Op) (va : Nat) : (readRecord s u o va).1.mem = s.mem := by
  unfold readRecord
  grind [hAddr_mem, markStop_mem, noteAccess_mem]

theorem readPlat_canon {s : State} (hm : Canon s.mem) (u : Nat) (o : Op) (r : HRec) (force : Bool) :
    Canon (readPlat s u o r force).1.mem := by
  unfold readPlat
  grind [readFor_canon]

theorem performFold_canon {s : State} (hm : Canon s.mem) (u : Nat) (o : Op) (va req : Nat) (force : Bool) :
    Canon (performFold s u o va req force).mem := by
  unfold performFold
  extract_lets t q a
  have hq : Canon q.1.mem := by rwa [readRequest_mem]
  have ha : Canon a.1.mem := by rwa [readRecord_mem]
  clear_value a
  split
  · exact settle_canon hq ..
  · split
    · exact settle_canon ha ..
    · extract_lets b
      have hb : Canon b.1.mem := by grind [readPlat_canon]
      clear_value b
      split
      · exact settle_canon hb ..
      · split <;> grind [opFault_canon, opDone_mem, foldXl_mem, foldResult_canon, hWriteRec_canon]

theorem performHandle_canon {s : State} (hm : Canon s.mem) (u : Nat) (o : Op) (force : Bool) :
    Canon (performHandle s u o force).mem := by
  unfold performHandle
  split
  · extract_lets t waits a
    have ha : Canon a.1.mem := by rwa [readRecord_mem]
    clear_value a
    split
    · exact hm
    · split
      · grind [performFold_canon, foldReserve_canon]
      · split
        · exact settle_canon ha ..
        · extract_lets q s'
          have hq : Canon q.1.mem := by grind [readPlat_canon]
          clear_value q
          split
          · exact settle_canon hq ..
          · grind [opDone_mem, verifyLog_mem, opFault_canon, hWriteRec_canon, modStrand_mem]
  · exact hm

theorem execHandleScrub_canon {s : State} (hm : Canon s.mem) (ctx va shard : Nat) :
    CanonAfter (execHandleScrub ctx va shard s) := by
  unfold execHandleScrub
  rw [canonAfter_next]
  extract_lets held ivl a
  split
  · exact hm
  · split
    · exact hm
    · extract_lets r last
      split
      · exact hm
      · split
        · simpa using hm
        · extract_lets n q q'
          have hq : Canon q'.mem := by
            dsimp only [q']
            split <;> simpa only [logVA_mem] using hm
          clear_value q'
          split
          · exact hWriteRec_canon hq ..
          · exact hq

/-! The fold engine. -/

@[simp] theorem foldSet_mem (s : State) (j : FoldJob) : (foldSet s j).mem = s.mem := rfl

theorem tryWrite_canon {s : State} {ctx pa : Nat} {bs : List Byte} {s' : State}
    (he : tryWrite s ctx pa bs = some s') (hm : Canon s.mem) : Canon s'.mem := by
  unfold tryWrite at he
  grind [windowWrite_canon, homeWrite_canon, Landed.Canon]

theorem foldSector_canon {s : State} (hm : Canon s.mem) (j : FoldJob) (plat : Plat) (ref u : Nat) :
    (foldSector s j plat ref u).Canon := by
  unfold foldSector
  have hread (va : Nat) : Canon (foldXl s j.die j.ctx va .read).1.mem := by rwa [foldXl_mem]
  have hwrite {s : State} (hs : Canon s.mem) (va : Nat) : Canon (foldXl s j.die j.ctx va .write).1.mem := by
    rwa [foldXl_mem]
  dsimp only
  split
  · exact hread _
  split
  · exact hread _
  split
  · exact hread _
  split
  · split <;> exact hread _
  split
  · exact hread _
  split
  · exact hwrite (hread _) _
  split
  · exact hwrite (hread _) _
  split
  · exact hwrite (hread _) _
  · exact hwrite (hread _) _

theorem foldWrite_canon {s : State} (hm : Canon s.mem) (j : FoldJob) (w : Nat × List Byte)
    (rest : List (Nat × List Byte)) : (foldWrite s j w rest).Canon := by
  unfold foldWrite
  grind [tryWrite_canon, cleanWord_mem, FoldStep.Canon]

theorem foldDigest_canon {s : State} (hm : Canon s.mem) (j : FoldJob) (k : Nat) (shard : List Byte) :
    (foldDigest s j k shard).Canon := by
  unfold foldDigest
  grind [foldXl_mem, gatherCount_mem, FoldStep.Canon]

theorem foldNext_canon {s : State} (hm : Canon s.mem) (j : FoldJob) : (foldNext s j).Canon := by
  unfold foldNext
  extract_lets n
  split
  next w rest hout =>
    have hw := foldWrite_canon hm j w rest
    split
    next s' j' he => rwa [he] at hw
    next => exact hw
  next =>
    split
    · exact foldSector_canon hm ..
    · split
      · exact hm
      · split
        · exact foldDigest_canon hm ..
        · exact hm

theorem foldStep_canon {s : State} (hm : Canon s.mem) (j : FoldJob) : Canon (foldStep s j).mem := by
  unfold foldStep
  grind [foldSet_mem, foldNext_canon, FoldStep.Canon]

theorem execFoldJobStart_canon {s : State} (hm : Canon s.mem) (die : Nat) : CanonAfter (execFoldJobStart die s) := by
  unfold execFoldJobStart
  grind [foldStep_canon, CanonAfter]

theorem foldReport_canon {s : State} {j : FoldJob} {result cause faddr : Nat} {s' : State}
    (he : foldReport s j result cause faddr = some s') (hm : Canon s.mem) : Canon s'.mem := by
  unfold foldReport at he
  grind [foldXl_mem, foldResult_canon]

theorem foldEnd_canon {s : State} (hm : Canon s.mem) (j : FoldJob) (pa : Nat) (f : HRec → HRec)
    (result cause faddr : Nat) : Canon (foldEnd s j pa f result cause faddr).mem := by
  unfold foldEnd
  grind [foldReport_canon, hWriteRec_canon]

theorem execFoldCommit_canon {s : State} (hm : Canon s.mem) (die : Nat) : CanonAfter (execFoldCommit die s) := by
  unfold execFoldCommit
  grind [hSite_mem, foldXl_mem, foldSet_mem, foldEnd_canon, CanonAfter]

theorem execFoldFail_canon {s : State} (hm : Canon s.mem) (die : Nat) : CanonAfter (execFoldFail die s) := by
  unfold execFoldFail
  rw [canonAfter_next]
  split
  · exact hm
  · split
    · exact hm
    · extract_lets a
      have ha : Canon a.1.mem := by rwa [hSite_mem, foldXl_mem]
      clear_value a
      grind [foldReport_canon, foldEnd_canon]

/-! Control transfers and window instructions. -/

theorem callTo_canon {x : Exe} (hm : Canon x.s.mem) (kc : BitVec 2) (target : Nat) : (callTo x kc target).Canon := by
  unfold callTo
  grind [exe_upd_canon, Eff.Canon]

theorem execRet_canon {s : State} (hm : Canon s.mem) (h : Hdr) : CanonAfter (execRet h s) := by
  refine issue_canon hm fun x hx => ?_
  grind [exe_upd_canon, Eff.Canon]

theorem spillN_canon {x : Exe} (hm : Canon x.s.mem) (n : Nat) : (spillN x n).Canon := by
  unfold spillN
  grind [storeEff_canon, Eff.Canon]

theorem execWfill_canon {s : State} (hm : Canon s.mem) (h : Hdr) (kc : BitVec 2) : CanonAfter (execWfill h kc s) := by
  refine issue_canon hm fun x hx => ?_
  grind [sitesOf_mem, setStrand_mem, Eff.Canon]

/-! What the contracting engine performs. -/

@[simp] theorem engineDone_mem (s : State) (u id : Nat) (res : List Word) : (engineDone s u id res).mem = s.mem := by
  unfold engineDone
  grind [modStrand_mem, opDone_mem]

theorem engineFault_canon {s : State} (hm : Canon s.mem) (u id : Nat) (c : Cause) (b m : Nat) :
    Canon (engineFault s u id c b m).mem := by
  unfold engineFault
  grind [opFault_canon]

theorem holdEq_canon {s : State} (hm : Canon s.mem) (core : Nat) (e : EngOp) (how : Nat) (c : Cause) (b m : Nat) :
    Canon (holdEq s core e how c b m).mem := by
  unfold holdEq
  grind [engineFault_canon, modPart_mem]

@[simp] theorem takenFmt_mem (s : State) (core : Nat) (p : Part) (f : RFmt) : (takenFmt s core p f).mem = s.mem := by
  unfold takenFmt
  split <;> rfl

theorem startOld_canon {s : State} (hm : Canon s.mem) (core : Nat) (e : EngOp) (o : Nat) (tr : Bool)
    (chain : Option Nat) : Canon (startOld s core e o tr chain).mem := by
  unfold startOld
  grind [holdEq_canon, logSpad_mem, modPart_mem, takenFmt_mem]

theorem startCld_canon {s : State} (hm : Canon s.mem) (core : Nat) (e : EngOp) (a o : Nat) (coop : Bool) :
    Canon (startCld s core e a o coop).mem := by
  unfold startCld
  extract_lets d others mine entry ready spans hold s'
  have hhold (c : Cause) : Canon (hold c).mem := by
    refine foldl_canon (fun s c hs => ?_) _ (holdEq_canon hm ..)
    exact hs
  split
  · exact hhold _
  split
  · exact hm
  split
  · exact hhold _
  split
  · exact hhold _
  · refine foldl_canon (fun s c hs => ?_) _ hm
    exact hs

theorem startSp_canon {s : State} (hm : Canon s.mem) (core : Nat) (e : EngOp) (a map o : Nat) :
    Canon (startSp s core e a map o).mem := by
  unfold startSp
  grind [holdEq_canon, modPart_mem]

theorem performAshape_canon {s : State} (hm : Canon s.mem) (core : Nat) (e : EngOp) (a rows cols : Nat) :
    Canon (performAshape s core e a rows cols).mem := by
  unfold performAshape
  grind [holdEq_canon, cleanTiles_mem, modCore_mem, modPart_mem, engineDone_mem]

theorem performSet_canon {s : State} (hm : Canon s.mem) (core : Nat) (e : EngOp) (a : Nat) (datum : Option Int) :
    Canon (performSet s core e a datum).mem := by
  unfold performSet
  grind [holdEq_canon, modCore_mem, cleanTiles_mem, engineDone_mem, modPart_mem]

theorem checkReport_canon {s : State} (hm : Canon s.mem) (core ctx : Nat) : Canon (checkReport s core ctx).mem := by
  unfold checkReport
  grind [report_canon, modCore_mem]

@[simp] theorem drainSite_mem (s : State) (lcore core ctx va n : Nat) :
    (drainSite s lcore core ctx va n).1.mem = s.mem := by
  unfold drainSite
  grind [xlate_mem]

@[simp] theorem drainSites_mem (s : State) (lcore core ctx : Nat) (ws : List (Nat × List Byte)) :
    (drainSites s lcore core ctx ws).1.mem = s.mem := by
  fun_induction drainSites s lcore core ctx ws <;> grind [drainSite_mem]

@[simp] theorem drainCount_mem (s : State) (core : Nat) (e : EngOp) (va : Nat) (w : Site) (n : Nat) :
    (drainCount s core e va w n).mem = s.mem := by
  unfold drainCount
  split <;> rfl

theorem drainWrite_canon {s : State} (hm : Canon s.mem) (core : Nat) (e : EngOp) (va : Nat) (w : Site)
    (bs : List Byte) : Canon (drainWrite s core e va w bs).mem := by
  unfold drainWrite
  grind [cleanWord_mem, homeWrite_canon, touch_mem, divert_canon, landWrite_canon]

theorem drainHold_canon {s : State} (hm : Canon s.mem) (core a : Nat) (e : EngOp) (c : Cause) :
    Canon (drainHold s core a e c).mem := by
  unfold drainHold
  grind [holdEq_canon, modPart_mem]

theorem drainStep_canon {s : State} (hm : Canon s.mem) (core : Nat) (e : EngOp) (a tgt rm : Nat) (sat : Bool)
    (stream scale seed : Nat) : Canon (drainStep s core e a tgt rm sat stream scale seed).mem := by
  unfold drainStep
  grind [drainSite_mem, drainHold_canon, modPart_mem, drainWrite_canon, drainSites_mem, drainCount_mem, modCore_mem,
    engineDone_mem, foldl_canon]

theorem performDrain_canon {s : State} (hm : Canon s.mem) (core : Nat) (e : EngOp) (a tgt rm : Nat) (sat : Bool)
    (stream scale seed : Nat) : Canon (performDrain s core e a tgt rm sat stream scale seed).mem := by
  unfold performDrain
  grind [drainStep_canon, holdEq_canon, checkReport_canon, modStrand_mem, modPart_mem]

theorem mseqStep_canon {s : State} (hm : Canon s.mem) (core : Nat) (e : EngOp) : Canon (mseqStep s core e).mem := by
  unfold mseqStep
  grind [engineDone_mem, modPart_mem, spadWrite_canon]

theorem performMseq_canon {s : State} (hm : Canon s.mem) (core : Nat) (e : EngOp) (list par qb cap : Nat) :
    Canon (performMseq s core e list par qb cap).mem := by
  unfold performMseq
  grind [holdEq_canon, mseqStep_canon, logSpad_mem, modPart_mem]

theorem performEngine_canon {s : State} (hm : Canon s.mem) (core : Nat) (e : EngOp) :
    Canon (performEngine s core e).mem := by
  unfold performEngine
  split
  · exact performAshape_canon hm ..
  · exact performSet_canon hm ..
  · exact performSet_canon hm ..
  · rwa [engineDone_mem, modPart_mem]
  · grind [checkReport_canon, engineDone_mem, modPart_mem]
  · exact startCld_canon hm ..
  · exact startSp_canon hm ..
  · exact startOld_canon hm ..
  · exact startOld_canon hm ..
  · grind [holdEq_canon, engineDone_mem, modPart_mem]
  · exact performDrain_canon hm ..
  · exact performMseq_canon hm ..
  · exact hm
  · exact hm

theorem execEngineOpPerform_canon {s : State} (hm : Canon s.mem) (core ctx seq : Nat) :
    CanonAfter (execEngineOpPerform core ctx seq s) := by
  unfold execEngineOpPerform
  grind [performEngine_canon, CanonAfter]

@[simp] theorem askSector_mem (s : State) (core ctx : Nat) (e : EngOp) (t : Nat) :
    (askSector s core ctx e t).1.mem = s.mem :=
  (requestSector_mem ..).trans (useDesc_mem ..)

@[simp] theorem readMap_mem (s : State) (core : Nat) (e : EngOp) (map : Nat) : (readMap s core e map).mem = s.mem := by
  unfold readMap
  grind [modPart_mem, logSpad_mem]

@[simp] theorem holdTile_mem (s : State) (core ctx a : Nat) : (holdTile s core ctx a).mem = s.mem := rfl

@[simp] theorem cleanRows_mem (s : State) (core : Nat) (p : Part) (f : RFmt) (e : EngOp) :
    (cleanRows s core p f e).mem = s.mem := by
  unfold cleanRows
  grind [cleanRow_mem, takenFmt_mem, foldl_mem]

theorem settleStream_canon {s : State} (hm : Canon s.mem) (core ctx seq : Nat) :
    Canon (settleStream s core ctx seq).mem := by
  unfold settleStream
  split
  · exact hm
  split
  · exact hm
  split
  · refine engineFault_canon (foldl_canon (fun s c hs => ?_) _ hm) ..
    dsimp only
    split <;> exact hs
  · split
    · exact hm
    · simp only [engineDone_mem]
      refine foldl_canon (fun s c hs => ?_) _ ?_
      · exact hs
      · split <;> exact hm

theorem execSectorRequest_canon {s : State} (hm : Canon s.mem) (core ctx seq : Nat) :
    CanonAfter (execSectorRequest core ctx seq s) := by
  unfold execSectorRequest
  grind [modCore_mem, settleStream_canon, readMap_mem, askSector_mem, modPart_mem, CanonAfter]

@[simp] theorem accumulateRow_mem (s : State) (core ctx : Nat) (e : EngOp) (a o y k : Nat) (r : Reply) :
    (accumulateRow s core ctx e a o y k r).mem = s.mem := rfl

@[simp] theorem accumulateSparse_mem (s : State) (core ctx : Nat) (e : EngOp) (a o y k : Nat) (r : Reply) :
    (accumulateSparse s core ctx e a o y k r).mem = s.mem := rfl

@[simp] theorem residueError_mem (s : State) (core ctx a : Nat) : (residueError s core ctx a).mem = s.mem := by
  unfold residueError
  grind [modPart_mem]

theorem execSectorReply_canon {s : State} (hm : Canon s.mem) (core ctx seq t : Nat) :
    CanonAfter (execSectorReply core ctx seq t s) := by
  unfold execSectorReply
  rw [canonAfter_next]
  dsimp only
  split
  · exact hm
  split
  · exact hm
  split
  · exact hm
  split
  · refine settleStream_canon ?_ ..
    split <;> exact hm
  · refine settleStream_canon ?_ ..
    split
    · refine foldl_canon (fun s c hs => ?_) _ (by simpa using hm)
      exact hs
    · simpa using hm
    · refine foldl_canon (fun s row hs => ?_) _ (by simpa using hm)
      exact hs

theorem execTraverseReservation_canon {s : State} (hm : Canon s.mem) (core ctx seq : Nat) :
    CanonAfter (execTraverseReservation core ctx seq s) := by
  unfold execTraverseReservation
  grind [pushEngine_mem, modPart_mem, CanonAfter]

theorem landOld_mem (s : State) (core ctx : Nat) (e : EngOp) {s' : State} (he : landOld s core ctx e = some s') :
    s'.mem = s.mem := by
  unfold landOld at he
  grind [setPart_mem, cleanRows_mem]

theorem execTraverseData_canon {s : State} (hm : Canon s.mem) (core ctx seq : Nat) :
    CanonAfter (execTraverseData core ctx seq s) := by
  unfold execTraverseData
  grind [settleStream_canon, modPart_mem, divert_canon, landOld_mem, CanonAfter]

theorem execSlotFrameBoundary_canon {s : State} (hm : Canon s.mem) (core : Nat) :
    CanonAfter (execSlotFrameBoundary core s) := by
  unfold execSlotFrameBoundary
  grind [modCore_mem, CanonAfter]

/-! Fetch. -/

@[simp] theorem fetchWord_mem (s : State) (core ctx va : Nat) (first : Bool) :
    (fetchWord s core ctx va first).1.mem = s.mem := by
  unfold fetchWord
  grind [xlate_mem, gatherCount_mem, logBad_mem]

@[simp] theorem fetchMore_mem (s : State) (core ctx n va : Nat) : (fetchMore s core ctx n va).1.mem = s.mem := by
  fun_induction fetchMore s core ctx n va <;> grind [fetchWord_mem]

@[simp] theorem fetchInstr_mem (s : State) (core ctx va : Nat) : (fetchInstr s core ctx va).1.mem = s.mem := by
  unfold fetchInstr
  grind [fetchWord_mem, fetchMore_mem]

@[simp] theorem stopStrand_mem (s : State) (u : Nat) (dbg : Bool) : (stopStrand s u dbg).mem = s.mem :=
  traceRec_mem ..

/-! The end of a strand. -/

@[simp] theorem passEnd_mem (s : State) (u : Nat) : (passEnd s u).mem = s.mem := by
  unfold passEnd
  grind [setStrand_mem, modKern_mem]

@[simp] theorem settleGroup_mem (s : State) (kid gnum : Nat) : (settleGroup s kid gnum).mem = s.mem := by
  unfold settleGroup
  grind [clearEnts_mem, endGroup_mem, setKern_mem]

theorem endTurn_canon {s : State} (hm : Canon s.mem) (u : Nat) : Canon (endTurn s u).mem := by
  unfold endTurn
  grind [closeHandles_canon, settleGroup_mem, modStrand_mem, passEnd_mem]

/-! Groups and deques. -/

theorem dequeIssue_canon {s : State} (hm : Canon s.mem) (h : Hdr) (o : DOp) (rd : Reg) (ra : Option Reg) :
    CanonAfter (dequeIssue h o rd ra s) := by
  refine issue_canon hm fun x hx => ?_
  grind [exe_send_canon, Eff.Canon]

@[simp] theorem modGroup_mem (s : State) (kern grp : Nat) (f : Group → Group) :
    (modGroup s kern grp f).mem = s.mem := rfl

theorem performDeque_canon {s : State} (hm : Canon s.mem) (u : Nat) (o : Op) (force : Bool) :
    Canon (performDeque s u o force).mem := by
  unfold performDeque
  grind [opDone_mem, divert_canon, setPart_mem, modGroup_mem]

theorem execDequeUnitPerform_canon {s : State} (hm : Canon s.mem) (uid id : Nat) :
    CanonAfter (execDequeUnitPerform uid id s) := by
  unfold execDequeUnitPerform
  grind [performDeque_canon, CanonAfter]

@[simp] theorem idleReturn_mem (s : State) (kern grp : Nat) (us : List Nat) (v : Word) :
    (idleReturn s kern grp us v).mem = s.mem := by
  unfold idleReturn
  grind [opDone_mem, modGroup_mem, foldl_mem]

@[simp] theorem idleTest_mem (s : State) (kern grp : Nat) : (idleTest s kern grp).mem = s.mem := by
  unfold idleTest
  grind [idleReturn_mem]

theorem execIdleMonitorTest_canon {s : State} (hm : Canon s.mem) (kern grp uid i : Nat) :
    CanonAfter (execIdleMonitorTest kern grp uid i s) := by
  unfold execIdleMonitorTest
  grind [modGroup_mem, idleTest_mem, CanonAfter]

/-! System registers. -/

@[simp] theorem csrWrite_mem (s : State) (u : Nat) (t : Strand) (n v : Nat) : (csrWrite s u t n v).mem = s.mem := by
  unfold csrWrite
  split <;> rfl

/-- A CSR instruction keeps memory canonical if what it does with an access that is allowed does. -/
theorem csrOp_canon {s : State} (hm : Canon s.mem) {h : Hdr} {rd : Reg} {n : Nat} {acc : Nat → Bool → Option CsrAcc}
    {f : Exe → CsrAcc → Eff} (hf : ∀ x a, Canon x.s.mem → (f x a).Canon) : CanonAfter (csrOp h rd n acc f s) := by
  unfold csrOp
  split
  · exact issue_canon hm fun _ _ => trivial
  · exact issue_canon hm fun _ _ => trivial
  · refine issue_canon hm fun x hx => ?_
    grind [Eff.Canon]

theorem execCsrr_canon {s : State} (hm : Canon s.mem) (h : Hdr) (rd : Reg) (imm : BitVec 8) :
    CanonAfter (execCsrr h rd imm s) :=
  csrOp_canon hm fun _ _ hx => exe_upd_canon hx _

theorem csrPut_canon {x : Exe} (hm : Canon x.s.mem) (a : CsrAcc) (n v : Nat) : (csrPut x a n v).Canon := by
  unfold csrPut
  grind [csrWrite_mem, Eff.Canon]

theorem execCsrw_canon {s : State} (hm : Canon s.mem) (h : Hdr) (rd : Reg) (imm : BitVec 8) :
    CanonAfter (execCsrw h rd imm s) :=
  csrOp_canon hm fun _ _ hx => csrPut_canon hx ..

theorem execCsrs_canon {s : State} (hm : Canon s.mem) (h : Hdr) (rd : Reg) (imm : BitVec 8) :
    CanonAfter (execCsrs h rd imm s) := by
  refine csrOp_canon hm fun x a hx => ?_
  split
  · trivial
  · exact csrPut_canon hx ..

theorem execCsrc_canon {s : State} (hm : Canon s.mem) (h : Hdr) (rd : Reg) (imm : BitVec 8) :
    CanonAfter (execCsrc h rd imm s) := by
  refine csrOp_canon hm fun x a hx => ?_
  split
  · trivial
  · exact csrPut_canon hx ..

/-! Continuation records, frames and slices. -/

@[simp] theorem dropSignals_mem (s : State) (u : Nat) : (dropSignals s u).mem = s.mem := rfl

theorem contwEff_canon {x : Exe} (hm : Canon x.s.mem) (a : Nat) : (contwEff a x).Canon := by
  unfold contwEff
  grind [sitesOf_mem, closeHandles_canon, dropSignals_mem, storePieces_canon, stopAfter_mem, modStrand_mem, Eff.Canon]

theorem execContr_canon {s : State} (hm : Canon s.mem) (h : Hdr) (rd : Reg) (slot : Fin 16) :
    CanonAfter (execContr h rd slot s) := by
  refine issue_canon hm fun x hx => ?_
  grind [exe_send_canon, Eff.Canon]

@[simp] theorem intoSlot_mem (s : State) (m : Nat) (t : Strand) : (intoSlot s m t).mem = s.mem := by
  unfold intoSlot
  grind [stopStrand_mem, setStrand_mem]

theorem performContr_canon {s : State} (hm : Canon s.mem) (u : Nat) (o : Op) (va slot : Nat) :
    Canon (performContr s u o va slot).mem := by
  unfold performContr
  extract_lets a b
  have ha : Canon a.1.mem := readFor_canon hm ..
  have hb : Canon b.1.mem := readFor_canon ha ..
  clear_value b
  split
  · exact settle_canon ha ..
  split
  · exact settle_canon hb ..
  · grind [opReturn_canon, opFault_canon, fillFor_canon, settle_canon, intoSlot_mem]

theorem sliceEff_canon {x : Exe} (hm : Canon x.s.mem) (v : Nat) : (sliceEff v x).Canon := by
  unfold sliceEff
  grind [exe_upd_canon, sitesOf_mem, landWrite_canon, setStrand_mem, homeWrite_canon, foldl_canon, Eff.Canon]

theorem execSliceWrite_canon {s : State} (hm : Canon s.mem) (h : Hdr) (rd : Reg) :
    CanonAfter (execSliceWrite h rd s) := by
  unfold execSliceWrite
  grind [csrOp_canon, sliceEff_canon]

theorem execSliceRerun_canon {s : State} (hm : Canon s.mem) (core ctx seq : Nat) :
    CanonAfter (execSliceRerun core ctx seq s) := by
  unfold execSliceRerun
  grind [mapParts_mem, setStrand_mem, CanonAfter]

/-! KSIG, KLAUNCH and KEOS. -/

theorem execKsig_canon {s : State} (hm : Canon s.mem) (h : Hdr) (rd ra rb : Reg) :
    CanonAfter (execKsig h rd ra rb s) := by
  refine issue_canon hm fun x hx => ?_
  grind [queueRelease_canon, Eff.Canon]

theorem execKlaunch_canon {s : State} (hm : Canon s.mem) (h : Hdr) (rd ra rb : Reg) :
    CanonAfter (execKlaunch h rd ra rb s) := by
  refine issue_canon hm fun x hx => ?_
  grind [queueRelease_canon, Eff.Canon]

theorem performKeos_canon {s : State} (hm : Canon s.mem) (u : Nat) (o : Op) : Canon (performKeos s u o).mem := by
  unfold performKeos
  grind [opReturn_canon, passEnd_mem, modKern_mem]

/-! Admission. -/

theorem writeAdmission_canon {s : State} {k : Kernel} {code ta : Nat} {s' : State}
    (he : writeAdmission s k code ta = some s') (hm : Canon s.mem) : Canon s'.mem := by
  unfold writeAdmission at he
  grind [cpWrite_canon, cpRelease_canon]

theorem copyArgs_canon {s : State} {k : Kernel} {r : State × Option Nat}
    (he : copyArgs s k = some r) (hm : Canon s.mem) : Canon r.1.mem := by
  unfold copyArgs at he
  grind [cpWrite_canon, modCtx_mem]

@[simp] theorem freeCopy_mem (s : State) (k : Kernel) : (freeCopy s k).mem = s.mem := by
  unfold freeCopy
  split <;> rfl

theorem admitRecord_canon {s : State} (hm : Canon s.mem) (ctx : Nat) (r : List Byte) :
    Canon (admitRecord s ctx r).mem := by
  unfold admitRecord
  extract_lets k lost refuse cb
  have hlost {t : State} (ht : Canon t.mem) : Canon (lost t).mem := report_canon ht ..
  have hrefuse {t : State} (ht : Canon t.mem) (code : Nat) : Canon (refuse t code).mem :=
    getD_canon (fun _ he => writeAdmission_canon he ht) (hlost ht)
  clear_value lost refuse cb
  split
  · exact hlost hm
  split
  · exact hrefuse hm _
  split
  · exact hrefuse (by rwa [logVA_mem]) _
  split
  · exact hrefuse hm _
  split
  · exact hrefuse hm _
  split
  · refine hrefuse ?_ _
    split <;> simpa using hm
  next s1 argv hcopy =>
    have hs1 : Canon s1.mem := copyArgs_canon hcopy hm
    split
    · refine hrefuse ?_ _
      split <;> exact hs1
    · split
      · refine hlost ?_
        split <;> exact hs1
      next s2 hwrite =>
        have hs2 : Canon s2.mem := writeAdmission_canon hwrite hs1
        exact hs2

@[simp] theorem depMiss_mem (s : State) (ctx depa : Nat) : (depMiss s ctx depa).mem = s.mem := by
  unfold depMiss
  grind [modCore_mem]

theorem recordFault_canon {s : State} (hm : Canon s.mem) (ctx va : Nat) : Canon (recordFault s ctx va).mem := by
  unfold recordFault
  have hreport (addr : Nat) : Canon (report s 8 ctx 33 0xFF 0xFFFF addr).mem := report_canon hm ..
  split
  · exact report_canon hm ..
  · grind [report_canon, getD_canon, writeAdmission_canon]

theorem execQueueTake_canon {s : State} (hm : Canon s.mem) (ctx qn : Nat) : CanonAfter (execQueueTake ctx qn s) := by
  unfold execQueueTake
  grind [releaseWrite_canon, recordFault_canon, logVA_mem, depMiss_mem, admitRecord_canon, CanonAfter]

/-! Neighbour ports. -/

theorem pushEff_canon {x : Exe} (hm : Canon x.s.mem) (b : Nat) (tok : Bool) (v : Word) : (pushEff x b tok v).Canon := by
  unfold pushEff
  grind [setStrand_mem, Eff.Canon]

theorem popEff_canon {x : Exe} (hm : Canon x.s.mem) (b : Nat) (rd : Reg) (cd : Pr) (kind : OpKind) :
    (popEff x b rd cd kind).Canon := by
  unfold popEff
  grind [exe_upd_canon, setStrand_mem, opReturn_canon, Eff.Canon]

@[simp] theorem giveCredits_mem (s : State) (t : Strand) (b n : Nat) : (giveCredits s t b n).mem = s.mem := by
  unfold giveCredits
  split <;> rfl

theorem portReturn_canon {s : State} (hm : Canon s.mem) (u : Nat) (o : Op) (b : Nat) (take : Bool) :
    Canon (portReturn s u o b take).mem := by
  unfold portReturn
  grind [setStrand_mem, giveCredits_mem, opReturn_canon]

theorem settleReads_canon {s : State} (hm : Canon s.mem) (u b : Nat) : Canon (settleReads s u b).mem := by
  unfold settleReads
  grind [portReturn_canon, foldl_canon]

theorem execPconf_canon {s : State} (hm : Canon s.mem) (h : Hdr) (b : Bearing) (rd : Reg) :
    CanonAfter (execPconf h b rd s) := by
  refine issue_canon hm fun x hx => ?_
  grind [settleReads_canon, setStrand_mem, giveCredits_mem, Eff.Canon]

@[simp] theorem landPort_mem (s : State) (u b what : Nat) (v : Word) : (landPort s u b what v).mem = s.mem := by
  unfold landPort
  grind [setStrand_mem]

theorem sendPort_canon {s : State} {u b what : Nat} {v : Word} {s' : State}
    (he : sendPort s u b what v = some s') (hm : Canon s.mem) : Canon s'.mem := by
  unfold sendPort at he
  grind [landPort_mem, divert_canon]

theorem execPortValueLand_canon {s : State} (hm : Canon s.mem) (i : Nat) : CanonAfter (execPortValueLand i s) := by
  unfold execPortValueLand
  grind [getD_canon, sendPort_canon, CanonAfter]

theorem execPortCreditReturn_canon {s : State} (hm : Canon s.mem) (i : Nat) :
    CanonAfter (execPortCreditReturn i s) := by
  unfold execPortCreditReturn
  grind [getD_canon, sendPort_canon, CanonAfter]

theorem execPortClosedNotice_canon {s : State} (hm : Canon s.mem) (uid b : Nat) :
    CanonAfter (execPortClosedNotice uid b s) := by
  unfold execPortClosedNotice
  grind [getD_canon, sendPort_canon, CanonAfter]

theorem deadlockAt_canon {s : State} (hm : Canon s.mem) (u : Nat) : Canon (deadlockAt s u).mem := by
  unfold deadlockAt
  grind [setOp_mem, deliver_canon, trapAt_canon]

theorem portDeadlock_canon {s : State} (hm : Canon s.mem) (kern grp : Nat) : Canon (portDeadlock s kern grp).mem := by
  unfold portDeadlock
  grind [deadlockAt_canon, setKern_mem, foldl_canon]

/-! Samples and traces. -/

@[simp] theorem fillGap_mem (s : State) (die : Nat) : (fillGap s die).mem = s.mem := by
  unfold fillGap
  grind

@[simp] theorem drainTrace_mem (fuel : Nat) (s : State) : (drainTrace fuel s).mem = s.mem := by
  fun_induction drainTrace fuel s <;> grind [fillGap_mem]

@[simp] theorem traceLanes_mem (s : State) (dt : Nat) : (traceLanes s dt).mem = s.mem := by
  unfold traceLanes
  grind [drainTrace_mem]

@[simp] theorem samplePart_mem (s : State) (p : Part) : (samplePart s p).mem = s.mem := by
  unfold samplePart
  grind [setPart_mem, traceRec_mem]

@[simp] theorem takeSamples_mem (s : State) (at' : Nat → Bool) : (takeSamples s at').mem = s.mem :=
  foldl_mem (fun _ _ => samplePart_mem ..) ..

theorem execSample_canon {s : State} (hm : Canon s.mem) (core : Nat) : CanonAfter (execSample core s) := by
  unfold execSample
  grind [takeSamples_mem, CanonAfter]

theorem execTracePushbackRelease_canon {s : State} (hm : Canon s.mem) : CanonAfter (execTracePushbackRelease s) := by
  unfold execTracePushbackRelease
  grind [fillGap_mem, foldl_canon, CanonAfter]

/-! Placement, budgets and promises. -/

theorem newPart_canon {s : State} (hm : Canon s.mem) (ctx c : Nat) (p : Partn) : Canon (newPart s ctx c p).mem :=
  canon_filter hm _

theorem placeCore_canon {s : State} (hm : Canon s.mem) (k : Kernel) (kid : Nat) (g : Group) (o c : Nat) :
    Canon (placeCore s k kid g o c).mem := by
  unfold placeCore
  grind [newPart_canon, rawWrite_canon, modPart_mem, modCore_mem, modGroup_mem, setStrand_mem, foldl_canon]

theorem execGroupPlacement_canon {s : State} (hm : Canon s.mem) (kern grp : Nat) :
    CanonAfter (execGroupPlacement kern grp s) := by
  unfold execGroupPlacement
  grind [placeCore_canon, modGroup_mem, modKern_mem, foldl_canon, CanonAfter]

theorem overrun_canon {s : State} (hm : Canon s.mem) (kern grp : Nat) : Canon (overrun s kern grp).mem := by
  unfold overrun
  grind [abortKernel_canon]

theorem overrunAll_canon {s : State} (hm : Canon s.mem) : Canon (overrunAll s).mem := by
  unfold overrunAll
  grind [overrun_canon, foldl_canon]

theorem cpSignal_canon {s : State} {ctx va v : Nat} {s' : State}
    (he : cpSignal s ctx va v = some s') (hm : Canon s.mem) : Canon s'.mem := by
  unfold cpSignal at he
  grind [releaseWrite_canon, logBad_mem]

theorem paySignal_canon {s : State} (hm : Canon s.mem) (kern : Nat) : Canon (paySignal s kern).mem := by
  unfold paySignal
  grind [cpSignal_canon, modKern_mem]

theorem execKernelCompletion_canon {s : State} (hm : Canon s.mem) (kern : Nat) :
    CanonAfter (execKernelCompletion kern s) := by
  unfold execKernelCompletion
  grind [writeCompletion_canon, paySignal_canon, freeCopy_mem, setKern_mem, settleCtx_mem, CanonAfter]

@[simp] theorem windowEnd_mem (s : State) (kern grp : Nat) : (windowEnd s kern grp).mem = s.mem := by
  unfold windowEnd
  grind [clearEnts_mem]

theorem execWindowEnd_canon {s : State} (hm : Canon s.mem) (kern grp : Nat) :
    CanonAfter (execWindowEnd kern grp s) := by
  unfold execWindowEnd
  grind [windowEnd_mem, CanonAfter]

theorem kernLate_canon {s : State} (hm : Canon s.mem) (id : Nat) : Canon (kernLate s id).mem := by
  unfold kernLate
  grind [report_canon, setKern_mem]

theorem resumeLate_canon {s : State} (hm : Canon s.mem) (core : Nat) : Canon (resumeLate s core).mem := by
  unfold resumeLate
  grind [report_canon, modPart_mem, foldl_canon]

theorem execPromiseMissed_canon {s : State} (hm : Canon s.mem) (which id : Nat) :
    CanonAfter (execPromiseMissed which id s) := by
  unfold execPromiseMissed
  grind [kernLate_canon, resumeLate_canon, CanonAfter]

/-! The tree unit. -/

theorem treeArrive_canon {s : State} (hm : Canon s.mem) (u id : Nat) : Canon (treeArrive s u id).mem := by
  unfold treeArrive
  grind [divert_canon, modPart_mem]

theorem treeIssue_canon {s : State} (hm : Canon s.mem) (h : Hdr) (n : TreeR) (o : TOp) (regs : List Reg)
    (dest : Option Reg) (args : Exe → Except Cause (Nat × Nat)) : CanonAfter (treeIssue h n o regs dest args s) := by
  unfold treeIssue
  extract_lets t
  split
  · exact issue_canon hm fun _ _ => trivial
  · refine issue_canon hm fun x hx => ?_
    grind [treeArrive_canon, setStrand_mem, Eff.Canon]

theorem storeTree_canon {s : State} {u : Nat} {o : Op} {a off k : Nat} {r : TreeReg} {s' : State}
    (he : storeTree s u o a off k r = some s') (hm : Canon s.mem) : Canon s'.mem := by
  unfold storeTree at he
  grind [opDone_mem, markStop_mem, spadWrite_canon, setOp_mem]

theorem performTree_canon {s : State} {u : Nat} {o : Op} {s' : State}
    (he : performTree s u o = some s') (hm : Canon s.mem) : Canon s'.mem := by
  unfold performTree at he
  grind [setPart_mem, opFault_canon, logSpad_mem, opDone_mem, markStop_mem, storeTree_canon]

theorem execTreeUnitPerform_canon {s : State} (hm : Canon s.mem) (core ctx : Nat) :
    CanonAfter (execTreeUnitPerform core ctx s) := by
  unfold execTreeUnitPerform
  grind [setPart_mem, performTree_canon, modPart_mem, CanonAfter]

/-! Pre-emption: saving, restoring, and what is delivered again. -/

@[simp] theorem interruptCore_mem (s : State) (core : Nat) : (interruptCore s core).mem = s.mem :=
  traceRec_mem ..

theorem execMeshInterrupt_canon {s : State} (hm : Canon s.mem) (core : Nat) :
    CanonAfter (execMeshInterrupt core s) := by
  unfold execMeshInterrupt
  grind [interruptCore_mem, foldl_canon, CanonAfter]

theorem frameStore_canon {s : State} (hm : Canon s.mem) (ctx uid va : Nat) (ws : List (List Byte)) :
    Canon (frameStore s ctx uid va ws).1.mem := by
  fun_induction frameStore s ctx uid va ws <;> grind [divert_canon, landWrite_canon]

theorem storeFrames_canon {s : State} (hm : Canon s.mem) (u : Nat) : Canon (storeFrames s u).1.mem :=
  frameStore_canon hm ..

theorem saveStrand_canon {a : State × Option SaveStop} (hm : Canon a.1.mem) (blk : Option Nat) (u : Nat) :
    Canon (saveStrand blk a u).1.mem := by
  unfold saveStrand
  grind [storeFrames_canon, homeWrite_canon]

theorem savePart_canon {a : State × Option SaveStop} (hm : Canon a.1.mem) (core : Nat) (p : Part) :
    Canon (savePart core a p).1.mem := by
  unfold savePart
  split
  · exact hm
  · exact hm
  · refine homeWrite_canon (homeWrite_canon (foldl_fst_canon (fun _ u h => saveStrand_canon h _ u) _ ?_) ..) ..
    exact foldl_canon (fun _ _ h => homeWrite_canon h ..) _ (homeWrite_canon (homeWrite_canon hm ..) ..)

theorem saveGuest_canon {a : State × Option SaveStop} (hm : Canon a.1.mem) (core u : Nat) :
    Canon (saveGuest core a u).1.mem :=
  saveStrand_canon hm ..

theorem saveCore_canon {s : State} (hm : Canon s.mem) (core : Nat) : Canon (saveCore s core).mem := by
  unfold saveCore
  extract_lets ps us guests r
  have hr : Canon r.1.mem := foldl_fst_canon (fun _ u h => saveGuest_canon h core u) _
    (foldl_fst_canon (fun _ p h => savePart_canon h core p) _ hm)
  clear_value r
  split
  · exact hm
  · exact report_canon (s := r.1.mapParts _) hr ..
  · refine foldl_canon (fun _ _ h => ?_) _ ?_
    · exact h
    · change Canon (State.mem (List.foldl _ _ _))
      refine foldl_canon (fun _ _ h => ?_) _ hr
      exact h

theorem execSaveComplete_canon {s : State} (hm : Canon s.mem) (core : Nat) : CanonAfter (execSaveComplete core s) := by
  unfold execSaveComplete
  grind [saveCore_canon, CanonAfter]

theorem restoreStrand_canon {s : State} (hm : Canon s.mem) (blk : Option Nat) (u : Nat) :
    Canon (restoreStrand blk s u).mem := by
  unfold restoreStrand
  -- what is read does not matter, and kept opaque it is not evaluated when the proof is checked
  obtain ⟨read, hread⟩ : ∃ read, readVA = read := ⟨_, rfl⟩
  rw [hread]
  grind [logVA_mem, setStrand_mem, swTest_mem, stopStrand_mem, closeCheck_canon, foldl_canon]

theorem restorePart_canon {s : State} (hm : Canon s.mem) (core : Nat) (p : Part) :
    Canon (restorePart s core p).mem := by
  unfold restorePart
  extract_lets blk written marked tiled placed
  have hwritten : Canon written.mem := rawWrite_canon hm ..
  clear_value blk written
  refine foldl_canon (fun _ u h => restoreStrand_canon h (some blk) u) _ ?_
  rwa [setPart_mem, modCore_mem]

theorem reload_canon {s : State} (hm : Canon s.mem) (core : Nat) : Canon (reload s core).mem := by
  unfold reload
  grind [restorePart_canon, modCore_mem, restoreStrand_canon, foldl_canon]

theorem execRestore_canon {s : State} (hm : Canon s.mem) (core : Nat) : CanonAfter (execRestore core s) := by
  unfold execRestore
  grind [mapParts_mem, traceRec_mem, reload_canon, CanonAfter]

theorem copyRefused_canon {s : State} (hm : Canon s.mem) (w : MemWrite) (code : Nat) :
    Canon (copyRefused s w code).mem := by
  unfold copyRefused
  grind [postError_canon]

theorem landEngine_canon {s : State} (hm : Canon s.mem) (w : MemWrite) : Canon (landEngine s w).mem := by
  unfold landEngine
  grind [windowWrite_canon, copyRefused_canon, homeWrite_canon, clearLines_mem, Landed.Canon]

theorem redeliver_canon {s : State} {ctx core : Nat} {m : Spill} {s' : State}
    (he : redeliver s ctx core m = some s') (hm : Canon s.mem) : Canon s'.mem := by
  unfold redeliver at he
  split at he
  case h_1 => grind [landEngine_canon, landWrite_canon, landStore_canon]
  case h_2 => grind [performContr_canon, performHandle_canon, performMem_canon]
  case h_3 => grind [treeArrive_canon, performBar_canon, performDeque_canon]
  case h_4 => grind [landPort_mem]
  case h_5 => grind [landComplete_canon]
  case h_6 => grind [signalLine_mem, clearLines_mem]
  case h_7 => grind [opReturn_canon]
  case h_8 => grind [modCore_mem]
  case h_9 => grind [landOld_mem]

theorem spillIndex_canon {s : State} (hm : Canon s.mem) (ctx : Nat) : Canon (spillIndex s ctx).mem :=
  homeWrite_canon hm ..

theorem execRedelivery_canon {s : State} (hm : Canon s.mem) (ctx core : Nat) :
    CanonAfter (execRedelivery ctx core s) := by
  unfold execRedelivery
  grind [redeliver_canon, spillIndex_canon, modCtx_mem, CanonAfter]

theorem execSpillRetry_canon {s : State} (hm : Canon s.mem) (ctx : Nat) : CanonAfter (execSpillRetry ctx s) := by
  unfold execSpillRetry
  grind [modCtx_mem, divert_canon, setCtx_mem, CanonAfter]

/-! Thermal steps. -/

@[simp] theorem freeze_mem (s : State) (core : Nat) (more : Bool) : (freeze s core more).mem = s.mem :=
  foldl_mem (fun _ _ => modCore_mem ..) ..

@[simp] theorem disableSlot_mem (s : State) (core k : Nat) : (disableSlot s core k).mem = s.mem := rfl

theorem chooseStrand_canon {s : State} (hm : Canon s.mem) (u : Nat) : Canon (chooseStrand s u).mem := by
  unfold chooseStrand
  grind [setStrand_mem, closeAt_canon]

theorem heatStep_canon {s : State} (hm : Canon s.mem) (core : Nat) : Canon (heatStep s core).mem := by
  unfold heatStep
  grind [freeze_mem, disableSlot_mem, chooseStrand_canon]

@[simp] theorem coolStep_mem (s : State) (core : Nat) : (coolStep s core).mem = s.mem := by
  unfold coolStep
  grind [freeze_mem, modCore_mem]

theorem thermalStep_canon {s : State} (hm : Canon s.mem) (core temp : Nat) : Canon (thermalStep s core temp).mem := by
  unfold thermalStep
  grind [modCore_mem, heatStep_canon, coolStep_mem]

@[simp] theorem stayPut_mem (s : State) (u : Nat) : (stayPut s u).mem = s.mem :=
  freeze_mem ..

@[simp] theorem arriveCore_mem (s : State) (core ctx : Nat) : (arriveCore s core ctx).mem = s.mem := rfl

theorem execThermalDisplacement_canon {s : State} (hm : Canon s.mem) (uid : Nat) :
    CanonAfter (execThermalDisplacement uid s) := by
  unfold execThermalDisplacement
  grind [stayPut_mem, closeAt_canon, storeFrames_canon, report_canon, modStrand_mem, arriveCore_mem, disableSlot_mem,
    CanonAfter]

/-! The passing of cycles. -/

@[simp] theorem oneCycle_mem (s : State) : (oneCycle s).mem = s.mem :=
  traceLanes_mem ..

theorem eachGroup_canon {f : State → Nat → Nat → State} (hf : ∀ s k g, Canon s.mem → Canon (f s k g).mem) {s : State}
    (hm : Canon s.mem) : Canon (eachGroup s f).mem :=
  foldl_canon (fun _ _ h => foldl_canon (fun _ _ h => hf _ _ _ h) _ h) _ hm

theorem cycleBegins_canon {s : State} (hm : Canon s.mem) : Canon (cycleBegins s).mem := by
  unfold cycleBegins
  refine foldl_canon (fun _ _ h => resumeLate_canon h _) _ (foldl_canon (fun _ _ h => kernLate_canon h _) _ ?_)
  refine eachGroup_canon (fun _ _ _ h => portDeadlock_canon h ..) (eachGroup_canon (fun _ _ _ h => ?_) ?_)
  · rwa [windowEnd_mem]
  · rw [takeSamples_mem]
    exact overrunAll_canon hm

theorem cycleEnds_canon {s : State} (hm : Canon s.mem) : Canon (cycleEnds s).mem := by
  unfold cycleEnds
  grind [thermalStep_canon, foldl_canon]

theorem passCycles_canon {s : State} (hm : Canon s.mem) (n : Nat) : Canon (passCycles n s).mem := by
  fun_induction passCycles n s <;> grind [cycleBegins_canon, oneCycle_mem, cycleEnds_canon]

theorem elapse_canon {s : State} (hm : Canon s.mem) (dt : Nat) : Canon (elapse s dt).mem :=
  passCycles_canon (overrunAll_canon hm ..) ..

/-! Collectives. -/

@[simp] theorem setCollGroup_mem (s : State) (ctx g : Nat) (c : CollGroup) : (setCollGroup s ctx g c).mem = s.mem := rfl

theorem cgrpEff_canon {x : Exe} (hm : Canon x.s.mem) (e : Ext) : (cgrpEff e x).Canon :=
  exe_send_canon hm ..

@[simp] theorem leaveGroup_mem (s : State) (ctx g : Nat) (c : CollGroup) (r : Nat) :
    (leaveGroup s ctx g c r).mem = s.mem := by
  unfold leaveGroup
  grind [setCollGroup_mem]

@[simp] theorem joinGroup_mem (s : State) (ctx g : Nat) (c : CollGroup) (r : Nat) :
    (joinGroup s ctx g c r).mem = s.mem := rfl

theorem performCgrp_canon {s : State} (hm : Canon s.mem) (u : Nat) (o : Op) (g list n : Nat) :
    Canon (performCgrp s u o g list n).mem := by
  unfold performCgrp
  grind [opReturn_canon, leaveGroup_mem, opFault_canon, logVA_mem, setOp_mem, setCollGroup_mem, joinGroup_mem]

@[simp] theorem collFinish_mem (s : State) (c : Coll) : (collFinish s c).mem = s.mem :=
  foldl_mem (fun _ _ => modStrand_mem ..) ..

@[simp] theorem setColl_mem (s : State) (c : Coll) : (setColl s c).mem = s.mem := rfl

@[simp] theorem dropColl_mem (s : State) (id : Nat) : (dropColl s id).mem = s.mem := rfl

@[simp] theorem collEnd_mem (s : State) (id : Nat) : (collEnd s id).mem = s.mem := by
  unfold collEnd
  grind [dropColl_mem, collFinish_mem]

@[simp] theorem collSettle_mem (s : State) (id : Nat) : (collSettle s id).mem = s.mem := by
  unfold collSettle
  grind [collEnd_mem, foldl_mem]

@[simp] theorem collAbort_mem (s : State) (id why cause rank : Nat) : (collAbort s id why cause rank).mem = s.mem := by
  unfold collAbort
  grind [collSettle_mem, setColl_mem]

@[simp] theorem collJoin_mem (s : State) (ctx g n : Nat) (op : COp) (len seq : Nat) (m : CollMember) :
    (collJoin s ctx g n op len seq m).mem = s.mem := by
  unfold collJoin
  grind [setColl_mem, collSettle_mem, openWord_mem, collAbort_mem]

@[simp] theorem peerAct_mem (s : State) (ctx : Nat) (p : Peer) : (peerAct s ctx p).mem = s.mem := by
  unfold peerAct
  grind [joinGroup_mem, leaveGroup_mem, collJoin_mem, setCollGroup_mem, collAbort_mem]

theorem collEff_canon {x : Exe} (hm : Canon x.s.mem) (e : Ext) (op : COp) (src dst len : Nat) :
    (collEff e op src dst len x).Canon := by
  unfold collEff
  grind [opReturn_canon, setStrand_mem, setCollGroup_mem, collJoin_mem, Eff.Canon]

theorem collData_canon {x : Exe} (hm : Canon x.s.mem) (e : Ext) (lit : Option Word) (op : COp) :
    (collData e lit op x).Canon :=
  collEff_canon hm ..

theorem execCtest_canon {s : State} (hm : Canon s.mem) (h : Hdr) (rd ra : Reg) : CanonAfter (execCtest h rd ra s) := by
  refine issue_canon hm fun x hx => ?_
  grind [setStrand_mem, opReturn_canon, Eff.Canon]

theorem cwaitReturn_canon {s : State} (hm : Canon s.mem) (u : Nat) (o : Op) (line : Nat) :
    Canon (cwaitReturn s u o line).mem := by
  unfold cwaitReturn
  grind [opReturn_canon, opFault_canon, setStrand_mem]

theorem collAway_canon {α : Type} {s : State} (hm : Canon s.mem) (c : Coll) (node : Nat) (wr : Bool)
    {go : State → Touch α} (hgo : (go s).Canon) : (collAway s c node wr go).Canon := by
  unfold collAway
  grind [discardIn_mem, Touch.Canon]

theorem collRead_canon {s : State} (hm : Canon s.mem) (c : Coll) (m : CollMember) (off : Nat) :
    (collRead s c m off).Canon := by
  unfold collRead
  split
  · refine collAway_canon hm _ _ _ ?_
    rwa [Touch.Canon, openBytes_mem]
  · exact engineRead_canon hm ..

theorem collWrite_canon {s : State} (hm : Canon s.mem) (c : Coll) (m : CollMember) (off : Nat) (bs : List Byte) :
    (collWrite s c m off bs).Canon := by
  unfold collWrite
  split
  · exact collAway_canon hm _ _ _ hm
  · exact engineWrite_canon hm ..

theorem execCollectiveReservation_canon {s : State} (hm : Canon s.mem) (id flow : Nat) :
    CanonAfter (execCollectiveReservation id flow s) := by
  unfold execCollectiveReservation
  grind [setColl_mem, CanonAfter]

theorem collDeliver_canon {s : State} (hm : Canon s.mem) (c : Coll) (q : CSector) : Canon (collDeliver s c q).mem := by
  unfold collDeliver
  grind [collWrite_canon, collAbort_mem, setColl_mem, collSettle_mem, cleanWord_mem, Touch.Canon]

theorem execCollectiveChunk_canon {s : State} (hm : Canon s.mem) (id flow sec : Nat) :
    CanonAfter (execCollectiveChunk id flow sec s) := by
  unfold execCollectiveChunk
  rw [canonAfter_next]
  split
  · exact hm
  next c _ =>
  split
  · exact hm
  split
  · exact collDeliver_canon hm ..
  split
  · exact hm
  split
  · grind [collDeliver_canon]
  · grind [collDeliver_canon, collRead_canon, collAbort_mem, Touch.Canon]

theorem rsChild_canon {s : State} (hm : Canon s.mem) (c : Coll) (ty op chunk sec level ix : Nat) :
    (rsChild s c ty op chunk sec level ix).Canon := by
  unfold rsChild
  grind [collRead_canon, Touch.Canon]

@[simp] theorem holdLeaf_mem (s : State) (c : Coll) (chunk sec level ix : Nat) (bs : List Byte) :
    (holdLeaf s c chunk sec level ix bs).mem = s.mem := by
  unfold holdLeaf
  grind [setColl_mem]

theorem execReductionCombine_canon {s : State} (hm : Canon s.mem) (id chunk sec level ix : Nat) :
    CanonAfter (execReductionCombine id chunk sec level ix s) := by
  unfold execReductionCombine
  rw [canonAfter_next]
  split
  · exact hm
  next c _ =>
  split
  case h_2 => exact hm
  next ty op _ =>
  extract_lets have' full moving
  split
  · exact hm
  have h := rsChild_canon hm c ty op chunk sec level (2 * ix)
  split <;> grind [rsChild_canon, collAbort_mem, holdLeaf_mem, setColl_mem, Touch.Canon]

theorem execReductionPartialSpill_canon {s : State} (hm : Canon s.mem) (id chunk sec level ix : Nat) :
    CanonAfter (execReductionPartialSpill id chunk sec level ix s) := by
  unfold execReductionPartialSpill
  grind [homeWrite_canon, setColl_mem, CanonAfter]

/-! Deterministic kernels. -/

@[simp] theorem sweepDet_mem (s : State) : (sweepDet s).mem = s.mem := rfl

theorem sweepNext_mem {s : State} {q : Instr × State} (he : sweepNext s = some q) : q.2.mem = s.mem := by
  unfold sweepNext at he
  split at he
  · cases he
  · obtain ⟨i, _, rfl⟩ := Option.map_eq_some_iff.1 he
    exact setKern_mem ..

theorem inDet_canon {s : State} {kid : Nat} {f : State → Outcome}
    (hf : CanonAfter (f { s with free := (s.kern kid).detFree })) : CanonAfter (inDet s kid f) := by
  unfold inDet
  split
  · next t ht =>
    rw [ht] at hf
    exact hf
  · exact hf

/-! Ports, unreachable nodes and the mesh counts. -/

theorem writePort_canon {s : State} (hm : Canon s.mem) (p : Nat) : Canon (writePort s p).mem :=
  releaseWrite_canon (homeWrite_canon hm ..) ..

theorem portState_canon {s : State} (hm : Canon s.mem) (p : Nat) (st : ClavosSt) (lanes peer : Nat) :
    Canon (portState s p st lanes peer).mem := by
  unfold portState
  grind [writePort_canon]

theorem trainPort_canon {s : State} (hm : Canon s.mem) (p : Nat) : Canon (trainPort s p).mem := by
  unfold trainPort
  grind [portState_canon]

theorem fencePort_canon {s : State} (hm : Canon s.mem) (p : Nat) : Canon (fencePort s p).mem := by
  unfold fencePort
  grind [portState_canon]

theorem downPort_canon {s : State} (hm : Canon s.mem) (p : Nat) : Canon (downPort s p).mem := by
  unfold downPort
  grind [portState_canon]

theorem execPortTrainingEnd_canon {s : State} (hm : Canon s.mem) (port lanes peer : Nat) :
    CanonAfter (execPortTrainingEnd port lanes peer s) := by
  unfold execPortTrainingEnd
  grind [portState_canon, downPort_canon, CanonAfter]

theorem execLaneFailure_canon {s : State} (hm : Canon s.mem) (port working : Nat) :
    CanonAfter (execLaneFailure port working s) := by
  unfold execLaneFailure
  grind [downPort_canon, portState_canon, CanonAfter]

theorem execFlitReplay_canon {s : State} (hm : Canon s.mem) (port : Nat) (corrected : Bool) :
    CanonAfter (execFlitReplay port corrected s) := by
  unfold execFlitReplay
  grind [fencePort_canon, CanonAfter]

theorem discard_canon {f : State → State} (hf : ∀ s, Canon s.mem → Canon (f s).mem) {s : State} (hm : Canon s.mem)
    (k : Bool × Nat × Nat) (ctx core pa : Nat) : Canon (discard s k ctx core pa f).mem := by
  unfold discard
  have hd : Canon (discarded s k pa).1.mem := by rwa [discarded_mem]
  extract_lets r
  split
  · exact report_canon (hf _ hd) ..
  · exact hd

theorem endLost_canon {s : State} (hm : Canon s.mem) (u : Nat) (o : Op) : Canon (endLost s u o).mem := by
  unfold endLost
  grind [openBytes_mem, opDone_mem, opFault_canon, setStrand_mem]

theorem execMessageDiscard_canon {s : State} (hm : Canon s.mem) (wr : Bool) (uid id : Nat) :
    CanonAfter (execMessageDiscard wr uid id s) := by
  unfold execMessageDiscard
  rw [canonAfter_next]
  split
  · split
    · exact hm
    split
    · exact hm
    refine discard_canon (fun _ h => ?_) hm ..
    exact h
  · refine onSent_canon hm fun o => ?_
    split
    · exact hm
    split
    · exact hm
    refine discard_canon (fun _ h => ?_) hm ..
    exact endLost_canon h ..

theorem nodeWrite_canon {s : State} (hm : Canon s.mem) (pa : Nat) (bs : List Byte) : Canon (nodeWrite s pa bs).mem := by
  unfold nodeWrite
  grind [homeWrite_canon]

@[simp] theorem upsetWord_mem (s : State) (pa : Nat) (fixed : Bool) : (upsetWord s pa fixed).mem = s.mem := by
  unfold upsetWord
  split <;> rfl

theorem execMeshCountDump_canon {s : State} (hm : Canon s.mem) : CanonAfter (execMeshCountDump s) := by
  unfold execMeshCountDump
  grind [homeWrite_canon, releaseWrite_canon, writePort_canon, foldl_canon, CanonAfter]

/-! Power. -/

theorem bringUp_canon {s : State} (hm : Canon s.mem) (flash : List Byte) (pop : List Nat) (ident : Bool)
    (fw : List (List Byte)) (train : Bool) : Canon (bringUp s flash pop ident fw train).mem := by
  unfold bringUp
  -- the failures keep all of memory, the last branch keeps what lies above first tier
  iterate 5
    split
    · exact hm
  refine foldl_canon (fun s p h => ?_) _ (canon_filter hm _)
  split
  · exact trainPort_canon h p
  · exact h

theorem execPowerUp_canon {s : State} (hm : Canon s.mem) (flash : List Byte) (pop : List Nat) (ident : Bool)
    (fw : List (List Byte)) (train : Bool) : CanonAfter (execPowerUp flash pop ident fw train s) := by
  unfold execPowerUp
  grind [bringUp_canon, CanonAfter]

theorem execPowerRemoval_canon {s : State} (hm : Canon s.mem) : CanonAfter (execPowerRemoval s) :=
  canon_filter hm _

/-! Commands. -/

theorem sysDone_canon {s : State} (hm : Canon s.mem) (pa status : Nat) : Canon (sysDone s pa status).mem :=
  releaseWrite_canon (releaseWrite_canon hm ..) ..

theorem commandOf_canon {f : State → Nat → State × Option Nat} (hf : ∀ s a, Canon s.mem → Canon (f s a).1.mem)
    {s : State} (hm : Canon s.mem) (n : Nat) : CanonAfter (commandOf n f s) := by
  unfold commandOf
  rw [canonAfter_next]
  split
  · exact hm
  split
  · exact hm
  grind [sysDone_canon]

theorem command_canon {f : State → Nat → State × Nat} (hf : ∀ s a, Canon s.mem → Canon (f s a).1.mem) {s : State}
    (hm : Canon s.mem) (n : Nat) : CanonAfter (command n f s) :=
  commandOf_canon hf hm n

theorem execCreate_canon {s : State} (hm : Canon s.mem) : CanonAfter (execCreate s) := by
  refine command_canon (fun s pa h => ?_) hm _
  grind [setCtx_mem]

@[simp] theorem stopKernel_mem (s : State) (kid : Nat) : (stopKernel s kid).mem = s.mem := rfl

@[simp] theorem freeKernel_mem (s : State) (kid : Nat) : (freeKernel s kid).mem = s.mem := by
  unfold freeKernel
  grind [clearEnts_mem, endGroup_mem, modKern_mem, foldl_mem]

theorem stopFolds_canon {s : State} (hm : Canon s.mem) (c : Nat) : Canon (stopFolds s c).mem := by
  unfold stopFolds
  grind [hSite_mem, foldXl_mem, hWriteRec_canon, foldl_canon]

@[simp] theorem stopMoves_mem (s : State) (c : Nat) : (stopMoves s c).mem = s.mem := by
  unfold stopMoves
  grind [clearLines_mem, foldl_mem]

@[simp] theorem beginTeardown_mem (s : State) (c : Nat) : (beginTeardown s c).mem = s.mem := by
  unfold beginTeardown
  grind [dropSignals_mem, evict_mem, modStrand_mem, stopMoves_mem, stopKernel_mem, collAbort_mem, modCtx_mem, foldl_mem]

theorem tearOn_canon {s : State} (hm : Canon s.mem) (c : Nat) : Canon (tearOn s c).mem := by
  unfold tearOn
  grind [stopFolds_canon, closeHandles_canon, foldl_canon]

@[simp] theorem endTeardown_mem (s : State) (c : Nat) : (endTeardown s c).mem = s.mem := by
  unfold endTeardown
  grind [freeKernel_mem, modStrand_mem, setCtx_mem, foldl_mem]

theorem execDestroy_canon {s : State} (hm : Canon s.mem) : CanonAfter (execDestroy s) := by
  refine commandOf_canon (fun s a h => ?_) hm _
  grind [tearOn_canon, endTeardown_mem, beginTeardown_mem]

theorem execQopen_canon {s : State} (hm : Canon s.mem) : CanonAfter (execQopen s) := by
  refine command_canon (fun s pa h => ?_) hm _
  grind [modCtx_mem]

theorem execQclose_canon {s : State} (hm : Canon s.mem) : CanonAfter (execQclose s) := by
  refine command_canon (fun s a h => ?_) hm _
  grind [modCtx_mem]

theorem portCommand_canon {f : State → Nat → State} (hf : ∀ s p, Canon s.mem → Canon (f s p).mem) {s : State}
    (hm : Canon s.mem) (n : Nat) : CanonAfter (portCommand n f s) := by
  refine command_canon (fun s a h => ?_) hm n
  grind

theorem execLinkup_canon {s : State} (hm : Canon s.mem) : CanonAfter (execLinkup s) :=
  portCommand_canon (fun _ p h => trainPort_canon h p) hm _

theorem execLinkfence_canon {s : State} (hm : Canon s.mem) : CanonAfter (execLinkfence s) :=
  portCommand_canon (fun _ p h => fencePort_canon h p) hm _

theorem execLinkdown_canon {s : State} (hm : Canon s.mem) : CanonAfter (execLinkdown s) :=
  portCommand_canon (fun _ p h => downPort_canon h p) hm _

theorem execSettvec_canon {s : State} (hm : Canon s.mem) : CanonAfter (execSettvec s) := by
  refine command_canon (fun s a h => ?_) hm _
  grind [modCtx_mem]

theorem execDbgset_canon {s : State} (hm : Canon s.mem) : CanonAfter (execDbgset s) := by
  refine command_canon (fun s a h => ?_) hm _
  grind [modCtx_mem]

theorem slotCommand_canon {f : State → Nat → State × Option Nat} (hf : ∀ s u, Canon s.mem → Canon (f s u).1.mem)
    {s : State} (hm : Canon s.mem) (n : Nat) : CanonAfter (slotCommand n f s) := by
  refine commandOf_canon (fun s a h => ?_) hm n
  grind

theorem execDstop_canon {s : State} (hm : Canon s.mem) : CanonAfter (execDstop s) := by
  refine slotCommand_canon (fun s u h => ?_) hm _
  grind [modStrand_mem]

theorem execDresume_canon {s : State} (hm : Canon s.mem) : CanonAfter (execDresume s) := by
  refine slotCommand_canon (fun s u h => ?_) hm _
  grind [closeCheck_canon, traceRec_mem, setStrand_mem]

theorem execTrcset_canon {s : State} (hm : Canon s.mem) : CanonAfter (execTrcset s) := by
  refine command_canon (fun s a h => ?_) hm _
  split <;> exact h

/-! Loading an object. -/

theorem clearRange_canon {s : State} (hm : Canon s.mem) (a n : Nat) : Canon (clearRange s a n).mem :=
  canon_filter hm _

theorem mapLeaf_canon {s : State} {ctx va target w0 w1 fuel lv node : Nat} {s' : State}
    (he : mapLeaf ctx va target w0 w1 fuel lv node s = some s') (hm : Canon s.mem) : Canon s'.mem := by
  fun_induction mapLeaf ctx va target w0 w1 fuel lv node s <;> grind [rawWrite_canon, openWord_mem, clearRange_canon]

theorem mapPage_canon {s : State} {ctx : Nat} {p : LoadPage} {s' : State}
    (he : mapPage ctx s p = some s') (hm : Canon s.mem) : Canon s'.mem := by
  unfold mapPage at he
  dsimp only at he
  split at he
  · cases he
  · obtain ⟨t, ht, rfl⟩ := Option.map_eq_some_iff.1 he
    exact rawWrite_canon (mapLeaf_canon ht (by rwa [openWord_mem])) ..

/-- A loop that may stop, and whose every turn keeps memory canonical, keeps it canonical. -/
theorem foldlM_canon {α : Type} {f : State → α → Option State}
    (hf : ∀ {s x t}, f s x = some t → Canon s.mem → Canon t.mem) {xs : List α} {s t : State}
    (he : xs.foldlM f s = some t) (hm : Canon s.mem) : Canon t.mem := by
  induction xs generalizing s with
  | nil =>
    cases he
    exact hm
  | cons x xs ih =>
    obtain ⟨u, hu, he⟩ := Option.bind_eq_some_iff.1 he
    exact ih he (hf hu hm)

theorem install_canon {s : State} (hm : Canon s.mem) (ctx : Nat) (o : List Byte) (noise : List Bool) :
    Canon (install s ctx o noise).1.mem := by
  unfold install
  split
  next s0 mb h0 =>
  split
  next s1 tb h1 =>
  have hs0 : Canon s0.mem := by grind [openWord_mem]
  have hs1 : Canon s1.mem := by grind [openWord_mem]
  split
  · exact hm
  split
  · exact hs1
  split
  · exact hs1
  next s2 he =>
  refine foldl_canon (fun _ _ h => ?_) _ ?_
  · rwa [modCore_mem]
  · rw [modCtx_mem]
    exact foldl_canon (fun _ _ h => rawWrite_canon h ..) _ (foldlM_canon mapPage_canon he hs1)

theorem loadObject_canon {s : State} (hm : Canon s.mem) (ctx : Nat) (o : List Byte) :
    Canon (loadObject s ctx o).1.mem := by
  unfold loadObject
  grind [install_canon]

theorem execLoadobj_canon {s : State} (hm : Canon s.mem) : CanonAfter (execLoadobj s) := by
  refine command_canon (fun s pa h => ?_) hm _
  grind [loadObject_canon, releaseWrite_canon, homeWrite_canon]

/-! Plats. -/

theorem execPlnew_canon {s : State} (hm : Canon s.mem) (h : Hdr) (o : Obj2) (rd ra : Reg) :
    CanonAfter (execPlnew h o rd ra s) := by
  refine issue_canon hm fun x hx => ?_
  grind [exe_send_canon, Eff.Canon]

theorem execPlset_canon {s : State} (hm : Canon s.mem) (h : Hdr) (o : Obj2) (rd ra : Reg) :
    CanonAfter (execPlset h o rd ra s) := by
  refine issue_canon hm fun x hx => ?_
  grind [exe_upd_canon, Eff.Canon]

/-! Noise. -/

theorem execRnoise_canon {s : State} (hm : Canon s.mem) (h : Hdr) (rd : Reg) : CanonAfter (execRnoise h rd s) := by
  refine issue_canon hm fun x hx => ?_
  grind [setStrand_mem, Eff.Canon]

@[simp] theorem freshNoise_mem (s : State) : (freshNoise s).1.mem = s.mem := rfl

theorem noiseWord_canon {s : State} (hm : Canon s.mem) (u : Nat) : Canon (noiseWord s u).1.mem := by
  unfold noiseWord
  grind [setCtx_mem, freshNoise_mem, homeWrite_canon]

theorem execNoiseWordDelivery_canon {s : State} (hm : Canon s.mem) (cl : Nat) :
    CanonAfter (execNoiseWordDelivery cl s) := by
  unfold execNoiseWordDelivery
  grind [opFault_canon, noiseWord_canon, opDone_mem, modStrand_mem, CanonAfter]

theorem execNoiseHealthFail_canon {s : State} (hm : Canon s.mem) (cl : Nat) :
    CanonAfter (execNoiseHealthFail cl s) := by
  unfold execNoiseHealthFail
  grind [report_canon, CanonAfter]

/-! Repetition. -/

theorem extEff_canon {x : Exe} (hm : Canon x.s.mem) (o : ExtOp) (e : Ext) (lit : Option Word) :
    (extEff o e lit x).Canon := by
  unfold extEff
  cases o with
  | vcmp | vsel | vscale | vfill | vrand | vnzc | vcvt | vqmx | vdqmx | vqa => exact vecIssue_canon hm ..
  | vchain => exact vchainEff_canon hm ..
  | cld | cldc | cldSp | old | oldT | ocols | adrain | mseq => exact exe_engine_canon hm ..
  | cgrp => exact cgrpEff_canon hm ..
  | cag | crs | ca2a => exact collData_canon hm ..
  | cbar => exact collEff_canon hm ..

@[simp] theorem captureOne_mem (s : State) (t : Strand) (k : Nat) (stride : Int) (a : Nat) :
    (captureOne s t k stride a).1.mem = s.mem := by
  unfold captureOne
  grind [fetchInstr_mem]

@[simp] theorem captureBody_mem (t : Strand) (k : Nat) (stride : Int) (n a : Nat) (s : State) :
    (captureBody t k stride n a s).1.mem = s.mem := by
  fun_induction captureBody t k stride n a s <;> grind [captureOne_mem]

theorem repEff_canon {x : Exe} (hm : Canon x.s.mem) (n k : Nat) (stride : Int) : (repEff n k stride x).Canon := by
  unfold repEff
  grind [captureBody_mem, setStrand_mem, Eff.Canon]

theorem execRep_canon {s : State} (hm : Canon s.mem) (h : Hdr) (n : BitVec 3) (k : BitVec 8) (stride : BitVec 6) :
    CanonAfter (execRep h n k stride s) := by
  refine issue_canon hm fun x hx => ?_
  grind [repEff_canon, Eff.Canon]

theorem repFault_canon {s : State} (hm : Canon s.mem) (u : Nat) (r : Rep) (b : BodyInstr) (c : Cause) :
    Canon (repFault s u r b c).mem := by
  unfold repFault
  grind [closeCheck_canon, modStrand_mem]

theorem execRepIterationIssue_canon {s : State} (hm : Canon s.mem) (uid : Nat) :
    CanonAfter (execRepIterationIssue uid s) := by
  unfold execRepIterationIssue
  rw [canonAfter_next]
  extract_lets t
  split
  · exact hm
  next r _ =>
  split
  · exact hm
  split
  · exact hm
  next b _ =>
  split
  · exact hm
  extract_lets v
  have h := extEff_canon (x := ⟨s.setStrand uid v, uid, v, b.addr, b.len, none⟩) hm b.op
    (fieldsAt b.e r.iter r.stride) b.lit
  split <;> grind [setStrand_mem, repFault_canon, Eff.Canon]

/-! Calls of the command processor, sleep and shootdown. -/

theorem wcallRun_canon {s : State} (hm : Canon s.mem) (ctx n a : Nat) : Canon (wcallRun s ctx n a).1.mem := by
  unfold wcallRun
  grind [cpWrite_canon]

theorem performWcall_canon {s : State} (hm : Canon s.mem) (u : Nat) (o : Op) (n a : Nat) :
    Canon (performWcall s u o n a).mem := by
  unfold performWcall
  grind [wcallRun_canon, opReturn_canon, opFault_canon]

theorem performSleep_canon {s : State} (hm : Canon s.mem) (u : Nat) (o : Op) (c : Nat) :
    Canon (performSleep s u o c).mem := by
  unfold performSleep
  grind [opReturn_canon]

@[simp] theorem dropWatches_mem (s : State) (ctx v : Nat) : (dropWatches s ctx v).mem = s.mem := rfl

@[simp] theorem dropDescs_mem (s : State) (ctx : Nat) : (dropDescs s ctx).mem = s.mem := rfl

theorem execShoot_canon {s : State} (hm : Canon s.mem) (h : Hdr) (rd : Reg) : CanonAfter (execShoot h rd s) := by
  refine csrOp_canon hm fun x a hx => ?_
  grind [setStrand_mem, dropWatches_mem, tlbDrop_mem, Eff.Canon]

theorem performShoot_canon {s : State} (hm : Canon s.mem) (u : Nat) (o : Op) (v : Nat) :
    Canon (performShoot s u o v).mem := by
  unfold performShoot
  grind [opReturn_canon, dropDescs_mem]

/-! The return of an operation that waits. -/

theorem mbrReturn_canon {s : State} (hm : Canon s.mem) (u : Nat) (o : Op) (m : Nat) :
    Canon (mbrReturn s u o m).mem := by
  unfold mbrReturn
  grind [opReturn_canon, setStrand_mem]

theorem gwaitReturn_canon {s : State} (hm : Canon s.mem) (u : Nat) (o : Op) (line : Nat) :
    Canon (gwaitReturn s u o line).mem := by
  unfold gwaitReturn
  grind [opReturn_canon, setStrand_mem]

theorem waitReturn_canon {s : State} (hm : Canon s.mem) (u : Nat) (o : Op) : Canon (waitReturn s u o).mem := by
  unfold waitReturn
  extract_lets t
  split
  · exact mbrReturn_canon hm ..
  · exact portReturn_canon hm ..
  · exact portReturn_canon hm ..
  · split
    · exact opReturn_canon hm ..
    · exact hm
  · rwa [postGather_mem]
  · exact gwaitReturn_canon hm ..
  · exact cwaitReturn_canon hm ..
  · exact performSleep_canon hm ..
  · exact performKeos_canon hm ..
  · exact performWcall_canon hm ..
  · exact performCgrp_canon hm ..
  · exact performShoot_canon hm ..
  · rwa [requeueRel_mem]
  · rwa [requeueRel_mem]
  · rwa [requeueRel_mem]
  · exact performContr_canon hm ..
  · split
    · refine opReturn_canon ?_ ..
      rwa [setStrand_mem]
    · exact hm
  · exact hm

theorem replyDiverted_canon {s : State} (hm : Canon s.mem) (u id : Nat) : Canon (replyDiverted s u id).mem := by
  unfold replyDiverted
  grind [divert_canon]

theorem execPendingReturn_canon {s : State} (hm : Canon s.mem) (uid id : Nat) :
    CanonAfter (execPendingReturn uid id s) := by
  unfold execPendingReturn
  grind [replyDiverted_canon, opReturn_canon, waitReturn_canon, CanonAfter]

/-! The address form with a literal. -/

theorem execAdrLit_canon {s : State} (hm : Canon s.mem) (h : Hdr) (rd : Reg) (lit : Word) :
    CanonAfter (execAdrLit h rd lit s) := by
  refine issue_canon hm fun x hx => ?_
  grind [exe_upd_canon, Eff.Canon]

/-! Transforms. -/

/-- Whatever a piece of a transform's work comes to, its state has canonical memory. -/
def XRes.Canon {α : Type} (r : XRes α) : Prop := Machine.Canon r.1.mem

theorem xRes_canon {α : Type} {s : State} {v : Except (Option Cause) α} : XRes.Canon (s, v) ↔ Canon s.mem := .rfl

/-- A piece of a transform's work keeps memory canonical if its first part does and what follows that part does. -/
theorem xBind_canon {α β : Type} {r : XRes α} {f : State → α → XRes β} (hr : r.Canon)
    (hf : ∀ s a, Canon s.mem → (f s a).Canon) : (r.bind f).Canon := by
  unfold XRes.bind
  split
  · exact hr
  · exact hf _ _ hr

theorem xBytesAt_canon {s : State} (hm : Canon s.mem) (x : XRun) (va n : Nat) (acc : Acc) (note : Bool) :
    (xBytesAt s x va n acc note).Canon := by
  unfold xBytesAt
  grind [xlateBy_mem, charge_mem, gatherCount_mem, XRes.Canon]

theorem xSector_canon {s : State} (hm : Canon s.mem) (x : XRun) (va ref : Nat) (acc : Acc) (note : Bool) :
    (xSector s x va ref acc note).Canon :=
  xBind_canon (xBytesAt_canon hm ..) fun _ _ h => h

theorem xRef_canon {s : State} (hm : Canon s.mem) (x : XRun) (va : Nat) (acc : Acc) : (xRef s x va acc).Canon := by
  change Canon (xlateBy s (some x.who) x.ctx va acc false).1.mem
  rwa [xlateBy_mem]

theorem xGet_canon {s : State} (hm : Canon s.mem) (x : XRun) (ps : List (Nat × Nat)) : (xGet s x ps).Canon := by
  induction ps generalizing s with
  | nil => exact hm
  | cons p ps ih =>
    refine xBind_canon (xBytesAt_canon hm ..) fun t y ht => ?_
    split
    · grind [logBad_mem, XRes.Canon]
    · exact xBind_canon (ih ht) fun _ _ h => h

theorem xRead_canon {s : State} (hm : Canon s.mem) (x : XRun) (d : Desc) (ref base : Nat) (last : Option Nat)
    (es : List Nat) : (xRead s x d ref base last es).Canon := by
  induction es generalizing s last with
  | nil => exact hm
  | cons e es ih =>
    refine xBind_canon (xSector_canon hm ..) fun t y ht => ?_
    split
    · grind [logBad_mem, XRes.Canon]
    · exact xBind_canon (ih ht _) fun _ _ h => h

theorem xStore_canon {s : State} (hm : Canon s.mem) (x : XRun) (va pa : Nat) (bs : List Byte) :
    (xStore s x va pa bs).Canon := by
  unfold xStore
  split
  · exact hm
  · next t ht => exact tryWrite_canon ht hm

theorem xPut_canon {s : State} (hm : Canon s.mem) (x : XRun) (d : Desc) (ref base : Nat) (o : XOut) :
    (xPut s x d ref base o).Canon := by
  cases o with
  | bytes va bs first => exact xBind_canon (xBytesAt_canon hm ..) fun _ _ h => xStore_canon h ..
  | code e c sc first whole =>
    refine xBind_canon (xSector_canon hm ..) fun _ y h => ?_
    refine xBind_canon (xStore_canon h ..) fun _ _ h => xBind_canon ?_ fun _ _ h => xBind_canon ?_ fun _ _ h => ?_
    · split
      · exact xStore_canon h ..
      · exact h
    · split
      · exact xStore_canon h ..
      · exact h
    · cases whole <;> exact h

theorem xAtom_canon {s : State} (hm : Canon s.mem) (x : XRun) (d : Desc) (ref base : Nat) (l : List XOut) :
    (xAtom s x d ref base l).Canon := by
  cases l with
  | nil => exact hm
  | cons o l =>
    refine xBind_canon ?_ fun _ _ h => h
    exact List.foldlRecOn _ _ (motive := XRes.Canon) hm fun a ha o _ =>
      xBind_canon ha fun _ _ h => xPut_canon h ..

@[simp] theorem openCodes_mem (s : State) (bits : Nat) (es : List Nat) : (openCodes s bits es).1.mem = s.mem := by
  induction es generalizing s with
  | nil => rfl
  | cons e es ih => exact (ih _).trans (openWord_mem s)

@[simp] theorem openScales_mem (s : State) (d : Desc) (es : List Nat) : (openScales s d es).1.mem = s.mem := by
  unfold openScales
  split <;> rfl

theorem xConvert_canon {s : State} (hm : Canon s.mem) (x : XRun) (p : List Byte) (src dst mode row : Nat) :
    (xConvert s x p src dst mode row).Canon := by
  refine xBind_canon (xRef_canon hm ..) fun _ _ h => xBind_canon (xRef_canon h ..) fun _ _ h => ?_
  refine xBind_canon (xRead_canon h ..) fun _ _ h => ?_
  grind [openCodes_mem, XRes.Canon]

theorem xCompress_canon {s : State} (hm : Canon s.mem) (x : XRun) (p : List Byte) (src dst map y row soff : Nat) :
    (xCompress s x p src dst map y row soff).Canon := by
  refine xBind_canon (xRef_canon hm ..) fun _ _ h => xBind_canon (xRef_canon h ..) fun _ _ h => ?_
  extract_lets d
  split
  · exact h
  refine xBind_canon (xRead_canon h ..) fun _ _ h => ?_
  rwa [xRes_canon, openScales_mem]

theorem xExpand_canon {s : State} (hm : Canon s.mem) (x : XRun) (p : List Byte) (src dst map y row : Nat) :
    (xExpand s x p src dst map y row).Canon := by
  refine xBind_canon (xRef_canon hm ..) fun _ _ h => xBind_canon (xRef_canon h ..) fun _ _ h => ?_
  split
  · exact h
  refine xBind_canon (xGet_canon h ..) fun _ _ h => ?_
  extract_lets nnz pos
  split
  · exact h
  refine xBind_canon (xRead_canon h ..) fun _ _ h => ?_
  rwa [xRes_canon, openScales_mem]

theorem xBlock_canon {s : State} (hm : Canon s.mem) (x : XRun) (k : Kernel) : (xBlock s x k).Canon := by
  refine xBind_canon (xGet_canon hm ..) fun _ _ h => ?_
  split
  · exact h
  refine xBind_canon (xGet_canon h ..) fun _ _ h => ?_
  split <;> exact h

theorem xNext_canon {s : State} (hm : Canon s.mem) (x : XRun) (k : Kernel) : (xNext s x k).Canon := by
  unfold xNext
  extract_lets b p src dst one
  split
  · split
    · exact xBind_canon (xBind_canon (xGet_canon hm ..) fun _ _ h => h) fun _ _ h => h
    · exact hm
  split
  · exact hm
  split
  · exact xBind_canon (xConvert_canon hm ..) fun _ _ h => h
  · exact xBind_canon (xCompress_canon hm ..) fun _ _ h => h
  · exact xBind_canon (xExpand_canon hm ..) fun _ _ h => h

theorem xWork_canon {s : State} (hm : Canon s.mem) (kid : Nat) (k : Kernel) : (xWork s kid k).Canon := by
  unfold xWork
  split
  · exact hm
  split
  · exact xBind_canon (xBlock_canon hm ..) fun _ _ h => h
  split
  · exact xBind_canon (xNext_canon hm ..) fun _ _ h => h
  · refine xBind_canon ?_ fun _ _ h => xBind_canon (xAtom_canon h ..) fun _ _ h => h
    split
    · exact hm
    · exact xRef_canon hm ..

theorem execTransformRun_canon {s : State} (hm : Canon s.mem) (kern : Nat) : CanonAfter (execTransformRun kern s) := by
  unfold execTransformRun
  have hw : Canon (xWork s kern (s.kern kern)).1.mem := xWork_canon hm kern (s.kern kern)
  grind [setKern_mem, overrun_canon, modKern_mem, settleCtx_mem, writeCompletion_canon, CanonAfter]

/-! Return from a trap. -/

theorem requeue_canon {s : State} (hm : Canon s.mem) (u : Nat) (o : Op) : Canon (requeue s u o).mem := by
  unfold requeue
  grind [requeueRel_mem, atomicIssue_mem, treeArrive_canon, mapParts_mem]

theorem resumeHeld_canon {s : State} (hm : Canon s.mem) (u : Nat) (o : Op) : Canon (resumeHeld s u o).mem := by
  unfold resumeHeld
  grind [modStrand_mem, requeue_canon, setOp_mem]

@[simp] theorem abandonHeld_mem (s : State) (u : Nat) (o : Op) : (abandonHeld s u o).mem = s.mem := by
  unfold abandonHeld
  grind [modStrand_mem, mapParts_mem]

theorem reenterClose_canon {s : State} (hm : Canon s.mem) (u : Nat) (t : TrapRegs) :
    Canon (reenterClose s u t).mem := by
  unfold reenterClose
  grind [closeCheck_canon, modStrand_mem]

theorem eretEff_canon {x : Exe} (hm : Canon x.s.mem) (abandon : Bool) : (eretEff abandon x).Canon := by
  unfold eretEff
  grind [setStrand_mem, reenterClose_canon, abandonHeld_mem, resumeHeld_canon, exe_upd_canon, Eff.Canon]

/-! Vector operations performed. -/

theorem vecWrite_canon {s : State} (hm : Canon s.mem) (w : Nat × List Byte) (taint : List Nat) :
    Canon (vecWrite s w taint).mem := by
  unfold vecWrite
  grind [homeWrite_canon]

theorem vecFinish_canon {s : State} (hm : Canon s.mem) (u : Nat) (v : VecOp) (o : VecOut) :
    Canon (vecFinish s u v o).mem := by
  unfold vecFinish
  grind [closeCheck_canon, settleFree_mem, setStrand_mem]

@[simp] theorem vecLog_mem (s : State) (t : Strand) (v : VecOp) : (vecLog s t v).mem = s.mem := by
  unfold vecLog
  grind [logBad_mem]

theorem performVec_canon {s : State} (hm : Canon s.mem) (u : Nat) (v : VecOp) : Canon (performVec s u v).mem := by
  unfold performVec
  grind [vecLog_mem, vecFinish_canon, modStrand_mem, vecWrite_canon]

theorem execVectorPerform_canon {s : State} (hm : Canon s.mem) (uid : Nat) : CanonAfter (execVectorPerform uid s) := by
  unfold execVectorPerform
  grind [performVec_canon, CanonAfter]

/-! The dispatch. -/

theorem exec_canon {s : State} (hm : Canon s.mem) (i : Instr) : CanonAfter (exec i s) := by
  unfold exec
  cases i with
  | add | sub | min | minu | and | or | xor | andn | shl | shr | sar | rol | mul | mulh | mulhu | div | divu
    | rem | remu | max | maxu | clz | ctz | popc | sext | zext | bfx | bfxLit | bfi | bfiLit | addi |
    addiLit | li | liLit | fclass | pget | rgen =>
    exact regOp_canon hm ..
  | sel | adr | nop | yield | endStrand | pset | slotw | pcount | mbw | mbr | plget | gwait | gid | suspend
    | keos | cwait | rseed | rlog | wcall | sleep =>
    exact issue_canon hm fun _ hx => hx
  | adrLit => exact execAdrLit_canon hm ..
  | fadd | fsub | fmul | fdiv | fmin | fmax | fsqrt | ffma | fcvt => exact fpOp_canon hm ..
  | fcmp | cmp | cmpi | cmpiLit | pand | por | pxor | pnot | pmov => exact predOp_canon hm ..
  | br | brLit | jr => exact issue_canon hm fun _ hx => jump_canon hx ..
  | call | callLit | callr => exact issue_canon hm fun _ hx => callTo_canon hx ..
  | ret => exact execRet_canon hm ..
  | wspill => exact issue_canon hm fun _ hx => spillN_canon hx ..
  | wfill => exact execWfill_canon hm ..
  | rep => exact execRep_canon hm ..
  | ldB | ldBLit | ldBu | ldBuLit | ldH | ldHLit | ldHu | ldHuLit | ldW | ldWLit | ldWu | ldWuLit | ldD |
    ldDLit | ldp | ldpLit =>
    exact loadOp_canon hm ..
  | stB | stBLit | stH | stHLit | stW | stWLit | stD | stDLit => exact storeOp_canon hm ..
  | stp | stpLit => exact storePair_canon hm ..
  | aaddD | aandD | aorD | axorD | aaddW | aandW | aorW | axorW | aminD | amaxD | axchgD | acasD | aminW |
    amaxW | axchgW | acasW =>
    exact atomicOp_canon hm ..
  | agadd => exact execAgadd_canon hm ..
  | bind => exact execBind_canon hm ..
  | unbind => exact execUnbind_canon hm ..
  | acq => exact execAcq_canon hm ..
  | rel => exact execRel_canon hm ..
  | acqrel => exact execAcqrel_canon hm ..
  | waitw => exact execWaitw_canon hm ..
  | fence => exact execFence_canon hm ..
  | vclaim => exact execVclaim_canon hm ..
  | vreneg => exact execVreneg_canon hm ..
  | vfree => exact execVfree_canon hm ..
  | vadd | vsub | vmul | vfma | vmin | vmax => exact vecBin_canon hm ..
  | vabs | vneg | vexp2 | vlog2 | vrcp | vrsq | vcopy => exact vecUn_canon hm ..
  | vsum | vmaxr | vminr | vargmax => exact vecRed_canon hm ..
  | vcmp | vsel | vscale | vscaleLit | vfill | vfillLit | vrand | vrandLit | vnzc | vcvt | vcvtLit | vqmx |
    vqmxLit | vdqmx | vqa | vqaLit =>
    exact issue_canon hm fun _ hx => vecIssue_canon hx ..
  | vchain | vchainLit => exact issue_canon hm fun _ hx => vchainEff_canon hx ..
  | ashape | adatum | azero | astat | achk | cld | cldLit | cldc | cldcLit | cldSp | cldSpLit | old | oldLit
    | oldT | oldTLit | ocols | adrain | adrainLit | mseq | mseqLit =>
    exact issue_canon hm fun _ hx => exe_engine_canon hx ..
  | hopen => exact execHopen_canon hm ..
  | hclose | hbatch | hattach | hdetach | hswap | hverify => exact issue_canon hm fun _ hx => onHandle_canon hx ..
  | hlist => exact execHlist_canon hm ..
  | hfold => exact execHfold_canon hm ..
  | tclr | tset | tadd | tpref | tfind | tcut | ttot | tloadM32 | tloadM16 | tstore => exact treeIssue_canon hm ..
  | ppush | peos => exact issue_canon hm fun _ hx => pushEff_canon hx ..
  | ppop | ppeek => exact issue_canon hm fun _ hx => popEff_canon hx ..
  | pconf => exact execPconf_canon hm ..
  | plnew => exact execPlnew_canon hm ..
  | plset => exact execPlset_canon hm ..
  | cpy | cpynb => exact cpyOp_canon hm ..
  | swinit => exact execSwinit_canon hm ..
  | swwait => exact execSwwait_canon hm ..
  | rinit | rrel | rseq | reos => exact ringOp_canon hm ..
  | rawait => exact execRawait_canon hm ..
  | gpost => exact execGpost_canon hm ..
  | dqpush | dqpop | dqsplit | dqsteal => exact dequeIssue_canon hm ..
  | btest | binit | bexp | barv => exact issue_canon hm fun _ hx => barIssue_canon hx ..
  | stb => exact execStb_canon hm ..
  | bwait => exact execBwait_canon hm ..
  | ksig => exact execKsig_canon hm ..
  | klaunch => exact execKlaunch_canon hm ..
  | cgrp => exact issue_canon hm fun _ hx => cgrpEff_canon hx ..
  | cag | cagLit | crs | crsLit | ca2a | ca2aLit => exact issue_canon hm fun _ hx => collData_canon hx ..
  | cbar => exact issue_canon hm fun _ hx => collEff_canon hx ..
  | ctest => exact execCtest_canon hm ..
  | rnoise => exact execRnoise_canon hm ..
  | trap => exact issue_canon hm fun _ _ => trivial
  | eret | eretAb => exact issue_canon hm fun _ hx => eretEff_canon hx ..
  | csrr => exact execCsrr_canon hm ..
  | csrw => exact execCsrw_canon hm ..
  | csrs => exact execCsrs_canon hm ..
  | csrc => exact execCsrc_canon hm ..
  | contw => exact issue_canon hm fun _ hx => contwEff_canon hx ..
  | contr => exact execContr_canon hm ..
  | shoot => exact execShoot_canon hm ..
  | sliceWrite => exact execSliceWrite_canon hm ..
  | create => exact execCreate_canon hm
  | destroy => exact execDestroy_canon hm
  | qopen => exact execQopen_canon hm
  | qclose => exact execQclose_canon hm
  | linkup => exact execLinkup_canon hm
  | linkfence => exact execLinkfence_canon hm
  | linkdown => exact execLinkdown_canon hm
  | settvec => exact execSettvec_canon hm
  | dbgset => exact execDbgset_canon hm
  | dstop => exact execDstop_canon hm
  | dresume => exact execDresume_canon hm
  | trcset => exact execTrcset_canon hm
  | loadobj => exact execLoadobj_canon hm
  | finalisedCacheDrop | noiseHealthPass | tracePushback => exact hm
  | powerUp => exact execPowerUp_canon hm ..
  | pendingReturn => exact execPendingReturn_canon hm ..
  | repIterationIssue => exact execRepIterationIssue_canon hm ..
  | thermalInterval => exact thermalStep_canon hm ..
  | thermalDisplacement => exact execThermalDisplacement_canon hm ..
  | noiseWordDelivery => exact execNoiseWordDelivery_canon hm ..
  | noiseHealthFail => exact execNoiseHealthFail_canon hm ..
  | storeAtHome => exact execStoreAtHome_canon hm ..
  | readAtHome => exact execReadAtHome_canon hm ..
  | atomicAtHome => exact execAtomicAtHome_canon hm ..
  | pageWalk => exact execPageWalk_canon hm ..
  | sliceScrub => exact execSliceScrub_canon hm ..
  | accessCountFlush => exact execAccessCountFlush_canon hm ..
  | hotPageRecord => exact execHotPageRecord_canon hm ..
  | wbRetranslate => exact execWbRetranslate_canon hm ..
  | releasePerform => exact relStep_canon hm ..
  | acqAtHome => exact execAcqAtHome_canon hm ..
  | acqrelExchange => exact execAcqrelExchange_canon hm ..
  | waitwRegister => exact execWaitwRegister_canon hm ..
  | watchPoll => exact execWatchPoll_canon hm ..
  | scopeMissHandle => exact execScopeMissHandle_canon hm ..
  | bindPropagate => exact execBindPropagate_canon hm ..
  | probeEcho => exact execProbeEcho_canon hm ..
  | laneGrant => exact execLaneGrant_canon hm ..
  | vectorPerform => exact execVectorPerform_canon hm ..
  | engineOpPerform => exact execEngineOpPerform_canon hm ..
  | sectorRequest => exact execSectorRequest_canon hm ..
  | sectorReply => exact execSectorReply_canon hm ..
  | traverseReservation => exact execTraverseReservation_canon hm ..
  | traverseData => exact execTraverseData_canon hm ..
  | slotFrameBoundary => exact execSlotFrameBoundary_canon hm ..
  | sliceRerun => exact execSliceRerun_canon hm ..
  | handleHomePerform => exact onSent_canon hm fun _ => performHandle_canon hm ..
  | handleScrub => exact execHandleScrub_canon hm ..
  | foldJobStart => exact execFoldJobStart_canon hm ..
  | foldCommit => exact execFoldCommit_canon hm ..
  | foldFail => exact execFoldFail_canon hm ..
  | treeUnitPerform => exact execTreeUnitPerform_canon hm ..
  | portValueLand => exact execPortValueLand_canon hm ..
  | portCreditReturn => exact execPortCreditReturn_canon hm ..
  | portClosedNotice => exact execPortClosedNotice_canon hm ..
  | portDeadlock => exact portDeadlock_canon hm ..
  | copyStart => exact execCopyStart_canon hm ..
  | copyError => exact execCopyError_canon hm ..
  | copyComplete => exact execCopyComplete_canon hm ..
  | gatherPerform => exact execGatherPerform_canon hm ..
  | groupPlacement => exact execGroupPlacement_canon hm ..
  | dequeUnitPerform => exact execDequeUnitPerform_canon hm ..
  | idleMonitorTest => exact execIdleMonitorTest_canon hm ..
  | barrierUnitPerform => exact execBarrierUnitPerform_canon hm ..
  | barrierPoll => exact execBarrierPoll_canon hm ..
  | queueTake => exact execQueueTake_canon hm ..
  | overrun => exact overrun_canon hm ..
  | kernelCompletion => exact execKernelCompletion_canon hm ..
  | transformRun => exact execTransformRun_canon hm ..
  | meshInterrupt => exact execMeshInterrupt_canon hm ..
  | saveComplete => exact execSaveComplete_canon hm ..
  | restore => exact execRestore_canon hm ..
  | redelivery => exact execRedelivery_canon hm ..
  | spillRetry => exact execSpillRetry_canon hm ..
  | portTrainingEnd => exact execPortTrainingEnd_canon hm ..
  | laneFailure => exact execLaneFailure_canon hm ..
  | messageDiscard => exact execMessageDiscard_canon hm ..
  | meshCountDump => exact execMeshCountDump_canon hm
  | collectiveReservation => exact execCollectiveReservation_canon hm ..
  | collectiveChunk => exact execCollectiveChunk_canon hm ..
  | reductionCombine => exact execReductionCombine_canon hm ..
  | reductionPartialSpill => exact execReductionPartialSpill_canon hm ..
  | sample => exact execSample_canon hm ..
  | flitReplay => exact execFlitReplay_canon hm ..
  | powerRemoval => exact execPowerRemoval_canon hm
  | promiseMissed => exact execPromiseMissed_canon hm ..
  | tracePushbackRelease => exact execTracePushbackRelease_canon hm
  | windowEnd => exact execWindowEnd_canon hm ..

/-! A step: its move, the time that passes, and the move made. -/

@[simp] theorem beginTurn_mem (s : State) (u : Nat) : (beginTurn s u).mem = s.mem :=
  wakeRun_mem ..

theorem turn_canon {s : State} (hm : Canon s.mem) (u : Nat) : CanonAfter (turn u s) := by
  unfold turn
  extract_lets t had r
  have hr : Canon r.1.mem := by rwa [fetchInstr_mem, beginTurn_mem]
  clear_value r
  split
  · rwa [canonAfter_next, stopStrand_mem]
  split
  · exact hm
  split
  · exact hm
  split
  · exact endTurn_canon (s := s.setStrand u had) hm u
  split
  · exact trapAt_canon hr ..
  split
  · split
    · rwa [canonAfter_next, stopStrand_mem]
    · exact trapAt_canon hr ..
  split
  · exact trapAt_canon hr ..
  · exact exec_canon hr _

@[simp] theorem plan_mem (s : State) : (plan s).2.2.mem = s.mem := by
  unfold plan
  split <;> rfl

theorem beforeTurn_canon {s : State} (hm : Canon s.mem) {q : Move × Nat × State} (hq : Canon q.2.2.mem) :
    Canon (beforeTurn s q).2.2.mem := by
  unfold beforeTurn
  grind

theorem takeMove_canon {s : State} (hm : Canon s.mem) : Canon (takeMove s).2.2.mem := by
  unfold takeMove
  have hs : Canon (sweepDet s).mem := by rwa [sweepDet_mem]
  extract_lets swept
  split
  · next q hq => rwa [sweepNext_mem hq]
  · exact beforeTurn_canon hs (by rwa [plan_mem])

theorem makeMove_canon {s : State} (hm : Canon s.mem) (m : Move) : CanonAfter (makeMove s m) := by
  unfold makeMove
  split
  · exact turn_canon hm _
  · split
    · exact exec_canon hm _
    · exact hm
  · exact nodeWrite_canon hm ..
  · rwa [canonAfter_next, upsetWord_mem]
  · rwa [canonAfter_next, selectGuard_mem]
  · rwa [canonAfter_next, lineError_mem]
  · rwa [canonAfter_next, residueError_mem]
  · rwa [canonAfter_next, peerAct_mem]
  · exact hm

theorem step_canon {s : State} (hm : Canon s.mem) : CanonAfter (step s) := by
  unfold step
  extract_lets q s'
  have hs' : Canon s'.mem := elapse_canon (takeMove_canon hm) _
  clear_value q s'
  split
  · refine inDet_canon (makeMove_canon ?_ _)
    exact hs'
  · exact makeMove_canon hs' _

/-- Settles O58: a step first takes its move, lets time pass, then makes the move, and each of the three keeps memory
canonical. -/
theorem stepKeepsMemory : Obligations.StepKeepsMemory := by
  unfold Obligations.StepKeepsMemory
  intro s t hm ht
  have h := step_canon hm
  rwa [ht] at h

/-! Canonical memory is determined by what it reads as; a write at a home. -/

/-- Canonical memory lists an address exactly with the byte that it reads as, if that byte is not the default. -/
theorem mem_iff_memGet {m : List Host.Cell} (hm : Canon m) (a : Nat) (b : Byte) :
    (a, b) ∈ m ↔ memGet m a = b ∧ b ≠ memDefault := by
  obtain ⟨hrise, hne⟩ := hm
  induction m with
  | nil =>
    constructor
    · nofun
    · rintro ⟨rfl, h⟩
      exact absurd rfl h
  | cons c m ih =>
    obtain ⟨hlow, hrise⟩ := List.pairwise_cons.1 hrise
    obtain ⟨hc, hne⟩ := List.forall_mem_cons.1 hne
    have ih := ih hrise hne
    rw [List.mem_cons, ih]
    by_cases h : a = c.1
    · -- the head is the only entry of its address
      have hnot : ¬(memGet m a = b ∧ b ≠ memDefault) := fun hb => absurd (hlow _ (ih.2 hb)) (by simp [h])
      have hget : memGet (c :: m) a = c.2 := if_pos h
      grind
    · have hget : memGet (c :: m) a = memGet m a := if_neg h
      grind

/-- Canonical memory is determined by what its addresses read as. -/
theorem canon_ext {m m' : List Host.Cell} (hm : Canon m) (hm' : Canon m') (h : ∀ a, memGet m a = memGet m' a) :
    m = m' := by
  have : Std.Irrefl fun x y : Host.Cell => x.1 < y.1 := ⟨fun x => Nat.lt_irrefl x.1⟩
  have : Std.Antisymm fun x y : Host.Cell => x.1 < y.1 := ⟨fun _ _ hxy hyx => absurd hxy (Nat.lt_asymm hyx)⟩
  refine List.Pairwise.eq_of_mem_iff hm.1 hm'.1 fun c => ?_
  rw [mem_iff_memGet hm, mem_iff_memGet hm', h]

theorem wrote_memPut (m : List Host.Cell) (a : Nat) (bs : List Byte) : wrote m (memPut m a bs) a bs := by
  intro x
  rw [memGet_memPut]
  split
  · exact (List.getD_eq_getElem bs 0 _).symm
  · rfl

theorem readBytes_of_wrote {m : List Host.Cell} {s : State} {pa : Nat} {bs : List Byte} (h : wrote m s.mem pa bs) :
    readBytes s pa bs.length = bs := by
  refine List.ext_getElem (by simp [readBytes, upto]) fun i _ hi => ?_
  simp [readBytes, upto, h, hi]

/-- The same bytes written twice are as written once: both memories are canonical and read the same. -/
theorem memPut_memPut {m : List Host.Cell} (hm : Canon m) (a : Nat) (bs : List Byte) :
    memPut (memPut m a bs) a bs = memPut m a bs := by
  refine canon_ext (canon_memPut (canon_memPut hm a bs) a bs) (canon_memPut hm a bs) fun x => ?_
  rw [wrote_memPut, wrote_memPut]
  split <;> rfl

/-- Settles O20: a write at a home is a write of its bytes to memory, whatever watches it fires. -/
theorem memoryCanonical : Obligations.MemoryCanonical := by
  unfold Obligations.MemoryCanonical
  refine ⟨canon_nil, fun s pa bs hm => ?_⟩
  have hw : wrote s.mem (homeWrite s pa bs).mem pa bs := by
    rw [homeWrite_mem]
    exact wrote_memPut _ _ _
  refine ⟨homeWrite_canon hm pa bs, hw, readBytes_of_wrote hw, ?_⟩
  simp only [homeWrite_mem]
  exact memPut_memPut hm pa bs

end Sys2Proof.Machine

/-! PROOFS. Decoding of encoded words (R45 to R56): each format's fields are read back from its operand bits, each
form's words by `rawDecode`; one case split over the instructions puts them together. -/

namespace Sys2Proof.Laws
open Sys2Proof

/-! The base word and the extended words (R45, R46, R54). -/

theorem fld_word_op {h : Hdr} {len op x : Nat} (ho : op < 2 ^ 7) (hx : x < 2 ^ 17) :
    fld (word h len op x) 17 7 = op := by
  unfold fld word
  omega

theorem fld_word_operands {h : Hdr} {len op x : Nat} (hx : x < 2 ^ 17) : fld (word h len op x) 0 17 = x := by
  unfold fld word
  omega

theorem bt_eq_iff {x lo : Nat} {b : Bool} : bt x lo = b ↔ x / 2 ^ lo % 2 = b.toNat := by
  rw [bt, Bool.eq_iff_iff, beq_iff_eq]
  cases b <;> simp

theorem hdrOf_word {h : Hdr} {len op x : Nat} (ho : op < 2 ^ 7) (hx : x < 2 ^ 17) :
    hdrOf (word h len op x) = h := by
  obtain ⟨c, p, n⟩ := h
  have hc := Bool.toNat_lt c
  have hn := Bool.toNat_lt n
  simp only [hdrOf, f16, word, Hdr.mk.injEq, Fin.ext_iff, Fin.val_ofNat, bt_eq_iff]
  omega

theorem word_lt {h : Hdr} {len op x : Nat} (hl : len < 4) (ho : op < 2 ^ 7) (hx : x < 2 ^ 17) :
    word h len op x < 2 ^ 32 := by
  have hc := Bool.toNat_lt h.c
  have hn := Bool.toNat_lt h.pn
  unfold word
  omega

theorem extOf_words (e : Ext) : extOf e.word1 e.word2 = e := by
  obtain ⟨f0, f1, f2, f3, o0, o1, o2, mk, md, im⟩ := e
  simp only [extOf, Ext.word1, Ext.word2, rg, f16, bv, Ext.mk.injEq, Fin.ext_iff, Fin.val_ofNat, ← BitVec.toNat_inj,
    BitVec.toNat_ofNat]
  omega

theorem litOf_halves (l : Word) : litOf (lo32 l) (hi32 l) = l := by
  apply BitVec.eq_of_toNat_eq
  simp only [litOf, lo32, hi32, BitVec.toNat_ofNat]
  omega

theorem halves_lt (l : Word) : ∀ w ∈ [lo32 l, hi32 l], w < 2 ^ 32 := by
  simp only [List.forall_mem_cons, lo32, hi32, List.not_mem_nil, false_imp_iff, forall_true_iff, and_true]
  omega

theorem extWords_lt (e : Ext) : ∀ w ∈ [e.word1, e.word2], w < 2 ^ 32 := by
  simp only [List.forall_mem_cons, Ext.word1, Ext.word2, List.not_mem_nil, false_imp_iff, forall_true_iff, and_true]
  omega

theorem fld_sub8 {n : Nat} (hn : n < 2 ^ 8) : fld (n * 2 ^ 9) 9 8 = n := by
  unfold fld
  omega

/-! The fields of each format (R51). -/

theorem fields_xREG3 (rd ra rb : Reg) {sub : Nat} (hs : sub < 2 ^ 2) :
    rg (xREG3 rd ra rb sub) 12 = rd ∧ rg (xREG3 rd ra rb sub) 7 = ra ∧ rg (xREG3 rd ra rb sub) 2 = rb ∧
    fld (xREG3 rd ra rb sub) 0 2 = sub := by
  simp only [rg, fld, xREG3, Fin.ext_iff, Fin.val_ofNat]
  omega

theorem fields_xIMM7 (rd ra : Reg) (imm : BitVec 7) :
    rg (xIMM7 rd ra imm) 12 = rd ∧ rg (xIMM7 rd ra imm) 7 = ra ∧ bv 7 (xIMM7 rd ra imm) 0 = imm := by
  simp only [rg, bv, xIMM7, Fin.ext_iff, Fin.val_ofNat, ← BitVec.toNat_inj, BitVec.toNat_ofNat]
  omega

theorem fields_xIMM12 (rd : Reg) (imm : BitVec 12) :
    rg (xIMM12 rd imm) 12 = rd ∧ bv 12 (xIMM12 rd imm) 0 = imm := by
  simp only [rg, bv, xIMM12, Fin.ext_iff, Fin.val_ofNat, ← BitVec.toNat_inj, BitVec.toNat_ofNat]
  omega

theorem fields_xWID (rd ra : Reg) (n : BitVec 6) {sub : Nat} (hs : sub < 2 ^ 1) :
    rg (xWID rd ra n sub) 12 = rd ∧ rg (xWID rd ra n sub) 7 = ra ∧ bv 6 (xWID rd ra n sub) 1 = n ∧
    fld (xWID rd ra n sub) 0 1 = sub := by
  simp only [rg, bv, fld, xWID, Fin.ext_iff, Fin.val_ofNat, ← BitVec.toNat_inj, BitVec.toNat_ofNat]
  omega

theorem fields_xMEM (rd base : Reg) (disp : BitVec 6) {sub : Nat} (hs : sub < 2 ^ 1) :
    rg (xMEM rd base disp sub) 12 = rd ∧ rg (xMEM rd base disp sub) 7 = base ∧
    bv 6 (xMEM rd base disp sub) 1 = disp ∧ fld (xMEM rd base disp sub) 0 1 = sub := by
  simp only [rg, bv, fld, xMEM, Fin.ext_iff, Fin.val_ofNat, ← BitVec.toNat_inj, BitVec.toNat_ofNat]
  omega

theorem fields_xBRA (off : BitVec 17) :
    bv 17 (xBRA off) 0 = off := by
  simp only [bv, xBRA, ← BitVec.toNat_inj, BitVec.toNat_ofNat]
  omega

theorem fields_xCAL (kc : BitVec 2) (off : BitVec 15) :
    bv 2 (xCAL kc off) 15 = kc ∧ bv 15 (xCAL kc off) 0 = off := by
  simp only [bv, xCAL, ← BitVec.toNat_inj, BitVec.toNat_ofNat]
  omega

theorem fields_xJMP (kc : BitVec 2) (ra : Reg) {sub : Nat} (hs : sub < 2 ^ 2) :
    bv 2 (xJMP kc ra sub) 15 = kc ∧ rg (xJMP kc ra sub) 7 = ra ∧ fld (xJMP kc ra sub) 0 2 = sub := by
  simp only [bv, rg, fld, xJMP, Fin.ext_iff, Fin.val_ofNat, ← BitVec.toNat_inj, BitVec.toNat_ofNat]
  omega

theorem fields_xMSC (kc : BitVec 2) {sub : Nat} (hs : sub < 2 ^ 3) :
    bv 2 (xMSC kc sub) 12 = kc ∧ fld (xMSC kc sub) 14 3 = sub := by
  simp only [bv, fld, xMSC, ← BitVec.toNat_inj, BitVec.toNat_ofNat]
  omega

theorem fields_xCPRF (cd : Pr) (ra rb : Reg) (cond : FCond) :
    f16 (xCPRF cd ra rb cond) 13 = cd ∧ rg (xCPRF cd ra rb cond) 8 = ra ∧ rg (xCPRF cd ra rb cond) 3 = rb ∧
    fld (xCPRF cd ra rb cond) 0 3 = cond.code := by
  have := code_lt_fcond cond
  simp only [f16, rg, fld, xCPRF, Fin.ext_iff, Fin.val_ofNat]
  omega

theorem fields_xCPRI (cd : Pr) (ra rb : Reg) (cond : ICond) :
    f16 (xCPRI cd ra rb cond) 13 = cd ∧ rg (xCPRI cd ra rb cond) 8 = ra ∧ rg (xCPRI cd ra rb cond) 3 = rb ∧
    fld (xCPRI cd ra rb cond) 0 3 = cond.code := by
  have := code_lt_icond cond
  simp only [f16, rg, fld, xCPRI, Fin.ext_iff, Fin.val_ofNat]
  omega

theorem fields_xCPI (cd : Pr) (ra : Reg) (cond : ICond) (imm : BitVec 5) :
    f16 (xCPI cd ra cond imm) 13 = cd ∧ rg (xCPI cd ra cond imm) 8 = ra ∧
    fld (xCPI cd ra cond imm) 5 3 = cond.code ∧ bv 5 (xCPI cd ra cond imm) 0 = imm := by
  have := code_lt_icond cond
  simp only [f16, rg, fld, bv, xCPI, Fin.ext_iff, Fin.val_ofNat, ← BitVec.toNat_inj, BitVec.toNat_ofNat]
  omega

theorem fields_xPRD (cd ca cb : Pr) {sub : Nat} (hs : sub < 2 ^ 3) :
    f16 (xPRD cd ca cb sub) 13 = cd ∧ f16 (xPRD cd ca cb sub) 9 = ca ∧ f16 (xPRD cd ca cb sub) 5 = cb ∧
    fld (xPRD cd ca cb sub) 0 3 = sub := by
  simp only [f16, fld, xPRD, Fin.ext_iff, Fin.val_ofNat]
  omega

theorem fields_xREPF (n : BitVec 3) (k : BitVec 8) (stride : BitVec 6) :
    bv 3 (xREPF n k stride) 14 = n ∧ bv 8 (xREPF n k stride) 6 = k ∧ bv 6 (xREPF n k stride) 0 = stride := by
  simp only [bv, xREPF, ← BitVec.toNat_inj, BitVec.toNat_ofNat]
  omega

theorem fields_xFCV (rd ra : Reg) (kind : CvtKind) (rm : DRm) (sat : Bool) :
    rg (xFCV rd ra kind rm sat) 12 = rd ∧ rg (xFCV rd ra kind rm sat) 7 = ra ∧
    fld (xFCV rd ra kind rm sat) 3 4 = kind.code ∧ fld (xFCV rd ra kind rm sat) 1 2 = rm.code ∧
    bt (xFCV rd ra kind rm sat) 0 = sat := by
  have := code_lt_cvt kind; have := code_lt_drm rm; have := Bool.toNat_lt sat
  simp only [rg, fld, bt_eq_iff, xFCV, Fin.ext_iff, Fin.val_ofNat]
  omega

theorem fields_xORD (rd ra : Reg) (scope : Scope) {sub : Nat} (hs : sub < 2 ^ 2) :
    rg (xORD rd ra scope sub) 12 = rd ∧ rg (xORD rd ra scope sub) 7 = ra ∧
    fld (xORD rd ra scope sub) 4 3 = scope.code ∧ fld (xORD rd ra scope sub) 0 2 = sub := by
  have := code_lt_scope scope
  simp only [rg, fld, xORD, Fin.ext_iff, Fin.val_ofNat]
  omega

theorem fields_xFEN (paths : BitVec 7) (scope : Scope) :
    bv 7 (xFEN paths scope) 10 = paths ∧ fld (xFEN paths scope) 7 3 = scope.code := by
  have := code_lt_scope scope
  simp only [bv, fld, xFEN, ← BitVec.toNat_inj, BitVec.toNat_ofNat]
  omega

theorem fields_xVEC (pd pa pb : Ptr) (rn : Reg) (et : ElTy) :
    f8 (xVEC pd pa pb rn et) 14 = pd ∧ f8 (xVEC pd pa pb rn et) 11 = pa ∧ f8 (xVEC pd pa pb rn et) 8 = pb ∧
    rg (xVEC pd pa pb rn et) 3 = rn ∧ fld (xVEC pd pa pb rn et) 0 3 = et.code := by
  have := code_lt_elty et
  simp only [f8, rg, fld, xVEC, Fin.ext_iff, Fin.val_ofNat]
  omega

theorem fields_xVUN (pd pa : Ptr) (rn : Reg) (et : ElTy) {sub : Nat} (hs : sub < 2 ^ 3) :
    f8 (xVUN pd pa rn et sub) 14 = pd ∧ f8 (xVUN pd pa rn et sub) 11 = pa ∧ rg (xVUN pd pa rn et sub) 3 = rn ∧
    fld (xVUN pd pa rn et sub) 0 3 = et.code ∧ fld (xVUN pd pa rn et sub) 8 3 = sub := by
  have := code_lt_elty et
  simp only [f8, rg, fld, xVUN, Fin.ext_iff, Fin.val_ofNat]
  omega

theorem fields_xVRD (mb : Obj2) (pa : Ptr) (rn : Reg) (et : ElTy) {sub : Nat} (hs : sub < 2 ^ 3) :
    f4 (xVRD mb pa rn et sub) 14 = mb ∧ f8 (xVRD mb pa rn et sub) 11 = pa ∧ rg (xVRD mb pa rn et sub) 3 = rn ∧
    fld (xVRD mb pa rn et sub) 0 3 = et.code ∧ fld (xVRD mb pa rn et sub) 8 3 = sub := by
  have := code_lt_elty et
  simp only [f4, f8, rg, fld, xVRD, Fin.ext_iff, Fin.val_ofNat]
  omega

theorem fields_xPTR (p : Ptr) (ra rb : Reg) {sub : Nat} (hs : sub < 2 ^ 2) :
    f8 (xPTR p ra rb sub) 14 = p ∧ rg (xPTR p ra rb sub) 7 = ra ∧ rg (xPTR p ra rb sub) 2 = rb ∧
    fld (xPTR p ra rb sub) 0 2 = sub := by
  simp only [f8, rg, fld, xPTR, Fin.ext_iff, Fin.val_ofNat]
  omega

theorem fields_xTSH (a : Tile) (rows : BitVec 8) (cc : BitVec 2) :
    f16 (xTSH a rows cc) 13 = a ∧ bv 8 (xTSH a rows cc) 5 = rows ∧ bv 2 (xTSH a rows cc) 3 = cc := by
  simp only [f16, bv, xTSH, Fin.ext_iff, Fin.val_ofNat, ← BitVec.toNat_inj, BitVec.toNat_ofNat]
  omega

theorem fields_xTDT (a : Tile) (d : BitVec 9) :
    f16 (xTDT a d) 13 = a ∧ bv 9 (xTDT a d) 4 = d := by
  simp only [f16, bv, xTDT, Fin.ext_iff, Fin.val_ofNat, ← BitVec.toNat_inj, BitVec.toNat_ofNat]
  omega

theorem fields_xTMS (a : Tile) (rd : Reg) {sub : Nat} (hs : sub < 2 ^ 3) :
    f16 (xTMS a rd sub) 13 = a ∧ rg (xTMS a rd sub) 8 = rd ∧ fld (xTMS a rd sub) 0 3 = sub := by
  simp only [f16, rg, fld, xTMS, Fin.ext_iff, Fin.val_ofNat]
  omega

theorem fields_xOB2 (o : Obj2) (rd ra : Reg) {sub : Nat} (hs : sub < 2 ^ 3) :
    f4 (xOB2 o rd ra sub) 15 = o ∧ rg (xOB2 o rd ra sub) 10 = rd ∧ rg (xOB2 o rd ra sub) 5 = ra ∧
    fld (xOB2 o rd ra sub) 0 3 = sub := by
  simp only [f4, rg, fld, xOB2, Fin.ext_iff, Fin.val_ofNat]
  omega

theorem fields_xTRE (t : TreeR) (rd ra : Reg) {sub : Nat} (hs : sub < 2 ^ 4) :
    f8 (xTRE t rd ra sub) 14 = t ∧ rg (xTRE t rd ra sub) 9 = rd ∧ rg (xTRE t rd ra sub) 4 = ra ∧
    fld (xTRE t rd ra sub) 0 4 = sub := by
  simp only [f8, rg, fld, xTRE, Fin.ext_iff, Fin.val_ofNat]
  omega

theorem fields_xTRL (t : TreeR) (ra rb : Reg) {sub : Nat} (hs : sub < 2 ^ 4) :
    f8 (xTRL t ra rb sub) 14 = t ∧ rg (xTRL t ra rb sub) 9 = ra ∧ rg (xTRL t ra rb sub) 4 = rb ∧
    fld (xTRL t ra rb sub) 0 4 = sub := by
  simp only [f8, rg, fld, xTRL, Fin.ext_iff, Fin.val_ofNat]
  omega

theorem fields_xPRT (b : Bearing) (rd : Reg) (cd : Pr) {sub : Nat} (hs : sub < 2 ^ 3) :
    fld (xPRT b rd cd sub) 14 3 = b.code ∧ rg (xPRT b rd cd sub) 9 = rd ∧ f16 (xPRT b rd cd sub) 5 = cd ∧
    fld (xPRT b rd cd sub) 0 3 = sub := by
  have := code_lt_bearing b
  simp only [fld, rg, f16, xPRT, Fin.ext_iff, Fin.val_ofNat]
  omega

theorem fields_xMBX (mb : Obj2) (rd : Reg) {sub : Nat} (hs : sub < 2 ^ 2) :
    f4 (xMBX mb rd sub) 15 = mb ∧ rg (xMBX mb rd sub) 10 = rd ∧ fld (xMBX mb rd sub) 0 2 = sub := by
  simp only [f4, rg, fld, xMBX, Fin.ext_iff, Fin.val_ofNat]
  omega

theorem fields_xRNG (g : Ring) (rd ra : Reg) {sub : Nat} (hs : sub < 2 ^ 3) :
    f16 (xRNG g rd ra sub) 13 = g ∧ rg (xRNG g rd ra sub) 8 = rd ∧ rg (xRNG g rd ra sub) 3 = ra ∧
    fld (xRNG g rd ra sub) 0 3 = sub := by
  simp only [f16, rg, fld, xRNG, Fin.ext_iff, Fin.val_ofNat]
  omega

theorem fields_xSYS (rd : Reg) (imm : BitVec 8) {sub : Nat} (hs : sub < 2 ^ 4) :
    rg (xSYS rd imm sub) 8 = rd ∧ bv 8 (xSYS rd imm sub) 0 = imm ∧ fld (xSYS rd imm sub) 0 8 = imm.toNat ∧
    f16 (xSYS rd imm sub) 0 = Fin.ofNat 16 imm.toNat ∧ fld (xSYS rd imm sub) 13 4 = sub := by
  simp only [rg, bv, fld, f16, xSYS, Fin.ext_iff, Fin.val_ofNat, ← BitVec.toNat_inj, BitVec.toNat_ofNat]
  omega

theorem bt_xSYS (rd : Reg) (imm : BitVec 8) (sub : Nat) : bt (xSYS rd imm sub) 0 = imm.getLsbD 0 := by
  have h : xSYS rd imm sub / 2 ^ 0 % 2 = imm.toNat % 2 := by
    unfold xSYS
    omega
  rw [bt, h, BitVec.getLsbD, Nat.testBit_zero, beq_eq_decide]

/-! Each enumeration is read from its code. -/

theorem ofCode_code_scope (x : Scope) : Scope.ofCode x.code = some x := by cases x <;> rfl
theorem ofCode_code_fcond (x : FCond) : FCond.ofCode x.code = some x := by cases x <;> rfl
theorem ofCode_code_icond (x : ICond) : ICond.ofCode x.code = some x := by cases x <;> rfl
theorem ofCode_code_cvt (x : CvtKind) : CvtKind.ofCode x.code = some x := by cases x <;> rfl
theorem ofCode_code_drm (x : DRm) : DRm.ofCode x.code = some x := by cases x <;> rfl
theorem ofCode_code_elty (x : ElTy) : ElTy.ofCode x.code = some x := by cases x <;> rfl
theorem ofCode_code_bearing (x : Bearing) : Bearing.ofCode x.code = some x := by cases x <;> rfl

/-! The four forms (R46): what `rawDecode` does with a first word of each length. -/

theorem rawDecode_of_short {w : Nat} {i : Instr} (hl : fld w 30 2 = 0)
    (hi : rawShort (hdrOf w) (fld w 17 7) (fld w 0 17) = some i) (rest : List Nat) : rawDecode (w :: rest) = .ok i := by
  simp only [rawDecode, hl, hi]

theorem rawDecode_of_lit {w l u : Nat} {i : Instr} (hl : fld w 30 2 = 1)
    (hi : rawLit (hdrOf w) (fld w 17 7) (fld w 0 17) (litOf l u) = some i) (rest : List Nat) :
    rawDecode (w :: l :: u :: rest) = .ok i := by
  simp only [rawDecode, hl, hi]

theorem rawDecode_of_ext {w a b : Nat} {i : Instr} (hl : fld w 30 2 = 2)
    (hi : rawExt (hdrOf w) (fld w 17 7) (fld (fld w 0 17) 9 8) (extOf a b) = some i) (rest : List Nat) :
    rawDecode (w :: a :: b :: rest) = .ok i := by
  simp only [rawDecode, hl, hi]

theorem rawDecode_of_extLit {w a b l u : Nat} {i : Instr} (hl : fld w 30 2 = 3)
    (hi : rawExtLit (hdrOf w) (fld w 17 7) (fld (fld w 0 17) 9 8) (extOf a b) (litOf l u) = some i) (rest : List Nat) :
    rawDecode (w :: a :: b :: l :: u :: rest) = .ok i := by
  simp only [rawDecode, hl, hi]

/-- The words are read as the instruction, whatever stands behind them, and each is a word. -/
structure ReadAs (i : Instr) (ws : List Nat) : Prop where
  raw : ∀ rest, rawDecode (ws ++ rest) = .ok i
  count : ∃ w rest, ws = w :: rest ∧ numWords w = rest.length + 1
  fits : ∀ w ∈ ws, w < 2 ^ 32

theorem counted.of_ne_nil {ws : List Nat} (h : counted ws) (hne : ws ≠ []) :
    ∃ w rest, ws = w :: rest ∧ numWords w = rest.length + 1 := h.resolve_left hne

section
variable {i : Instr} {h : Hdr} {op : Nat} (ho : op < 2 ^ 7)
include ho

theorem readAs_short {x : Nat} (hx : x < 2 ^ 17) (hi : rawShort h op x = some i) : ReadAs i (shortForm h op x) where
  raw rest := by
    refine rawDecode_of_short (fld_len h 0 op x (by decide) ho hx) ?_ rest
    rwa [hdrOf_word ho hx, fld_word_op ho hx, fld_word_operands hx]
  count := (counted_short h op x ho hx).of_ne_nil nofun
  fits := List.forall_mem_singleton.2 (word_lt (by decide) ho hx)

theorem readAs_lit {x : Nat} {lit : Word} (hx : x < 2 ^ 17) (hi : rawLit h op x lit = some i) :
    ReadAs i (litForm h op x lit) where
  raw rest := by
    refine rawDecode_of_lit (fld_len h 1 op x (by decide) ho hx) ?_ rest
    rwa [hdrOf_word ho hx, fld_word_op ho hx, fld_word_operands hx, litOf_halves]
  count := (counted_lit h op x lit ho hx).of_ne_nil nofun
  fits := List.forall_mem_cons.2 ⟨word_lt (by decide) ho hx, halves_lt lit⟩

theorem readAs_ext {sub8 : Nat} {e : Ext} (hs : sub8 < 2 ^ 8) (hi : rawExt h op sub8 e = some i) :
    ReadAs i (extForm h op sub8 e) where
  raw rest := by
    have hx : sub8 * 2 ^ 9 < 2 ^ 17 := by omega
    refine rawDecode_of_ext (fld_len h 2 op _ (by decide) ho hx) ?_ rest
    rwa [hdrOf_word ho hx, fld_word_op ho hx, fld_word_operands hx, fld_sub8 hs, extOf_words]
  count := (counted_ext h op sub8 e ho hs).of_ne_nil nofun
  fits := List.forall_mem_cons.2 ⟨word_lt (by decide) ho (by omega), extWords_lt e⟩

theorem readAs_extLit {sub8 : Nat} {e : Ext} {lit : Word} (hs : sub8 < 2 ^ 8)
    (hi : rawExtLit h op sub8 e lit = some i) : ReadAs i (extLitForm h op sub8 e lit) where
  raw rest := by
    have hx : sub8 * 2 ^ 9 < 2 ^ 17 := by omega
    refine rawDecode_of_extLit (fld_len h 3 op _ (by decide) ho hx) ?_ rest
    rwa [hdrOf_word ho hx, fld_word_op ho hx, fld_word_operands hx, fld_sub8 hs, extOf_words, litOf_halves]
  count := (counted_extLit h op sub8 e lit ho hs).of_ne_nil nofun
  fits := List.forall_mem_cons.2 ⟨word_lt (by decide) ho (by omega),
    List.forall_mem_append.2 ⟨extWords_lt e, halves_lt lit⟩⟩

end

/-! Every instruction, by the form and the format of its words. -/

theorem rawShort_sel {h : Hdr} {cs : Pr} {x : Nat} (hx : fld x 0 2 = cs.val % 4) :
    rawShort h (12 + cs.val / 4) x = some (.sel h cs (rg x 12) (rg x 7) (rg x 2)) := by
  obtain ⟨cs, hcs⟩ := cs
  obtain hq | hq | hq | hq : cs / 4 = 0 ∨ cs / 4 = 1 ∨ cs / 4 = 2 ∨ cs / 4 = 3 := by omega
  all_goals
    simp only [rawShort, rawShort0, hq, hx, Nat.reduceAdd, Nat.reduceDiv, Option.some.injEq, Instr.sel.injEq,
      Fin.ext_iff, Fin.val_ofNat, true_and, and_true]
    omega

theorem readAs_encode {i : Instr} (hw : i.wf = true) (hne : encode i ≠ []) : ReadAs i (encode i) := by
  cases i with
  | add | sub | min | minu | and | or | xor | andn | shl | shr | sar | rol | mul | mulh | mulhu | div | divu | rem
    | remu | max | maxu | clz | ctz | popc | bfx | bfi | fadd | fsub | fmul | fdiv | fmin | fmax | fsqrt | fclass
    | ffma | aaddD | aandD | aorD | axorD | aaddW | aandW | aorW | axorW | aminD | amaxD | axchgD | acasD | aminW
    | amaxW | axchgW | acasW | agadd | bind | unbind | vclaim | vreneg | vfree | slotw | cpy | cpynb | swinit
    | swwait | gpost | gwait | gid | dqpush | dqpop | dqsplit | dqsteal | suspend | btest | stb | binit | bexp
    | barv | bwait | ksig | klaunch | keos | cwait | ctest | rseed | rgen | rnoise | rlog =>
    exact readAs_short (by decide) (lt_xREG3 _ _ _ _ (by decide))
      (by simp [rawShort, rawShort0, rawShort2, rawShort4, rawShort5, rawShort6, rawShort7, fields_xREG3])
  | sext | zext =>
    exact readAs_short (by decide) (lt_xWID _ _ _ _ (by decide)) (by simp [rawShort, rawShort0, fields_xWID])
  | bfxLit | bfiLit => exact readAs_lit (by decide) (lt_xREG3 _ _ _ _ (by decide)) (by simp [rawLit, fields_xREG3])
  | addi => exact readAs_short (by decide) (lt_xIMM7 _ _ _) (by simp [rawShort, rawShort0, fields_xIMM7])
  | addiLit => exact readAs_lit (by decide) (lt_xIMM7 _ _ _) (by simp [rawLit, fields_xIMM7])
  | li | adr =>
    exact readAs_short (by decide) (lt_xIMM12 _ _) (by simp [rawShort, rawShort0, rawShort1, fields_xIMM12])
  | liLit | adrLit => exact readAs_lit (by decide) (lt_xIMM12 _ _) (by simp [rawLit, fields_xIMM12])
  | fcmp =>
    exact readAs_short (by decide) (lt_xCPRF _ _ _ _) (by simp [rawShort, rawShort2, fields_xCPRF, ofCode_code_fcond])
  | fcvt =>
    exact readAs_short (by decide) (lt_xFCV _ _ _ _ _)
      (by simp [rawShort, rawShort2, fields_xFCV, ofCode_code_cvt, ofCode_code_drm])
  | br => exact readAs_short (by decide) (lt_xBRA _) (by simp [rawShort, rawShort3, fields_xBRA])
  | brLit => exact readAs_lit (by decide) (lt_xBRA _) (by simp [rawLit])
  | call => exact readAs_short (by decide) (lt_xCAL _ _) (by simp [rawShort, rawShort3, fields_xCAL])
  | callLit => exact readAs_lit (by decide) (lt_xCAL _ _) (by simp [rawLit, fields_xCAL])
  | jr | callr | ret =>
    exact readAs_short (by decide) (lt_xJMP _ _ _ (by decide)) (by simp [rawShort, rawShort3, fields_xJMP])
  | nop | yield | endStrand | wspill | wfill =>
    exact readAs_short (by decide) (lt_xMSC _ _ (by decide)) (by simp [rawShort, rawShort3, fields_xMSC])
  | cmp =>
    exact readAs_short (by decide) (lt_xCPRI _ _ _ _) (by simp [rawShort, rawShort3, fields_xCPRI, ofCode_code_icond])
  | cmpi =>
    exact readAs_short (by decide) (lt_xCPI _ _ _ _) (by simp [rawShort, rawShort3, fields_xCPI, ofCode_code_icond])
  | cmpiLit => exact readAs_lit (by decide) (lt_xCPI _ _ _ _) (by simp [rawLit, fields_xCPI, ofCode_code_icond])
  | pand | por | pxor | pnot | pmov =>
    exact readAs_short (by decide) (lt_xPRD _ _ _ _ (by decide)) (by simp [rawShort, rawShort3, fields_xPRD])
  | rep => exact readAs_short (by decide) (lt_xREPF _ _ _) (by simp [rawShort, rawShort3, fields_xREPF])
  | ldB | ldBu | ldH | ldHu | ldW | ldWu | ldD | ldp | stB | stH | stW | stD | stp =>
    exact readAs_short (by decide) (lt_xMEM _ _ _ _ (by decide)) (by simp [rawShort, rawShort3, fields_xMEM])
  | ldBLit | ldBuLit | ldHLit | ldHuLit | ldWLit | ldWuLit | ldDLit | ldpLit | stBLit | stHLit | stWLit | stDLit
    | stpLit =>
    exact readAs_lit (by decide) (lt_xMEM _ _ _ _ (by decide)) (by simp [rawLit, fields_xMEM])
  | acq | rel | acqrel | waitw =>
    exact readAs_short (by decide) (lt_xORD _ _ _ _ (by decide))
      (by simp [rawShort, rawShort4, fields_xORD, ofCode_code_scope])
  | fence =>
    exact readAs_short (by decide) (lt_xFEN _ _) (by simp [rawShort, rawShort4, fields_xFEN, ofCode_code_scope])
  | pset | pget =>
    exact readAs_short (by decide) (lt_xPTR _ _ _ _ (by decide)) (by simp [rawShort, rawShort4, fields_xPTR])
  | vadd | vsub | vmul | vfma | vmin | vmax =>
    exact readAs_short (by decide) (lt_xVEC _ _ _ _ _) (by simp [rawShort, rawShort4, fields_xVEC, ofCode_code_elty])
  | vabs | vneg | vexp2 | vlog2 | vrcp | vrsq | vcopy =>
    exact readAs_short (by decide) (lt_xVUN _ _ _ _ _ (by decide))
      (by simp [rawShort, rawShort5, fields_xVUN, ofCode_code_elty])
  | vsum | vmaxr | vminr | vargmax =>
    exact readAs_short (by decide) (lt_xVRD _ _ _ _ _ (by decide))
      (by simp [rawShort, rawShort5, fields_xVRD, ofCode_code_elty])
  | vcmp | vsel | vscale | vfill | vrand | vnzc | vchain | vcvt | vqmx | vdqmx | vqa | cld | cldc | cldSp | old
    | oldT | ocols | adrain | cgrp | cag | crs | ca2a | cbar | mseq =>
    exact readAs_ext (by decide) (by decide) rfl
  | vscaleLit | vfillLit | vrandLit | vchainLit | vcvtLit | vqmxLit | vqaLit | cldLit | cldcLit | cldSpLit | oldLit
    | oldTLit | adrainLit | cagLit | crsLit | ca2aLit | mseqLit =>
    exact readAs_extLit (by decide) (by decide) rfl
  | ashape => exact readAs_short (by decide) (lt_xTSH _ _ _) (by simp [rawShort, rawShort5, fields_xTSH])
  | adatum => exact readAs_short (by decide) (lt_xTDT _ _) (by simp [rawShort, rawShort5, fields_xTDT])
  | azero | astat | achk =>
    exact readAs_short (by decide) (lt_xTMS _ _ _ (by decide)) (by simp [rawShort, rawShort5, fields_xTMS])
  | hopen | hclose | hbatch | hlist | hattach | hdetach | hswap | hverify | hfold | plnew | plset | plget =>
    exact readAs_short (by decide) (lt_xOB2 _ _ _ _ (by decide)) (by simp [rawShort, rawShort6, fields_xOB2])
  | tclr | tset | tadd | tpref | tfind | tcut | ttot =>
    exact readAs_short (by decide) (lt_xTRE _ _ _ _ (by decide)) (by simp [rawShort, rawShort6, fields_xTRE])
  | tloadM32 | tloadM16 | tstore =>
    exact readAs_short (by decide) (lt_xTRL _ _ _ _ (by decide)) (by simp [rawShort, rawShort6, fields_xTRL])
  | ppush | ppop | ppeek | pcount | peos | pconf =>
    exact readAs_short (by decide) (lt_xPRT _ _ _ _ (by decide))
      (by simp [rawShort, rawShort6, fields_xPRT, ofCode_code_bearing])
  | mbw | mbr =>
    exact readAs_short (by decide) (lt_xMBX _ _ _ (by decide)) (by simp [rawShort, rawShort6, fields_xMBX])
  | rinit | rawait | rrel | rseq | reos =>
    exact readAs_short (by decide) (lt_xRNG _ _ _ _ (by decide)) (by simp [rawShort, rawShort6, fields_xRNG])
  | trap | csrr | csrs | csrc | wcall | sleep | contw =>
    exact readAs_short (by decide) (lt_xSYS _ _ _ (by decide)) (by simp [rawShort, rawShort7, fields_xSYS])
  | sel h cs rd ra rb =>
    have hs : cs.val % 4 < 2 ^ 2 := by omega
    obtain ⟨hrd, hra, hrb, hsub⟩ := fields_xREG3 rd ra rb hs
    exact readAs_short (by omega) (lt_xREG3 _ _ _ _ hs) (by rw [rawShort_sel hsub, hrd, hra, hrb])
  | eret | eretAb | shoot | sliceWrite =>
    exact readAs_short (by decide) (lt_xSYS _ _ _ (by decide)) (by simp [rawShort, rawShort7, fields_xSYS, bt_xSYS])
  | csrw h rd imm =>
    -- the codes of SHOOT and SLICE are not CSRW's
    have himm : (imm != 0x25 && imm != 0x0C) = true := hw
    exact readAs_short (by decide) (lt_xSYS _ _ _ (by decide))
      (by simp_all [rawShort, rawShort7, fields_xSYS, ← BitVec.toNat_inj])
  | contr h rd slot =>
    exact readAs_short (by decide) (lt_xSYS _ _ _ (by decide)) (by simp [rawShort, rawShort7, fields_xSYS, Fin.ext_iff])
  -- a command or an event has no words
  | _ => exact absurd rfl hne

/-! The decoder's checks (R56). -/

theorem decode_eq_ok_iff {ws : List Nat} {i : Instr} :
    decode ws = .ok i ↔ rawDecode ws = .ok i ∧ i.wf = true ∧ encode i = instrWords ws := by
  unfold decode
  cases rawDecode ws with
  | error r => simp
  | ok j => grind

theorem instrWords_append {ws : List Nat} (h : ∃ w rest, ws = w :: rest ∧ numWords w = rest.length + 1)
    (more : List Nat) : instrWords (ws ++ more) = ws := by
  obtain ⟨w, rest, rfl, hn⟩ := h
  rw [List.cons_append, instrWords, hn, ← List.cons_append]
  exact List.take_left' rfl

/-- Settles O55: the words of every instruction are read as it (`readAs_encode`), and the decoder's two checks pass, the
second since the first word's LEN counts exactly the instruction's own words. -/
theorem encodeDecode : Obligations.EncodeDecode := by
  unfold Obligations.EncodeDecode
  intro i rest hw hne
  obtain ⟨raw, count, fits⟩ := readAs_encode hw hne
  exact ⟨decode_eq_ok_iff.2 ⟨raw rest, hw, (instrWords_append count rest).symm⟩, count, fits⟩

theorem eq_words_of_decode {ws vs : List Nat} {i : Instr} (hws : decode ws = .ok i) (hvs : decode vs = .ok i) :
    instrWords ws = instrWords vs := by
  obtain ⟨-, -, hws⟩ := decode_eq_ok_iff.1 hws
  obtain ⟨-, -, hvs⟩ := decode_eq_ok_iff.1 hvs
  exact hws.symm.trans hvs

/-- Settles O56: what decodes has passed the decoder's checks; the spec's words are decoded one by one. -/
theorem decodesTheSpecsWords : Obligations.DecodesTheSpecsWords := by
  unfold Obligations.DecodesTheSpecsWords
  exact ⟨⟨fun _ _ h => (decode_eq_ok_iff.1 h).2, fun _ _ _ => eq_words_of_decode⟩, by decide +kernel⟩

end Sys2Proof.Laws

/-! PROOFS. What a scalar instruction leaves unchanged (R48, R78, R96, R100, R112, R120): the registers and predicate
bits that a write does not name, a close that delivers no fault, and what each scalar rule comes to. -/

namespace Sys2Proof.Machine
open Sys2Proof

/-! A strand's registers and predicate bits after a write of another. -/

theorem bit_eq_testBit (w i : Nat) : bit w i = w.testBit i := by
  rw [bit, Nat.testBit_eq_decide_div_mod_eq, beq_eq_decide]

/-- A one-bit field is replaced in the quotient by its weight. -/
theorem setFld_one (w i v : Nat) : setFld w i 1 v = 2 ^ i * (w / 2 ^ i / 2 * 2 + v % 2) + w % 2 ^ i := by
  have hw : 2 ^ i * (w / 2 ^ i / 2 * 2) + w / 2 ^ i % 2 * 2 ^ i + w % 2 ^ i = w := by
    rw [Nat.mul_comm (w / 2 ^ i % 2), ← Nat.mul_add, Nat.div_add_mod', Nat.div_add_mod]
  rw [setFld, fld, Nat.pow_one, Nat.mul_add, Nat.mul_comm (v % 2)]
  omega

theorem bit_setFld_ne {i j : Nat} (w v : Nat) (h : j ≠ i) : bit (setFld w i 1 v) j = bit w j := by
  have hr := Nat.mod_lt w (Nat.two_pow_pos i)
  rw [bit_eq_testBit, bit_eq_testBit, setFld_one, Nat.testBit_two_pow_mul_add _ hr]
  conv_rhs => rw [← Nat.div_add_mod w (2 ^ i), Nat.testBit_two_pow_mul_add _ hr]
  split
  · rfl
  · obtain ⟨k, hk⟩ : ∃ k, j - i = k + 1 := ⟨j - i - 1, by omega⟩
    rw [hk, Nat.testBit_succ, Nat.testBit_succ]
    congr 1
    omega

theorem setPred_predBit_ne {t : Strand} {p q : Pr} (b : Bool) (h : q ≠ p) :
    (t.setPred p b).predBit q = t.predBit q := by
  unfold Strand.predBit Strand.setPred
  split
  · rfl
  · split
    · rfl
    · exact bit_setFld_ne _ _ (Fin.val_ne_of_ne h)

/-- Two register codes name one location only if they are the same (R48). -/
theorem loc_inj {t : Strand} {q r : Reg} {l : Loc} (hq : t.loc q = some l) (hr : t.loc r = some l) : q = r := by
  unfold Strand.loc at hq hr
  grind

theorem setLoc_getLoc_ne {t : Strand} {k l : Loc} (v : Word) (h : k ≠ l) : (t.setLoc l v).getLoc k = t.getLoc k := by
  cases l <;> cases k <;> grind [Strand.setLoc, Strand.getLoc, tget_tput_ne, bit_setFld_ne]

theorem setLoc_loc (t : Strand) (l : Loc) (v : Word) (q : Reg) : (t.setLoc l v).loc q = t.loc q := by
  simp [Strand.loc]

theorem setReg_reg_ne {t : Strand} {q r : Reg} (v : Word) (h : q ≠ r) : (t.setReg r v).reg q = t.reg q := by
  unfold Strand.setReg
  split
  · next l hl =>
    unfold Strand.reg
    rw [setLoc_loc]
    split
    · next k hk => exact setLoc_getLoc_ne v fun hkl => h (loc_inj hk (hkl ▸ hl))
    · rfl
  · rfl

/-- A register is read from the scalar registers, the window and its place, and nothing else of the strand. -/
theorem reg_congr {t t' : Strand} (hs : t'.sregs = t.sregs) (hp : t'.phys = t.phys) (hc : t'.cwp = t.cwp) (q : Reg) :
    t'.reg q = t.reg q := by
  unfold Strand.reg Strand.loc
  rw [hc]
  split_ifs <;> simp only [Strand.getLoc, hs, hp]

theorem addFlags_zero (t : Strand) : t.addFlags 0 = t := by
  simp [Strand.addFlags]

/-! A close that delivers no fault (R100). -/

/-- b is a but for what a close that delivers no fault changes of its strand. -/
def OnlyCloses (a b : Strand) : Prop :=
  b = { a with pc := b.pc, pend := b.pend, st := b.st, close := b.close, ending := b.ending, turn := b.turn }

theorem wakeRun_parked_close (s : State) {t : Strand} (ht : t.st = .parked .close) : wakeRun s t = s := by
  simp [wakeRun, ht]

/-- The check of a close that delivers nothing: it is done, it waits, or there is nothing to be done. -/
theorem closeCheck_quiet (s : State) (u : Nat) {t : Strand} (ht : t.st = .parked .close) (hq : firstFault t = none) :
    ∃ x, OnlyCloses t x ∧ closeCheck (s.setStrand u t) u = s.setStrand u x := by
  simp only [closeCheck, setStrand_strand_same, ht, hq, wakeRun_parked_close _ ht, setStrand_setStrand]
  split
  · exact ⟨t, rfl, rfl⟩
  · split_ifs
    · exact ⟨t, rfl, rfl⟩
    · exact ⟨_, by rfl, rfl⟩
    · exact ⟨_, by rfl, rfl⟩

/-- An instruction whose close delivers no fault changes its strand, and of it the close only its own fields. -/
theorem leave_quiet (s : State) {h : Hdr} {t : Strand} (hq : h.c = false ∨ firstFault t = none) :
    ∃ x, OnlyCloses t x ∧ s.leave h t = s.setStrand s.cur x := by
  unfold State.leave closing
  split
  · next hc =>
    have hf : firstFault t = none := hq.resolve_left (by simp_all)
    simp only [closeAt, State.modStrand, setStrand_strand_same, setStrand_setStrand]
    exact closeCheck_quiet s s.cur (t := { t with close := _, st := .parked .close }) rfl hf
  · exact ⟨t, rfl, rfl⟩

/-! What each scalar rule comes to: one write, and flags. -/

/-- b is a but for the register rd, the predicate bit cd, the flags fl that have joined, and the fields of its turn. -/
structure KeepsBut (rd : Option Reg) (cd : Option Pr) (fl : Nat) (a b : Strand) : Prop where
  reg : ∀ r, some r ≠ rd → b.reg r = a.reg r
  predBit : ∀ p, some p ≠ cd → b.predBit p = a.predBit p
  vflags : b.vflags = Nat.lor a.vflags (fl % 16)
  mblost : b.mblost = a.mblost
  mstat : b.mstat = a.mstat
  wstat : b.wstat = a.wstat
  wsp : b.wsp = a.wsp
  dseed : b.dseed = a.dseed
  sup : b.sup = a.sup
  trap : b.trap = a.trap
  ops : b.ops = a.ops

theorem keepsBut_setReg (t : Strand) (len fl : Nat) (rd : Reg) (v : Word) :
    KeepsBut (some rd) none fl t (((t.past len).addFlags fl).setReg rd v) := by
  constructor
  case reg => exact fun q hq => (setReg_reg_ne v fun h => hq (congrArg some h)).trans (reg_congr rfl rfl rfl q)
  case predBit => exact fun p _ => by simp [Strand.predBit]
  all_goals simp [Strand.past, Strand.addFlags, Strand.mstat, Strand.wstat]

theorem keepsBut_setPred (t : Strand) (len fl : Nat) (cd : Pr) (b : Bool) :
    KeepsBut none (some cd) fl t (((t.past len).addFlags fl).setPred cd b) := by
  constructor
  case reg => exact fun q _ => reg_congr (by simp [Strand.past]) (by simp [Strand.past]) (by simp [Strand.past]) q
  case predBit => exact fun p hp => setPred_predBit_ne b fun h => hp (congrArg some h)
  all_goals simp [Strand.past, Strand.addFlags, Strand.mstat, Strand.wstat]

theorem KeepsBut.closes {rd : Option Reg} {cd : Option Pr} {fl : Nat} {a b c : Strand} (h : KeepsBut rd cd fl a b)
    (hc : OnlyCloses b c) : KeepsBut rd cd fl a c := by
  obtain ⟨h1, h2, h3, h4, h5, h6, h7, h8, h9, h10, h11⟩ := h
  rw [hc]
  exact ⟨fun q hq => (reg_congr rfl rfl rfl q).trans (h1 q hq), h2, h3, h4, h5, h6, h7, h8, h9, h10, h11⟩

/-- The low n bits of a word, in two's complement. -/
theorem sgn_toNat {n : Nat} (hn : 0 < n) (a : Word) : sgn n a.toNat = (a.setWidth n).toInt := by
  have hp : 2 ^ n = 2 * 2 ^ (n - 1) := by rw [← Nat.pow_succ']; congr 1; omega
  rw [sgn, BitVec.toInt_eq_toNat_cond, BitVec.toNat_setWidth]
  generalize a.toNat % 2 ^ n = m
  split <;> split <;> omega

theorem fcvtOf_flags (k : CvtKind) (rm : DRm) (sat : Bool) (a : Word) :
    (fcvtOf k rm sat a.toNat).2 = (cvtTarget k (detRnd rm) sat (cvtSource k a)).2 := by
  cases k with
  | f32I64 | f32I32 =>
    simp only [fcvtOf, cvtTarget, cvtTarget.low, cvtSource, sgn_toNat, Nat.zero_lt_succ, BitVec.setWidth_eq]
  | f32U64 => simp only [fcvtOf, cvtTarget, cvtTarget.low, cvtSource, Nat.mod_eq_of_lt a.isLt]
  | _ => simp only [fcvtOf, cvtTarget, cvtTarget.low, cvtSource, BitVec.toNat_setWidth]

theorem fcmpOf_flags (c : FCond) (a b : Val) : (fcmpOf c a b).2 = if a.isNan ∨ b.isNan then 2 else 0 := by
  simp only [fcmpOf, fNan, Bool.or_eq_true]

section
variable {s : State} {i : Instr} {h : Hdr} {refs : List Ref}

theorem IntRule.leaves {len : Nat} {rd : Reg} {v : Word} (hr : IntRule s.me i h len rd refs v) (hp : s.passes h refs) :
    ∃ n x, exec i s = .next (s.leave h ((s.me.past n).setReg rd x)) := by
  cases hr with
  | sel h cs rd ra rb =>
    rw [exec_sel, execSel]
    exact ⟨lenShort, _, issue_upd hp (by simp) (by simp) rfl rfl⟩
  | adr h rd imm =>
    rw [exec_adr, execAdr]
    exact ⟨lenShort, _, issue_upd hp (by simp) (by simp) rfl rfl⟩
  | adrLit h rd lit aligned =>
    rw [exec_adrLit, execAdrLit]
    exact ⟨lenLit, _, issue_upd hp (by simp) (by simp) rfl (if_neg (by simp [aligned]))⟩
  | _ =>
    simp only [exec_add, exec_sub, exec_min, exec_minu, exec_max, exec_maxu, exec_and, exec_or, exec_xor, exec_andn,
      exec_shl, exec_shr, exec_sar, exec_rol, exec_mul, exec_mulh, exec_mulhu, exec_sext, exec_zext, exec_bfx,
      exec_bfxLit, exec_bfi, exec_bfiLit, exec_addi, exec_addiLit, exec_li, exec_liLit]
    exact ⟨_, _, regOp_next hp⟩

theorem DivRule.leaves {rd : Reg} {v : Word} (hr : DivRule s.me i h rd refs v) (hp : s.passes h refs) :
    ∃ n x, exec i s = .next (s.leave h ((s.me.past n).setReg rd x)) := by
  cases hr with
  | _ =>
    simp only [exec_div, exec_divu, exec_rem, exec_remu]
    exact ⟨_, _, regOp_next hp⟩

theorem FloatRule.leaves {rd : Reg} {v : Word} {fl : Nat} (hr : FloatRule s.me i h rd refs v fl)
    (hp : s.passes h refs) : ∃ n x, exec i s = .next (s.leave h (((s.me.past n).addFlags fl).setReg rd x)) := by
  cases hr with
  | fcvt h rd ra k rm sat =>
    rw [exec_fcvt, ← fcvtOf_flags, ← past_reg s.me 4 ra]
    exact ⟨_, _, fpOp_next hp⟩
  | _ =>
    simp only [exec_fadd, exec_fsub, exec_fmul, exec_fdiv, exec_fsqrt, exec_ffma, ← past_reg s.me 4]
    exact ⟨_, _, fpOp_next hp⟩

theorem PredRule.leaves {len : Nat} {cd : Pr} {b : Bool} {fl : Nat} (hr : PredRule s.me i h len cd refs b fl)
    (hp : s.passes h refs) : ∃ n x, exec i s = .next (s.leave h (((s.me.past n).addFlags fl).setPred cd x)) := by
  cases hr with
  | fcmp h cd ra rb c =>
    simp only [exec_fcmp, ← fcmpOf_flags c, ← past_reg s.me 4]
    exact ⟨_, _, predOp_next hp⟩
  | _ =>
    simp only [exec_cmp, exec_cmpi, exec_cmpiLit, exec_pand, exec_por, exec_pxor, exec_pnot, exec_pmov]
    exact ⟨_, _, predOp_next hp⟩

end

/-- An integer, division, floating-point or predicate instruction: its header, what it may write, its flags and its
operands. -/
def ScalarRule (t : Strand) (i : Instr) (h : Hdr) (rd : Option Reg) (cd : Option Pr) (fl : Nat) (refs : List Ref) :
    Prop :=
  (∃ len r v, rd = some r ∧ cd = none ∧ fl = 0 ∧ IntRule t i h len r refs v) ∨
  (∃ r v, rd = some r ∧ cd = none ∧ fl = 0 ∧ DivRule t i h r refs v) ∨
  (∃ r v, rd = some r ∧ cd = none ∧ FloatRule t i h r refs v fl) ∨
  (∃ len p b, rd = none ∧ cd = some p ∧ PredRule t i h len p refs b fl)

/-- A scalar instruction leaves its strand with one write and its flags. -/
theorem ScalarRule.leaves {s : State} {i : Instr} {h : Hdr} {rd : Option Reg} {cd : Option Pr} {fl : Nat}
    {refs : List Ref} (hr : ScalarRule s.me i h rd cd fl refs) (hp : s.passes h refs) :
    ∃ t, KeepsBut rd cd fl s.me t ∧ exec i s = .next (s.leave h t) := by
  obtain ⟨len, r, v, rfl, rfl, rfl, hr⟩ | ⟨r, v, rfl, rfl, rfl, hr⟩ | ⟨r, v, rfl, rfl, hr⟩ |
    ⟨len, p, b, rfl, rfl, hr⟩ := hr
  · obtain ⟨n, x, he⟩ := hr.leaves hp
    exact ⟨_, keepsBut_setReg s.me n 0 r x, by rw [he, addFlags_zero]⟩
  · obtain ⟨n, x, he⟩ := hr.leaves hp
    exact ⟨_, keepsBut_setReg s.me n 0 r x, by rw [he, addFlags_zero]⟩
  · obtain ⟨n, x, he⟩ := hr.leaves hp
    exact ⟨_, keepsBut_setReg s.me n fl r x, he⟩
  · obtain ⟨n, x, he⟩ := hr.leaves hp
    exact ⟨_, keepsBut_setPred s.me n fl p x, he⟩

/-- Settles O7: a scalar instruction leaves its strand with one write and its flags (`ScalarRule.leaves`), and a close
that delivers nothing changes of the strand only its own fields (`leave_quiet`). -/
theorem scalarFrame : Obligations.ScalarFrame := by
  unfold Obligations.ScalarFrame
  intro s i h rd cd fl refs hr hp hq
  obtain ⟨t, ht, he⟩ := ScalarRule.leaves hr hp
  have hf : firstFault t = firstFault s.me := by rw [firstFault, firstFault, ht.ops]
  obtain ⟨x, hx, hl⟩ := leave_quiet s (h := h) (t := t) (hf ▸ hq)
  refine ⟨s.setStrand s.cur x, he.trans (congrArg _ hl), ⟨rfl, fun v hv => setStrand_strand_ne s x hv⟩,
    fun _ => rfl, ?_⟩
  rw [setStrand_strand_same]
  obtain ⟨reg, predBit, vflags, mblost, mstat, wstat, wsp, dseed, sup, trap, ops⟩ := ht.closes hx
  exact ⟨reg, predBit, vflags, mblost, mstat, wstat, wsp, dseed, sup, trap, ops⟩

end Sys2Proof.Machine

/-! PROOFS. Branches, and the register window (R53, R104, R106 to R109): the targets of transfers in integer arithmetic;
what an instruction does beside its own effect moves no strand's window; each window instruction leaves a legal one. -/

namespace Sys2Proof.Machine
open Sys2Proof

/-! The targets of transfers (R53). -/

theorem eq_offsetFrom {n pc : Nat} {z : Int} (hn : n < 2 ^ 64) (h : w64 n = BitVec.ofInt 64 (pc + z)) :
    n = offsetFrom pc z := by
  have h := congrArg BitVec.toNat h
  rwa [w64, BitVec.toNat_ofNat, Nat.mod_eq_of_lt hn, BitVec.toNat_ofInt] at h

theorem wordTarget_eq_offsetFrom {n : Nat} (pc : Nat) (off : BitVec n) (hn : n ≤ 64) :
    wordTarget pc off = offsetFrom pc (4 * off.toInt) :=
  eq_offsetFrom (Nat.mod_lt _ (by decide)) (wordTarget_eq_ofInt pc off hn)

theorem byteTarget_eq_offsetFrom (pc : Nat) (lit : Word) : byteTarget pc lit = offsetFrom pc lit.toInt :=
  eq_offsetFrom (Nat.mod_lt _ (by decide)) (byteTarget_eq_ofInt pc lit)

/-- A jump past its checks completes at an aligned target, and otherwise raises ALIGN. -/
theorem issue_jump {s : State} {h : Hdr} {f : Form} {target : Exe → Nat} {n : Nat} (hp : s.passes h f.refs)
    (hv : f.priv = false := by rfl) (hk : f.pendingClass = false := by rfl) (he : f.ends = false := by rfl)
    (hr : f.reenters = false := by rfl)
    (ht : target ⟨s.setStrand s.cur (s.me.past f.len), s.cur, s.me.past f.len, s.me.pc, f.len, s.me.noWatch⟩ = n) :
    issue h f (fun x => jump x (target x) x.t) s =
      if n % 4 = 0 then .next (s.leave h { s.me.past f.len with pc := n })
      else .next (trapAt s s.cur s.me.pc f.len { code := 6, addr := n }) := by
  rw [issue_pass hp (by simp [hv]) (by simp [hk])]
  simp only [ht]
  by_cases ha : n % 4 = 0
  · rw [if_pos ha]
    simp [jump, ha, Exe.upd, closing, State.leave, he, hr]
  · rw [if_neg ha]
    simp [jump, ha]

theorem JumpRule.completes {s : State} {i : Instr} {h : Hdr} {len : Nat} {refs : List Ref} {target : Nat}
    (hr : JumpRule s.me i h len refs target) (hp : s.passes h refs) :
    exec i s = if target % 4 = 0 then .next (s.leave h { s.me.past len with pc := target })
      else .next (trapAt s s.cur s.me.pc len { code := 6, addr := target }) := by
  cases hr with
  | br h off =>
    rw [exec_br, execBr]
    exact issue_jump hp (ht := wordTarget_eq_offsetFrom _ off (by decide))
  | brLit h lit =>
    rw [exec_brLit, execBrLit]
    exact issue_jump hp (ht := byteTarget_eq_offsetFrom _ lit)
  | jr h ra =>
    rw [exec_jr, execJr]
    exact issue_jump hp (ht := by rw [past_reg])

/-! The windows of all strands, and what moves none. -/

/-- CWP and WRES. -/
def Strand.window (t : Strand) : Nat × Nat := (t.cwp, t.wres)

/-- The windows of all strands. -/
def State.window (s : State) (u : Nat) : Nat × Nat := (s.strand u).window

theorem windowOk_congr {s t : State} {u : Nat} (h : t.window = s.window) (hs : (s.strand u).windowOk) :
    (t.strand u).windowOk := by
  obtain ⟨hc, hw⟩ := Prod.mk.inj (congrFun h u)
  rwa [Strand.windowOk, hc, hw]

theorem setStrand_window {s : State} {u : Nat} {t : Strand} (hc : t.cwp = (s.strand u).cwp)
    (hw : t.wres = (s.strand u).wres) : (s.setStrand u t).window = s.window := by
  funext v
  by_cases h : v = u
  · subst h
    simp [State.window, Strand.window, hc, hw]
  · rw [State.window, setStrand_strand_ne s t h, State.window]

theorem modStrand_window (s : State) (u : Nat) {f : Strand → Strand}
    (hf : ∀ t, (f t).cwp = t.cwp ∧ (f t).wres = t.wres) :
    (s.modStrand u f).window = s.window :=
  setStrand_window (hf _).1 (hf _).2

theorem foldl_window {α : Type} {f : State → α → State} (hf : ∀ s x, (f s x).window = s.window) (xs : List α)
    (s : State) : (xs.foldl f s).window = s.window :=
  List.foldlRecOn xs f (motive := fun t => t.window = s.window) rfl fun t ht x _ => (hf t x).trans ht

theorem modCore_window (s : State) (c : Nat) (f : CoreSt → CoreSt) : (s.modCore c f).window = s.window := rfl

theorem modPart_window (s : State) (core ctx : Nat) (f : Part → Part) :
    (s.modPart core ctx f).window = s.window := rfl

theorem modCtx_window (s : State) (c : Nat) (f : Ctx → Ctx) : (s.modCtx c f).window = s.window := rfl

theorem modKern_window (s : State) (k : Nat) (f : Kernel → Kernel) : (s.modKern k f).window = s.window := rfl

theorem rawWrite_window (s : State) (pa : Nat) (bs : List Byte) : (rawWrite s pa bs).window = s.window := rfl

theorem setTag_window (s : State) (pa tag : Nat) : (setTag s pa tag).window = s.window := rfl

theorem setOp_window (s : State) (u : Nat) (o : Op) : (s.setOp u o).window = s.window :=
  modStrand_window s u fun _ => ⟨rfl, rfl⟩

theorem acqDone_window (s : State) (u : Nat) (o : Op) (pa v tag : Nat) (sc : Scope) :
    (acqDone s u o pa v tag sc).window = s.window := by
  unfold acqDone
  grind [modCore_window, setOp_window]

theorem withWatches_window (s : State) (ws : List Watch) : ({ s with watches := ws } : State).window = s.window := rfl

theorem fireWatches_window (s : State) (pa n : Nat) : (fireWatches s pa n).window = s.window := by
  unfold fireWatches
  grind [acqDone_window, withWatches_window, foldl_window]

theorem homeWrite_window (s : State) (pa : Nat) (bs : List Byte) : (homeWrite s pa bs).window = s.window :=
  fireWatches_window (rawWrite s pa bs) pa bs.length

theorem releaseWrite_window (s : State) (pa v tag : Nat) : (releaseWrite s pa v tag).window = s.window :=
  fireWatches_window ..

theorem ringPost_window (s : State) (base n m : Nat) (bs : List Byte) : (ringPost s base n m bs).window = s.window := by
  unfold ringPost
  grind [homeWrite_window, releaseWrite_window]

theorem report_window (s : State) (kind ctx code slot core addr : Nat) :
    (report s kind ctx code slot core addr).window = s.window :=
  ringPost_window ..

theorem cpWrite_window {s s' : State} {ctx va : Nat} {ws : List (List Byte)} (he : cpWrite s ctx va ws = some s') :
    s'.window = s.window := by
  fun_induction cpWrite s ctx va ws <;> grind [homeWrite_window]

theorem cpRelease_window {s s' : State} {ctx va v : Nat} (he : cpRelease s ctx va v = some s') :
    s'.window = s.window := by
  unfold cpRelease at he
  grind [releaseWrite_window]

theorem writeCompletion_window (s : State) (kid status : Nat) : (writeCompletion s kid status).window = s.window := by
  unfold writeCompletion
  extract_lets k w0 s₁
  have h₁ : s₁.window = s.window := modKern_window ..
  split
  · exact modKern_window ..
  split
  · exact (report_window ..).trans h₁
  next s₂ hs₂ =>
    split
    · exact (report_window ..).trans h₁
    · next hs₃ => exact (cpRelease_window hs₃).trans ((cpWrite_window hs₂).trans h₁)

theorem releaseParts_window (s : State) (ctx : Nat) (cores : List Nat) :
    (releaseParts s ctx cores).window = s.window := by
  unfold releaseParts
  refine foldl_window (fun s c => ?_) cores s
  split <;> rfl

theorem settleCtx_window (s : State) (c : Nat) : (settleCtx s c).window = s.window := by
  unfold settleCtx
  split <;> rfl

theorem evict_window (s : State) (u : Nat) : (evict s u).window = s.window :=
  modStrand_window { s with watches := _ } u fun _ => ⟨rfl, rfl⟩

theorem endGroup_window (s : State) (kid gnum : Nat) : (endGroup s kid gnum).window = s.window := by
  unfold endGroup
  grind [modPart_window, modKern_window, releaseParts_window, foldl_window]

theorem clearEnts_window (s : State) (kid gnum : Nat) : (clearEnts s kid gnum).window = s.window := by
  unfold clearEnts
  grind [modCore_window, modKern_window, foldl_window]

theorem withCopies_window (s : State) (cs : List Copy) : ({ s with copies := cs } : State).window = s.window := rfl

theorem abortKernel_window (s : State) (kid cause gnum : Nat) : (abortKernel s kid cause gnum).window = s.window := by
  unfold abortKernel
  grind [evict_window, clearEnts_window, endGroup_window, modKern_window, modCtx_window, settleCtx_window,
    writeCompletion_window, withCopies_window, foldl_window]

theorem traceRec_strands (s : State) (core slot typ sel data : Nat) :
    (traceRec s core slot typ sel data).strands = s.strands := by
  unfold traceRec
  grind

theorem takeTrap_window (s : State) (u : Nat) (d : Delivery) : (takeTrap s u d).window = s.window := by
  have htr (core slot typ sel data : Nat) : (traceRec s core slot typ sel data).strand = s.strand := by
    funext v
    rw [State.strand, traceRec_strands, State.strand]
  unfold takeTrap
  extract_lets t v
  split
  · exact abortKernel_window ..
  · refine (setStrand_window (by rw [htr]) (by rw [htr])).trans ?_
    funext v
    rw [State.window, htr, State.window]

theorem trapAt_window (s : State) (u pc len : Nat) (c : Cause) : (trapAt s u pc len c).window = s.window :=
  takeTrap_window ..

theorem waitAt_window (s : State) (u pc : Nat) (skip : Option Nat) (brk : Bool) :
    (waitAt s u pc skip brk).window = s.window :=
  modStrand_window s u fun _ => ⟨rfl, rfl⟩

/-! Translation, the sites of accesses and the pieces of a store. -/

theorem tlbFill_window (s : State) (who ctx : Nat) (l : Leaf) : (tlbFill s who ctx l).window = s.window := by
  unfold tlbFill
  extract_lets mine s₁
  have h₁ : s₁.window = s.window := by
    unfold s₁
    split
    · rfl
    · split <;> rfl
  exact h₁

theorem logWalk_window (s : State) (ctx va : Nat) (r : Except Nat Leaf) : (logWalk s ctx va r).window = s.window := by
  unfold logWalk
  split
  · split
    · cases (walkPath s va 4 0 (s.ctx ctx).ptroot).getLast? <;> rfl
    · rfl
  · rfl

theorem findLeaf_window (s : State) (who : Nat) (lvl2 : Option Nat) (ctx va : Nat) :
    (findLeaf s who lvl2 ctx va).1.window = s.window := by
  unfold findLeaf
  grind [tlbFill_window, logWalk_window]

theorem siteOf_window (s : State) (t : Strand) (va n : Nat) (acc : Acc) :
    (siteOf s t va n acc).1.window = s.window := by
  have hx (core ctx va : Nat) (acc : Acc) (sup : Bool) : (xlate s core ctx va acc sup).1.window = s.window :=
    findLeaf_window ..
  unfold siteOf
  grind

theorem sitesOf_window (s : State) (t : Strand) (acc : Acc) (ps : List (Nat × Nat)) :
    (sitesOf s t acc ps).1.window = s.window := by
  fun_induction sitesOf s t acc ps <;> grind [siteOf_window]

theorem touch_window (s : State) (core pa : Nat) : (touch s core pa).window = s.window := by
  unfold touch
  split <;> rfl

theorem storePiece_window (s : State) (u : Nat) (t : Strand) (stop : Bool) (va : Nat) (w : Site) (bs : List Byte) :
    (storePiece s u t stop va w bs).window = s.window := by
  unfold storePiece
  split
  · exact homeWrite_window ..
  · exact touch_window ..

theorem storePieces_window (s : State) (u : Nat) (t : Strand) (stop : Bool) (va : Nat) (ps : List (Site × List Byte)) :
    (storePieces s u t stop va ps).window = s.window := by
  fun_induction storePieces s u t stop va ps <;> grind [storePiece_window]

theorem stopAfter_window (s : State) (u : Nat) (stop : Bool) : (stopAfter s u stop).window = s.window := by
  unfold stopAfter
  split
  · exact modStrand_window s u fun _ => ⟨rfl, rfl⟩
  · rfl

/-! What an effect leaves, and the issue around it. -/

/-- The strand's window is legal wherever the effect goes on with it; a trap is taken from the strand at issue. -/
def Eff.WindowOk (u : Nat) : Eff → Prop
  | .ok s | .wait s => (s.strand u).windowOk
  | .trap _ | .trapIn _ _ => True

/-- An instruction with no close leaves a legal window if its effect does. -/
theorem issue_windowOk {s t : State} {h : Hdr} {f : Form} {eff : Exe → Eff} (hs : s.me.windowOk) (hc : h.c = false)
    (he : f.ends = false) (heff : ∀ x, x.s.strand x.u = x.t → x.t.windowOk → (eff x).WindowOk x.u)
    (ht : issue h f eff s = .next t) : (t.strand s.cur).windowOk := by
  have htrap (c : Cause) : ((trapAt s s.cur s.me.pc f.len c).strand s.cur).windowOk :=
    windowOk_congr (trapAt_window ..) hs
  have hx := heff ⟨s.setStrand s.cur ((s.strand s.cur).past f.len), s.cur, (s.strand s.cur).past f.len,
    (s.strand s.cur).pc, f.len, (s.strand s.cur).noWatch⟩ (setStrand_strand_same ..) hs
  unfold issue at ht
  extract_lets u t₀ t' at ht
  split at ht
  · exact Host.Outcome.next.inj ht ▸ htrap _
  split at ht
  · simp only [hc, Bool.false_eq_true, if_false, Host.Outcome.next.injEq] at ht
    subst ht
    rw [setStrand_strand_same]
    exact hs
  split at ht
  · exact Host.Outcome.next.inj ht ▸ htrap _
  split at ht
  · exact Host.Outcome.next.inj ht ▸ htrap _
  split at ht
  · exact Host.Outcome.next.inj ht ▸ windowOk_congr (waitAt_window ..) hs
  split at ht
  next s' hok =>
    rw [closing, hc, he] at ht
    rw [hok] at hx
    exact Host.Outcome.next.inj ht ▸ hx
  next => exact Host.Outcome.next.inj ht ▸ htrap _
  next s' c _ =>
    refine Host.Outcome.next.inj ht ▸ windowOk_congr (trapAt_window ..) ?_
    rw [setStrand_strand_same]
    exact hs
  next s' hw =>
    rw [hw] at hx
    exact Host.Outcome.next.inj ht ▸ windowOk_congr (waitAt_window ..) hx

/-! The effects of the window instructions (R106 to R108). -/

theorem slideOf_mod_four (kc : BitVec 2) : slideOf kc % 4 = 0 := Nat.mul_mod_right ..

theorem Exe.upd_windowOk {x : Exe} {t : Strand} (h : t.windowOk) : (x.upd t).WindowOk x.u := by
  rw [Exe.upd, Eff.WindowOk, setStrand_strand_same]
  exact h

theorem callTo_windowOk (x : Exe) (kc : BitVec 2) (target : Nat) (hx : x.t.windowOk) :
    (callTo x kc target).WindowOk x.u := by
  unfold callTo
  extract_lets k
  have hsum : (x.t.wres + k) % 4 = 0 := by
    obtain ⟨_, _, hmod⟩ := hx
    have hk : k % 4 = 0 := slideOf_mod_four kc
    omega
  split_ifs with hpend halign hspill
  · trivial
  · trivial
  · trivial
  · exact Exe.upd_windowOk ⟨Nat.mod_lt _ (by decide), Nat.le_of_not_lt hspill, hsum⟩

/-- A store leaves what its change of the strand makes of the window at issue. -/
theorem storeEff_windowOk {x : Exe} {va : Nat} {parts : List (List Byte)} {f : Strand → Strand}
    (hs : x.s.strand x.u = x.t) (hx : x.t.windowOk) (hf : ∀ t : Strand, t.window = x.t.window → (f t).windowOk) :
    (storeEff x va parts f).WindowOk x.u := by
  unfold storeEff
  extract_lets addrs n r
  have hr : r.1.window = x.s.window := sitesOf_window ..
  have hwait : (r.1.strand x.u).windowOk := windowOk_congr hr (hs ▸ hx)
  split
  · trivial
  split
  · exact hwait
  split
  · exact hwait
  split
  · trivial
  · refine windowOk_congr (stopAfter_window ..) ?_
    rw [State.modStrand, setStrand_strand_same]
    refine hf _ ?_
    calc _ = r.1.window x.u := congrFun (storePieces_window ..) x.u
      _ = x.s.window x.u := congrFun hr x.u
      _ = x.t.window := congrArg Strand.window hs

theorem spillN_windowOk (x : Exe) (n : Nat) (hs : x.s.strand x.u = x.t) (hx : x.t.windowOk) (hn : n % 4 = 0)
    (hle : n ≤ x.t.wres) : (spillN x n).WindowOk x.u := by
  unfold spillN
  extract_lets a ls
  split_ifs
  · exact (congrArg Strand.windowOk hs).mpr hx
  · trivial
  · trivial
  · refine storeEff_windowOk hs hx fun t ht => ?_
    obtain ⟨hc, hw⟩ := Prod.mk.inj ht
    obtain ⟨hcwp, hres, hmod⟩ := hx
    exact ⟨hc ▸ hcwp, by dsimp only; omega, by dsimp only; omega⟩

/-! The window instructions. -/

theorem CallRule.windowOk {s t : State} {i : Instr} {h : Hdr} {len : Nat} {refs : List Ref} {kc : BitVec 2}
    {target : Nat} (hr : CallRule s.me i h len refs kc target) (hs : s.me.windowOk) (hc : h.c = false)
    (ht : exec i s = .next t) : (t.strand s.cur).windowOk := by
  cases hr with
  | call h kc off =>
    rw [exec_call, execCall] at ht
    exact issue_windowOk hs hc rfl (fun x _ => callTo_windowOk x kc _) ht
  | callLit h kc lit =>
    rw [exec_callLit, execCallLit] at ht
    exact issue_windowOk hs hc rfl (fun x _ => callTo_windowOk x kc _) ht
  | callr h kc ra =>
    rw [exec_callr, execCallr] at ht
    exact issue_windowOk hs hc rfl (fun x _ => callTo_windowOk x kc _) ht

theorem ret_leaves_windowOk {s t : State} {h : Hdr} (hs : s.me.windowOk) (hc : h.c = false)
    (ht : exec (.ret h) s = .next t) : (t.strand s.cur).windowOk := by
  rw [exec_ret, execRet] at ht
  refine issue_windowOk hs hc rfl (fun x _ hx => ?_) ht
  obtain ⟨_, hres, hmod⟩ := hx
  extract_lets l link k
  split_ifs
  · trivial
  · trivial
  · exact Exe.upd_windowOk ⟨Nat.mod_lt _ (by decide), by dsimp only; omega, by dsimp only; omega⟩

theorem wspill_leaves_windowOk {s t : State} {h : Hdr} {kc : BitVec 2} (hs : s.me.windowOk) (hc : h.c = false)
    (ht : exec (.wspill h kc) s = .next t) : (t.strand s.cur).windowOk := by
  rw [exec_wspill, execWspill] at ht
  refine issue_windowOk hs hc rfl (fun x hxs hx => ?_) ht
  have hk := slideOf_mod_four kc
  obtain ⟨_, _, hmod⟩ := id hx
  exact spillN_windowOk x _ hxs hx (by omega) (Nat.min_le_right ..)

theorem wfill_leaves_windowOk {s t : State} {h : Hdr} {kc : BitVec 2} (hs : s.me.windowOk) (hc : h.c = false)
    (ht : exec (.wfill h kc) s = .next t) : (t.strand s.cur).windowOk := by
  rw [exec_wfill, execWfill] at ht
  refine issue_windowOk hs hc rfl (fun x hxs hx => ?_) ht
  have hk := slideOf_mod_four kc
  extract_lets n a ds b r
  split_ifs
  · exact (congrArg Strand.windowOk hxs).mpr hx
  · trivial
  · trivial
  split
  · trivial
  · rw [Eff.WindowOk, setStrand_strand_same]
    obtain ⟨hcwp, hres, hmod⟩ := hx
    exact ⟨hcwp, by simp only [Strand.send]; omega, by simp only [Strand.send]; omega⟩

/-- Settles O8: a transfer past its checks jumps or raises ALIGN; each window instruction takes CWP modulo 96 and moves
WRES by a multiple of 4 within its bounds, and what surrounds its effect moves no window. -/
theorem branchesAndWindow : Obligations.BranchesAndWindow := by
  unfold Obligations.BranchesAndWindow
  refine ⟨fun s i h len refs target hr hp => hr.completes hp, fun s t h i hs hc hi ht => ?_⟩
  obtain rfl | ⟨kc, rfl | rfl⟩ | ⟨len, refs, kc, target, hr⟩ := hi
  · exact ret_leaves_windowOk hs hc ht
  · exact wspill_leaves_windowOk hs hc ht
  · exact wfill_leaves_windowOk hs hc ht
  · exact hr.windowOk hs hc ht

end Sys2Proof.Machine

/-! PROOFS. Random words, noise words and the noise log (R87 to R92, R425): what a delivery of the noise source comes to
in each mode of the log, and that a write to the log, or a report, disturbs no source and no request. -/

namespace Sys2Proof.Machine
open Sys2Proof

/-! Rules of shared operations: causes at issue, a strand with no close, and an operation after it is set. -/

/-- A privileged instruction that passes its guard raises PRIV at user privilege (R481). -/
theorem issue_user {s : State} {h : Hdr} {f : Form} {eff : Exe → Eff} (hp : s.passes h f.refs) (hf : f.priv = true)
    (hu : s.me.sup = false) : issue h f eff s = .next (trapAt s s.cur s.me.pc f.len { code := 3 }) := by
  obtain ⟨hpend, hon, -⟩ := hp
  unfold State.me at *
  simp [issue, hpend, hon, hf, hu]

/-- An effect that answers a precise cause raises it. -/
theorem issue_trap {s : State} {h : Hdr} {f : Form} {eff : Exe → Eff} {c : Cause} (hp : s.passes h f.refs)
    (hv : f.priv = true → s.me.sup = true) (hr : f.pendingClass = true → s.room)
    (ht : eff ⟨s.setStrand s.cur (s.me.past f.len), s.cur, s.me.past f.len, s.me.pc, f.len, s.me.noWatch⟩ = .trap c) :
    issue h f eff s = .next (trapAt s s.cur s.me.pc f.len c) := by
  rw [issue_pass hp hv hr, ht]

theorem closeCheck_of_no_close {s : State} {u : Nat} (h : (s.strand u).close = none) : closeCheck s u = s := by
  simp [closeCheck, h]

theorem setOp_findOp {t : Strand} {o : Op} (h : o.id ∈ t.ops.map (·.id)) : (t.setOp o).findOp o.id = some o := by
  unfold Strand.setOp Strand.findOp
  generalize t.ops = ops at h
  induction ops with
  | nil => simp at h
  | cons x xs ih =>
    by_cases hx : x.id = o.id
    · simp [hx]
    · obtain hxo | hxs := List.mem_cons.1 h
      · exact absurd hxo.symm hx
      · simpa [hx] using ih hxs

theorem setOp_op {s : State} {u : Nat} {o : Op} (h : o.id ∈ (s.strand u).ops.map (·.id)) :
    (s.setOp u o).op u o.id = some o := by
  rw [State.op, State.setOp, State.modStrand, setStrand_strand_same]
  exact setOp_findOp h

theorem id_mem_of_op {s : State} {u id : Nat} {o : Op} (h : s.op u id = some o) :
    o.id ∈ (s.strand u).ops.map (·.id) := by
  rw [State.op, Strand.findOp] at h
  exact List.mem_map_of_mem (List.mem_of_find?_eq_some h)

/-! What a noise request rests on: the sources, and each strand's sequence number and outstanding operations. -/

/-- The sequence number of a strand's noise words, and the numbers of its operations. -/
def Strand.noise (t : Strand) : Nat × List Nat := (t.noiseSeq, t.ops.map (·.id))

/-- The health of the sources, their queues, and what the strands keep of their requests. -/
def State.noise (s : State) : Table Bool × Table (List (Nat × Nat)) × (Nat → Nat × List Nat) :=
  (s.noiseBad, s.noiseWait, fun u => (s.strand u).noise)

theorem noiseBad_congr {s t : State} (h : t.noise = s.noise) : t.noiseBad = s.noiseBad := congrArg (·.1) h

theorem noiseWait_congr {s t : State} (h : t.noise = s.noise) : t.noiseWait = s.noiseWait := congrArg (·.2.1) h

theorem noiseSeq_congr {s t : State} (h : t.noise = s.noise) (u : Nat) :
    (t.strand u).noiseSeq = (s.strand u).noiseSeq := congrArg (fun n => (n.2.2 u).1) h

theorem opIds_congr {s t : State} (h : t.noise = s.noise) (u : Nat) :
    (t.strand u).ops.map (·.id) = (s.strand u).ops.map (·.id) := congrArg (fun n => (n.2.2 u).2) h

theorem setStrand_noise {s : State} {u : Nat} {t : Strand} (h : t.noise = (s.strand u).noise) :
    (s.setStrand u t).noise = s.noise := by
  have hs (v : Nat) : ((s.setStrand u t).strand v).noise = (s.strand v).noise := by
    by_cases hv : v = u
    · rw [hv, setStrand_strand_same, h]
    · rw [setStrand_strand_ne s t hv]
  simp [State.noise, hs]

theorem setCtx_noise (s : State) (c : Nat) (x : Ctx) : (s.setCtx c x).noise = s.noise := rfl

theorem modCore_noise (s : State) (c : Nat) (f : CoreSt → CoreSt) : (s.modCore c f).noise = s.noise := rfl

theorem rawWrite_noise (s : State) (pa : Nat) (bs : List Byte) : (rawWrite s pa bs).noise = s.noise := rfl

theorem setTag_noise (s : State) (pa tag : Nat) : (setTag s pa tag).noise = s.noise := rfl

theorem withWatches_noise (s : State) (ws : List Watch) : ({ s with watches := ws } : State).noise = s.noise := rfl

theorem setOp_noise (s : State) (u : Nat) (o : Op) : (s.setOp u o).noise = s.noise := by
  refine setStrand_noise (congrArg (Prod.mk _) ?_)
  simp only [Strand.setOp, List.map_map]
  refine List.map_congr_left fun x _ => ?_
  rw [Function.comp_apply]
  split
  · next h => exact h.symm
  · rfl

theorem acqDone_noise (s : State) (u : Nat) (o : Op) (pa v tag : Nat) (sc : Scope) :
    (acqDone s u o pa v tag sc).noise = s.noise := by
  unfold acqDone
  grind [modCore_noise, setOp_noise]

theorem fireWatches_noise (s : State) (pa n : Nat) : (fireWatches s pa n).noise = s.noise := by
  unfold fireWatches
  refine List.foldlRecOn s.watches _ (motive := fun t : State => t.noise = s.noise) rfl fun t ht w _ => ?_
  grind [acqDone_noise, withWatches_noise]

theorem homeWrite_noise (s : State) (pa : Nat) (bs : List Byte) : (homeWrite s pa bs).noise = s.noise :=
  (fireWatches_noise ..).trans (rawWrite_noise ..)

theorem releaseWrite_noise (s : State) (pa v tag : Nat) : (releaseWrite s pa v tag).noise = s.noise :=
  (fireWatches_noise ..).trans ((setTag_noise ..).trans (rawWrite_noise ..))

theorem ringPost_noise (s : State) (base n m : Nat) (bs : List Byte) : (ringPost s base n m bs).noise = s.noise := by
  unfold ringPost
  grind [homeWrite_noise, releaseWrite_noise]

theorem report_noise (s : State) (kind ctx code slot core addr : Nat) :
    (report s kind ctx code slot core addr).noise = s.noise := ringPost_noise ..

/-- With no watch placed, a write at a home leaves every context as it was. -/
theorem homeWrite_ctx {s : State} (hw : s.watches = []) (pa : Nat) (bs : List Byte) (c : Nat) :
    (homeWrite s pa bs).ctx c = s.ctx c := by
  have hfire : homeWrite s pa bs = rawWrite s pa bs := by
    unfold homeWrite fireWatches
    rw [show (rawWrite s pa bs).watches = [] from hw, List.foldl_nil]
  rw [hfire]
  rfl

/-! The word of each mode (R92). -/

section
variable {s : State} {u : Nat} {x : Ctx} (hx : s.ctx (s.strand u).ctx = x)
include hx

theorem noiseWord_replay (hm : x.nlogMode = 2) (hi : x.nlogi < x.nlogn) :
    noiseWord s u = (s.setCtx (s.strand u).ctx { x with nlogi := x.nlogi + 1 },
      w64 (readLE s (x.nlogb + 16 * x.nlogi) 8)) := by
  simp [noiseWord, hx, hm, hi]

theorem noiseWord_exhausted (hm : x.nlogMode = 2) (hi : x.nlogn ≤ x.nlogi) :
    noiseWord s u = ((freshNoise s).1.setCtx (s.strand u).ctx { x with nlogMode := 0, nlogExhaust := true },
      Config.noise s.free) := by
  simp [noiseWord, hx, hm, Nat.not_lt.2 hi, freshNoise]

theorem noiseWord_off (hm : x.nlogMode = 0) : noiseWord s u = freshNoise s := by
  simp [noiseWord, hx, hm]

theorem noiseWord_full (hm : x.nlogMode = 1) (hi : x.nlogn ≤ x.nlogi) :
    noiseWord s u = ((freshNoise s).1.setCtx (s.strand u).ctx { x with nlogLoss := true }, Config.noise s.free) := by
  simp [noiseWord, hx, hm, hi, freshNoise]

theorem noiseWord_logged (hm : x.nlogMode = 1) (hi : x.nlogi < x.nlogn) :
    noiseWord s u =
      (homeWrite ((freshNoise s).1.setCtx (s.strand u).ctx { x with nlogi := x.nlogi + 1 }) (x.nlogb + 16 * x.nlogi)
        (leBytes 8 (Config.noise s.free).toNat ++
          leBytes 4 ((s.strand u).lcore + (s.strand u).lslot * 2 ^ 16) ++ leBytes 4 (s.strand u).noiseSeq),
      Config.noise s.free) := by
  simp [noiseWord, hx, hm, Nat.not_le.2 hi, freshNoise]

end

/-- What the word of a strand and its context come to, by the mode and the room of its noise log (R92). -/
theorem noiseWord_byMode {s t : State} {u : Nat} {v : Word} (h : noiseWord s u = (t, v)) :
    let x := s.ctx (s.strand u).ctx
    let e := x.nlogb + 16 * x.nlogi
    let y := t.ctx (s.strand u).ctx
    (x.nlogMode = 2 → x.nlogi < x.nlogn →
      v = w64 (readLE s e 8) ∧ y.nlogi = x.nlogi + 1 ∧ y.nlogMode = 2 ∧ t.mem = s.mem) ∧
    (x.nlogMode = 2 → x.nlogn ≤ x.nlogi →
      v = Config.noise s.free ∧ y.nlogMode = 0 ∧ y.nlogExhaust = true ∧ t.mem = s.mem) ∧
    (x.nlogMode = 0 → v = Config.noise s.free ∧ y = x ∧ t.mem = s.mem) ∧
    (x.nlogMode = 1 → x.nlogn ≤ x.nlogi →
      v = Config.noise s.free ∧ y.nlogLoss = true ∧ y.nlogi = x.nlogi ∧ t.mem = s.mem) ∧
    (x.nlogMode = 1 → x.nlogi < x.nlogn → s.watches = [] → v = Config.noise s.free ∧ y.nlogi = x.nlogi + 1 ∧
      wrote s.mem t.mem e (leBytes 8 v.toNat ++ leBytes 4 ((s.strand u).lcore + (s.strand u).lslot * 2 ^ 16) ++
        leBytes 4 (s.strand u).noiseSeq)) := by
  extract_lets x e y
  refine ⟨fun hm hi => ?_, fun hm hi => ?_, fun hm => ?_, fun hm hi => ?_, fun hm hi hw => ?_⟩
  · obtain ⟨rfl, rfl⟩ := Prod.mk.inj (h.symm.trans (noiseWord_replay rfl hm hi))
    have hy : y = { x with nlogi := x.nlogi + 1 } := setCtx_ctx_same ..
    rw [hy]
    exact ⟨rfl, rfl, hm, rfl⟩
  · obtain ⟨rfl, rfl⟩ := Prod.mk.inj (h.symm.trans (noiseWord_exhausted rfl hm hi))
    have hy : y = { x with nlogMode := 0, nlogExhaust := true } := setCtx_ctx_same ..
    rw [hy]
    exact ⟨rfl, rfl, rfl, rfl⟩
  · obtain ⟨rfl, rfl⟩ := Prod.mk.inj (h.symm.trans (noiseWord_off rfl hm))
    exact ⟨rfl, rfl, rfl⟩
  · obtain ⟨rfl, rfl⟩ := Prod.mk.inj (h.symm.trans (noiseWord_full rfl hm hi))
    have hy : y = { x with nlogLoss := true } := setCtx_ctx_same ..
    rw [hy]
    exact ⟨rfl, rfl, rfl, rfl⟩
  · obtain ⟨rfl, rfl⟩ := Prod.mk.inj (h.symm.trans (noiseWord_logged rfl hm hi))
    have hy : y = { x with nlogi := x.nlogi + 1 } :=
      (homeWrite_ctx (s := (freshNoise s).1.setCtx _ _) hw ..).trans (setCtx_ctx_same ..)
    rw [hy, homeWrite_mem]
    exact ⟨rfl, rfl, wrote_memPut s.mem e _⟩

theorem noiseWord_noise (s : State) (u : Nat) : (noiseWord s u).1.noise = s.noise := by
  have hfresh : (freshNoise s).1.noise = s.noise := rfl
  unfold noiseWord
  grind [setCtx_noise, homeWrite_noise]

/-! A delivery (R91). -/

/-- The queue of source cl is rest: its first request has left it. -/
def State.dequeued (s : State) (cl : Nat) (rest : List (Nat × Nat)) : State :=
  { s with noiseWait := tput s.noiseWait cl rest }

theorem rangeWorld_congr {s t : State} (h : t.config = s.config) (pa n : Nat) :
    rangeWorld t pa n = rangeWorld s pa n := by
  induction n with
  | zero => rfl
  | succ n ih =>
    unfold rangeWorld cfgLE
    rw [h, ih]

/-- The world of a granule is read from the configuration and from the ports that are populated. -/
theorem granuleSecure_congr {s t : State} (hc : t.config = s.config) (hp : t.populated = s.populated) (pa : Nat) :
    granuleSecure t pa = granuleSecure s pa := by
  simp only [granuleSecure, homeOf, cfgBit, cfgLE, rangeWorld_congr hc, hc, hp]

theorem noiseWorld_dequeued (s : State) (cl : Nat) (rest : List (Nat × Nat)) (u : Nat) :
    noiseWorld (s.dequeued cl rest) u = noiseWorld s u := by
  unfold noiseWorld
  simp only [granuleSecure_congr (s := s) (t := s.dequeued cl rest) rfl rfl]
  rfl

/-- The request o of strand u is answered with the word of its context's mode. -/
def noiseServed (s : State) (u : Nat) (o : Op) : State :=
  opDone ((noiseWord s u).1.modStrand u fun t => { t with noiseSeq := (t.noiseSeq + 1) % 2 ^ 32 }) u o
    [(noiseWord s u).2]

theorem noiseServed_noiseWait (s : State) (u : Nat) (o : Op) : (noiseServed s u o).noiseWait = s.noiseWait :=
  calc (noiseServed s u o).noiseWait
      _ = (noiseWord s u).1.noiseWait := rfl
      _ = s.noiseWait := noiseWait_congr (noiseWord_noise s u)

theorem noiseServed_noiseSeq (s : State) (u : Nat) (o : Op) :
    ((noiseServed s u o).strand u).noiseSeq = ((s.strand u).noiseSeq + 1) % 2 ^ 32 := by
  rw [noiseServed, opDone, noiseSeq_congr (setOp_noise ..), State.modStrand, setStrand_strand_same,
    noiseSeq_congr (noiseWord_noise s u)]

theorem noiseServed_doneOp {s : State} {u : Nat} {o : Op} (ho : o.id ∈ (s.strand u).ops.map (·.id)) :
    (noiseServed s u o).doneOp u o [(noiseWord s u).2] := by
  refine setOp_op (o := { o with phase := .done, res := _ }) ?_
  rw [State.modStrand, setStrand_strand_same]
  exact opIds_congr (noiseWord_noise s u) u ▸ ho

section
variable {s : State} {cl u id : Nat} {rest : List (Nat × Nat)} {o : Op}
  (hq : tget [] s.noiseWait cl = (u, id) :: rest) (ho : s.op u id = some o)

include hq in
/-- While the health test fails nothing is delivered. -/
theorem noiseWordDelivery_bad (hb : tget false s.noiseBad cl = true) : exec (.noiseWordDelivery cl) s = .next s := by
  simp [execNoiseWordDelivery, hq, hb]

include hq ho

/-- An entry in a granule of the other world faults the request (log entry 68). -/
theorem noiseWordDelivery_world (hb : tget false s.noiseBad cl = false) {a : Nat × Nat} (hw : noiseWorld s u = some a) :
    exec (.noiseWordDelivery cl) s =
      .next (opFault (s.dequeued cl rest) u o { code := 9, addr := a.1, acc := a.2 }) := by
  have ho' : (s.dequeued cl rest).op u id = some o := ho
  have hw' := (noiseWorld_dequeued s cl rest u).trans hw
  unfold State.dequeued at *
  simp [execNoiseWordDelivery, hq, hb, ho', hw']

theorem noiseWordDelivery_served (hb : tget false s.noiseBad cl = false) (hw : noiseWorld s u = none) :
    exec (.noiseWordDelivery cl) s = .next (noiseServed (s.dequeued cl rest) u o) := by
  have ho' : (s.dequeued cl rest).op u id = some o := ho
  have hw' := (noiseWorld_dequeued s cl rest u).trans hw
  unfold State.dequeued at *
  simp [execNoiseWordDelivery, hq, hb, ho', hw', noiseServed]

end

/-- A fault of an operation that is no part of a repetition, while no close waits, is kept with it (R102). -/
theorem opFault_kept {s : State} {u : Nat} {o : Op} {c : Cause} (hchild : o.child = none)
    (hclose : (s.strand u).close = none) : opFault s u o c = s.setOp u { o with phase := .faulted, cause := c } := by
  rw [opFault, hchild]
  refine closeCheck_of_no_close ?_
  rw [State.setOp, State.modStrand, setStrand_strand_same]
  exact hclose

/-! The instructions (R90 to R92), past their checks. -/

section
variable {s : State} {h : Hdr} {rd ra rb : Reg}

theorem rseed_completes (hp : s.passes h [.r ra]) :
    exec (.rseed h ra) s = .next (s.leave h { s.me.past 4 with dseed := s.me.reg ra }) := by
  rw [exec_rseed, execRseed, ← past_reg s.me 4]
  exact issue_upd hp (by simp) (by simp) rfl rfl

theorem rgen_completes (hp : s.passes h [.r rd, .r ra, .r rb]) :
    let a := (s.me.reg ra).toNat
    let block := dcg s.me.dseed.toNat (a % 2 ^ 32) (s.me.reg rb).toNat
    exec (.rgen h rd ra rb) s = .next (s.leave h ((s.me.past 4).setReg rd
      (BitVec.ofNat 64 (if a / 2 ^ 32 % 2 = 1 then block / 2 ^ 64 else block % 2 ^ 64)))) := by
  rw [exec_rgen, execRgen, regOp_next hp]
  simp only [past_reg, bit, beq_iff_eq]
  rfl

/-- RNOISE in a deterministic kernel outside replay (R425). -/
theorem rnoise_det (hp : s.passes h [.r rd]) (hr : s.room)
    (hd : (s.kern s.me.kern).det = true ∧ (s.ctx s.me.ctx).nlogMode ≠ 2) :
    exec (.rnoise h rd) s = .next (trapAt s s.cur s.me.pc 4 { code := 3 }) := by
  rw [exec_rnoise, execRnoise]
  exact issue_trap hp (by simp) (fun _ => hr) (if_pos (Bool.and_eq_true_iff.2 ⟨hd.1, bne_iff_ne.2 hd.2⟩))

/-- RNOISE otherwise: its request is the last in its source's queue. -/
theorem rnoise_sent (hp : s.passes h [.r rd]) (hr : s.room)
    (hd : ¬((s.kern s.me.kern).det = true ∧ (s.ctx s.me.ctx).nlogMode ≠ 2)) :
    let cl := coreCluster s.me.pcore
    exec (.rnoise h rd) s = .next (s.leaveIn h
      { s with noiseWait := tput s.noiseWait cl (tget [] s.noiseWait cl ++ [(s.cur, s.me.nextOp)]) }
      ((s.me.past 4).send .rnoise .s s.me.pc 4 s.steps (s.me.dest rd))) := by
  rw [exec_rnoise, execRnoise]
  refine issue_in hp (by simp) (fun _ => hr) rfl ((if_neg fun hb => hd ?_).trans ?_)
  · obtain ⟨hdet, hmode⟩ := Bool.and_eq_true_iff.1 hb
    exact ⟨hdet, bne_iff_ne.1 hmode⟩
  · dsimp only
    rw [setStrand_setStrand]
    rfl

theorem rlog_user (hp : s.passes h [.r rd, .r ra]) (hu : s.me.sup = false) :
    exec (.rlog h rd ra) s = .next (trapAt s s.cur s.me.pc 4 { code := 3 }) := by
  rw [exec_rlog, execRlog]
  exact issue_user hp rfl hu

theorem rlog_completes (hp : s.passes h [.r rd, .r ra]) (hs : s.me.sup = true) :
    let m := (s.me.reg ra).toNat % 4
    exec (.rlog h rd ra) s = .next (s.leaveIn h
      (s.modCtx s.me.ctx fun c => { c with nlogMode := if m = 3 then c.nlogMode else m })
      ((s.me.past 4).setReg rd (w64 (s.ctx s.me.ctx).nlogMode))) := by
  rw [exec_rlog, execRlog, ← past_reg s.me 4]
  refine issue_in hp (fun _ => hs) (by simp) rfl (congrArg Eff.ok ?_)
  exact Eq.trans (by rfl) (setStrand_setStrand _ _ (s.me.past 4) _)

end

/-! The health test (R91). -/

theorem noiseHealthFail_bad (s : State) {cl : Nat} (hcl : cl < 64) :
    ∃ t, exec (.noiseHealthFail cl) s = .next t ∧ tget false t.noiseBad cl = true := by
  rw [exec_noiseHealthFail, execNoiseHealthFail]
  refine ⟨_, rfl, ?_⟩
  split
  · next h => exact h.resolve_left (Nat.not_le.2 hcl)
  · rw [noiseBad_congr (report_noise ..)]
    exact tget_tput_same ..

theorem noiseHealthPass_good (s : State) (cl : Nat) :
    ∃ t, exec (.noiseHealthPass cl) s = .next t ∧ tget false t.noiseBad cl = false ∧ t.mem = s.mem :=
  ⟨_, rfl, tget_tput_same .., rfl⟩

/-- Settles O49: the instructions past their checks, a delivery in each mode of its context's log (`noiseWord_replay`
and the lemmas beside it), and the health test, whose report leaves the sources alone (`report_noise`). -/
theorem randomNumbers : Obligations.RandomNumbers := by
  unfold Obligations.RandomNumbers
  refine ⟨fun s h rd ra rb hp => ?_, fun s cl u id rest o hq ho hid => ?_,
    fun s cl hcl => ⟨noiseHealthFail_bad s hcl, noiseHealthPass_good s cl⟩⟩
  · obtain ⟨hpend, hon, hrefs⟩ := hp
    have hsome {refs : List Ref} (hsub : refs ⊆ [.r rd, .r ra, .r rb]) : s.passes h refs :=
      ⟨hpend, hon, fun r hr => hrefs r (hsub hr)⟩
    have hd : s.passes h [.r rd] := hsome (by simp)
    have ha : s.passes h [.r ra] := hsome (by simp)
    have hda : s.passes h [.r rd, .r ra] := hsome (by simp)
    refine ⟨rseed_completes ha, rgen_completes (hsome (List.Subset.refl _)), fun hr => ⟨rnoise_det hd hr, fun hn => ?_⟩,
      rlog_user hda, fun hs => ⟨_, rlog_completes hda hs, ?_⟩⟩
    · exact ⟨_, rnoise_sent hd hr hn, tget_tput_same .., rfl⟩
    · exact congrArg Ctx.nlogMode (setCtx_ctx_same ..)
  · subst hid
    have hmem := id_mem_of_op ho
    refine ⟨noiseWordDelivery_bad hq, fun hb hw hchild hclose => ?_, fun hb hw => ?_⟩
    · have hfault := noiseWordDelivery_world hq ho hb (if_pos hw)
      rw [opFault_kept (s := s.dequeued cl rest) hchild hclose] at hfault
      exact ⟨_, _, hfault, setOp_op (s := s.dequeued cl rest) hmem, rfl, rfl, rfl⟩
    · refine ⟨_, _, noiseWordDelivery_served hq ho hb (if_neg hw), noiseServed_doneOp hmem, ?_,
        noiseServed_noiseSeq .., noiseWord_byMode (s := s.dequeued cl rest) (t := (noiseWord _ u).1) rfl⟩
      rw [noiseServed_noiseWait]
      exact tget_tput_same ..

end Sys2Proof.Machine

/-! PROOFS. The results of the integer instructions (R121 to R127): what each operation of the model comes to in integer
arithmetic, bit by bit, or as a count of bits, and what the instruction of each rule leaves. -/

namespace Sys2Proof.Machine
open Sys2Proof

/-! The operations against integer arithmetic. -/

theorem add_eq_ofInt (a b : Word) : a + b = BitVec.ofInt 64 (a.toInt + b.toInt) := by
  rw [BitVec.ofInt_add, BitVec.ofInt_toInt, BitVec.ofInt_toInt]

theorem mul_eq_ofInt (a b : Word) : a * b = BitVec.ofInt 64 (a.toInt * b.toInt) := by
  rw [BitVec.ofInt_mul, BitVec.ofInt_toInt, BitVec.ofInt_toInt]

/-- The signed smaller of two words, either one where they are equal. -/
theorem minS_eq_ofInt (a b : Word) : minS a b = BitVec.ofInt 64 (min a.toInt b.toInt) := by
  rw [minS, BitVec.slt_eq_decide]
  by_cases h : a.toInt < b.toInt
  · simp [h, min_eq_left h.le]
  · simp [h, min_eq_right (not_lt.1 h)]

theorem maxS_eq_ofInt (a b : Word) : maxS a b = BitVec.ofInt 64 (max a.toInt b.toInt) := by
  rw [maxS, BitVec.slt_eq_decide]
  by_cases h : a.toInt < b.toInt
  · simp [h, max_eq_right h.le]
  · simp [h, max_eq_left (not_lt.1 h)]

theorem minU_eq_ofNat (a b : Word) : minU a b = BitVec.ofNat 64 (min a.toNat b.toNat) := by
  rw [minU, BitVec.ult_eq_decide]
  by_cases h : a.toNat < b.toNat
  · simp [h, min_eq_left h.le]
  · simp [h, min_eq_right (not_lt.1 h)]

theorem maxU_eq_ofNat (a b : Word) : maxU a b = BitVec.ofNat 64 (max a.toNat b.toNat) := by
  rw [maxU, BitVec.ult_eq_decide]
  by_cases h : a.toNat < b.toNat
  · simp [h, max_eq_right h.le]
  · simp [h, max_eq_left (not_lt.1 h)]

theorem shiftLeft_eq_ofNat (a : Word) (n : Nat) : a <<< n = BitVec.ofNat 64 (a.toNat * 2 ^ n) := by
  rw [← Nat.shiftLeft_eq]
  rfl

theorem sshiftRight_eq_ofInt (a : Word) (n : Nat) : a.sshiftRight n = BitVec.ofInt 64 (a.toInt / 2 ^ n) := by
  rw [BitVec.sshiftRight, Int.shiftRight_eq_div_pow]
  norm_cast

theorem zextW_eq_setWidth (a : Word) (n : BitVec 6) : zextW a n = (a.setWidth (n.toNat + 1)).setWidth 64 := by
  apply BitVec.eq_of_toNat_eq
  rw [zextW, w64, BitVec.toNat_ofNat, BitVec.toNat_setWidth, BitVec.toNat_setWidth]

theorem addImm_eq_ofInt {n : Nat} (a : Word) (imm : BitVec n) (hn : n ≤ 64) :
    a + immW imm = BitVec.ofInt 64 (a.toInt + imm.toInt) := by
  rw [add_eq_ofInt, immW, BitVec.toInt_signExtend_of_le hn]

/-! The bitwise operations, bit by bit. -/

theorem and_eq_wordOf (a b : Word) : a &&& b = wordOf fun i => a.getLsbD i && b.getLsbD i :=
  (wordOf_of_bits _ _ fun _ _ => BitVec.getLsbD_and.symm).symm

theorem or_eq_wordOf (a b : Word) : a ||| b = wordOf fun i => a.getLsbD i || b.getLsbD i :=
  (wordOf_of_bits _ _ fun _ _ => BitVec.getLsbD_or.symm).symm

theorem xor_eq_wordOf (a b : Word) : a ^^^ b = wordOf fun i => a.getLsbD i != b.getLsbD i :=
  (wordOf_of_bits _ _ fun _ _ => BitVec.getLsbD_xor.symm).symm

theorem andn_eq_wordOf (a b : Word) : a &&& ~~~b = wordOf fun i => a.getLsbD i && !b.getLsbD i :=
  (wordOf_of_bits _ _ fun i hi => by simp [hi]).symm

theorem rotateLeft_shiftBy_eq_wordOf (a b : Word) :
    a.rotateLeft (shiftBy b) = wordOf fun i => a.getLsbD ((i + 64 - b.toNat % 64) % 64) := by
  rw [rotateLeft_eq_wordOf, shiftBy, Nat.mod_mod]

/-! The counts of bits (R122). -/

/-- The zeros that lead the low n bits: so many bits below bit n are zero, and the next one is set, if there is one. -/
theorem lead0_spec (w n : Nat) : lead0 n w ≤ n ∧ (∀ i, n - lead0 n w ≤ i → i < n → w.testBit i = false) ∧
    (lead0 n w < n → w.testBit (n - 1 - lead0 n w) = true) := by
  induction n with
  | zero => exact ⟨Nat.le_refl 0, nofun, nofun⟩
  | succ n ih =>
    obtain ⟨hle, hzero, hone⟩ := ih
    rw [lead0, bit_eq_testBit]
    cases hb : w.testBit n with
    | true => exact ⟨Nat.zero_le _, fun i hlo hhi => absurd hhi (not_lt.2 hlo), fun _ => hb⟩
    | false =>
      rw [if_neg Bool.false_ne_true]
      refine ⟨Nat.succ_le_succ hle, fun i hlo hhi => ?_, fun hlt => ?_⟩
      · obtain rfl | hi : i = n ∨ i < n := by omega
        · exact hb
        · exact hzero i (by omega) hi
      · convert hone (by omega) using 2
        omega

/-- The zeros that trail from bit i on, among n bits. -/
theorem trail0_spec (w n i : Nat) : trail0 n i w ≤ n ∧ (∀ j, i ≤ j → j < i + trail0 n i w → w.testBit j = false) ∧
    (trail0 n i w < n → w.testBit (i + trail0 n i w) = true) := by
  induction n generalizing i with
  | zero => exact ⟨Nat.le_refl 0, fun j hlo hhi => absurd hhi (not_lt.2 hlo), nofun⟩
  | succ n ih =>
    obtain ⟨hle, hzero, hone⟩ := ih (i + 1)
    rw [trail0, bit_eq_testBit]
    cases hb : w.testBit i with
    | true => exact ⟨Nat.zero_le _, fun j hlo hhi => absurd hhi (not_lt.2 hlo), fun _ => hb⟩
    | false =>
      rw [if_neg Bool.false_ne_true]
      refine ⟨Nat.succ_le_succ hle, fun j hlo hhi => ?_, fun hlt => ?_⟩
      · obtain rfl | hj : i = j ∨ i + 1 ≤ j := by omega
        · exact hb
        · exact hzero j hj (by omega)
      · convert hone (by omega) using 2
        omega

theorem ones_eq_countP (w n : Nat) : ones n w = (List.range n).countP w.testBit := by
  induction n with
  | zero => rfl
  | succ n ih =>
    rw [ones, ih, List.range_succ, List.countP_append, List.countP_singleton, bit_eq_testBit, b2n, Nat.add_comm]

/-- A predicate bit is on: c0 always, another where its bit of PWORD is one (R112). -/
theorem predBit_iff (t : Strand) (p : Pr) : t.predBit p = true ↔ p.val = 0 ∨ t.pword / 2 ^ p.val % 2 = 1 := by
  rw [Strand.predBit, bit]
  split <;> simp_all

/-! What each rule's instruction leaves. -/

section
variable {s : State} {i : Instr} {h : Hdr} {refs : List Ref}

/-- An instruction that is a register operation writes what its function gives. -/
theorem next_of_regOp {len : Nat} {rd : Reg} {srcs : List Reg} {f : Strand → Word} {v : Word}
    (hi : exec i s = regOp h len rd srcs f s) (hp : s.passes h (.r rd :: srcs.map .r)) (hv : f (s.me.past len) = v) :
    exec i s = .next (s.leave h ((s.me.past len).setReg rd v)) := by
  rw [hi, regOp_next hp, hv]

theorem IntRule.completes {len : Nat} {rd : Reg} {v : Word} (hr : IntRule s.me i h len rd refs v)
    (hp : s.passes h refs) : exec i s = .next (s.leave h ((s.me.past len).setReg rd v)) := by
  cases hr with
  | add h rd ra rb => exact next_of_regOp (srcs := [ra, rb]) (exec_add s) hp (by simp only [past_reg, add_eq_ofInt])
  | sub h rd ra rb => exact next_of_regOp (srcs := [ra, rb]) (exec_sub s) hp (by simp only [past_reg, sub_eq_ofInt])
  | min h rd ra rb => exact next_of_regOp (srcs := [ra, rb]) (exec_min s) hp (by simp only [past_reg, minS_eq_ofInt])
  | minu h rd ra rb =>
    exact next_of_regOp (srcs := [ra, rb]) (exec_minu s) hp (by simp only [past_reg, minU_eq_ofNat])
  | max h rd ra rb => exact next_of_regOp (srcs := [ra, rb]) (exec_max s) hp (by simp only [past_reg, maxS_eq_ofInt])
  | maxu h rd ra rb =>
    exact next_of_regOp (srcs := [ra, rb]) (exec_maxu s) hp (by simp only [past_reg, maxU_eq_ofNat])
  | and h rd ra rb => exact next_of_regOp (srcs := [ra, rb]) (exec_and s) hp (by simp only [past_reg, and_eq_wordOf])
  | or h rd ra rb => exact next_of_regOp (srcs := [ra, rb]) (exec_or s) hp (by simp only [past_reg, or_eq_wordOf])
  | xor h rd ra rb => exact next_of_regOp (srcs := [ra, rb]) (exec_xor s) hp (by simp only [past_reg, xor_eq_wordOf])
  | andn h rd ra rb =>
    exact next_of_regOp (srcs := [ra, rb]) (exec_andn s) hp (by simp only [past_reg, andn_eq_wordOf])
  | shl h rd ra rb =>
    exact next_of_regOp (srcs := [ra, rb]) (exec_shl s) hp (by simp only [past_reg, shiftLeft_eq_ofNat, shiftBy])
  | shr h rd ra rb =>
    exact next_of_regOp (srcs := [ra, rb]) (exec_shr s) hp (by simp only [past_reg, ushiftRight_eq_ofNat, shiftBy])
  | sar h rd ra rb =>
    exact next_of_regOp (srcs := [ra, rb]) (exec_sar s) hp (by simp only [past_reg, sshiftRight_eq_ofInt, shiftBy])
  | rol h rd ra rb =>
    exact next_of_regOp (srcs := [ra, rb]) (exec_rol s) hp (by simp only [past_reg, rotateLeft_shiftBy_eq_wordOf])
  | mul h rd ra rb => exact next_of_regOp (srcs := [ra, rb]) (exec_mul s) hp (by simp only [past_reg, mul_eq_ofInt])
  | mulh h rd ra rb =>
    exact next_of_regOp (srcs := [ra, rb]) (exec_mulh s) hp (by simp only [past_reg, mulHi, mulHi_eq_high])
  | mulhu h rd ra rb =>
    exact next_of_regOp (srcs := [ra, rb]) (exec_mulhu s) hp (by simp only [past_reg, mulHiU, mulHiU_eq_high])
  | sext h rd ra n =>
    exact next_of_regOp (srcs := [ra]) (exec_sext s) hp (by simp only [past_reg, sextW_eq_signExtend])
  | zext h rd ra n => exact next_of_regOp (srcs := [ra]) (exec_zext s) hp (by simp only [past_reg, zextW_eq_setWidth])
  | bfx h rd ra rb =>
    exact next_of_regOp (srcs := [ra, rb]) (exec_bfx s) hp (by simp only [past_reg, bfxW_eq_fieldOf])
  | bfxLit h rd ra lit =>
    exact next_of_regOp (srcs := [ra]) (exec_bfxLit s) hp (by simp only [past_reg, bfxW_eq_fieldOf])
  | bfi h rd ra rb =>
    exact next_of_regOp (srcs := [ra, rb]) (exec_bfi s) hp (by simp only [past_reg, bfiW_eq_fieldInto])
  | bfiLit h rd ra lit =>
    exact next_of_regOp (srcs := [ra]) (exec_bfiLit s) hp (by simp only [past_reg, bfiW_eq_fieldInto])
  | addi h rd ra imm =>
    exact next_of_regOp (srcs := [ra]) (exec_addi s) hp (by simp only [past_reg, addImm_eq_ofInt, Nat.reduceLeDiff])
  | addiLit h rd ra lit =>
    exact next_of_regOp (srcs := [ra]) (exec_addiLit s) hp (by simp only [past_reg, add_eq_ofInt])
  | li h rd imm => exact next_of_regOp (srcs := []) (exec_li s) hp rfl
  | liLit h rd lit => exact next_of_regOp (srcs := []) (exec_liLit s) hp rfl
  | adr h rd imm =>
    rw [exec_adr, execAdr, ← wordTarget_eq_ofInt _ _ (by decide)]
    exact issue_upd hp nofun nofun rfl rfl
  | sel h cs rd ra rb =>
    rw [exec_sel, execSel]
    simp only [← predBit_iff, ← past_predBit s.me 4, ← past_reg s.me 4]
    exact issue_upd hp nofun nofun rfl rfl
  | adrLit h rd lit aligned =>
    rw [exec_adrLit, execAdrLit, ← byteTarget_eq_ofInt]
    exact issue_upd hp nofun nofun rfl (if_neg (not_not.2 aligned))

theorem clz_completes {rd ra : Reg} (hp : s.passes h [.r rd, .r ra]) :
    exec (.clz h rd ra) s = .next (s.leave h ((s.me.past 4).setReg rd (w64 (lead0 64 (s.me.reg ra).toNat)))) :=
  next_of_regOp (srcs := [ra]) (exec_clz s) hp (by rw [past_reg, clzW])

theorem ctz_completes {rd ra : Reg} (hp : s.passes h [.r rd, .r ra]) :
    exec (.ctz h rd ra) s = .next (s.leave h ((s.me.past 4).setReg rd (w64 (trail0 64 0 (s.me.reg ra).toNat)))) :=
  next_of_regOp (srcs := [ra]) (exec_ctz s) hp (by rw [past_reg, ctzW])

theorem popc_completes {rd ra : Reg} (hp : s.passes h [.r rd, .r ra]) :
    exec (.popc h rd ra) s = .next (s.leave h ((s.me.past 4).setReg rd (w64 (ones 64 (s.me.reg ra).toNat)))) :=
  next_of_regOp (srcs := [ra]) (exec_popc s) hp (by rw [past_reg, popcW])

end

/-- Settles O1: each rule's instruction is a register operation whose function is the rule in integer arithmetic
(`IntRule.completes`); the counts of bits are those of `lead0_spec`, `trail0_spec` and `ones_eq_countP`. -/
theorem integerAndBitResults : Obligations.IntegerAndBitResults := by
  unfold Obligations.IntegerAndBitResults
  refine ⟨fun s i h len rd refs v hr hp => hr.completes hp, fun s h rd ra hp => ⟨?_, ?_, ?_⟩⟩
  · obtain ⟨hle, hzero, hone⟩ := lead0_spec (s.me.reg ra).toNat 64
    exact ⟨_, hle, clz_completes hp, hzero, hone⟩
  · obtain ⟨hle, hzero, hone⟩ := trail0_spec (s.me.reg ra).toNat 64 0
    rw [Nat.zero_add] at hzero hone
    exact ⟨_, hle, ctz_completes hp, fun i hi => hzero i (Nat.zero_le i) hi, hone⟩
  · rw [popc_completes hp, ones_eq_countP]
    rfl

/-! Division (R123). -/

section
variable {s : State} {i : Instr} {h : Hdr} {rd ra rb : Reg}

theorem div_completes (hp : s.passes h [.r rd, .r ra, .r rb]) :
    exec (.div h rd ra rb) s = .next (s.leave h ((s.me.past 4).setReg rd (divS (s.me.reg ra) (s.me.reg rb)))) :=
  next_of_regOp (srcs := [ra, rb]) (exec_div s) hp (by rw [past_reg, past_reg])

theorem divu_completes (hp : s.passes h [.r rd, .r ra, .r rb]) :
    exec (.divu h rd ra rb) s = .next (s.leave h ((s.me.past 4).setReg rd (divU (s.me.reg ra) (s.me.reg rb)))) :=
  next_of_regOp (srcs := [ra, rb]) (exec_divu s) hp (by rw [past_reg, past_reg])

theorem rem_completes (hp : s.passes h [.r rd, .r ra, .r rb]) :
    exec (.rem h rd ra rb) s = .next (s.leave h ((s.me.past 4).setReg rd (remS (s.me.reg ra) (s.me.reg rb)))) :=
  next_of_regOp (srcs := [ra, rb]) (exec_rem s) hp (by rw [past_reg, past_reg])

theorem remu_completes (hp : s.passes h [.r rd, .r ra, .r rb]) :
    exec (.remu h rd ra rb) s = .next (s.leave h ((s.me.past 4).setReg rd (remU (s.me.reg ra) (s.me.reg rb)))) :=
  next_of_regOp (srcs := [ra, rb]) (exec_remu s) hp (by rw [past_reg, past_reg])

/-- A divisor that is not zero: the model divides as the rule does, also where the quotient does not fit. -/
theorem DivRule.completes {refs : List Ref} {v : Word} (hr : DivRule s.me i h rd refs v) (hp : s.passes h refs) :
    exec i s = .next (s.leave h ((s.me.past 4).setReg rd v)) := by
  cases hr with
  | div h rd ra rb hz hf => rw [div_completes hp, divS, if_neg hz]
  | rem h rd ra rb hz hf => rw [rem_completes hp, remS, if_neg hz]
  | divu h rd ra rb hz => rw [divu_completes hp, divU, if_neg hz, w64]
  | remu h rd ra rb hz => rw [remu_completes hp, remU, if_neg hz, w64]

end

/-- Settles O2: the four meanings, each evaluated where the divisor is not zero, where it is zero, and where the
quotient is 2^63 and wraps. -/
theorem divisions : Obligations.Divisions := by
  unfold Obligations.Divisions
  refine ⟨fun s i h rd refs v hr hp => hr.completes hp, fun s h rd ra rb hp hz => ⟨?_, ?_⟩,
    fun s h rd ra rb hp ha hb => ⟨?_, ?_⟩⟩
  · simp only [List.forall_mem_cons, List.not_mem_nil, false_imp_iff, implies_true, and_true]
    exact ⟨by rw [div_completes hp, divS, if_pos hz]; rfl, by rw [divu_completes hp, divU, if_pos hz]; rfl⟩
  · simp only [List.forall_mem_cons, List.not_mem_nil, false_imp_iff, implies_true, and_true]
    exact ⟨by rw [rem_completes hp, remS, if_pos hz], by rw [remu_completes hp, remU, if_pos hz]⟩
  · have quotient : divS (BitVec.intMin 64) (BitVec.allOnes 64) = BitVec.intMin 64 := by decide
    rw [div_completes hp, ha, hb, quotient]
  · have remainder : remS (BitVec.intMin 64) (BitVec.allOnes 64) = 0 := by decide
    rw [rem_completes hp, ha, hb, remainder]

end Sys2Proof.Machine

/-! PROOFS. Scalar floating point (R67, R76 to R78, R128 to R132): the classes, what each instruction leaves, that every
code of a finite value is the code to which its value converts back, and the special cases. -/

namespace Sys2Proof.Machine
open Sys2Proof

/-! The class of an FP32 code (R131). -/

theorem bit_toNat {n : Nat} (c : BitVec n) (i : Nat) : bit c.toNat i = c.getLsbD i := bit_eq_testBit _ _

theorem fld_toNat {n : Nat} (c : BitVec n) (lo k : Nat) : fld c.toNat lo k = (c.extractLsb' lo k).toNat := by
  rw [fld, BitVec.extractLsb'_toNat, Nat.shiftRight_eq_div_pow]

/-- The mask is the class's bit, by exponent, mantissa and sign. -/
theorem fclassOf_toNat (c : BitVec 32) : fclassOf c.toNat = 2 ^ classBit c := by
  simp only [fclassOf, classBit, bit_toNat, fld_toNat]
  generalize (c.extractLsb' 23 8).toNat = e
  generalize (c.extractLsb' 0 23).toNat = m
  by_cases he : e = 255
  · by_cases hm : m = 0
    · cases c.getLsbD 31 <;> simp [he, hm]
    · cases c.getLsbD 22 <;> simp [he, hm]
  · by_cases hz : e = 0
    · by_cases hm : m = 0 <;> cases c.getLsbD 31 <;> simp [hz, hm]
    · cases c.getLsbD 31 <;> simp [he, hz]

/-- Settles O5: FCLASS is a register operation, and its mask is the one bit of the class (`fclassOf_toNat`). -/
theorem fclassResults : Obligations.FclassResults := by
  unfold Obligations.FclassResults
  intro s h rd ra hp
  have hclass : fclassOf ((s.me.reg ra).toNat % 2 ^ 32) = 2 ^ classBit ((s.me.reg ra).setWidth 32) := by
    rw [← BitVec.toNat_setWidth, fclassOf_toNat]
  rw [exec_fclass, execFclass, regOp_next (srcs := [ra]) hp, past_reg, hclass]
  rfl

/-! What a floating-point instruction leaves: its function's code and flags (R120, R128). -/

section
variable {s : State} {i : Instr} {h : Hdr} {rd ra rb : Reg}

theorem next_of_fpOp {srcs : List Reg} {f : Strand → Nat × Nat} {q : Nat × Nat} (hi : exec i s = fpOp h rd srcs f s)
    (hp : s.passes h (.r rd :: srcs.map .r)) (hq : f (s.me.past 4) = q) : exec i s = s.floatNext h rd q.1 q.2 := by
  rw [hi, fpOp_next hp, hq]
  rfl

theorem fadd_completes (hp : s.passes h [.r rd, .r ra, .r rb]) : exec (.fadd h rd ra rb) s =
    s.floatNext h rd (fpResult ((fpOf (s.me.reg ra)).add (fpOf (s.me.reg rb)))).1
      (fpResult ((fpOf (s.me.reg ra)).add (fpOf (s.me.reg rb)))).2 :=
  next_of_fpOp (srcs := [ra, rb]) (exec_fadd s) hp (by simp only [past_reg])

theorem fsub_completes (hp : s.passes h [.r rd, .r ra, .r rb]) : exec (.fsub h rd ra rb) s =
    s.floatNext h rd (fpResult ((fpOf (s.me.reg ra)).add (fpOf (s.me.reg rb)).neg)).1
      (fpResult ((fpOf (s.me.reg ra)).add (fpOf (s.me.reg rb)).neg)).2 :=
  next_of_fpOp (srcs := [ra, rb]) (exec_fsub s) hp (by simp only [past_reg])

theorem fmul_completes (hp : s.passes h [.r rd, .r ra, .r rb]) : exec (.fmul h rd ra rb) s =
    s.floatNext h rd (fpResult ((fpOf (s.me.reg ra)).mul (fpOf (s.me.reg rb)))).1
      (fpResult ((fpOf (s.me.reg ra)).mul (fpOf (s.me.reg rb)))).2 :=
  next_of_fpOp (srcs := [ra, rb]) (exec_fmul s) hp (by simp only [past_reg])

theorem fdiv_completes (hp : s.passes h [.r rd, .r ra, .r rb]) : exec (.fdiv h rd ra rb) s =
    s.floatNext h rd (fpResult ((fpOf (s.me.reg ra)).div (fpOf (s.me.reg rb)))).1
      (fpResult ((fpOf (s.me.reg ra)).div (fpOf (s.me.reg rb)))).2 :=
  next_of_fpOp (srcs := [ra, rb]) (exec_fdiv s) hp (by simp only [past_reg])

theorem fsqrt_completes (hp : s.passes h [.r rd, .r ra]) : exec (.fsqrt h rd ra) s =
    s.floatNext h rd (fpResult (fpOf (s.me.reg ra)).sqrt).1 (fpResult (fpOf (s.me.reg ra)).sqrt).2 :=
  next_of_fpOp (srcs := [ra]) (exec_fsqrt s) hp (by simp only [past_reg])

theorem ffma_completes (hp : s.passes h [.r rd, .r ra, .r rb]) : exec (.ffma h rd ra rb) s =
    s.floatNext h rd (fpResult (((fpOf (s.me.reg ra)).mul (fpOf (s.me.reg rb))).add (fpOf (s.me.reg rd)))).1
      (fpResult (((fpOf (s.me.reg ra)).mul (fpOf (s.me.reg rb))).add (fpOf (s.me.reg rd)))).2 :=
  next_of_fpOp (srcs := [ra, rb]) (exec_ffma s) hp (by simp only [past_reg])

theorem fmin_picks {c fl : Nat} (hp : s.passes h [.r rd, .r ra, .r rb])
    (hq : fpPick fp32 false ((s.me.reg ra).toNat % 2 ^ 32) ((s.me.reg rb).toNat % 2 ^ 32) = (c, fl)) :
    exec (.fmin h rd ra rb) s = s.floatNext h rd c fl :=
  next_of_fpOp (q := (c, fl)) (srcs := [ra, rb]) (exec_fmin s) hp (by simp only [past_reg, hq])

theorem fmax_picks {c fl : Nat} (hp : s.passes h [.r rd, .r ra, .r rb])
    (hq : fpPick fp32 true ((s.me.reg ra).toNat % 2 ^ 32) ((s.me.reg rb).toNat % 2 ^ 32) = (c, fl)) :
    exec (.fmax h rd ra rb) s = s.floatNext h rd c fl :=
  next_of_fpOp (q := (c, fl)) (srcs := [ra, rb]) (exec_fmax s) hp (by simp only [past_reg, hq])

theorem w64_unsgn (z : Int) : w64 (unsgn 64 z) = BitVec.ofInt 64 z := by
  apply BitVec.eq_of_toNat_eq
  rw [w64, unsgn, BitVec.toNat_ofNat, BitVec.toNat_ofInt]
  exact Nat.mod_eq_of_lt (by omega)

/-- The low n bits of a natural number, in two's complement. -/
theorem sgn_eq_toInt {n : Nat} (hn : 0 < n) (q : Nat) : sgn n q = (BitVec.ofNat n q).toInt := by
  have hp : 2 ^ n = 2 * 2 ^ (n - 1) := by rw [← Nat.pow_succ']; congr 1; omega
  rw [sgn, BitVec.toInt_eq_toNat_cond, BitVec.toNat_ofNat]
  generalize q % 2 ^ n = m
  split <;> split <;> omega

theorem fcvtOf_result (k : CvtKind) (rm : DRm) (sat : Bool) (a : Word) :
    w64 (fcvtOf k rm sat a.toNat).1 = (cvtTarget k (detRnd rm) sat (cvtSource k a)).1 := by
  cases k with
  | f32I64 | f32I32 =>
    simp only [fcvtOf, cvtTarget, cvtTarget.low, cvtSource, sgn_toNat, Nat.zero_lt_succ, BitVec.setWidth_eq]
  | f32U64 => simp only [fcvtOf, cvtTarget, cvtTarget.low, cvtSource, Nat.mod_eq_of_lt a.isLt]
  | i32F32 => simp only [fcvtOf, cvtTarget, cvtSource, BitVec.toNat_setWidth, w64_unsgn,
      sgn_eq_toInt (Nat.zero_lt_succ 31), BitVec.signExtend]
  | _ => simp only [fcvtOf, cvtTarget, cvtTarget.low, cvtSource, BitVec.toNat_setWidth]

theorem FloatRule.completes {refs : List Ref} {v : Word} {fl : Nat} (hr : FloatRule s.me i h rd refs v fl)
    (hp : s.passes h refs) : exec i s = .next (s.leave h (((s.me.past 4).addFlags fl).setReg rd v)) := by
  cases hr with
  | fadd h rd ra rb => exact fadd_completes hp
  | fsub h rd ra rb => exact fsub_completes hp
  | fmul h rd ra rb => exact fmul_completes hp
  | fdiv h rd ra rb => exact fdiv_completes hp
  | fsqrt h rd ra => exact fsqrt_completes hp
  | ffma h rd ra rb => exact ffma_completes hp
  | fcvt h rd ra k rm sat =>
    rw [← fcvtOf_flags, ← fcvtOf_result]
    exact next_of_fpOp (srcs := [ra]) (exec_fcvt s) hp (by rw [past_reg])

end

/-! Every code of a finite value is the code of that value (R67, R76, R77). -/

/-- The codes of a format up to its largest finite one leave the sign's bit free, and infinity is not among them. -/
abbrev FFmt.finiteFirst (f : FFmt) : Prop := f.maxCode < 2 ^ (f.bits - 1) ∧ ∀ i ∈ f.infCode, f.maxCode < i

/-- The exponent of a format's smallest step. -/
def FFmt.umin (f : FFmt) : Int := 1 - (f.bias : Int) - (f.m : Int)

/-- The significand and the exponent of its last bit in a code without sign. -/
def FFmt.sig (f : FFmt) (c : Nat) : Nat := if c / 2 ^ f.m = 0 then c else 2 ^ f.m + c % 2 ^ f.m
def FFmt.ulp (f : FFmt) (c : Nat) : Int := f.umin + (c / 2 ^ f.m - 1 : Nat)

theorem FFmt.sig_lt (f : FFmt) (c : Nat) : f.sig c < 2 ^ (f.m + 1) := by
  have hpos := Nat.two_pow_pos f.m
  have hmod := Nat.mod_lt c hpos
  rw [FFmt.sig, Nat.pow_succ]
  split
  · next h => exact Nat.lt_of_lt_of_le ((Nat.div_eq_zero_iff_lt hpos).1 h) (by omega)
  · omega

theorem FFmt.ulp_eq_umin_or_le_sig (f : FFmt) (c : Nat) : f.ulp c = f.umin ∨ 2 ^ f.m ≤ f.sig c := by
  rw [FFmt.ulp, FFmt.sig]
  split
  · next h => exact .inl (by simp [h])
  · exact .inr (Nat.le_add_right ..)

/-- A code counts the steps up to its value. -/
theorem FFmt.code_eq_sig_ulp (f : FFmt) (c : Nat) : (f.ulp c - f.umin).toNat * 2 ^ f.m + f.sig c = c := by
  have hdiv := Nat.div_add_mod' c (2 ^ f.m)
  rw [FFmt.ulp, FFmt.sig, add_sub_cancel_left, Int.toNat_natCast]
  split
  · next h => simp [h]
  · next h =>
    obtain ⟨e, he⟩ := Nat.exists_eq_add_one_of_ne_zero h
    rwa [he, Nat.add_sub_cancel, ← Nat.add_assoc, ← Nat.add_one_mul, ← he]

/-- A value is its magnitude over a power of two, whatever the sign of the exponent. -/
theorem ofScaled_eq (neg : Bool) (n : Nat) (e : Int) :
    Val.ofScaled neg n e = .fin neg (n * 2 ^ e.toNat) (2 ^ (-e).toNat) := by
  rw [Val.ofScaled]
  split
  · rw [show (-e).toNat = 0 by omega, Nat.pow_zero]
  · rw [show e.toNat = 0 by omega, Nat.pow_zero, Nat.mul_one]

theorem decodeFlt_code {f : FFmt} (hf : f.finiteFirst) (neg : Bool) {c : Nat} (hc : c ≤ f.maxCode) :
    decodeFlt f ((if neg then 2 ^ (f.bits - 1) else 0) + c) = .ofScaled neg (f.sig c) (f.ulp c) := by
  obtain ⟨hmax, hinf⟩ := hf
  have hlt : c < 2 ^ (f.bits - 1) := by omega
  have hsign : bit ((if neg then 2 ^ (f.bits - 1) else 0) + c) (f.bits - 1) = neg := by
    rw [bit_eq_testBit]
    cases neg
    · simpa using Nat.testBit_lt_two_pow hlt
    · simp [Nat.testBit_two_pow_add_eq, Nat.testBit_lt_two_pow hlt]
  have hmag : ((if neg then 2 ^ (f.bits - 1) else 0) + c) % 2 ^ (f.bits - 1) = c := by
    cases neg <;> simp [Nat.mod_eq_of_lt hlt]
  have hfin : f.infCode ≠ some c := fun h => absurd (hinf c h) (by omega)
  simp only [decodeFlt, hsign, hmag, if_neg hfin, if_neg (not_lt.2 hc), FFmt.sig, FFmt.ulp, FFmt.umin]
  generalize c / 2 ^ f.m = e
  split
  · next h => simp [h]
  · next h => congr 1; omega

theorem log2_mul_two_pow {n : Nat} (hn : n ≠ 0) (k : Nat) : (n * 2 ^ k).log2 = n.log2 + k := by
  rw [Nat.log2_eq_iff (by positivity)]
  constructor
  · rw [Nat.pow_add]
    exact Nat.mul_le_mul_right _ (Nat.log2_self_le hn)
  · rw [Nat.add_right_comm, Nat.pow_add]
    exact Nat.mul_lt_mul_of_pos_right Nat.lt_log2_self (Nat.two_pow_pos k)

/-- The leading bit of a dyadic value. -/
theorem floorLog2_dyadic {n : Nat} (hn : n ≠ 0) (p q : Nat) :
    floorLog2 (n * 2 ^ p) (2 ^ q) = (n.log2 : Int) + p - q := by
  have hle : 2 ^ (n.log2 + p) ≤ n * 2 ^ p := by
    rw [Nat.pow_add]
    exact Nat.mul_le_mul_right _ (Nat.log2_self_le hn)
  rw [floorLog2, log2_mul_two_pow hn, Nat.log2_two_pow]
  split
  · next h =>
    rw [if_pos (by rwa [← Nat.pow_add, Nat.add_sub_cancel' h])]
    push_cast
    ring
  · next h =>
    have hq : 2 ^ (n.log2 + p) * 2 ^ (q - (n.log2 + p)) = 2 ^ q := by
      rw [← Nat.pow_add]
      congr 1
      omega
    rw [if_pos (hq ▸ Nat.mul_le_mul_right _ hle)]
    push_cast
    ring

/-- A dyadic value counted in units of its own last bit: exactly its significand. -/
theorem divPow_dyadic (n : Nat) (e : Int) : (divPow (n * 2 ^ e.toNat) (2 ^ (-e).toNat) e).1 = n ∧
    (divPow (n * 2 ^ e.toNat) (2 ^ (-e).toNat) e).2.1 = 0 := by
  rw [divPow]
  split
  · have hd : 2 ^ (-e).toNat * 2 ^ e.toNat = 2 ^ e.toNat := by
      rw [show (-e).toNat = 0 by omega, Nat.pow_zero, Nat.one_mul]
    rw [hd]
    exact ⟨Nat.mul_div_cancel _ (Nat.two_pow_pos _), Nat.mul_mod_left ..⟩
  · rw [show e.toNat = 0 by omega, Nat.pow_zero, Nat.mul_one]
    exact ⟨Nat.mul_div_cancel _ (Nat.two_pow_pos _), Nat.mul_mod_left ..⟩

/-- Rounding where the step at the magnitude is 2 to the u and leaves no remainder. -/
theorem roundFlt_of_step (f : FFmt) (r : Rnd) (neg : Bool) {n d : Nat} {u : Int} (hn : n ≠ 0)
    (hu : (if floorLog2 n d - f.m < f.umin then f.umin else floorLog2 n d - f.m) = u) (hrem : (divPow n d u).2.1 = 0) :
    roundFlt f r neg n d = ((u - f.umin).toNat * 2 ^ f.m + (divPow n d u).1, true) := by
  have hround : roundFlt f r neg n d =
      (if r.up neg ((divPow n d u).1 % 2 == 1) (divPow n d u).2.1 (divPow n d u).2.2
        then (u - f.umin).toNat * 2 ^ f.m + (divPow n d u).1 + 1 else (u - f.umin).toNat * 2 ^ f.m + (divPow n d u).1,
        decide ((divPow n d u).2.1 = 0)) := by
    subst hu
    rw [roundFlt, if_neg hn]
    rfl
  simp [hround, hrem, Rnd.up]

/-- A value that a format represents rounds to itself: its last bit is that of the step at its magnitude. -/
theorem roundFlt_representable (f : FFmt) (r : Rnd) (neg : Bool) {n : Nat} {e : Int} (hn : n ≠ 0)
    (hlt : n < 2 ^ (f.m + 1)) (hmin : f.umin ≤ e) (he : e = f.umin ∨ 2 ^ f.m ≤ n) :
    roundFlt f r neg (n * 2 ^ e.toNat) (2 ^ (-e).toNat) = ((e - f.umin).toNat * 2 ^ f.m + n, true) := by
  have hlog : n.log2 < f.m + 1 := (Nat.log2_lt hn).2 hlt
  have hstep : (if floorLog2 (n * 2 ^ e.toNat) (2 ^ (-e).toNat) - f.m < f.umin then f.umin
      else floorLog2 (n * 2 ^ e.toNat) (2 ^ (-e).toNat) - f.m) = e := by
    rw [floorLog2_dyadic hn]
    obtain rfl | hbig := he
    · split <;> omega
    · have hm : n.log2 = f.m := Nat.le_antisymm (by omega) ((Nat.le_log2 hn).2 hbig)
      split <;> omega
  obtain ⟨hq, hrem⟩ := divPow_dyadic n e
  rw [roundFlt_of_step f r neg (by positivity) hstep hrem, hq]

theorem roundFlt_code (f : FFmt) (r : Rnd) (neg : Bool) (c : Nat) :
    roundFlt f r neg (f.sig c * 2 ^ (f.ulp c).toNat) (2 ^ (-f.ulp c).toNat) = (c, true) := by
  by_cases hz : f.sig c = 0
  · have hc : c = 0 := by
      have hpos := Nat.two_pow_pos f.m
      rw [FFmt.sig] at hz
      split at hz <;> omega
    rw [hz, hc, Nat.zero_mul, roundFlt, if_pos rfl]
  · rw [roundFlt_representable f r neg hz (FFmt.sig_lt f c) (by rw [FFmt.ulp]; omega) (FFmt.ulp_eq_umin_or_le_sig f c),
      FFmt.code_eq_sig_ulp]

theorem convertFlt_decodeFlt {f : FFmt} (hf : f.finiteFirst) (r : Rnd) (sat neg : Bool) {c : Nat} (hc : c ≤ f.maxCode) :
    convertFlt f r sat (decodeFlt f ((if neg then 2 ^ (f.bits - 1) else 0) + c)) =
      ((if neg then 2 ^ (f.bits - 1) else 0) + c, 0) := by
  simp only [decodeFlt_code hf neg hc, ofScaled_eq, convertFlt, roundFlt_code, if_pos hc, if_true]

/-- Settles O3: each rule's instruction is a floating-point operation with the rule's function (`FloatRule.completes`),
and a code of a finite value decodes to a value that rounds to that code exactly (`convertFlt_decodeFlt`). -/
theorem floatResultsAndFormats : Obligations.FloatResultsAndFormats := by
  unfold Obligations.FloatResultsAndFormats
  have hfinite : ∀ f ∈ [fp32, fp16, bf16, e4m3, e5m2, e2m3, e3m2, e2m1], f.finiteFirst := by decide
  exact ⟨fun s i h rd refs v fl hr hp => hr.completes hp,
    fun f hf neg sat c r hc => convertFlt_decodeFlt (hfinite f hf) r sat neg hc⟩

/-! The special cases (R129): values first, then the instructions. -/

theorem Val.isZero_iff {v : Val} : v.isZero = true ↔ ∃ x d, v = .fin x 0 d := by
  cases v <;> simp [Val.isZero]

theorem fpResult_nan : fpResult .nan = (0x7FC00000, 2) := rfl

theorem fpResult_inf (x : Bool) : fpResult (.inf x) = (if x then 0xFF800000 else 0x7F800000, 0) := by cases x <;> rfl

theorem fpResult_negZero : fpResult (.fin true 0 1) = (0x80000000, 0) := rfl

theorem Val.add_inf_opposite (x : Bool) : (Val.inf x).add (.inf !x) = .nan := by cases x <;> rfl

theorem Val.zero_mul_inf {v : Val} (hv : v.isZero = true) (x : Bool) : v.mul (.inf x) = .nan := by
  obtain ⟨y, d, rfl⟩ := Val.isZero_iff.1 hv
  rfl

theorem Val.inf_mul_zero {v : Val} (x : Bool) (hv : v.isZero = true) : (Val.inf x).mul v = .nan := by
  obtain ⟨y, d, rfl⟩ := Val.isZero_iff.1 hv
  rfl

theorem Val.zero_div_zero {v w : Val} (hv : v.isZero = true) (hw : w.isZero = true) : v.div w = .nan := by
  obtain ⟨x, d, rfl⟩ := Val.isZero_iff.1 hv
  obtain ⟨y, e, rfl⟩ := Val.isZero_iff.1 hw
  rfl

theorem Val.div_zero_of_ne {w : Val} (x : Bool) {n : Nat} (d : Nat) (hn : n ≠ 0) (hw : w.isZero = true) :
    (Val.fin x n d).div w = .inf (x != w.isNeg) := by
  obtain ⟨y, e, rfl⟩ := Val.isZero_iff.1 hw
  simp [Val.div, Val.isNeg, hn]

theorem Val.sqrt_below_zero {v : Val} (hv : v = .inf true ∨ ∃ n d, v = .fin true n d ∧ n ≠ 0) : v.sqrt = .nan := by
  obtain rfl | ⟨n, d, rfl, hn⟩ := hv
  · rfl
  · simp [Val.sqrt, hn]

theorem Val.sqrt_negZero {v : Val} (hz : v.isZero = true) (hn : v.isNeg = true) : v.sqrt = .fin true 0 1 := by
  obtain ⟨x, d, rfl⟩ := Val.isZero_iff.1 hz
  simpa [Val.sqrt, Val.isNeg] using hn

/-- The order of FMIN and FMAX: a is below b, -0 being below +0. -/
def Val.below (a b : Val) : Prop :=
  a.lt b = true ∨ a.isZero = true ∧ b.isZero = true ∧ a.isNeg = true ∧ b.isNeg = false

theorem Val.lt_not_nan {a b : Val} (h : a.lt b = true) : a.isNan = false ∧ b.isNan = false := by
  cases a <;> cases b <;> simp_all [Val.lt, Val.isNan]

theorem Val.zero_not_nan {v : Val} (h : v.isZero = true) : v.isNan = false := by
  obtain ⟨x, d, rfl⟩ := Val.isZero_iff.1 h
  rfl

theorem Val.zeros_equal {v w : Val} (hv : v.isZero = true) (hw : w.isZero = true) : v.eq w = true ∧ v.lt w = false := by
  obtain ⟨x, d, rfl⟩ := Val.isZero_iff.1 hv
  obtain ⟨y, e, rfl⟩ := Val.isZero_iff.1 hw
  cases x <;> cases y <;> simp [Val.eq, Val.lt, signed]

theorem Val.lt_asymm {a b : Val} (h : b.lt a = true) : a.lt b = false ∧ a.eq b = false := by
  cases a <;> cases b <;> simp_all [Val.lt, Val.eq]
  omega

theorem Val.below_not_nan {a b : Val} (h : a.below b) : a.isNan = false ∧ b.isNan = false := by
  obtain h | ⟨ha, hb, -⟩ := h
  · exact Val.lt_not_nan h
  · exact ⟨Val.zero_not_nan ha, Val.zero_not_nan hb⟩

section
variable {f : FFmt} {a b : Nat} (isMax : Bool)

theorem fpPick_of_below (h : (decodeFlt f a).below (decodeFlt f b)) :
    fpPick f isMax a b = (if isMax then b else a, 0) := by
  obtain ⟨ha, hb⟩ := Val.below_not_nan h
  have hless : ((decodeFlt f a).lt (decodeFlt f b) || (decodeFlt f a).eq (decodeFlt f b) && (decodeFlt f a).isNeg &&
      !(decodeFlt f b).isNeg) = true := by
    obtain h | ⟨hza, hzb, hna, hnb⟩ := h
    · rw [h, Bool.true_or]
    · rw [(Val.zeros_equal hza hzb).1, hna, hnb]
      exact Bool.or_true _
  cases isMax <;> simp [fpPick, ha, hb, hless]

theorem fpPick_of_above (h : (decodeFlt f b).below (decodeFlt f a)) :
    fpPick f isMax a b = (if isMax then a else b, 0) := by
  obtain ⟨hb, ha⟩ := Val.below_not_nan h
  have hless : ((decodeFlt f a).lt (decodeFlt f b) || (decodeFlt f a).eq (decodeFlt f b) && (decodeFlt f a).isNeg &&
      !(decodeFlt f b).isNeg) = false := by
    obtain h | ⟨hzb, hza, hnb, hna⟩ := h
    · rw [(Val.lt_asymm h).1, (Val.lt_asymm h).2]
      rfl
    · rw [(Val.zeros_equal hza hzb).2, hna, Bool.and_false]
      rfl
  cases isMax <;> simp [fpPick, ha, hb, hless]

theorem fpPick_nans (ha : (decodeFlt f a).isNan = true) (hb : (decodeFlt f b).isNan = true) :
    fpPick f isMax a b = (f.nanCode.getD 0, 2) := by simp [fpPick, ha, hb, fNan]

theorem fpPick_nan_left (ha : (decodeFlt f a).isNan = true) (hb : (decodeFlt f b).isNan = false) :
    fpPick f isMax a b = (b, 2) := by simp [fpPick, ha, hb, fNan]

theorem fpPick_nan_right (ha : (decodeFlt f a).isNan = false) (hb : (decodeFlt f b).isNan = true) :
    fpPick f isMax a b = (a, 2) := by simp [fpPick, ha, hb, fNan]

theorem fpPick_self (ha : (decodeFlt f a).isNan = false) : fpPick f isMax a a = (a, 0) := by simp [fpPick, ha]

end

/-- Settles O4: each special case is one of the exact value, which the instruction rounds, or one of the choice of FMIN
and FMAX (`fpPick_of_below`, `fpPick_of_above`). -/
theorem floatSpecialCases : Obligations.FloatSpecialCases := by
  unfold Obligations.FloatSpecialCases
  intro s h rd ra rb hp
  have hunary : s.passes h [.r rd, .r ra] :=
    ⟨hp.1, hp.2.1, fun r hr => hp.2.2 r (by simp only [List.mem_cons] at hr ⊢; tauto)⟩
  refine ⟨fun x ha hb => ?_, fun x ha hb => ?_, fun x ha hb => ?_, fun x ha hb => ?_, fun ha hb => ?_,
    fun x y ha hb => ?_, fun ha => ?_, fun x n d ha hn hb => ?_, fun hz hn => ?_, fun x ha hb hd => ?_,
    fun ha hb => ⟨fmin_picks hp (fpPick_nans _ ha hb), fmax_picks hp (fpPick_nans _ ha hb)⟩,
    fun ha hb => ⟨fmin_picks hp (fpPick_nan_left _ ha hb), fmax_picks hp (fpPick_nan_left _ ha hb)⟩,
    fun ha hb => ⟨fmin_picks hp (fpPick_nan_right _ ha hb), fmax_picks hp (fpPick_nan_right _ ha hb)⟩,
    fun hab => ⟨fmin_picks hp (fpPick_of_below _ hab), fmax_picks hp (fpPick_of_below _ hab)⟩,
    fun hba => ⟨fmin_picks hp (fpPick_of_above _ ?_), fmax_picks hp (fpPick_of_above _ ?_)⟩,
    fun hab ha => ⟨fmin_picks hp (hab ▸ fpPick_self _ ha), fmax_picks hp (hab ▸ fpPick_self _ ha)⟩⟩
  · rw [fsub_completes hp, ha, hb, Val.neg, Val.add_inf_opposite, fpResult_nan]
  · rw [fadd_completes hp, ha, hb, Val.add_inf_opposite, fpResult_nan]
  · rw [fmul_completes hp, hb, Val.zero_mul_inf ha, fpResult_nan]
  · rw [fmul_completes hp, ha, Val.inf_mul_zero x hb, fpResult_nan]
  · rw [fdiv_completes hp, Val.zero_div_zero ha hb, fpResult_nan]
  · rw [fdiv_completes hp, ha, hb, Val.div, fpResult_nan]
  · rw [fsqrt_completes hunary, Val.sqrt_below_zero ha, fpResult_nan]
  · rw [fdiv_completes hp, ha, Val.div_zero_of_ne x d hn hb, fpResult_inf]
    cases x <;> cases (fpOf (s.me.reg rb)).isNeg <;> rfl
  · rw [fsqrt_completes hunary, Val.sqrt_negZero hz hn, fpResult_negZero]
  · rw [ffma_completes hp, hb, hd, Val.zero_mul_inf ha, Val.add, fpResult_nan]
  all_goals exact hba.imp id fun ⟨hza, hzb, hna, hnb⟩ => ⟨hzb, hza, hnb, hna⟩

end Sys2Proof.Machine

/-! PROOFS. An atomic at its first-tier home (R81, R82, R142, R143): the word it leaves, and what its operation and
memory are after it. -/

namespace Sys2Proof.Machine
open Sys2Proof

/-! Bytes of a word. -/

theorem leNat_lt (bs : List Byte) : leNat bs < 256 ^ bs.length := by
  induction bs with
  | nil => exact Nat.one_pos
  | cons b bs ih =>
    have hb := b.isLt
    rw [leNat, List.length_cons, Nat.pow_succ]
    omega

theorem leNat_lt_two_pow {bs : List Byte} {n : Nat} (hn : bs.length = n) : leNat bs < 2 ^ (8 * n) := by
  have h := leNat_lt bs
  rwa [hn, show 256 = 2 ^ 8 from rfl, ← Nat.pow_mul] at h

/-- The bytes of a number are those of its residue. -/
theorem leBytes_mod (n v : Nat) : leBytes n (v % 2 ^ (8 * n)) = leBytes n v := by
  induction n generalizing v with
  | zero => rfl
  | succ n ih =>
    have hlow : v % 2 ^ (8 * (n + 1)) % 2 ^ 8 = v % 2 ^ 8 := Nat.mod_mod_of_dvd _ (Nat.pow_dvd_pow 2 (by omega))
    have hhigh : v % 2 ^ (8 * (n + 1)) / 256 = v / 256 % 2 ^ (8 * n) := by
      rw [Nat.mul_succ, Nat.pow_add, Nat.mul_comm, Nat.mod_mul_right_div_self]
    rw [leBytes, leBytes, hhigh, ih]
    congr 1
    apply BitVec.eq_of_toNat_eq
    rw [BitVec.toNat_ofNat, BitVec.toNat_ofNat, hlow]

/-! The word that an atomic leaves (R142). -/

theorem sgn_toInt {n : Nat} (hn : 0 < n) (v : BitVec n) : sgn n v.toNat = v.toInt := by
  rw [sgn_eq_toInt hn, BitVec.ofNat_toNat, BitVec.setWidth_eq]

/-- On operands within its width the model's atomic leaves the word of its operation. -/
theorem atomicNew_toNat (a : AOp) {n : Nat} (hn : 0 < n) (old b e : BitVec (8 * n)) :
    atomicNew a n old.toNat b.toNat e.toNat = (atomicWord a old b e).map BitVec.toNat := by
  have hw : 0 < 8 * n := by omega
  cases a with
  | add => rw [atomicNew, atomicWord, Option.map_some, BitVec.toNat_add]
  | and => exact congrArg some (BitVec.toNat_and ..).symm
  | or => exact congrArg some (BitVec.toNat_or ..).symm
  | xor => exact congrArg some (BitVec.toNat_xor ..).symm
  | min =>
    rw [atomicNew, atomicWord, Option.map_some, sgn_toInt hw, sgn_toInt hw]
    by_cases h : b.toInt < old.toInt
    · rw [if_pos h, if_neg (not_le.2 h)]
    · rw [if_neg h, if_pos (not_lt.1 h)]
  | max =>
    rw [atomicNew, atomicWord, Option.map_some, sgn_toInt hw, sgn_toInt hw]
    by_cases h : old.toInt < b.toInt
    · rw [if_pos h, if_neg (not_le.2 h)]
    · rw [if_neg h, if_pos (not_lt.1 h)]
  | xchg => rfl
  | cas =>
    rw [atomicNew, atomicWord]
    by_cases h : old = e
    · rw [if_pos h, if_pos (congrArg _ h), Option.map_some]
    · rw [if_neg h, if_neg fun hv => h (BitVec.eq_of_toNat_eq hv), Option.map_none]

/-- The same for an operation that holds its operands as numbers (R142). -/
theorem atomicNew_of_lt (a : AOp) {n old b e : Nat} (hn : 0 < n) (ho : old < 2 ^ (8 * n)) (hb : b < 2 ^ (8 * n))
    (he : e < 2 ^ (8 * n)) : atomicNew a n old b e =
      (atomicWord a (BitVec.ofNat (8 * n) old) (BitVec.ofNat (8 * n) b) (BitVec.ofNat (8 * n) e)).map BitVec.toNat := by
  rw [← atomicNew_toNat a hn, BitVec.toNat_ofNat, BitVec.toNat_ofNat, BitVec.toNat_ofNat, Nat.mod_eq_of_lt ho,
    Nat.mod_eq_of_lt hb, Nat.mod_eq_of_lt he]

/-- Only a compare-and-swap writes nothing, where the old word is not the expected one. -/
theorem atomicNew_none {a : AOp} {n old b e : Nat}
    (h : atomicWord a (BitVec.ofNat (8 * n) old) (BitVec.ofNat (8 * n) b) (BitVec.ofNat (8 * n) e) = none) :
    atomicNew a n old b e = none := by
  cases a with
  | cas =>
    have hne : old ≠ e := fun heq => by simp [atomicWord, heq] at h
    exact if_neg hne
  | _ => simp [atomicWord] at h

/-! An operation and memory after it has been performed. -/

section
variable {s : State} {u : Nat} {o : Op}

theorem homeWrite_eq_rawWrite (hw : s.watches = []) (pa : Nat) (bs : List Byte) :
    homeWrite s pa bs = rawWrite s pa bs := by
  rw [homeWrite, fireWatches, show (rawWrite s pa bs).watches = [] from hw, List.foldl_nil]

theorem opDone_doneOp (ho : s.op u o.id = some o) (res : List Word) : (opDone s u o res).doneOp u o res :=
  setOp_op (o := { o with phase := .done, res := res }) (show o.id ∈ _ from id_mem_of_op ho)

/-- A write that lands in first-tier memory while nothing watches writes those bytes and nothing else. -/
theorem landWrite_first {pa : Nat} (hh : homeOf s pa = .first) (hw : s.watches = []) (ctx uid : Nat) (bs : List Byte) :
    landWrite s ctx uid pa bs = rawWrite s pa bs := by
  rw [landWrite, hh, ← homeWrite_eq_rawWrite hw]

/-- An atomic on its way is performed when its event comes. -/
theorem exec_atomicAtHome_sent (hs : s.sentOp u o) (hk : o.kind.atomicAt.isSome = true) :
    exec (.atomicAtHome u o.id) s = .next (performMem s u o false) := by
  obtain ⟨hop, hphase⟩ := hs
  rw [exec_atomicAtHome, execAtomicAtHome, onSent, hop]
  simp only [hphase, beq_self_eq_true, if_true]
  cases hkind : o.kind <;> simp_all [OpKind.atomicAt]

section
variable {s1 : State} {w : Site} {bs : List Byte} {va : Nat} (hloc : w.loc = false) (hh : homeOf s1 w.pa = .first)
  (hw : s1.watches = [])
include hloc hh hw

/-- An atomic at its first-tier home: the operation is done with the old word, and the new one, if any, is written. -/
theorem performMem_atomic {a : AOp} {n b e : Nat} (hk : o.kind = .atomic a va n b e)
    (hr : bothFor s u o va n false = (s1, .ok (w, bs))) :
    performMem s u o false = ((atomicNew a n (leNat bs) b e).elim
      (opDone s1 u o [BitVec.ofInt 64 (sgn (8 * n) (leNat bs))])
      fun v => rawWrite (opDone s1 u o [BitVec.ofInt 64 (sgn (8 * n) (leNat bs))]) w.pa (leBytes n v)) := by
  simp only [performMem, hk, hr, hloc, Bool.false_eq_true, if_false]
  cases atomicNew a n (leNat bs) b e with
  | none => rfl
  | some v => exact landWrite_first (s := opDone s1 u o _) hh hw ..

/-- AGADD at its first-tier home: the lane with the contribution is written whole. -/
theorem performMem_agadd {g f : Nat} (hk : o.kind = .agadd va g f)
    (hr : bothFor s u o va 16 false = (s1, .ok (w, bs))) :
    performMem s u o false =
      rawWrite (opDone s1 u o [w64 ((laneOf bs).add (w64 g, BitVec.ofNat 2 f)).flag.toNat]) w.pa
        ((laneOf bs).add (w64 g, BitVec.ofNat 2 f)).bytes := by
  simp only [performMem, hk, hr, hloc, Bool.false_eq_true, if_false]
  exact landWrite_first (s := opDone s1 u o _) hh hw ..

end

end

/-! The lane of AGADD (R81, R82). -/

theorem laneOf_add_flag {bs : List Byte} (hl : bs.length = 16) (g f : Nat) :
    ((laneOf bs).add (w64 g, BitVec.ofNat 2 f)).flag = BitVec.ofNat 2 (bs.getD 8 0).toNat ||| BitVec.ofNat 2 f := by
  have hdrop : (bs.drop 8).take 1 = [bs.getD 8 0] := by
    rw [List.getD_eq_getElem bs 0 (by omega), List.drop_eq_getElem_cons (by omega)]
    rfl
  rw [Lane.add, gridCombine, laneOf, hdrop]
  rfl

theorem laneOf_add_bytes {bs : List Byte} (hl : bs.length = 16) (g f : Nat) :
    ((laneOf bs).add (w64 g, BitVec.ofNat 2 f)).bytes = leBytes 8 (leNat (bs.take 8) + g) ++
      leBytes 8 (BitVec.ofNat 2 (bs.getD 8 0).toNat ||| BitVec.ofNat 2 f).toNat := by
  have hsum : ((laneOf bs).add (w64 g, BitVec.ofNat 2 f)).g.toNat = (leNat (bs.take 8) + g) % 2 ^ (8 * 8) := by
    rw [Lane.add, laneOf, w64, ← BitVec.ofNat_add, BitVec.toNat_ofNat]
  rw [Lane.bytes, laneOf_add_flag hl, hsum, leBytes_mod]

/-- Settles O19: at a first-tier home an atomic leaves its operation done with the old value (`performMem_atomic`), and
the word of its operation in memory (`atomicNew_of_lt`); AGADD leaves the lane with its contribution. -/
theorem atomicsAtHome : Obligations.AtomicsAtHome := by
  unfold Obligations.AtomicsAtHome
  intro s s1 u o va w bs hs hloc hh hw
  refine ⟨fun a n b e hk hn hr hl hop => ?_, fun g f hk hr hl hop => ?_⟩
  · have hold : BitVec.ofInt 64 (sgn (8 * n) (leNat bs)) = (BitVec.ofNat (8 * n) (leNat bs)).signExtend 64 := by
      rw [sgn_eq_toInt (by omega), BitVec.signExtend]
    refine ⟨_, exec_atomicAtHome_sent hs (by rw [hk]; rfl), ?_, ?_⟩
    · rw [performMem_atomic hloc hh hw hk hr, hold]
      cases atomicNew a n (leNat bs) b e <;> exact opDone_doneOp hop _
    · split
      · next v hv =>
        intro hb he
        rw [performMem_atomic hloc hh hw hk hr, atomicNew_of_lt a (by omega) (leNat_lt_two_pow hl) hb he, hv]
        exact wrote_memPut s1.mem w.pa _
      · next hv =>
        rw [performMem_atomic hloc hh hw hk hr, atomicNew_none hv]
        rfl
  · refine ⟨_, exec_atomicAtHome_sent hs (by rw [hk]; rfl), ?_, ?_⟩
    · rw [performMem_agadd hloc hh hw hk hr, laneOf_add_flag hl, w64, BitVec.ofNat_toNat]
      exact opDone_doneOp hop _
    · rw [performMem_agadd hloc hh hw hk hr, laneOf_add_bytes hl]
      exact wrote_memPut s1.mem w.pa _

end Sys2Proof.Machine

/-! PROOFS. A store whose strand the issue takes for a guest (R93, R135, R421, R437): `State.off` counts the strands of
a context on a core that have not ended, and the effect of an instruction finds its strand READY, whatever it was. -/

namespace Sys2Proof.Machine
open Sys2Proof

/-- A store of the low byte of s1 at address 0, the start of context 0's local window. -/
def storeOne : Instr := .stB { pred := 0, pn := false, c := false } 1 0 0

/-- The current strand has ended on core 0, with 1 in s1. Its context keeps a partition of 8 bytes there and is not
placed, while context 1 is being saved from that core. -/
def endedStorer : State :=
  { State.reset with
    strands := [(0, { Strand.init with sregs := [(1, 1)] })]
    parts := [(partKey 0 0, { Part.init 0 0 with partn := { Partn.init with sz := 8 } }),
      (partKey 0 1, { Part.init 1 0 with st := .saving })] }

/-- The core is not pre-empted for the context, none of whose strands runs there. -/
theorem off_endedStorer : endedStorer.off 0 0 = false := by decide +kernel

/-- It is, once the issue has made the strand READY. -/
theorem off_entered_endedStorer : (endedStorer.entered 4).off 0 0 = true := by decide +kernel

/-- So the store goes on its way, as one of a displaced strand, and no byte of memory changes. -/
theorem mem_exec_storeOne {t : State} (h : exec storeOne endedStorer = .next t) : t.mem = [] := by
  have hmem : (match exec storeOne endedStorer with | .next t => t.mem | _ => []) = [] := by decide +kernel
  rwa [h] at hmem

/-- Refutes O16: its clause on the local window lacks the hypothesis `s.me.inRotation`. In `endedStorer` it asks for the
core not to be pre-empted for the context (`off_endedStorer`), but the store meets a core that is
(`off_entered_endedStorer`): it joins the writes on their way, where the clause has it performed at once. -/
theorem not_stores : ¬ Obligations.Stores := by
  unfold Obligations.Stores
  rintro ⟨hlocal, -⟩
  obtain ⟨-, hwindow⟩ := hlocal endedStorer storeOne _ _ _ _ _ (.stB ..) (by decide +kernel)
  obtain ⟨-, hstored⟩ := hwindow 0 (by decide +kernel) (by decide +kernel)
  obtain ⟨q, hexec, hwrote, -⟩ :=
    hstored (by decide +kernel) (by decide +kernel) rfl off_endedStorer (by decide +kernel)
  have hmem : q.mem = [] := mem_exec_storeOne hexec
  have hbyte := hwrote (spadPA endedStorer 0 0 0)
  rw [hmem] at hbyte
  exact absurd hbyte (by decide +kernel)

end Sys2Proof.Machine

/-! PROOFS. A message of another node on a channel that carries no writes (R461, R463). -/

namespace Sys2Proof.Machine
open Sys2Proof

/-- The machine with port 0 in UP. -/
def portUp : State := { State.reset with clavos := [(0, { Clavos.init with st := .up })] }

/-- A release of the word 1 to address 0, sent uncompressed on virtual channel 1, that of responses. -/
def responseRelease : Fabric :=
  { pa := 0, bytes := leBytes 8 1, rel := true, src := 7, raw := true, drst := false, ctx := 0, vc := 1 }

/-- It is decoded, and is no write: the word's tag stays NONE. -/
theorem tag_exec_responseRelease {t : State} (h : exec (.storeAtHome 0 responseRelease) portUp = .next t) :
    tagOf t 0 = tagNone := by
  have htag : (match exec (.storeAtHome 0 responseRelease) portUp with
      | .next t => tagOf t 0
      | _ => tagNone) = tagNone := by decide +kernel
  rwa [h] at htag

/-- Refutes O17: its clause on the release of another node lacks the hypothesis `m.vc % 4 = 0`. What another virtual
channel carries is decoded and is no write (R461), so `responseRelease` leaves neither its word nor its tag. -/
theorem not_readsAndStoresAtHome : ¬ Obligations.ReadsAndStoresAtHome := by
  unfold Obligations.ReadsAndStoresAtHome
  rintro ⟨⟨-, hrelease, -⟩, -⟩
  have hport : (portUp.clav 0).st = .up := rfl
  obtain ⟨t, hexec, -, htag⟩ := hrelease portUp 0 responseRelease responseRelease.bytes (by decide) (by decide +kernel)
    (by decide) (by decide) rfl (by decide) (by decide)
    ⟨0, by decide, by decide +kernel, by decide +kernel, .inl hport⟩
  have hnone : tagOf t 0 = tagNone := tag_exec_responseRelease hexec
  exact absurd (hnone.symm.trans htag) (by decide)

end Sys2Proof.Machine

/-! PROOFS. Fields of a word, and parts of memory read after a write (R34): what a replaced field reads as, what it
leaves of the fields above it, and what a read inside a write, or beside it, gives. -/

namespace Sys2Proof.Machine
open Sys2Proof

/-! Fields of a word. -/

theorem fld_testBit (w lo n i : Nat) : (fld w lo n).testBit i = (decide (i < n) && w.testBit (lo + i)) := by
  rw [fld, Nat.testBit_mod_two_pow, Nat.testBit_div_two_pow, Nat.add_comm]

/-- A word with a field replaced: the bits above it, the field's new value, and the bits below it. -/
theorem setFld_eq (w lo n v : Nat) :
    setFld w lo n v = 2 ^ lo * (2 ^ n * (w / 2 ^ lo / 2 ^ n) + v % 2 ^ n) + w % 2 ^ lo := by
  have hw : 2 ^ lo * (2 ^ n * (w / 2 ^ lo / 2 ^ n)) + w / 2 ^ lo % 2 ^ n * 2 ^ lo + w % 2 ^ lo = w := by
    rw [Nat.mul_comm (w / 2 ^ lo % 2 ^ n), ← Nat.mul_add, Nat.div_add_mod, Nat.div_add_mod]
  rw [setFld, fld, Nat.mul_add, Nat.mul_comm (v % 2 ^ n)]
  omega

theorem setFld_testBit (w lo n v i : Nat) : (setFld w lo n v).testBit i =
    if lo ≤ i ∧ i < lo + n then v.testBit (i - lo) else w.testBit i := by
  rw [setFld_eq, Nat.testBit_two_pow_mul_add _ (Nat.mod_lt w (Nat.two_pow_pos lo)),
    Nat.testBit_two_pow_mul_add _ (Nat.mod_lt v (Nat.two_pow_pos n)), Nat.testBit_mod_two_pow, Nat.testBit_mod_two_pow,
    Nat.testBit_div_two_pow, Nat.testBit_div_two_pow]
  rcases Nat.lt_or_ge i lo with hlow | hlow
  · simp [hlow, Nat.not_le.2 hlow]
  · rcases Nat.lt_or_ge i (lo + n) with hhigh | hhigh
    · simp [hlow, Nat.not_lt.2 hlow, hhigh, (by omega : i - lo < n)]
    · have hi : i - lo - n + n + lo = i := by omega
      simp [Nat.not_lt.2 hlow, Nat.not_lt.2 hhigh, Nat.not_lt.2 (by omega : n ≤ i - lo), hi]

/-- A replaced field reads as the low bits of its new value. -/
theorem fld_setFld_same (w lo n v : Nat) : fld (setFld w lo n v) lo n = v % 2 ^ n := by
  apply Nat.eq_of_testBit_eq
  intro i
  rw [fld_testBit, setFld_testBit, Nat.testBit_mod_two_pow]
  grind

/-- A field above a replaced one is as before. -/
theorem fld_setFld_above {lo n k : Nat} (h : lo + n ≤ k) (w v m : Nat) : fld (setFld w lo n v) k m = fld w k m := by
  apply Nat.eq_of_testBit_eq
  intro i
  rw [fld_testBit, fld_testBit, setFld_testBit, if_neg (by omega)]

/-- A field of the low bits is that field of the whole word. -/
theorem fld_mod_two_pow {lo n k : Nat} (h : lo + n ≤ k) (w : Nat) : fld (w % 2 ^ k) lo n = fld w lo n := by
  apply Nat.eq_of_testBit_eq
  intro i
  rw [fld_testBit, fld_testBit, Nat.testBit_mod_two_pow]
  grind

/-! Bytes of a number, and reads after a write. -/

@[simp] theorem leBytes_length (n v : Nat) : (leBytes n v).length = n := by
  induction n generalizing v with
  | zero => rfl
  | succ n ih => rw [leBytes, List.length_cons, ih]

/-- The bytes of a number read back as the number, cut to their width. -/
@[simp] theorem leNat_leBytes (n v : Nat) : leNat (leBytes n v) = v % 2 ^ (8 * n) := by
  induction n generalizing v with
  | zero => exact (Nat.mod_one v).symm
  | succ n ih =>
    rw [leBytes, leNat, ih, BitVec.toNat_ofNat, Nat.mul_succ, Nat.add_comm (8 * n), Nat.pow_add]
    exact Nat.mod_mul.symm

/-- A read inside a longer one is that part of its bytes. -/
theorem readLE_eq_recLE {s : State} {pa n : Nat} {bs : List Byte} (h : readBytes s pa n = bs) {lo k : Nat}
    (hk : lo + k ≤ n) : readLE s (pa + lo) k = recLE bs lo k := by
  rw [readLE, recLE, ← h]
  refine congrArg leNat (List.ext_getElem (by simp [readBytes, upto]; omega) fun i _ _ => ?_)
  simp [readBytes, upto, Nat.add_assoc]

/-- A read beside a write gives the bytes that stood there. -/
theorem readBytes_of_wrote_apart {s t : State} {pa a n : Nat} {bs : List Byte} (h : wrote s.mem t.mem pa bs)
    (hapart : a + n ≤ pa ∨ pa + bs.length ≤ a) : readBytes t a n = readBytes s a n := by
  refine List.map_congr_left fun i hi => ?_
  have hi : i < n := List.mem_range.1 hi
  rw [h, if_neg (by omega)]

theorem wrote_homeWrite (s : State) (pa : Nat) (bs : List Byte) : wrote s.mem (homeWrite s pa bs).mem pa bs := by
  rw [homeWrite_mem]
  exact wrote_memPut _ _ _

theorem wrote_releaseWrite (s : State) (pa v tag : Nat) :
    wrote s.mem (releaseWrite s pa v tag).mem pa (leBytes 8 v) := by
  rw [releaseWrite, fireWatches_mem]
  exact wrote_memPut s.mem pa _

/-- A word written at a home reads back, cut to 64 bits. -/
theorem readLE_homeWrite_word (s : State) (pa v : Nat) : readLE (homeWrite s pa (leBytes 8 v)) pa 8 = v % 2 ^ 64 := by
  have hread := readBytes_of_wrote (wrote_homeWrite s pa (leBytes 8 v))
  rw [leBytes_length] at hread
  rw [readLE, hread, leNat_leBytes]

/-- A ring with room holds a posted record at its write index (R176): the index word, written after it, lies beyond
every record. -/
theorem readBytes_ringPost {s : State} {base n m wi : Nat} {bs : List Byte} (hm : bs.length = m) (hn : n ≠ 0)
    (hwi : readLE s (base + m * n) 8 % 2 ^ 32 = wi)
    (hroom : (wi + 2 ^ 32 - readLE s (base + m * n + 8) 8 % 2 ^ 32) % 2 ^ 32 < n) :
    readBytes (ringPost s base n m bs) (base + m * (wi % n)) m = bs := by
  simp only [ringPost, if_neg hn, hwi, if_neg (Nat.not_le.2 hroom)]
  have hslot : m * (wi % n + 1) ≤ m * n := Nat.mul_le_mul_left m (Nat.mod_lt wi (by omega))
  rw [Nat.mul_succ] at hslot
  rw [readBytes_of_wrote_apart (wrote_releaseWrite _ _ _ _) (.inl (by omega)), ← hm]
  exact readBytes_of_wrote (wrote_homeWrite s _ bs)

end Sys2Proof.Machine

/-! PROOFS. The agents of translation (R159, R162, R174, R176 to R178, R181): walks, access counts, hot-page records,
write-block and the scrub of a slice. -/

namespace Sys2Proof.Machine
open Sys2Proof

/-! What translation holds beside memory, and that a write at a home moves none of it. -/

/-- The entries of the translation caches, the counts on their way to leaves, and the hot-page records on their way. -/
def State.translation (s : State) : List TlbEntry × List (Nat × Nat × Nat × Nat × Nat) × List (Nat × Nat × Nat) :=
  (s.tlb, s.counts, s.hot)

theorem tlb_congr {s t : State} (h : t.translation = s.translation) : t.tlb = s.tlb := congrArg (·.1) h

theorem counts_congr {s t : State} (h : t.translation = s.translation) : t.counts = s.counts := congrArg (·.2.1) h

theorem hot_congr {s t : State} (h : t.translation = s.translation) : t.hot = s.hot := congrArg (·.2.2) h

theorem modCore_translation (s : State) (c : Nat) (f : CoreSt → CoreSt) :
    (s.modCore c f).translation = s.translation := rfl

theorem setOp_translation (s : State) (u : Nat) (o : Op) : (s.setOp u o).translation = s.translation := rfl

theorem withWatches_translation (s : State) (ws : List Watch) :
    ({ s with watches := ws } : State).translation = s.translation := rfl

theorem acqDone_translation (s : State) (u : Nat) (o : Op) (pa v tag : Nat) (sc : Scope) :
    (acqDone s u o pa v tag sc).translation = s.translation := by
  unfold acqDone
  grind [modCore_translation, setOp_translation]

theorem fireWatches_translation (s : State) (pa n : Nat) : (fireWatches s pa n).translation = s.translation := by
  unfold fireWatches
  refine List.foldlRecOn s.watches _ (motive := fun t : State => t.translation = s.translation) rfl fun t ht w _ => ?_
  grind [acqDone_translation, withWatches_translation]

theorem homeWrite_translation (s : State) (pa : Nat) (bs : List Byte) :
    (homeWrite s pa bs).translation = s.translation := fireWatches_translation (rawWrite s pa bs) ..

theorem releaseWrite_translation (s : State) (pa v tag : Nat) :
    (releaseWrite s pa v tag).translation = s.translation := fireWatches_translation (setTag _ _ _) ..

theorem ringPost_translation (s : State) (base n m : Nat) (bs : List Byte) :
    (ringPost s base n m bs).translation = s.translation := by
  unfold ringPost
  grind [homeWrite_translation, releaseWrite_translation]

/-! Walks (R162, R178). -/

/-- A cache holds the leaf that was put into it last. -/
theorem tlbHit_tlbFill (s : State) (who ctx : Nat) {l : Leaf} {va : Nat} (hlow : l.va ≤ va)
    (hhigh : va < l.va + l.size) : tlbHit (tlbFill s who ctx l) who ctx va = some l := by
  simp [tlbHit, tlbFill, hlow, hhigh]

/-- A miss of both levels whose walk finds a leaf fills both. -/
theorem findLeaf_walked {s : State} {who w ctx va : Nat} {l : Leaf} (hmiss : tlbHit s who ctx va = none)
    (hmiss2 : tlbHit s w ctx va = none) (hwalk : walk s ctx va = .ok l) :
    findLeaf s who (some w) ctx va = (tlbFill (tlbFill s w ctx l) who ctx l, .ok l) := by
  simp only [findLeaf, hmiss, Option.bind_some, hmiss2, hwalk]

/-! Access counts (R174). -/

/-- The counter of a leaf entry. -/
theorem addCount_counter (s : State) (ctx epa n : Nat) :
    fld (readLE (addCount s ctx epa n) (epa + 8) 8) 52 12 = min 4095 (fld (readLE s (epa + 8) 8) 52 12 + n) := by
  have hcap : min 4095 (fld (readLE s (epa + 8) 8) 52 12 + n) % 2 ^ 12 =
      min 4095 (fld (readLE s (epa + 8) 8) 52 12 + n) := Nat.mod_eq_of_lt (by omega)
  have hword (v : Nat) : fld (v % 2 ^ 64) 52 12 = fld v 52 12 := fld_mod_two_pow (by decide) v
  unfold addCount
  extract_lets w1 c hit w1' s'
  have hread : fld (readLE s' (epa + 8) 8) 52 12 = c := by
    rw [readLE_homeWrite_word, hword, fld_setFld_above (by decide), fld_setFld_same, hcap]
  split <;> exact hread

/-- An addition to a counter touches no cache and no count on its way. -/
theorem addCount_tlb_counts (s : State) (ctx epa n : Nat) :
    (addCount s ctx epa n).tlb = s.tlb ∧ (addCount s ctx epa n).counts = s.counts := by
  unfold addCount
  extract_lets w1 c hit w1' s'
  have hs : s'.translation = s.translation := homeWrite_translation ..
  have htlb : s'.tlb = s.tlb := tlb_congr hs
  have hcounts : s'.counts = s.counts := counts_congr hs
  split <;> exact ⟨htlb, hcounts⟩

section
variable {s : State} {who ctx va : Nat}

/-- What a cache has sent is added to its leaf. -/
theorem exec_accessCountFlush_sent {q : Nat × Nat × Nat × Nat × Nat}
    (hq : (s.counts.find? fun q => q.1 == who && q.2.1 == ctx && q.2.2.1 == va) = some q) :
    exec (.accessCountFlush who ctx va) s =
      .next (addCount { s with counts := s.counts.erase q } ctx q.2.2.2.1 q.2.2.2.2) := by
  rw [exec_accessCountFlush, execAccessCountFlush, hq]

/-- Where a cache has sent nothing, the 16 accesses that its entry has gathered are added, and the entry starts anew. -/
theorem exec_accessCountFlush_gathered {e : TlbEntry}
    (hq : (s.counts.find? fun q => q.1 == who && q.2.1 == ctx && q.2.2.1 == va) = none)
    (he : (s.tlb.find? fun e =>
      e.who == who && e.ctx == ctx && decide (e.va ≤ va) && decide (va < e.va + e.size)) = some e)
    (hcnt : 16 ≤ e.cnt) :
    exec (.accessCountFlush who ctx va) s = .next (addCount
      { s with tlb := s.tlb.map fun x => if x = e then { x with cnt := 0 } else x } ctx e.epa e.cnt) := by
  rw [exec_accessCountFlush, execAccessCountFlush, hq]
  simp only [he, if_pos hcnt]

end

/-- Once its count is cleared, no entry is the one that held it. -/
theorem not_mem_cleared {e : TlbEntry} (hcnt : 16 ≤ e.cnt) (es : List TlbEntry) :
    e ∉ es.map fun x => if x = e then { x with cnt := 0 } else x := by
  rw [List.mem_map]
  rintro ⟨x, -, hx⟩
  split at hx
  · have hzero : 0 = e.cnt := congrArg TlbEntry.cnt hx
    omega
  · next hne => exact hne hx

/-! Hot-page records (R176, R177). -/

/-- The record of a hot page: its leaf, the count, and the ring's write index. -/
def hotRecord (epa c wi : Nat) : List Byte := leBytes 8 epa ++ leBytes 2 c ++ leBytes 2 0 ++ leBytes 4 wi

/-- Where a record lies, its first two fields read back. -/
theorem readLE_of_hotRecord {s : State} {pa epa c wi : Nat} (h : readBytes s pa 16 = hotRecord epa c wi) :
    readLE s pa 8 = epa % 2 ^ 64 ∧ readLE s (pa + 8) 2 = c % 2 ^ 16 := by
  have hepa : recLE (hotRecord epa c wi) 0 8 = epa % 2 ^ 64 := leNat_leBytes 8 epa
  have hcount : recLE (hotRecord epa c wi) 8 2 = c % 2 ^ 16 := leNat_leBytes 2 c
  exact ⟨(readLE_eq_recLE h (lo := 0) (by decide)).trans hepa, (readLE_eq_recLE h (by decide)).trans hcount⟩

section
variable {s : State} {i : Nat} {h : Nat × Nat × Nat} (hi : s.hot[i]? = some h)
include hi

/-- With a queue size of 0 there is no ring (SPEC log entry 31): the record is dropped, its leaf's NT bit cleared. -/
theorem exec_hotPageRecord_noRing (hn : (s.ctx h.1).nqn = 0) :
    exec (.hotPageRecord i) s = .next (homeWrite { s with hot := ldel s.hot i } (h.2.1 + 8)
      (leBytes 8 (setFld (readLE s (h.2.1 + 8) 8) 38 1 0))) := by
  rw [exec_hotPageRecord, execHotPageRecord, hi]
  simp only [ringPost, hn, Nat.zero_le, if_true]
  rfl

/-- A ring with room takes the record. -/
theorem exec_hotPageRecord_room {x : Ctx} (hx : s.ctx h.1 = x) {wi ri : Nat}
    (hwi : readLE s (x.nqb + 16 * x.nqn) 8 % 2 ^ 32 = wi) (hri : readLE s (x.nqb + 16 * x.nqn + 8) 8 % 2 ^ 32 = ri)
    (hroom : (wi + 2 ^ 32 - ri) % 2 ^ 32 < x.nqn) :
    exec (.hotPageRecord i) s =
      .next (ringPost { s with hot := ldel s.hot i } x.nqb x.nqn 16 (hotRecord h.2.1 h.2.2 wi)) := by
  rw [exec_hotPageRecord, execHotPageRecord, hi]
  subst hx hwi hri
  exact congrArg _ (if_neg (Nat.not_le.2 hroom))

end

/-! Write-block and scrub (R159, R181). -/

/-- A retranslation leaves no entry that its test names. -/
theorem eq_false_of_mem_tlbDrop {s : State} {p : TlbEntry → Bool} {e : TlbEntry} (h : e ∈ (tlbDrop s p).tlb) :
    p e = false := by
  simpa using (List.mem_filter.1 h).2

/-- The ECC words of the sectors of a slice that its scrub finds uncorrectable. -/
def scrubbedBad (s : State) (slice : Nat) (bad : List Nat) : List Nat :=
  (bad.filter fun a => decide (a < 2 ^ 39) && homeId s a == slice).map eccWord

/-- The marked words ps, and those of as with them. -/
def markWords (as ps : List Nat) : List Nat := as.foldl (fun p a => if p.contains a then p else a :: p) ps

/-- The scrub of a slice adds to its count, and marks words. -/
theorem exec_sliceScrub_slice {slice : Nat} (hslice : slice < 1024) (s : State) (fixed : Nat) (bad : List Nat) :
    exec (.sliceScrub slice fixed bad) s = .next { s with
      ecc := tput s.ecc slice (tget 0 s.ecc slice + fixed)
      poison := markWords (scrubbedBad s slice bad) s.poison } := by
  rw [exec_sliceScrub, execSliceScrub]
  exact congrArg _ (if_neg (Nat.not_le.2 hslice))

theorem mem_markWords (as ps : List Nat) {a : Nat} (h : a ∈ as ∨ a ∈ ps) : a ∈ markWords as ps := by
  induction as generalizing ps with
  | nil => exact h.resolve_left (List.not_mem_nil)
  | cons b as ih =>
    refine ih (if ps.contains b then ps else b :: ps) ?_
    by_cases hb : b ∈ ps
    · rw [if_pos (List.contains_iff_mem.2 hb)]
      grind
    · rw [if_neg (mt List.contains_iff_mem.1 hb)]
      grind

/-- In first-tier memory a byte of a marked word reads poisoned. -/
theorem isPoisoned_of_marked {s : State} {a : Nat} (ha : a < 2 ^ 39) (h : eccWord a ∈ s.poison) :
    isPoisoned s a 1 = true := by
  have hword : eccWord a = a / 64 * 64 := if_neg (by rw [winBase]; omega)
  have hlen : eccLen (a / 64 * 64) = 64 := if_neg (by rw [winBase]; omega)
  rw [hword] at h
  refine List.any_eq_true.2 ⟨_, h, ?_⟩
  rw [hlen, Bool.and_eq_true, decide_eq_true_eq, decide_eq_true_eq]
  omega

/-- Settles O24. A walk fills the cache (`tlbHit_tlbFill`), a flush adds to the leaf's counter (`addCount_counter`), a
hot-page record lies at its ring's write index (`readBytes_ringPost`), and a scrubbed word is marked
(`isPoisoned_of_marked`). That a queue size of 0 means no ring is the model's deduction (SPEC log entry 31). -/
theorem translationAgents : Obligations.TranslationAgents := by
  unfold Obligations.TranslationAgents
  refine ⟨?walk, ?gathered, ?sent, ?noRing, ?room, ?retranslate, ?scrub⟩
  case walk =>
    intro s core ctx va l hwant hmiss hmiss2 hwalk hlow hhigh
    refine ⟨_, rfl, ?_⟩
    rw [if_pos hwant, findLeaf_walked hmiss hmiss2 hwalk]
    exact tlbHit_tlbFill _ _ _ hlow hhigh
  case gathered =>
    intro s who ctx va e he hq hcnt
    refine ⟨_, exec_accessCountFlush_gathered hq he hcnt, addCount_counter .., ?_⟩
    rw [(addCount_tlb_counts ..).1]
    exact not_mem_cleared hcnt s.tlb
  case sent =>
    intro s who ctx va epa n hq
    exact ⟨_, exec_accessCountFlush_sent hq, (addCount_tlb_counts ..).2, addCount_counter ..⟩
  case noRing => exact fun s i h hi hn => exec_hotPageRecord_noRing hi hn
  case room =>
    intro s i h hi x wi ri hn hroom
    refine ⟨_, exec_hotPageRecord_room hi rfl rfl rfl hroom, hot_congr (ringPost_translation ..), ?_⟩
    exact readLE_of_hotRecord (readBytes_ringPost rfl hn rfl hroom)
  case retranslate =>
    intro s who ctx va
    refine ⟨_, rfl, fun e he hwho hctx hlow hhigh => ?_⟩
    simpa [hwho, hctx, hlow, hhigh] using eq_false_of_mem_tlbDrop he
  case scrub =>
    intro s slice fixed bad hslice
    refine ⟨_, exec_sliceScrub_slice hslice .., tget_tput_same .., fun a ha hlow hhome => ?_, rfl⟩
    have hbad : eccWord a ∈ scrubbedBad s slice bad :=
      List.mem_map_of_mem (List.mem_filter.2 ⟨ha, by rw [hhome, beq_self_eq_true, Bool.and_true, decide_eq_true hlow]⟩)
    exact isPoisoned_of_marked hlow (mem_markWords _ _ (.inl hbad))

end Sys2Proof.Machine

/-! PROOFS. System calls (R180, R260, R487 to R489, R497): WCALL and SLEEP as they are sent and as they return, and the
writes of SHOOT and SLICE. -/

namespace Sys2Proof.Machine
open Sys2Proof

/-! The return of an operation while its strand is in no close (R98). -/

theorem writeDests_close (t : Strand) (ls : List Loc) (vs : List Word) : (t.writeDests ls vs).close = t.close := by
  induction t, ls, vs using Strand.writeDests.induct with
  | case1 t l ls v vs ih => exact ih.trans (setLoc_close t l v)
  | case2 ls t vs h => rw [Strand.writeDests]; exact h

/-- The strand of an operation that has returned, while no close waits. -/
def State.returned (s : State) (u : Nat) (o : Op) : Strand :=
  let t := { (s.strand u).writeDests o.dests o.res with ops := (s.strand u).ops.filter fun x => x.id != o.id }
  if t.st == .parked .resource then t.wakes (slotClock s t) else t

theorem returned_close (s : State) (u : Nat) (o : Op) : (s.returned u o).close = (s.strand u).close := by
  unfold State.returned
  extract_lets t
  have ht : t.close = (s.strand u).close := writeDests_close ..
  split <;> exact ht

theorem returned_ops (s : State) (u : Nat) (o : Op) :
    (s.returned u o).ops = (s.strand u).ops.filter fun x => x.id != o.id := by
  unfold State.returned
  extract_lets t
  split <;> rfl

theorem returned_getLoc (s : State) (u : Nat) (o : Op) (l : Loc) :
    (s.returned u o).getLoc l = ((s.strand u).writeDests o.dests o.res).getLoc l := by
  unfold State.returned
  extract_lets t
  split <;> cases l <;> rfl

theorem opReturn_of_no_close {s : State} {u : Nat} (o : Op) (hclose : (s.strand u).close = none) :
    opReturn s u o = s.setStrand u (s.returned u o) := by
  refine closeCheck_of_no_close (s := s.setStrand u (s.returned u o)) ?_
  rw [setStrand_strand_same, returned_close, hclose]

section
variable {s : State} {u : Nat} {o : Op} (hclose : (s.strand u).close = none)
include hclose

/-- An operation that has returned is outstanding no more. -/
theorem opReturn_op : (opReturn s u o).op u o.id = none := by
  rw [opReturn_of_no_close o hclose, State.op, setStrand_strand_same, Strand.findOp, returned_ops, List.find?_eq_none]
  intro x hx
  simpa using (List.mem_filter.1 hx).2

/-- The one result of an operation is in its one destination. -/
theorem opReturn_getLoc {l : Loc} {v : Word} (hdests : o.dests = [l]) (hres : o.res = [v]) :
    ((opReturn s u o).strand u).getLoc l = ((s.strand u).setLoc l v).getLoc l := by
  rw [opReturn_of_no_close o hclose, setStrand_strand_same, returned_getLoc, hdests, hres]
  rfl

end

/-- A wait of a strand in rotation is tested when its event comes (R98). -/
theorem exec_pendingReturn_sent {s : State} {u : Nat} {o : Op} (hsent : s.sentOp u o) (hrot : (s.strand u).inRotation)
    (hheld : regHeld s (s.strand u) = false) (hfrozen : frozenNow s (s.strand u).pcore = false) :
    exec (.pendingReturn u o.id) s = .next (waitReturn s u o) := by
  obtain ⟨hop, hphase⟩ := hsent
  have hpre : (s.strand u).preempted = false := by
    rcases hrot with hst | ⟨w, hst⟩ <;> simp [Strand.preempted, hst]
  have hlive : ((s.strand u).st == .ended) = false := by
    rcases hrot with hst | ⟨w, hst⟩ <;> simp [hst]
  simp [execPendingReturn, hop, hphase, hpre, hlive, hheld, hfrozen]

/-! WCALL and SLEEP (R488, R489). -/

/-- The firmware answers -1 to a service that it does not provide (R497). -/
theorem wcallRun_unprovided (s : State) (ctx : Nat) {n : Nat} (a : Nat) (hn : n = 0 ∨ 5 ≤ n) :
    wcallRun s ctx n a = (s, .ok (BitVec.ofInt 64 (-1))) := by
  unfold wcallRun
  split
  iterate 4 omega
  · rfl

/-- A call of such a service returns -1; it reads and writes no buffer that would have it wait. -/
theorem performWcall_unprovided (s : State) (u : Nat) (o : Op) {n : Nat} (a : Nat) (hn : n = 0 ∨ 5 ≤ n) :
    performWcall s u o n a = opReturn s u { o with res := [BitVec.ofInt 64 (-1)] } := by
  have h1 : n ≠ 1 := by omega
  have h2 : n ≠ 2 := by omega
  simp [performWcall, h1, h2, wcallRun_unprovided s _ a hn]

section
variable {s : State} {u : Nat} {o : Op}

theorem waitReturn_sleep_due {c : Nat} (hk : o.kind = .sleep c) (hdue : c ≤ strandCycle s (s.strand u)) :
    waitReturn s u o = opReturn s u o := by
  rw [waitReturn, hk]
  exact if_pos hdue

theorem waitReturn_wcall_unprovided {n a : Nat} (hk : o.kind = .wcall n a) (hn : n = 0 ∨ 5 ≤ n) :
    waitReturn s u o = opReturn s u { o with res := [BitVec.ofInt 64 (-1)] } := by
  rw [waitReturn, hk]
  exact performWcall_unprovided s u o a hn

end

section
variable {s : State} {h : Hdr} {rd : Reg} (hp : s.passes h [.r rd])
include hp

theorem wcall_sent (n : BitVec 8) (hr : s.room) : exec (.wcall h rd n) s = .next (s.leave h
    ((s.me.past 4).send (.wcall n.toNat (s.me.reg rd).toNat) .s s.me.pc 4 s.steps (s.me.dest rd))) := by
  rw [exec_wcall, execWcall, ← past_reg s.me 4]
  exact issue_upd hp (by simp) (fun _ => hr) rfl rfl

theorem sleep_sent (hr : s.room) : exec (.sleep h rd) s = .next (s.leave h
    ((s.me.past 4).send (.sleep (s.me.reg rd).toNat) .w s.me.pc 4 s.steps [])) := by
  rw [exec_sleep, execSleep, ← past_reg s.me 4]
  exact issue_upd hp (by simp) (fun _ => hr) rfl rfl

end

/-! A CSR instruction on a register that its privilege may access and that is not PWORD (R487). -/

theorem csrOp_allowed {s : State} {h : Hdr} {rd : Reg} {n : Nat} {acc : Nat → Bool → Option CsrAcc}
    {f : Exe → CsrAcc → Eff} {a : CsrAcc} (hacc : acc n s.me.sup = some a) (ha : a ≠ .none) (hn : n ≠ 0) :
    csrOp h rd n acc f s = issue h { len := lenShort, refs := [.r rd] } (fun x => f x a) s := by
  unfold State.me at hacc
  cases a <;> simp_all [csrOp]

/-! SHOOT (R180). -/

theorem shootBad_eq_false_iff (v : Word) : shootBad v.toNat = false ↔
    v.toNat / 2 ^ 56 = 0 ∧ v.toNat / 16 % 2 ^ 12 = 0 ∧ v.toNat % 4 = 0 := by
  have hv := v.isLt
  simp only [shootBad, fld, Bool.or_eq_false_iff, bne_eq_false_iff_eq, and_assoc]
  omega

/-- An entry that a shootdown drops: of the context, and over some of the range. -/
def shotDown (ctx v : Nat) (e : TlbEntry) : Bool :=
  e.ctx == ctx && decide (e.va < (shootRange v).1 + (shootRange v).2) && decide ((shootRange v).1 < e.va + e.size)

theorem shotDown_iff {ctx v : Nat} {e : TlbEntry} : shotDown ctx v e = true ↔
    e.ctx = ctx ∧ e.va < (shootRange v).1 + (shootRange v).2 ∧ (shootRange v).1 < e.va + e.size := by
  simp [shotDown, and_assoc]

/-- A shootdown: the entries leave every cache, and the watches on words of the range end. -/
def shotDownState (s : State) (ctx v : Nat) : State := dropWatches (tlbDrop s (shotDown ctx v)) ctx v

theorem not_shotDown_of_mem_tlb {s : State} {ctx v : Nat} {e : TlbEntry} (he : e ∈ (shotDownState s ctx v).tlb) :
    shotDown ctx v e = false := eq_false_of_mem_tlbDrop (s := s) he

/-- What the operation remembers are the ranges of the entries that the shootdown drops. -/
theorem mem_dropped_iff {s : State} {ctx v : Nat} {l : Nat × Nat} :
    l ∈ dropped s ctx v ↔ ∃ e ∈ s.tlb, shotDown ctx v e = true ∧ l = (e.va, e.size) := by
  rw [dropped, List.mem_eraseDups, List.mem_map]
  refine exists_congr fun e => ?_
  rw [List.mem_filter, and_assoc, eq_comm (a := l)]
  rfl

section
variable {s : State} {h : Hdr} {rd : Reg} (hp : s.passes h [.r rd])
include hp

theorem shoot_sent (hs : s.me.sup = true) (hr : s.room) (hv : shootBad (s.me.reg rd).toNat = false) :
    let v := (s.me.reg rd).toNat
    exec (.shoot h rd) s = .next (s.leaveIn h (shotDownState (s.entered 4) s.me.ctx v)
      ((s.me.past 4).sendBound (.shoot v) s.me.pc 4 s.steps [] (dropped s s.me.ctx v))) := by
  rw [exec_shoot, execShoot, csrOp_allowed (a := .rw) (by rw [hs]; rfl) (by decide) (by decide)]
  rw [← past_reg s.me 4] at hv ⊢
  refine issue_in hp (by simp) (by simp) rfl ?_
  exact (if_neg (ne_true_of_eq_false hv)).trans (if_neg (Nat.not_le.2 hr))

theorem shoot_illegal (hs : s.me.sup = true) (hv : shootBad (s.me.reg rd).toNat = true) :
    exec (.shoot h rd) s = .next (trapAt s s.cur s.me.pc 4 { code := 1 }) := by
  rw [exec_shoot, execShoot, csrOp_allowed (a := .rw) (by rw [hs]; rfl) (by decide) (by decide)]
  rw [← past_reg s.me 4] at hv
  exact issue_trap hp (by simp) (by simp) (if_pos hv)

end

/-! SLICE (R260). -/

theorem checkpointOf_setStrand (s : State) (u : Nat) (q t : Strand) :
    checkpointOf (s.setStrand u q) t = checkpointOf s t := rfl

theorem w64_zero : w64 0 = 0#64 := rfl

/-- With no watch placed, a write at a home leaves every strand as it was. -/
theorem homeWrite_strand {s : State} (hw : s.watches = []) (pa : Nat) (bs : List Byte) (u : Nat) :
    (homeWrite s pa bs).strand u = s.strand u := by
  rw [homeWrite_eq_rawWrite hw]
  rfl

/-- A slice that starts with no older register resident: nothing is spilled, and the record is written. -/
theorem sliceEff_starts {x : Exe} {v : Nat} (hv : bit v 63 = true) (hengaged : x.t.engagedNow = false)
    (hrestart : (x.s.kern x.t.kern).restart = true) (hj : v % 2 ^ 32 < (x.s.kern x.t.kern).slices)
    (hwres : x.t.wres = 0) (hwatch : (x.s.ctx x.t.ctx).watches = []) (hwrites : ∀ w ∈ x.s.writes, w.uid ≠ x.u) :
    sliceEff v x = .ok (homeWrite (x.s.setStrand x.u { x.t with slice := some (v % 2 ^ 32) }) (checkpointOf x.s x.t)
      (recordBytes x.t x.t.pc x.t.wsp.toNat false)) := by
  have hnone : (x.s.writes.any fun w => w.uid == x.u) = false := by simpa using hwrites
  have hhit (n : Nat) (stop : Bool) : watchHit x.s x.t.ctx x.skip x.t.wsp.toNat n .write stop = none := by
    simp [watchHit, hwatch]
  simp [-Nat.reducePow, sliceEff, hv, hengaged, hrestart, Nat.not_le.2 hj, spillAlign, hwres, wordsAt, upto, sitesOf,
    hnone, hhit, watchStop, stopHit, w64_zero, checkpointOf_setStrand]

/-- An effect of its own on the machine is followed by the close. -/
theorem issue_closes {s q : State} {h : Hdr} {f : Form} {eff : Exe → Eff} (hp : s.passes h f.refs)
    (hv : f.priv = true → s.me.sup = true) (hr : f.pendingClass = true → s.room) (he : f.ends = false)
    (ht : eff ⟨s.setStrand s.cur (s.me.past f.len), s.cur, s.me.past f.len, s.me.pc, f.len, s.me.noWatch⟩ = .ok q)
    (hc : f.reenters = false := by rfl) : issue h f eff s = .next (closeOf h s.cur q) := by
  rw [issue_pass hp hv hr, ht]
  simp [closeOf, closing, he, hc]

section
variable {s : State} {h : Hdr} {rd : Reg}

theorem sliceWrite_issue : exec (.sliceWrite h rd) s =
    issue h { len := lenShort, refs := [.r rd] } (fun x => sliceEff (x.t.reg rd).toNat x) s := by
  rw [exec_sliceWrite, execSliceWrite, csrOp_allowed (a := .rw) (by cases s.me.sup <;> rfl) (by decide) (by decide)]

variable (hp : s.passes h [.r rd])
include hp

theorem sliceWrite_ends (hv : (s.me.reg rd).getLsbD 63 = false) :
    exec (.sliceWrite h rd) s = .next (s.leave h { s.me.past 4 with slice := none }) := by
  rw [← past_reg s.me 4, ← bit_toNat] at hv
  have hoff : (!bit ((s.me.past 4).reg rd).toNat 63) = true := by rw [hv]; rfl
  rw [sliceWrite_issue]
  exact issue_upd hp (by simp) (by simp) rfl (if_pos hoff)

/-- Past its issue the strand starts slice j, and its record, as it stands after the instruction, is its checkpoint. -/
theorem sliceWrite_starts (hv : (s.me.reg rd).getLsbD 63 = true) (hengaged : s.me.engagedNow = false)
    (hrestart : (s.kern s.me.kern).restart = true)
    (hj : (s.me.reg rd).toNat % 2 ^ 32 < (s.kern s.me.kern).slices) (hwres : s.me.wres = 0)
    (hwatch : (s.ctx s.me.ctx).watches = []) (hwrites : ∀ w ∈ s.writes, w.uid ≠ s.cur) :
    exec (.sliceWrite h rd) s = .next (closeOf h s.cur (homeWrite
      (s.setStrand s.cur { s.me.past 4 with slice := some ((s.me.reg rd).toNat % 2 ^ 32) }) (checkpointOf s s.me)
      (recordBytes s.me ((s.me.pc + 4) % 2 ^ 64) s.me.wsp.toNat false))) := by
  rw [← past_reg s.me 4] at hv hj ⊢
  rw [← bit_toNat] at hv
  rw [sliceWrite_issue]
  have heff := sliceEff_starts (x := ⟨s.entered 4, s.cur, s.me.past 4, s.me.pc, 4, s.me.noWatch⟩) hv hengaged hrestart hj
    hwres hwatch hwrites
  rw [State.entered, setStrand_setStrand] at heff
  exact issue_closes hp (by simp) (by simp) rfl heff

end

/-- Settles O30. WCALL and SLEEP are sent past their checks, and a wait that is over returns (`opReturn_op`); a shootdown
drops the entries that its operation remembers (`mem_dropped_iff`); a slice that starts has its record written
(`sliceEff_starts`). -/
theorem systemCalls : Obligations.SystemCalls := by
  unfold Obligations.SystemCalls
  refine ⟨fun s h rd n hp hr => ⟨wcall_sent hp n hr, sleep_sent hp hr⟩, ?returns, ?shoot, ?slice⟩
  case returns =>
    intro s u o hsent hrot hheld hclose hfrozen
    have hexec := exec_pendingReturn_sent hsent hrot hheld hfrozen
    refine ⟨fun c hk hdue => ⟨_, hexec, ?_⟩, fun n a l hk hn hdests => ⟨_, hexec, ?_⟩⟩
    · rw [waitReturn_sleep_due hk hdue]
      exact opReturn_op hclose
    · rw [waitReturn_wcall_unprovided hk hn]
      exact ⟨opReturn_op (o := { o with res := _ }) hclose, opReturn_getLoc hclose hdests rfl⟩
  case shoot =>
    intro s h rd hp hs hr v
    refine ⟨fun hv => ?_, fun hv => ?_⟩
    · refine ⟨_, _, shoot_sent hp hs hr ((shootBad_eq_false_iff _).2 hv), fun e he hmeets => ?_, fun l => ?_⟩
      · exact absurd (shotDown_iff.2 hmeets) (Bool.eq_false_iff.1 (not_shotDown_of_mem_tlb he))
      · exact mem_dropped_iff.trans (exists_congr fun _ => and_congr_right fun _ => and_congr_left' shotDown_iff)
    · exact shoot_illegal hp hs (by rwa [← Bool.not_eq_false, shootBad_eq_false_iff])
  case slice =>
    intro s h rd hp v
    refine ⟨sliceWrite_ends hp, fun hv hengaged hrestart hj hwres _ hquiet hwatch hwrites => ?_⟩
    exact ⟨_, sliceWrite_starts hp hv hengaged hrestart hj hwres hwatch hwrites,
      (homeWrite_strand (s := s.setStrand ..) hquiet ..).trans (setStrand_strand_same ..), wrote_homeWrite _ _ _⟩

end Sys2Proof.Machine

/-! PROOFS. Reset, bring-up and the removal of power (R175, R185, R261, R498, R500, R512): what a write at a home does not
touch, the training of the enabled ports one by one, and the first tier scrubbed. -/

namespace Sys2Proof.Machine
open Sys2Proof

/-! A part of the state that writes at homes leave alone. -/

/-- f reads none of what a write at a home and the watches that it fires may change: memory, poison and order tags, the
watches, and the cores and strands of the acquirers. -/
structure Aside {α : Type} (f : State → α) : Prop where
  memory (s : State) (pa : Nat) (bs : List Byte) : f (rawWrite s pa bs) = f s
  tag (s : State) (pa tag : Nat) : f (setTag s pa tag) = f s
  watches (s : State) (ws : List Watch) : f { s with watches := ws } = f s
  core (s : State) (c : Nat) (g : CoreSt → CoreSt) : f (s.modCore c g) = f s
  op (s : State) (u : Nat) (o : Op) : f (s.setOp u o) = f s

namespace Aside
variable {α : Type} {f : State → α} (hf : Aside f)
include hf

theorem acqDone (s : State) (u : Nat) (o : Op) (pa v tag : Nat) (sc : Scope) : f (acqDone s u o pa v tag sc) = f s := by
  unfold Machine.acqDone
  grind [hf.core, hf.op]

theorem fireWatches (s : State) (pa n : Nat) : f (fireWatches s pa n) = f s := by
  unfold Machine.fireWatches
  refine List.foldlRecOn s.watches _ (motive := fun t => f t = f s) rfl fun t ht w _ => ?_
  grind [hf.acqDone, hf.watches]

theorem homeWrite (s : State) (pa : Nat) (bs : List Byte) : f (homeWrite s pa bs) = f s :=
  (hf.fireWatches ..).trans (hf.memory ..)

theorem releaseWrite (s : State) (pa v tag : Nat) : f (releaseWrite s pa v tag) = f s :=
  (hf.fireWatches ..).trans ((hf.tag ..).trans (hf.memory ..))

theorem writePort (s : State) (p : Nat) : f (writePort s p) = f s :=
  (hf.releaseWrite ..).trans (hf.homeWrite ..)

end Aside

/-- What bring-up settles beside memory and the ports: phase and code, the record, and the populated bytes. -/
def State.settled (s : State) : Nat × Nat × List Byte × Table Nat := (s.phase, s.failCode, s.config, s.populated)

theorem aside_settled : Aside State.settled := by constructor <;> intros <;> rfl

theorem aside_clavos : Aside State.clavos := by constructor <;> intros <;> rfl

theorem settled_eq_iff {s t : State} : t.settled = s.settled ↔
    t.phase = s.phase ∧ t.failCode = s.failCode ∧ t.config = s.config ∧ t.populated = s.populated := by
  simp [State.settled]

theorem config_congr {s t : State} (h : t.settled = s.settled) : t.config = s.config :=
  (settled_eq_iff.1 h).2.2.1

theorem cfgLE_congr {s t : State} (h : t.config = s.config) (off n : Nat) : cfgLE t off n = cfgLE s off n := by
  rw [cfgLE, cfgLE, h]

/-! A port of the fabric starts to train (R457, R458). -/

/-- The base of the port table (R495). -/
def portTable (s : State) : Nat := cfgLE s (0x5C0 + 24) 8

theorem memGet_writePort (s : State) {p x : Nat} (hx : x < portTable s + 16 * p ∨ portTable s + 16 * p + 16 ≤ x) :
    memGet (writePort s p).mem x = memGet s.mem x := by
  unfold portTable at hx
  rw [writePort, wrote_releaseWrite, leBytes_length, if_neg (by omega), wrote_homeWrite, leBytes_length,
    if_neg (by omega)]

theorem trainPort_down {s : State} {p : Nat} (hdown : (s.clav p).st = .down) :
    trainPort s p = portState s p .training 0 (s.clav p).peer := by
  rw [trainPort, hdown]

/-- A port that trains already goes on. -/
theorem trainPort_training {s : State} {p : Nat} (h : (s.clav p).st = .training) : trainPort s p = s := by
  rw [trainPort, h]

theorem trainPort_cases (s : State) (p : Nat) :
    trainPort s p = s ∨ trainPort s p = portState s p .training 0 (s.clav p).peer := by
  unfold trainPort
  split
  · exact .inr rfl
  · exact .inr rfl
  · exact .inl rfl

theorem portState_settled (s : State) (p : Nat) (st : ClavosSt) (lanes peer : Nat) :
    (portState s p st lanes peer).settled = s.settled := aside_settled.writePort ..

theorem portState_clavos (s : State) (p : Nat) (st : ClavosSt) (lanes peer : Nat) :
    (portState s p st lanes peer).clavos = tput s.clavos p { s.clav p with
      st := st, lanes := lanes, peer := peer, chg := ((s.clav p).chg + 1) % 2 ^ 8, since := s.cycle } :=
  aside_clavos.writePort ..

/-! The ports that the record enables, one after the other (R498). -/

/-- Does the record enable a port (R495)? -/
def portEnabled (s : State) (p : Nat) : Bool := bit (cfgLE s (0x5C0 + 40) 4) p

/-- Bring-up comes to a port. -/
def trainStep (s : State) (p : Nat) : State := if portEnabled s p then trainPort s p else s

theorem portEnabled_congr {s t : State} (h : t.settled = s.settled) (p : Nat) : portEnabled t p = portEnabled s p := by
  rw [portEnabled, portEnabled, cfgLE_congr (config_congr h)]

theorem trainStep_cases (s : State) (p : Nat) :
    trainStep s p = s ∨ portEnabled s p = true ∧ trainStep s p = portState s p .training 0 (s.clav p).peer := by
  unfold trainStep
  split
  · next h => exact (trainPort_cases s p).imp_right (.intro h)
  · exact .inl rfl

theorem trainStep_settled (s : State) (p : Nat) : (trainStep s p).settled = s.settled := by
  obtain h | ⟨-, h⟩ := trainStep_cases s p <;> rw [h]
  exact portState_settled ..

theorem trainStep_clav_ne (s : State) {p q : Nat} (hq : q ≠ p) : (trainStep s p).clav q = s.clav q := by
  obtain h | ⟨-, h⟩ := trainStep_cases s p <;> rw [h]
  rw [State.clav, portState_clavos]
  exact tget_tput_ne _ _ _ hq

theorem trainStep_of_disabled {s : State} {p : Nat} (h : portEnabled s p = false) : trainStep s p = s :=
  if_neg (ne_true_of_eq_false h)

theorem trainStep_trains {s : State} {p : Nat} (hdown : (s.clav p).st = .down) (h : portEnabled s p = true) :
    ((trainStep s p).clav p).st = .training := by
  rw [trainStep, if_pos h, trainPort_down hdown, State.clav, portState_clavos, tget_tput_same]

theorem trainStep_training {s : State} {q : Nat} (h : (s.clav q).st = .training) (p : Nat) :
    ((trainStep s p).clav q).st = .training := by
  by_cases hq : q = p
  · subst hq
    rw [trainStep, trainPort_training h, ite_self, h]
  · rw [trainStep_clav_ne s hq, h]

theorem memGet_trainStep {s : State} {p x : Nat} (hx : x < portTable s + 16 * p ∨ portTable s + 16 * p + 16 ≤ x) :
    memGet (trainStep s p).mem x = memGet s.mem x := by
  obtain h | ⟨-, h⟩ := trainStep_cases s p <;> rw [h]
  exact memGet_writePort { s with clavos := _, unreach := _ } hx

theorem trainSteps_settled (ps : List Nat) (s : State) : (ps.foldl trainStep s).settled = s.settled :=
  List.foldlRecOn ps trainStep (motive := fun t => t.settled = s.settled) rfl
    fun t ht p _ => (trainStep_settled t p).trans ht

/-- A port that the record does not enable stays as it was. -/
theorem trainSteps_of_disabled (ps : List Nat) {s : State} {q : Nat} (h : portEnabled s q = false) :
    (ps.foldl trainStep s).clav q = s.clav q := by
  refine (List.foldlRecOn ps trainStep (motive := fun t => t.settled = s.settled ∧ t.clav q = s.clav q) ⟨rfl, rfl⟩
    fun t ⟨hset, hclav⟩ p _ => ⟨(trainStep_settled t p).trans hset, ?_⟩).2
  by_cases hq : q = p
  · subst hq
    rw [trainStep_of_disabled ((portEnabled_congr hset q).trans h), hclav]
  · rw [trainStep_clav_ne t hq, hclav]

/-- A port that trains goes on; one that is DOWN and enabled starts when the loop comes to it. -/
theorem trainSteps_training (ps : List Nat) {s : State} {q : Nat}
    (h : (s.clav q).st = .training ∨ (s.clav q).st = .down ∧ portEnabled s q = true ∧ q ∈ ps) :
    ((ps.foldl trainStep s).clav q).st = .training := by
  induction ps generalizing s with
  | nil => exact h.resolve_right fun ⟨_, _, hmem⟩ => nomatch hmem
  | cons p ps ih =>
    refine ih ?_
    obtain h | ⟨hdown, hon, hmem⟩ := h
    · exact .inl (trainStep_training h p)
    · by_cases hq : q = p
      · subst hq
        exact .inl (trainStep_trains hdown hon)
      · rw [trainStep_clav_ne s hq, portEnabled_congr (trainStep_settled s p)]
        exact .inr ⟨hdown, hon, (List.mem_cons.1 hmem).resolve_left hq⟩

/-- The loop over all 32 ports writes no memory beside the port table. -/
theorem memGet_trainSteps {s : State} {x : Nat} (hx : x < portTable s ∨ portTable s + 16 * 32 ≤ x) :
    memGet ((upto 32).foldl trainStep s).mem x = memGet s.mem x := by
  refine (List.foldlRecOn (upto 32) trainStep
    (motive := fun t => t.settled = s.settled ∧ memGet t.mem x = memGet s.mem x) ⟨rfl, rfl⟩
    fun t ⟨hset, hmem⟩ p hp => ⟨(trainStep_settled t p).trans hset, ?_⟩).2
  have hp : p < 32 := List.mem_range.1 hp
  have htable : portTable t = portTable s := cfgLE_congr (config_congr hset) ..
  rw [memGet_trainStep (by omega), hmem]

/-! The first tier scrubbed, and what lies beyond a removal of power. -/

/-- Of memory from an address on, the bytes below it read zero. -/
theorem memGet_above (m : List Host.Cell) (b x : Nat) :
    memGet (m.filter fun c => decide (b ≤ c.1)) x = if x < b then 0 else memGet m x := by
  induction m with
  | nil => exact (ite_self _).symm
  | cons c m ih =>
    unfold memGet at *
    rw [List.filter_cons]
    grind [tget]

/-! The state after power-up (R498). -/

theorem reset_tidy : State.reset.tidy := by
  have hpart (core ctx : Nat) : State.reset.part core ctx = Part.init ctx core := rfl
  refine ⟨.nil, .nil, fun _ => .nil, fun _ => .nil, fun core ctx k => ?_⟩
  simp only [barrierOf, hpart, Part.init, tget]
  decide

theorem reset_numbered : State.reset.numbered := by
  have hstrand (u : Nat) : State.reset.strand u = Strand.init := rfl
  refine ⟨fun u => ?_, List.forall_mem_nil _⟩
  rw [hstrand]
  exact ⟨List.forall_mem_nil _, List.forall_mem_nil _⟩

/-! What bring-up comes to (R498). -/

/-- A table of the values of f at n consecutive keys. -/
theorem tget_map_range' {α : Type} (d : α) (f : Nat → α) {lo n i : Nat} (hlow : lo ≤ i) (hhigh : i < lo + n) :
    tget d ((List.range' lo n).map fun i => (i, f i)) i = f i := by
  induction n generalizing lo with
  | zero => omega
  | succ n ih =>
    rw [List.range'_succ, List.map_cons, tget]
    split
    · next h => rw [h]
    · exact ih (by omega) (by omega)

/-- Every image carries its signature, and there is one (R497). -/
theorem firmwareOk_iff (fw : List (List Byte)) : firmwareOk fw = true ↔ fw ≠ [] ∧ ∀ b ∈ fw, imageOk b = true := by
  simp [firmwareOk]

/-- The state that holds the record and the digest of the firmware. -/
def State.holding (s : State) (flash : List Byte) (fw : List (List Byte)) : State :=
  { s with config := flash.take (recordLen flash), fwHash := sha256 (fw.flatMap imageBody) }

/-- The first tier scrubbed and the populated bytes known, in READY. -/
def State.scrubbed (q : State) (flash : List Byte) (pop : List Nat) : State :=
  { q with populated := (upto 8).map fun i => (i, portBytes flash i (pop.getD i 0))
           mem := q.mem.filter fun c => decide (2 ^ 39 ≤ c.1)
           poison := q.poison.filter fun a => decide (2 ^ 39 ≤ a)
           phase := 5 }

section
variable {s : State} {flash : List Byte} {pop : List Nat} {fw : List (List Byte)} {train : Bool}

theorem bringUp_unidentified : bringUp s flash pop false fw train = bringFail s 6 := rfl

theorem bringUp_firmware (h : firmwareOk fw = false) : bringUp s flash pop true fw train = bringFail s 1 := by
  simp [bringUp, h]

variable (hfw : firmwareOk fw = true)
include hfw

theorem bringUp_signatures (h : signaturesOk flash = false) : bringUp s flash pop true fw train = bringFail s 2 := by
  simp [bringUp, hfw, h]

variable (hsig : signaturesOk flash = true)
include hsig

/-- That a record whose ranges leave a hole is refused here, with CFGFORM, is the model's deduction (SPEC log entry 120). -/
theorem bringUp_record (h : configOk flash = false ∨ rangesFilled flash pop = false) :
    bringUp s flash pop true fw train = bringFail s 3 := by
  simp [bringUp, hfw, hsig, h]

variable (hcfg : configOk flash = true) (hfill : rangesFilled flash pop = true)
include hcfg hfill

theorem bringUp_untrained : bringUp s flash pop true fw false = bringFail (s.holding flash fw) 5 := by
  simp [bringUp, hfw, hsig, hcfg, hfill, State.holding]

theorem bringUp_ready : bringUp s flash pop true fw true =
    (upto 32).foldl trainStep ((s.holding flash fw).scrubbed flash pop) := by
  simp [bringUp, hfw, hsig, hcfg, hfill, State.holding, State.scrubbed]
  rfl

end

section
variable {s : State} {flash : List Byte} {pop : List Nat}

theorem powerUp_next (hphase : s.phase = 0) (ident : Bool) (fw : List (List Byte)) (train : Bool) :
    exec (.powerUp flash pop ident fw train) s = .next (bringUp s flash pop ident fw train) :=
  congrArg Host.Outcome.next (if_pos hphase)

theorem portEnabled_scrubbed (q : State) (p : Nat) :
    portEnabled (q.scrubbed flash pop) p = (cfgLE q (0x5C0 + 40) 4).testBit p := bit_eq_testBit ..

/-- The first tier reads zero, and the rest of memory but the port table as before. -/
theorem memGet_ready (q : State) {x : Nat} (hx : x < portTable q ∨ portTable q + 16 * 32 ≤ x) :
    memGet ((upto 32).foldl trainStep (q.scrubbed flash pop)).mem x = if x < 2 ^ 39 then 0 else memGet q.mem x :=
  (memGet_trainSteps (s := q.scrubbed flash pop) hx).trans (memGet_above ..)

theorem populated_ready (q : State) {i : Nat} (hi : i < 8) :
    tget 0 ((upto 32).foldl trainStep (q.scrubbed flash pop)).populated i = portBytes flash i (pop.getD i 0) := by
  obtain ⟨-, -, -, hpop⟩ := settled_eq_iff.1 (trainSteps_settled (upto 32) (q.scrubbed flash pop))
  rw [hpop, State.scrubbed, upto, List.range_eq_range']
  exact tget_map_range' 0 _ (Nat.zero_le i) (by omega)

end

/-- Settles O57. Each check of bring-up that fails names its phase (`bringUp_firmware` and the lemmas after it). Where all
pass, the ports are trained one by one over the scrubbed memory: a training writes the port table alone
(`memGet_trainSteps`), of the ports it changes its own (`trainSteps_training`, `trainSteps_of_disabled`), and nothing
else that bring-up settles (`trainSteps_settled`). -/
theorem resetAndPower : Obligations.ResetAndPower := by
  unfold Obligations.ResetAndPower
  refine ⟨rfl, rfl, rfl, rfl, fun _ => rfl, fun _ _ => rfl, fun _ => rfl, fun _ => rfl, fun _ _ => rfl, fun _ _ => rfl,
    canon_nil, reset_tidy, reset_numbered, ?up, fun s => ⟨_, rfl, fun pa => memGet_above .., rfl⟩⟩
  case up =>
    intro s flash pop ident fw train
    refine ⟨fun hphase => congrArg Host.Outcome.next (if_neg hphase), fun hphase => ?_⟩
    have hnext := powerUp_next (flash := flash) (pop := pop) hphase
    have hgood_iff := firmwareOk_iff fw
    refine ⟨fun hid => ?_, fun hid hbad => ?_, fun hid hgood hsig => ?_, fun hid hgood hsig hrec => ?_,
      fun hid hgood hsig hcfg hfill => ⟨fun htrain => ?_, fun htrain hdown => ?_⟩⟩
    all_goals subst hid
    · exact hnext ..
    · exact (hnext ..).trans (congrArg _ (bringUp_firmware (Bool.eq_false_iff.2 (mt hgood_iff.1 hbad))))
    · exact (hnext ..).trans (congrArg _ (bringUp_signatures (hgood_iff.2 hgood) hsig))
    · exact (hnext ..).trans (congrArg _ (bringUp_record (hgood_iff.2 hgood) hsig hrec))
    · subst htrain
      exact (hnext ..).trans (congrArg _ (bringUp_untrained (hgood_iff.2 hgood) hsig hcfg hfill))
    · subst htrain
      have hready := (hnext ..).trans (congrArg _ (bringUp_ready (hgood_iff.2 hgood) hsig hcfg hfill))
      obtain ⟨hph, hcode, hconfig, -⟩ :=
        settled_eq_iff.1 (trainSteps_settled (upto 32) ((s.holding flash fw).scrubbed flash pop))
      refine ⟨_, hready, hph, hcode, hconfig, fun pa hpa => memGet_ready _ hpa, fun i hi => ?_,
        fun p hp => ⟨fun hon => ?_, fun hoff => ?_⟩⟩
      · rw [populated_ready _ hi, portBytes, bit_eq_testBit]
      · exact trainSteps_training _ (.inr ⟨hdown p hp, (portEnabled_scrubbed ..).trans hon, List.mem_range.2 hp⟩)
      · exact trainSteps_of_disabled _ ((portEnabled_scrubbed ..).trans hoff)

end Sys2Proof.Machine
